-- ==== Sys2Proof/Word.lean ====
section
/-! DEFINITION. The word types and their plainest arithmetic: bytes, keys, digests, saturating counters. -/

namespace Sys2Proof

/-- One byte of memory, of a buffer or of a frame. -/
abbrev Byte := BitVec 8
/-- A 64-bit register or word. -/
abbrev Word := BitVec 64
/-- A point address, 04 R97. -/
abbrev Point := BitVec 32
/-- A SHA-512 digest, 12 R310. -/
abbrev Digest := BitVec 512
/-- An Ed25519 or X25519 public key, 12 R310, 14 R379. -/
abbrev Key := BitVec 256

/-- One of two: slot, lane copy, network channel or feed, A or B. -/
inductive Side where
  | a | b
  deriving DecidableEq, Repr

/-- The other of the two. -/
def Side.other : Side → Side
  | .a => .b
  | .b => .a

/-- The code of a side in records and registers: 0 for A, 1 for B. -/
def Side.num : Side → Nat
  | .a => 0
  | .b => 1

/-- Add to a counter that saturates at `2 ^ w - 1`. -/
def satAdd (w n k : Nat) : Nat := min (n + k) (2 ^ w - 1)

/-- Round up to a multiple of `m` (of 4 in the section layouts of 05 R151). -/
def roundUp (n m : Nat) : Nat := (n + m - 1) / m * m

end Sys2Proof
end

