-- ==== Sys2Proof/Syntax.lean ====
section
/-! DEFINITION. The commands of the block: one constructor of `Instr` per row of spec/opcode_table.json, and the
plain-data types of their operands (descriptors, buffers, images, frames, items, transactions, pair messages). -/

namespace Sys2Proof

/-! ## Operands of the host commands (13_host_rings.md) -/

/-- Where a command comes from: a submission queue, or a TLS service connection (13 R377). `self` is the module
itself (APP_START under 18 R483, a rejoin it starts itself), which receives no completion. -/
inductive Src where
  | queue (q : Fin 8)
  | conn (c : Fin 4)
  | self
  deriving DecidableEq, Repr

/-- A buffer's bytes by offset; an offset that is not listed holds 0. Its length is LENGTH of the descriptor. -/
structure Buf where
  cells : List (Nat × Byte) := []
  deriving DecidableEq, Repr

/-- How the module's accesses to host memory end (13 R350, 15 R425): done, refused by the host's completer, or refused by the host
aperture. -/
inductive Dma where
  | ok | refused | aperture
  deriving DecidableEq, Repr

/-- A command descriptor as fetched (13 R344), with its buffer (13 R347). `macErr`: what differs between the MAC that it carries and the
MAC that 13 R346 calls for (zero with SESSION 0 and for SESSION_PROVE, else `macFor`). `dma`: how the
accesses to its buffer end. -/
structure Cmd where
  src : Src
  flags : BitVec 16 := 0
  cmdId : BitVec 32 := 0
  session : BitVec 16 := 0
  rsvd10 : BitVec 16 := 0
  length : Nat := 0
  bufAddr : Word := 0
  inl : List Byte := []
  rsvd40 : Word := 0
  macErr : BitVec 128 := 0
  dma : Dma := .ok
  buf : Buf := {}
  deriving DecidableEq, Repr

/-- A descriptor in a submission queue: OPCODE (13 R361) and the rest of it. -/
structure Desc where
  opcode : Nat
  cmd : Cmd
  deriving DecidableEq, Repr

/-- An entry of a submission queue as host memory holds it (13 R344): its bytes 0 to 47, and bytes 48 to 63 as `macErr`, what differs
between the MAC there and the one called for. `dma` and `buf` are the buffer that it names, `ring` how the read of the entry ends. -/
structure SqEnt where
  head : List Byte
  macErr : BitVec 128 := 0
  dma : Dma := .ok
  buf : Buf := {}
  ring : Dma := .ok
  deriving DecidableEq, Repr

/-- A capsule of the service channel (13 R378). -/
structure Capsule where
  ctype : Nat
  rsvd : Nat
  dlen : Nat
  desc : Desc
  deriving DecidableEq, Repr

/-! ## Images (12_change_and_update.md) -/

/-- The image header of 12 R310; `rsvd12`, `rsvd40`, `rsvd380` and `rsvd400` are its reserved fields by their offsets, SIGNATURE stands
with the image. -/
structure ImgHdr where
  magic : Nat := 0x4B4C594E
  hdrVersion : Nat := 1
  kind : Nat
  iflags : BitVec 8 := 0
  hwType : Nat := 0x7240
  hwRevMask : BitVec 16 := 0xFFFF
  rsvd12 : BitVec 32 := 0
  unitSerial : Nat := 0
  rollback : Nat := 0
  gen : Nat := 1
  settingsFmt : Nat := 0
  bodyLength : Nat := 0
  rsvd40 : BitVec 64 := 0
  baseDigest : Digest := 0
  resultDigest : Digest := 0
  bodyDigest : Digest := 0
  signer : Key := 0
  ephKey : Key := 0
  nonce : BitVec 96 := 0
  rsvd380 : BitVec 32 := 0
  tag : BitVec 128 := 0
  rsvd400 : BitVec 896 := 0
  deriving DecidableEq, Repr

/-- The kinds of task, 02 R38. -/
inductive TaskKind where
  | cyclic | mark | event | error | background
  deriving DecidableEq, Repr

/-- The source of an event task, 02 R38; the edge is coded 1 rising, 2 falling, 3 both. -/
inductive EvSrc where
  | window (act : Nat)
  | local (ch : Nat) (edge : Nat)
  | host (hrel : Nat)
  deriving DecidableEq, Repr

/-- One entry of the task table, 02 R38. `cls` is the task's Windbreak class, 1 S or 2 U (15 R418). -/
structure TaskCfg where
  num : Nat
  kind : TaskKind
  prio : Nat := 0
  lane : Nat := 0
  split : Bool := false
  copy : Side := .a
  e : Nat := 0
  phase : Nat := 0
  mark : Nat := 0
  source : EvSrc := .host 0
  category : Nat := 0
  inputs : List (Point × Nat) := []
  stackAddr : Nat := 0x01000000
  stackSize : Nat := 4096
  cls : Nat := 2
  deriving DecidableEq, Repr

/-- How a step of a long operation ends: well, with the failure that its rule names (a slot that fails, a full staging), or with a refused
host access (13 R350). -/
inductive ChunkEnd where
  | good | fails | refused
  deriving DecidableEq, Repr

/-- A code error found at the target of a transaction, 03 R89. -/
inductive CodeErr where
  | none | single | double | parity
  deriving DecidableEq, Repr

/-- A run of bytes at an address (code, initialised data, mirror lines, base-copy chunks); `err`: what the code of 03 R89 shows at the end
of the mirror engine's transfer that brings it (03 R90); `logN`: beside bytes of the actuation log, the place of its next entry (09 R250). -/
structure Span where
  addr : Nat
  bytes : List Byte
  err : CodeErr := .none
  logN : Option Nat := none
  deriving DecidableEq, Repr

/-- An entry of section 0x05, 15 R416. -/
structure WbEntry where
  addr : Word
  perm : BitVec 16 := 0
  lanes : BitVec 8 := 0
  rsvd : Byte := 0
  tasks : BitVec 32 := 0
  deriving DecidableEq, Repr

/-- A mirror or retained region, 11 R289, 18 R478. -/
structure Region where
  base : Nat
  pages : Nat
  rsvd : Nat := 0
  deriving DecidableEq, Repr

/-- A safe or substitute value of a point, 02 R53, 04 R102: mode 0 ZERO, 1 HOLD, 2 VALUE, 3 reserved. -/
structure PtCfg where
  point : Point
  mode : BitVec 2 := 0
  value : BitVec 16 := 0
  deriving DecidableEq, Repr

/-- An entry of the forceable-variable table, 04 R98, R110: width 1 or 16 bits. -/
structure FVar where
  width : Nat
  addr : Nat
  deriving DecidableEq, Repr


/-- Configuration fields of an encoder source record, 09 R225. -/
structure SrcCfg where
  station : Nat
  enabled : Bool := true
  input : Nat := 0
  deriving DecidableEq, Repr

/-- A segment configuration record, 09 R227; LENGTH is held as its word (09 R222). -/
structure SegCfg where
  length : Word
  scale : Int
  source : Nat := 0
  velShift : Nat := 0
  enabled : Bool := true
  velMin : Nat := 1
  velZeroUs : Nat := 1
  winFirst : Nat := 0
  winCount : Nat := 0
  hoFirst : Nat := 0
  hoCount : Nat := 0
  /-- the reserved bits and bytes of the record, as one number -/
  rsvd : Nat := 0
  deriving DecidableEq, Repr

/-- Configuration fields of a window record, 09 R238. -/
structure WinCfg where
  start : Nat
  stop : Nat
  trig : Nat
  matchVal : BitVec 16 := 0
  matchMask : BitVec 16 := 0
  action : Nat := 0
  actNum : Nat := 0
  wflags : BitVec 16 := 0
  point : Point := 0
  leadUs : Nat := 0
  offDist : Nat := 0
  deriving DecidableEq, Repr

/-- A handover entry, 09 R241. -/
structure HoCfg where
  toSeg : Nat
  hflags : BitVec 16 := 0
  entryPos : Nat := 0
  matchVal : BitVec 16 := 0
  matchMask : BitVec 16 := 0
  actNum : Nat := 0
  /-- the reserved bytes of the entry, as one number -/
  rsvd : Nat := 0
  deriving DecidableEq, Repr

/-- A migration rule, 12 R319. -/
structure MigRule where
  op : Nat
  oldW : Nat := 0
  newW : Nat := 0
  rsvd : Nat := 0
  count : Nat := 0
  oldAddr : Nat := 0
  newAddr : Nat := 0
  pattern : Word := 0
  deriving DecidableEq, Repr

/-- An entry of the section table of a body, 12 R313, with its reserved fields. -/
structure Sec where
  stype : Nat
  offset : Nat := 0
  length : Nat := 0
  rsvd2 : BitVec 16 := 0
  rsvd12 : BitVec 32 := 0
  deriving DecidableEq, Repr

/-- The body of an application image, 12 R313: its section table with the reserved bytes behind the count, and the content of its
sections. `malformed`: the bytes of a section are not entries of its layout. -/
structure AppBody where
  secs : List Sec := (List.range 11).map fun i => { stype := i + 1 }
  rsvd : BitVec 32 := 0
  malformed : Bool := false
  tasks : List TaskCfg := []
  splitLanes : BitVec 8 := 0
  marks : List (Nat × Nat) := []
  code : List Span := []
  data : List Span := []
  wb : List WbEntry := []
  mirrorFull : Bool := false
  mirror : List Region := []
  safe : List PtCfg := []
  subst : List PtCfg := []
  forceable : List FVar := []
  cacheable : List (Nat × Nat) := []
  srcs : List (Nat × SrcCfg) := []
  segs : List (Nat × SegCfg) := []
  wins : List (Nat × WinCfg) := []
  hos : List (Nat × HoCfg) := []
  retained : List Region := []
  fwd : List MigRule := []
  back : List MigRule := []
  release : List Point := []
  deriving DecidableEq, Repr

/-- An image (12 R310): its header; the plaintext of its body, for KIND 2 and 3 by its content and for KIND 1, whose sections the manual
does not describe, by its bytes; `sig`: SIGNATURE; `sigOk`: it verifies
under SIGNER over header bytes 0 to 271 (R311). -/
structure AppImage where
  hdr : ImgHdr
  body : AppBody := {}
  raw : List Byte := []
  sig : BitVec 512 := 0
  sigOk : Bool := true
  deriving DecidableEq, Repr

/-! ## Frames of the network (05_gipin_schedule.md) -/

/-- A Gipin frame, 05 R143, R144: the fields of its header, with LENGTH apart from the bytes that arrive, and the reserved byte 15.
`crcErr`: what differs between the CRC that the frame carries and the CRC-32C of its header and payload. -/
structure Frame where
  ftype : Nat
  part : Nat := 0
  last : Nat := 0
  sched : Nat := 0
  addr : BitVec 16 := 0
  length : Nat := 0
  seq : Nat := 0
  flags : BitVec 16 := 0
  version : Nat := 1
  rsvd : Byte := 0
  payload : List Byte := []
  crcErr : BitVec 32 := 0
  deriving DecidableEq, Repr

/-- SYNC content, 05 R149, with the SCHED_ID it is passed with (06 R159). -/
structure SyncContent where
  cycle : Nat
  startTime : Nat
  tNs : Nat
  stillNs : Nat
  matrixExp : Nat := 0
  profile : Nat := 0
  leader : BitVec 8 := 0
  taiUtc : Int := 0
  nextSched : Nat := 0
  switchN : Nat := 0
  arbNs : Nat := 0
  sched : Nat := 0
  deriving DecidableEq, Repr

/-- CSTART content, 05 R150. -/
structure CStart where
  cycle : Nat
  startTime : Nat
  tNs : Nat
  rank : Nat
  round : Nat := 1
  slot : Side := .a
  deriving DecidableEq, Repr

/-! ## Pair messages (11_pair_operation.md) -/

/-- A heartbeat or fault message, 11 R284; `rsvd`: its bytes 34, 35 and 52 to 59; `crcErr`: what differs between the CRC that it carries
and the CRC-32C of bytes 0 to 59. -/
structure Heartbeat where
  cycle : Nat := 0
  kind : Nat := 1
  role : Nat := 0
  pflags : BitVec 16 := 0
  calmCause : Nat := 0
  leaveCause : Nat := 0
  fwGen : Nat := 0
  xferSeq : Nat := 0
  snapSeq : Nat := 0
  forceVer : Nat := 0
  lastKib : Nat := 0
  feeds : BitVec 8 := 0
  laneFaults : Nat := 0
  appId : BitVec 128 := 0
  rsvd : BitVec 80 := 0
  crcErr : BitVec 32 := 0
  deriving DecidableEq, Repr

/-- What the final close of a commanded switch carries beside its lines (11 R305): the held releases as (task, record) and the
unsent pool entries in the layout of 05 R153. -/
structure FinalClose where
  held : List (Nat × List Byte) := []
  pool : List (List Byte) := []
  deriving DecidableEq, Repr

/-! ## Lane items and transactions (03_compared_execution.md, 15_windbreak.md) -/

/-- A compared item, 03 R60; `kind` 0 read, 1 write, 2 AMO, 3 LR, 4 SC, 5 checkpoint, 6 WAIT. -/
structure Item where
  addr : BitVec 40
  kind : BitVec 3
  size : BitVec 3 := 0
  priv : BitVec 2 := 0
  fetch : Bool := false
  fill : Bool := false
  seq : BitVec 9 := 0
  be : Word := 0
  data : BitVec 512 := 0
  deriving DecidableEq, Repr

/-- A residue check of the tracking engine that fails, 09 R247: in the advance of a segment, with the check of the repeat passing or not,
or in an event of an object on a segment. -/
inductive ResFault where
  | advance (seg : Nat) (repeatOk : Bool)
  | event (seg obj : Nat)
  deriving DecidableEq, Repr

/-- What the tracking engine meets at an image commit: the event phase of the commit before has not finished (09 R246), residue checks
that fail (R247); and `copyErr`: what the code of 03 R89 shows at the end of the image copy engine's transfer (03 R90). -/
structure TrkWork where
  late : Bool := false
  faults : List ResFault := []
  copyErr : CodeErr := .none
  deriving DecidableEq, Repr

/-- What a fault of the comparison hardware does while an item is written and paired; each arises inside the module, so the command
brings it. `throttle`: the copy's throttle has failed (03 R64). `rails`: the comparator's verdict (03 R77). `encoder`: the two outputs
of the duplicated encoder differ (03 R68). `code`: the forwarded item's codes at its target (03 R89). -/
inductive CmpFault where
  | none
  | throttle
  | rails (v1 v0 : Bool)
  | encoder
  | code (e : CodeErr)
  deriving DecidableEq, Repr

/-- What AON, or the time unit in NET, finds wrong with a clock, 01 R19, 20 R503: a reference stopped or off frequency by `ppm`, a PLL
out of lock in an island (numbered as 19 R490 numbers them: EXA 0 to 7, EXB 8 to 15, 16 FAB, 17 MEMC, 18 TRK, 19 NET, 20 HIF, 21 and 22 the
management copies, 23 KEY; AON and BKP have oscillators of their own), or the AON oscillator off by `ppm`. -/
inductive ClockSrc where
  | reference (r : Fin 2) (stopped : Bool) (ppm : Nat)
  | pll (island : Fin 24)
  | aon (ppm : Nat)
  deriving DecidableEq, Repr

/-- A transaction on the interconnect, 15 R406, R408. `cls` 0 M, 1 S, 2 U, 3 MGT, 4 HOST, 5 DBG, 6 NET, 7 ENG;
`kind` 0 read, 1 write, 2 AMO, 3 LR, 4 SC, 5 fetch; `engine` 0 tracking, 1 mirror; `mask`: the byte enables of a write from `addr` on,
every byte enabled where it lists none. -/
structure Txn where
  cls : Fin 8
  kind : Fin 6
  addr : Nat
  size : Nat
  data : List Byte := []
  mask : List Bool := []
  lane : Fin 8 := 0
  copy : Side := .a
  engine : Nat := 0
  posted : Bool := false
  merged : Nat := 1
  err : CodeErr := .none
  deriving DecidableEq, Repr

/-! ## Other operands -/

/-- A debug token, 14 R403, with its reserved fields; SIG verifies over bytes 0 to 31 under a Vendor key, or under the current Owner key. -/
structure Token where
  version : Nat := 1
  tscope : BitVec 16 := 0
  serial : Nat := 0
  bootFirst : Nat := 0
  bootLast : Nat := 0
  rsvd4 : BitVec 32 := 0
  rsvd24 : BitVec 64 := 0
  vendorSigned : Bool := false
  ownerSigned : Bool := false
  deriving DecidableEq, Repr

/-- Who makes a register write: the head station through a BAR, a copy of a lane, or the management lane. -/
inductive RegBy where
  | host
  | lane (l : Fin 8) (c : Side)
  | mgt
  deriving DecidableEq, Repr

/-- A port whose PHY reports its link: a branch port of the star, or a station's upstream or downstream port. -/
inductive PhyPort where
  | branch (b : Fin 16)
  | station (code : Nat) (ch : Side) (upstream : Bool)
  deriving DecidableEq, Repr

/-- What a partner report is about, 12 R316, R317, R325, 13 R368. `fwConfirm`, `fwFallback` and `handover` carry the effect of FW_CONFIRM,
FW_FALLBACK and of a step of FW_HANDOVER to the other module (12 R326, R328, R329); the kinds that end in Denied say that a check of R311 or
R314 denies what was passed; `activate` and `discard` say what becomes of the copies staged by both modules (R316, R318, R331);
`firmwareHeld` says whether a slot is TRIAL, and the RESULT_DIGEST of the firmware that runs and of a target (R325 to R330). The carriers are
the model's (log entry 86). -/
inductive ReportKind where
  | appImage | delta | firmware | netConfig | fwConfirm | fwFallback | handover
  | appImageDenied | deltaDenied | firmwareDenied | activate | discard
  | firmwareHeld (trial : Bool) (runs target : Option Digest)
  deriving DecidableEq, Repr

/-- What pair-link authentication finds, 14 R393: both certificates and the signatures verify; the partner's life-cycle state, its Owner
key, its unit key of the certificate, and the ephemeral key that it sends. -/
structure PairHello where
  certsOk : Bool
  lifecycle : Nat
  owner : Option Key := none
  unit : Key := 0
  eph : Key := 0
  deriving DecidableEq, Repr

/-- What a start finds in the media that it reads: the seals of the retained regions and of the ring verify (18 R477); the newer copy
(`keyList`) and the older copy (`keyOlder`) of the key list have seals that verify (14 R383); `bad`: copies of settings blocks whose CRC
fails, by BLOCK_ID, FORMAT and SERIAL (12 R332). -/
structure StartFind where
  sealRegions : Bool := true
  sealRing : Bool := true
  keyList : Bool := true
  keyOlder : Bool := true
  bad : List (Nat × Nat × Nat) := []
  deriving DecidableEq, Repr

/-- An MDI observation of an upstream frame at a guardian: instants in ns from C(N), 06 R178. -/
structure Seen where
  sfd : Nat
  fin : Nat
  deriving DecidableEq, Repr

/-- What an Announce of a master says, 08 R203 (IEEE 1588-2019): the port identity of its sender, domain and transport, the fields that
the default best master clock algorithm compares, and the properties of its timescale. -/
structure Announce where
  source : BitVec 80
  domain : Nat := 0
  transport : Nat := 0
  prio1 : Nat := 128
  clockClass : Nat
  accuracy : Nat := 0xFE
  variance : Nat := 0xFFFF
  prio2 : Nat := 128
  grandmaster : BitVec 64 := 0
  steps : Nat := 0
  ptpTimescale : Bool := true
  utcOffset : Int := 0
  utcValid : Bool := false
  deriving DecidableEq, Repr

/-- A measured Sync, 08 R203, R205: its sender, domain and transport, its origin time stamp (with the one of Follow_Up), the sum of its
correction fields and the mean path delay of the request-response exchange, in ns. -/
structure PtpSync where
  source : BitVec 80
  domain : Nat := 0
  transport : Nat := 0
  sec : Nat
  ns : Nat
  corr : Int := 0
  delay : Int := 0
  deriving DecidableEq, Repr

/-! ## The commands -/

/-- One constructor per row of spec/opcode_table.json. -/
inductive Instr where
  -- host commands, 13 R361
  | nop (c : Cmd)
  | sessionOpen (c : Cmd)
  | sessionProve (c : Cmd) (sigOk : Bool) (shared : Key)
  | sessionClose (c : Cmd)
  | statusGet (c : Cmd)
  | rtcGet (c : Cmd)
  | setUtc (c : Cmd)
  | setCivil (c : Cmd)
  | setTrim (c : Cmd)
  | clearStamp (c : Cmd)
  | writeBackup (c : Cmd)
  | rtcShift (c : Cmd)
  | alarmSetArm (c : Cmd)
  | alarmSetDisarm (c : Cmd)
  | logRead (c : Cmd)
  | logClearRing (c : Cmd)
  | logClearArchive (c : Cmd)
  | gustTableReplace (c : Cmd)
  | gustTableDefault (c : Cmd)
  | logExport (c : Cmd)
  | forceSet (c : Cmd)
  | forceRelease (c : Cmd)
  | forceReleaseAll (c : Cmd)
  | forceList (c : Cmd)
  | appLoad (c : Cmd) (img : AppImage)
  | appChange (c : Cmd) (img : AppImage)
  | appRollback (c : Cmd)
  | appStart (c : Cmd)
  | appStop (c : Cmd)
  | taskRelease (c : Cmd)
  | fwStage (c : Cmd) (img : AppImage)
  | fwHandover (c : Cmd)
  | fwConfirm (c : Cmd)
  | fwFallback (c : Cmd)
  | netConfigure (c : Cmd)
  | netConfigureNext (c : Cmd)
  | netStart (c : Cmd)
  | stationReintegrate (c : Cmd)
  | pairSwitch (c : Cmd)
  | pairRejoin (c : Cmd)
  | attest (c : Cmd)
  | lifecycleAdvance (c : Cmd) (proofOk : Bool)
  | enrolIntegrator (c : Cmd) (proofOk : Bool)
  | revokeIntegrator (c : Cmd)
  | grantService (c : Cmd) (proofOk : Bool)
  | revokeService (c : Cmd)
  | replaceOwner (c : Cmd) (proofOk : Bool)
  | marginReport (c : Cmd)
  | marginReplan (c : Cmd)
  | scrub (c : Cmd)
  | flashVerify (c : Cmd)
  | laneInject (c : Cmd)
  | opSuspend (c : Cmd)
  | opResume (c : Cmd)
  | opCancel (c : Cmd)
  | trackSnapshot (c : Cmd)
  | suspendPointReached (sess : BitVec 16) (cmdId : BitVec 32)
  | imageStagingDone (sess : BitVec 16) (cmdId : BitVec 32)
  -- doorbells, queues, registers, 13 and 21
  | hqSqTail (q : Fin 8) (v : BitVec 32) (descs : List SqEnt) (ring : Dma)
  | hqCqHead (q : Fin 8) (v : BitVec 32)
  | hqEvHead (v : BitVec 32)
  | queueEnable
  | queueDisable
  | queueDrained (q : Fin 8)
  | eventRingEnable
  | eventRingDisable
  | hifResetHost
  | hifResetWarm
  | pairCtrl (v : Word)
  | ethApply (port : Fin 2)
  | registerWrite (by_ : RegBy) (addr : Nat) (size : Nat) (v : Word)
  | interruptHoldoffExpiry (vec : Fin 16)
  | busyEnter
  | busyEnd
  | sessionTimeout (sess : BitVec 16)
  | tlsConnect (port : Fin 2) (handshakeOk : Bool)
  | capsuleRx (conn : Fin 4) (cap : Capsule)
  | tlsClose (conn : Fin 4)
  | hifLinkReset
  -- tasks and lanes, 02 and 03
  | taskDone (lane : Fin 8) (copy : Side) (v : Word)
  | taskDispatch (lane : Fin 8) (copy : Side)
  | taskTrap (lane : Fin 8) (copy : Side) (cause : Nat) (addr : Nat)
  | deliveryRequest (lane : Fin 9) (cA cB : Nat)
  | laneTimerExpiry (lane : Fin 9)
  | softwareInterrupt (src dst : Fin 9)
  | wfi (lane : Fin 9) (copy : Side) (it : Item) (flt : CmpFault)
  | comparedItem (lane : Fin 9) (copy : Side) (it : Item) (flt : CmpFault)
  | skewTime (lane : Fin 9)
  | readReturn (lane : Fin 9) (errA errB : CodeErr)
  | interconnectTransaction (t : Txn)
  | l1ParityError (lane : Fin 9) (copy : Side) (line : Nat)
  | laneFaultFlashCommit
  | pairResetRequestTimeout
  | laneWake
  | laneParkTimeout
  -- the basic cycle, 02, 05, 11
  | cycleStart
  | netStall
  | stillPoint
  | inputClose (w : TrkWork)
  | cycleMark (m : Fin 16)
  | outputCutoff
  | downstreamWindow (win : Nat) (late : Nat)
  | heartbeatSend
  | mirrorTransferClose
  | mirrorAckDeadline
  | inFrameRx (ch : Side) (f : Frame)
  | upstreamFrameAtGuardian (branch : Fin 16) (seen : Seen) (f : Frame)
  | evtFrameRx (ch : Side) (f : Frame)
  | cfgResponseRx (ch : Side) (f : Frame)
  | delayReportRx (ch : Side) (t4 : Nat) (f : Frame)
  | cfgRequestTimeout (branch : Fin 16) (tag : Nat)
  | stationRetryTimer (code : Nat)
  | joiningTimeout (code : Nat)
  | countersPoll
  -- cold start and pair time, 06
  | timeTransfer (linkDelay : Nat) (took : Nat) (offset : Int) (content : Option SyncContent)
  | listenTimerExpiry
  | partnerCstartRx (cs : CStart)
  | cstartStartTime
  | contentionEnd
  | transferLossTimer
  -- the pair, 11
  | heartbeatRx (hb : Heartbeat)
  | faultMessageRx (hb : Heartbeat) (req : Bool)
  | heartbeatLost
  | pairLaneFail (k : Fin 2)
  | pairAuth (h : PairHello)
  | partnerContentRx (win : Nat) (late : Nat) (f : Frame)
  | stationStateRx (code : Nat) (st : Nat) (wasLost : Bool) (miss good losses refusal : Nat)
  | pairConfigRx (length : Nat) (buf : Buf) (next : Bool) (switchN : Nat)
  | pairImageRx (img : AppImage)
  | changeAnnounceRx (n : Nat)
  | mirrorBlockRx (xfer : Nat) (block : Nat) (lines : List Span) (forceVer : Option Nat) (digest : BitVec 128)
  | resendRequestRx (block : Nat)
  | closeBlockRx (xfer : Nat) (blocks : Nat) (commit : Option Nat) (slice : Nat) (audit : BitVec 128) (fin : Option FinalClose)
  | transferAckRx (xfer : Nat)
  | snapshotTransferRx (cycle : Nat) (lines : List Span) (check : Option (BitVec 128))
  | baseChunkRx (chunk : Span)
  | baseCopyDone
  | vaneLineChange (line : Side) (asserted : Bool)
  | takeover
  | sentinelCheck
  | noHolder
  | slotBAssertWait
  | switchFinalClose
  | changeQ
  | rollbackPeriodEnd
  | pairResetIn
  | watchdogRestart
  | watchdogExpiry
  -- actuation, tracking commands, local trip clear, Windbreak, 08, 09, 10, 15
  | netActPushT (lane : Fin 8) (time : Word)
  | actCancel (lane : Fin 8) (time : Word)
  | localActInstant (ch : Fin 16)
  | create (lane : Fin 8) (residue : Bool)
  | delete (lane : Fin 8)
  | setTag (lane : Fin 8)
  | move (lane : Fin 8) (residue : Bool)
  | unfreeze (lane : Fin 8)
  | lioTripClr (group : Side) (v : Word)
  | wbUpdateSet
  | wbUpdateClear
  | wbLoadSet
  | wbRgnWrite (r : Fin 64) (reg : Fin 3) (v : Word)
  | wbAbortedClear
  | wbUpdateTimeout
  -- local channels, 10
  | lioDebounceDone (ch : Fin 16) (high : Bool) (edgeTime : Nat)
  | lioBand (ch : Fin 16)
  | wireBreak (ch : Fin 16) (below : Bool)
  | lioOutputFault (ch : Fin 16) (terminalHigh : Bool)
  | lioFaultClear (ch : Fin 16)
  | overcurrentTrip (ch : Fin 16)
  | thermalTrip (ch : Fin 16)
  | tripRetryExpiry (ch : Fin 16)
  | supplySag (group : Side)
  | supplyLow (group : Side)
  | supplyRise (group : Side)
  | supplyDip (group : Side)
  | recoveringTimerExpiry (group : Side) (levels : BitVec 8)
  -- reference and calendar, 08, 17
  | ptpAnnounceRx (port : Fin 2) (m : Announce)
  | ptpSyncRx (port : Fin 2) (m : PtpSync)
  | ptpSyncTimeout
  | leapSecond (insert : Bool)
  | calendarDiscipline
  | alarmFire
  | calendarEnd
  | batteryTest (mv : Nat)
  | bkpSwitch
  -- recorder, power, domains, 16, 18, 20
  | gustRefill (code : Nat)
  | archiveCommit
  | holdBufferFlush
  | feedLoss (feed : Side) (mv : Nat)
  | feedOvervoltage (feed : Side) (mv : Nat)
  | feedPath (feed : Side) (cause : Nat)
  | feedReturned (feed : Side) (mv : Nat)
  | holdupVaneRelease
  | holdupCommit
  | holdupDomainsOff
  | holdupEnd
  | aonPowerLoss
  | powerGood (slotHigh : Bool) (bkpOk : Bool)
  | domainFault (d : Fin 12)
  | domainGoodTimeout (d : Fin 12)
  | clockFault (src : ClockSrc)
  | dramWipeDone
  | lullServiceReached (f : StartFind)
  | fullServiceReady (verdicts : List (List (Bool × Bool)))
  | fwStartTimeout
  | presentSettled
  | presentLost
  | swapPress (ms : Nat)
  | scrubPatrol (addr : Nat) (uncorrectable : Bool)
  | rngFail
  | rngRetest (ok : Bool)
  | marginMeasure (kind inst : Nat) (value : Int)
  | marginDaily (dates : List (Nat × Nat × Nat))
  -- debug port, 14
  | debugToken (t : Token)
  | debugHaltRequest (lane : Fin 8)
  | debugResetRequest
  | debugAccess (t : Txn)
  -- stations, 05 to 08
  | stationSyncRx (code : Nat) (ch : Side) (f : Frame) (spacingOk : Bool) (ofs : Int)
  | stationActRx (code : Nat) (ch : Side) (win : Nat) (f : Frame)
  | stationActInstant (code : Nat) (point : Point)
  | stationOutApply (code : Nat)
  | stationWatchdogExpiry (code : Nat)
  | stationRestart (code : Nat) (retains : Bool)
  | stationCfgRequest (code : Nat) (ch : Side) (f : Frame)
  | stationGuardFrame (code : Nat) (ch : Side) (seen : Seen) (f : Frame)
  -- the late rows
  | partnerReportRx (kind : ReportKind) (ok : Bool)
  | stationInSend (code : Nat) (ch : Side) (latchDev : Int)
  | stationArbSend (code : Nat) (ch : Side) (startAt : Nat)
  | stationOutRx (code : Nat) (ch : Side) (f : Frame)
  | stationCstartRx (code : Nat) (ch : Side) (f : Frame)
  | stationSyncMissed (code : Nat)
  | phyLinkChange (port : PhyPort) (up : Bool)
  | firmwareWarmRestart
  | laneInjectTimeout
  | longOperationProgress (sess : BitVec 16) (cmdId : BitVec 32) (done total : Nat) (ok : ChunkEnd)
  | domainSupplyGood (d : Fin 12)
  deriving DecidableEq, Repr

end Sys2Proof
end

