-- ==== Sys2Proof/Config.lean ====
section
/-! DEFINITION. What an implementation fixes and the manual leaves open: free values, none with a body. -/

namespace Sys2Proof.Config
open Sys2Proof

/-- Free values: the n-th 512-bit value that the module draws, for random bytes and keys (14 R386, R392, R395), the result of an AMO, and
reads of the boot ROM and of registers no rule describes. DESIGN CHOICE, log entry 3. -/
opaque freeWord : Nat → BitVec 512

/-- A free number of at most 64 bits: retirement counts at a latch (03 R82), the outcome of the guardian between G and G + 8 ns (06 R179),
values and durations within the bounds that a rule gives. DESIGN CHOICE, log entry 3. -/
opaque freeNat : Nat → BitVec 64

/-- Address of task t's input copy, which the firmware chooses (02 R44). DESIGN CHOICE, log entry 3. -/
opaque incopyAddr : Nat → BitVec 40

/-- What cycle marks (bits 15 to 0) and whether the timer interrupt (bit 16) a lane has enabled after the runtime writes a value to an
offset of the lane control slot beyond the registers of 02 R554, from what was enabled: the layout belongs to the runtime. DESIGN CHOICE,
log entry 3. -/
opaque laneCtl : Nat → Word → BitVec 17 → BitVec 17

/-- What such an offset reads as. DESIGN CHOICE, log entry 3. -/
opaque laneCtlRead : Nat → BitVec 17 → Word

/-- Number, from 40 on, of the protective region that the firmware lays over a page (15 R415). DESIGN CHOICE, log entry 3. -/
opaque protective : Nat → Nat

/-- Region registers (ADDR, PERM, SCOPE) of the firmware's bands 0 to 7 and 40 to 63, whose layout the manual does not
fix (15 R415). DESIGN CHOICE, log entry 3. -/
opaque firmwareRegion : Nat → Word × Word × Word

/-- The device root key, drawn in the device (14 R379). DESIGN CHOICE, log entry 3. -/
opaque drk : Key

/-- CERT_SIG, stored at provisioning (14 R386). DESIGN CHOICE, log entry 3. -/
opaque certSig : BitVec 512

/-- What a station's maker fixes in its IDENTITY (07 R187): MAKER, DEVICE_TYPE, HW_REV, FW_REV, SERIAL, CAPS, counts and ENC_N, as a
number whose bytes stand at their offsets. DESIGN CHOICE, log entry 3. -/
opaque stnIdentity : Nat → BitVec 320

/-- Output-stage latency of a station's point in ns before its bound of 20 µs is laid over it (08 R212, R213). DESIGN CHOICE, log entry 3. -/
opaque stageLatency : Point → Nat

/-- Lead of a station's point in plain mode in ns, before the bounds of 08 R212 are laid over it. DESIGN CHOICE, log entry 3. -/
opaque plainLead : Point → Nat

/-- Latency of a local channel's output stage in ns, for which the module compensates, before a bound is laid over it (08 R216, R217).
DESIGN CHOICE, log entry 3. -/
opaque localLatency : Nat → Nat

/-- What the module's converters measure at an instant: a local channel's terminal voltage (2 n) and current (2 n + 1), a group's L+ (32
and 33), in the units of 10 R275. DESIGN CHOICE, log entry 3. -/
opaque measured : Nat → Nat → BitVec 16

/-- Forwarding delay in ns of a station, attachment and direction, before the bounds of 05 R122 are laid over it. DESIGN CHOICE, log
entry 3. -/
opaque fwdDelay : Nat → Side → Bool → Nat

/-- The SHA-512 digest of a run of bytes, a standard function that the specification only names (12 R311, 04 R114): nothing is known of
it but that it depends on the bytes alone (log entry 3). -/
opaque sha512 : List Byte → BitVec 512

/-- The standard functions that the manual only names: nothing is known of them but that they depend on their inputs alone (log entry 3).
HKDF of RFC 5869 with SHA-512, of input keying material, salt and info, 64 bytes of output (14 R379). -/
opaque hkdf : List Byte → List Byte → List Byte → BitVec 512

/-- HMAC-SHA-512 of a run of bytes under a key (13 R346; log entry 3). -/
opaque hmac512 : BitVec 512 → List Byte → BitVec 512

/-- X25519 of a private and a public key, and of a private key and the base point (14 R386, R388, R392; log entry 3). -/
opaque x25519 : Key → Key → Key
opaque x25519Base : Key → Key

/-- The Ed25519 public key of a secret key, and the signature under a secret key over a run of bytes (14 R379; log entry 3). -/
opaque edPublic : Key → Key
opaque edSign : Key → List Byte → BitVec 512

/-- The pair key of an X25519 result, whose derivation the manual does not give (14 R393; log entry 3). -/
opaque pairKey : Key → Key

/-- The AES-256-GCM tag over an application body under a content key, a nonce and the additional data (12 R314; log entry 3). -/
opaque gcmTag : Key → BitVec 96 → List Byte → AppBody → BitVec 128

/-- The SHA-512 digest of the bytes of an application body (12 R310; log entry 3). -/
opaque bodyDigest : AppBody → Digest

/-- A settings FORMAT can hold the content of a block: FORMAT, BLOCK_ID, bytes of the content (12 R334; log entry 86). -/
opaque fitsFormat : Nat → Nat → List Byte → Bool

/-- Body of a copy of a settings block: FORMAT, BLOCK_ID, SERIAL (12 R332 gives no layout: log entry 68). -/
opaque settingsBody : Nat → Nat → Nat → List Byte

/-- The settings FORMAT of the firmware generation before a generation (12 R333; log entry 68). -/
opaque fmtBefore : Nat → Nat

end Sys2Proof.Config
end

