-- ==== Sys2Proof/Machine/State.lean ====
section
/-! DEFINITION. The state of one module (01_architecture.md and the chapters it names), as plain data, and its reset.
Every field carries its width, the rule of spec/ that names it and, as the default value, what it holds after a
power-on reset (18 R479); defaults the spec does not state are DESIGN CHOICE values of log entry 1. -/

namespace Sys2Proof.Machine
open Sys2Proof

/-- No fault of the specification stops the machine: each is an effect on the state (20 R501). No constructor. -/
inductive Fault where
  deriving DecidableEq, Repr

/-- Why a step stops without a next state. -/
inductive Refusal where
  /-- Raised by an arm of `exec` whose command has no meaning yet (safe: the model stops). -/
  | notModelled (mnemonic : String)
  deriving DecidableEq, Repr

/-! ## Time and the basic cycle -/

/-- Time in the module: the physical clock, network time over it and the leader's rate. -/
structure Clk where
  /-- ns, unbounded; the model's own physical clock (log entry 2) -/
  now : Nat := 0
  /-- 1 bit; 17 R449: network time is established -/
  netOn : Bool := false
  /-- ns, signed; 05 R127: network time minus the physical clock -/
  netOfs : Int := 0
  /-- ppb, signed; 08 R202, 06 R158: rate correction of network time against the physical clock -/
  rate : Int := 0
  /-- 0 to 10^9 - 1, in 10^-9 ns; 08 R202: what the rate has gathered short of the next ns -/
  rem : Int := 0
  /-- ns; 08 R202: instant up to which the leader's rate has been corrected -/
  rateAt : Nat := 0
  /-- 1 bit; 17 R451: network time was seeded from this module's own calendar -/
  seeded : Bool := false
  deriving DecidableEq, Repr

/-- The release of a task with its record: task number, kind code of the source (0 cyclic, 1 mark, 2 event, 3 error)
and the 16 bytes of 02 R47, R48. -/
structure Rel where
  task : Nat
  src : Nat
  bytes : List Byte
  deriving DecidableEq, Repr

/-- The basic cycle under way. -/
structure Cyc where
  /-- 1 bit; 06 R161: basic cycles run -/
  running : Bool := false
  /-- 1 bit; 13 R368: the network has started since bring-up -/
  started : Bool := false
  /-- 64 bits; 02 R33: cycle number N -/
  n : Nat := 0
  /-- 64 bits; 05 R128: network time C(0), the start of cycle 0 under the present T -/
  c0 : Nat := 0
  /-- 64 bits; 21 R522 NET_STILL: network time of the last still point -/
  still : Nat := 0
  /-- 1 bit; 18 R482 LULL_CYCLE -/
  lullCycle : Bool := false
  /-- N; 02 R52: first cycle of the releases after APP_START, none before an APP_START -/
  firstRel : Option Nat := none
  /-- 1 bit; 02 R52: APP_START has taken effect and the first releases are not yet delivered -/
  starting : Bool := false
  /-- ns; 02 R52: instant at which the last APP_START completed -/
  startAt : Nat := 0
  /-- 1 bit; 11 R305, 12 R318: releases are held -/
  holdRel : Bool := false
  /-- list; 11 R305, 12 R318: the releases held -/
  heldRel : List Rel := []
  /-- 1 bit; 11 R309: no further release is delivered (both feeds lost) -/
  noRel : Bool := false
  /-- list of (category, N or none, 16 bytes); 02 R48: error releases waiting for the next commit -/
  errDue : List (Nat × List Byte) := []
  /-- N; 02 R35: cycle of the last image commit -/
  commitN : Option Nat := none
  /-- N; 02 R36: cycle of the last output snapshot -/
  snapN : Option Nat := none
  /-- 1 bit; 11 R309: a downstream schedule is under way in this cycle (between snapshot and the end of traffic) -/
  downBusy : Bool := false
  deriving DecidableEq, Repr

/-! ## Lanes and tasks, 02 and 03 -/

/-- Task states, 02 R50. -/
inductive TState where
  | stopped | idle | ready | running | halted
  deriving DecidableEq, Repr

/-- A point as a task's input copy holds it, 02 R44: point, value, quality. -/
structure PtVal where
  point : Point
  value : BitVec 16
  qual : BitVec 2
  deriving DecidableEq, Repr

/-- One of the 32 tasks. -/
structure Task where
  /-- 5 states; 02 R50 -/
  st : TState := .stopped
  /-- 1 bit; 02 R555: held after an unhandled trap -/
  held : Bool := false
  /-- 1 bit; 02 R52: first-run flag -/
  firstRun : Bool := false
  /-- 1 bit; 11 R301: takeover flag -/
  takeover : Bool := false
  /-- at most 256 or 64 records of 16 bytes; 02 R47, R48: pending releases -/
  queue : List (List Byte) := []
  /-- 16 bytes; 02 R47: record of the release delivered last -/
  record : List Byte := []
  /-- typed copy of up to 32 KiB; 02 R44: the input copy (its place is the free value Config.incopyAddr: log entry 3) -/
  incopy : List PtVal := []
  /-- 64 bits; 13 R553 RELEASES -/
  releases : Nat := 0
  /-- 64 bits; 02 R43, R50: skip count -/
  skips : Nat := 0
  /-- 64 bits; 02 R43, R47, R48: lost releases -/
  lost : Nat := 0
  /-- ns; 02 R43: longest execution time since APP_START -/
  longest : Nat := 0
  /-- ns; 02 R43: instant of the release's delivery or last dispatch -/
  since : Nat := 0
  /-- ns; 02 R43: execution time of the present run -/
  ran : Nat := 0
  /-- 64 bits; 02 R56: releases discarded in Calm -/
  calmDisc : Nat := 0
  /-- 64 bits; 08 R208: commits rejected -/
  rejected : Nat := 0
  /-- 64 bits; 02 R555: times held -/
  traps : Nat := 0
  /-- NET_ACT_PUSH_A and the tracking command registers in the saved context of a preempted run (08 R207, 09 R234), none while no context is
  saved: OBJ, SEG, POS, TAG, ID, USER -/
  ctx : Option (Word × Word × Word × Word × Word × Word × Word) := none
  deriving DecidableEq, Repr

/-- An entry of a skew buffer, 03 R63: its number, its item and the instant it was written. -/
structure SkewEnt where
  num : Nat
  item : Item
  at_ : Nat
  deriving DecidableEq, Repr

/-- A forwarded item whose return is outstanding, 03 R69: its number, the leading copy (0 A, 1 B), the item, and what the interconnect
has answered: none while it has not, `some none` for an error response. -/
structure Ret where
  num : Nat
  lead : Nat
  item : Item
  reply : Option (Option (List Byte)) := none
  deriving DecidableEq, Repr

/-- One copy of a lane. -/
structure LaneCopy where
  /-- 64 bits; 03 R60: items emitted since the lane's start, the number of the last -/
  items : Nat := 0
  /-- 64 bits; 03 R59: checkpoints emitted since the lane's start -/
  checks : Nat := 0
  /-- 1 bit; 03 R59, R73: the copy stands in a WAIT item -/
  waiting : Bool := false
  /-- 1 bit; 01 R23: the copy is stopped by a supply or clock fault of its island -/
  dead : Bool := false
  /-- address; 03 R70: LR reservation; that of a compared lane, which the interconnect holds, stands in copy A -/
  reserve : Option Nat := none
  /-- 64 bytes; 03 R67: data of the last repair read -/
  repaired : List Byte := []
  /-- task number; 03 R75: split task at whose entry point the copy starts; none: the runtime's entry point -/
  entry : Option Nat := none
  /-- at most 256 entries; 03 R63: unmatched entries of the skew buffer, oldest first -/
  skew : List SkewEnt := []
  /-- 64 bits; 03 R71, R74: retirement count last reported (checkpoint or delivery round) -/
  ret : Nat := 0
  /-- 64 bits; 03 R67: repair reads -/
  repairs : Nat := 0
  /-- instants; 03 R67: repair reads of the last second -/
  repairAt : List Nat := []
  /-- 5 bits; 02 R554 LANE_CUR_TASK.TASK -/
  curTask : Nat := 0
  /-- 1 bit; 02 R554 LANE_CUR_TASK.IDLE -/
  idle : Bool := true
  /-- ns; 02 R43: time in tasks other than background in this matrix cycle -/
  busy : Nat := 0
  /-- 0.01 %; 02 R43 LOAD_LAST -/
  loadLast : Nat := 0
  /-- 0.01 %; 02 R43 LOAD_MAX -/
  loadMax : Nat := 0
  /-- 1 bit; 03 R92 kind 2: the copy's items are withheld by an injected fault -/
  muted : Bool := false
  /-- cause code of the RISC-V privileged architecture; 03 R70: exception that an error response raises and the copy has not yet taken -/
  exc : Option Nat := none
  deriving DecidableEq, Repr

/-- An event at a delivery unit, 03 R71, in the fixed order of that rule. -/
inductive DEv where
  | halt
  | release (r : Rel)
  | mark (m : Nat) (n : Nat)
  | timer
  | soft (src : Nat)
  deriving DecidableEq, Repr

/-- One of the eight task lanes, or lane 8, the management lane (03 R87). -/
structure Lane where
  /-- 1 bit; 02 R41: split mode -/
  split : Bool := false
  /-- 1 bit; 02 R55, 03 R83: both copies halted -/
  halted : Bool := true
  /-- 1 bit; 03 R71: debug halt taken -/
  debugHalt : Bool := false
  /-- 1 bit; 03 R66, 01 R22: in Lull retention -/
  parked : Bool := true
  /-- 03 R63: copy A -/
  a : LaneCopy := {}
  /-- 03 R63: copy B -/
  b : LaneCopy := {}
  /-- instant; 03 R66: since when both copies are halted together by a debug halt -/
  stillAt : Option Nat := none
  /-- retirement count W; 03 R66, R73: both copies stand in a matched WAIT -/
  wait : Option Nat := none
  /-- numbers of WAIT items; 03 R71, R73: their events have been delivered at their counts, and one copy has not yet reached them -/
  waitOver : List Nat := []
  /-- mode and entry points of the copies; 03 R75: mode of the image that the lane takes once both copies stand in a matched WAIT or are
  halted -/
  modeDue : Option (Bool × Option Nat × Option Nat) := none
  /-- items; 03 R69: forwarded items whose return is outstanding, in order -/
  awaiting : List Ret := []
  /-- at most 64 bytes; 03 R69, R70: last return delivered to both copies, none for an error response -/
  returned : Option (List Byte) := some []
  /-- list; 03 R71: events at the delivery unit -/
  pending : List DEv := []
  /-- list; 03 R71: events delivered at the last agreed count -/
  delivered : List DEv := []
  /-- 64 bits; 03 R71: last agreed count D -/
  d : Nat := 0
  /-- 16 bits; 02 R46: cycle marks enabled in the lane interrupt controller -/
  markEn : BitVec 16 := 0
  /-- 1 bit; 02 R554: timer interrupt enabled -/
  timerEn : Bool := false
  /-- 1 bit; 03 R62: L1 caches invalidated since the last dispatch -/
  l1Inval : Bool := true
  deriving DecidableEq, Repr

/-- A fault armed by LANE_INJECT, 03 R91. -/
structure Inject where
  lane : Nat
  copy : Side
  kind : Nat
  bit : Nat
  left : Nat
  /-- instant and number of the item at which it fired -/
  fired : Option (Nat × Nat) := none
  session : Nat
  cmdId : Nat
  deriving DecidableEq, Repr

/-- Lanes, tasks and the lane-fault collector. -/
structure Lanes where
  /-- 9 lanes; 02 R41, 03 R87 -/
  lane : Vector Lane 9 := Vector.replicate 9 {}
  /-- 32 tasks; 02 R38 -/
  task : Vector Task 32 := Vector.replicate 32 {}
  /-- armed fault; 03 R91 -/
  inject : Option Inject := none
  /-- 1 bit; 03 R83: a lane fault is latched and reacted to -/
  faulted : Bool := false
  /-- 2 copies in flash, written alternately; 03 R85: the lane-fault record, as the number of its write and the instants (network
  time or converted calendar) of the counted lane faults -/
  faultRec : Vector (Nat × List Nat) 2 := Vector.replicate 2 (0, [])
  /-- 1 bit; 03 R85: LANE_LOCKOUT -/
  lockout : Bool := false
  /-- ns; 03 R84: instant of the pair-commanded reset request -/
  resetReq : Option Nat := none
  /-- 1 bit; 03 R84: the module stays halted with VANE released -/
  stranded : Bool := false
  /-- network time; 02 R43: start of the matrix cycle whose load is measured -/
  loadFrom : Nat := 0
  deriving DecidableEq, Repr

/-- The Calm latch of AON, 02 R54 to R58. -/
structure Calm where
  /-- 1 bit; 02 R55 -/
  on : Bool := false
  /-- 8 bits; 02 R54 cause code -/
  cause : Nat := 0
  /-- 1 bit; 02 R55 step 6: in Calm as a follower -/
  follower : Bool := false
  /-- 1 bit; 02 R58: outputs stay at the safe-value image and frames keep CALM until the first snapshot after the first releases -/
  image : Bool := false
  /-- 1 bit; 18 R480: the latch as committed to flash -/
  flash : Bool := false
  deriving DecidableEq, Repr

/-! ## Forces and the process image, 04 -/

/-- An entry of the force table, 04 R111. -/
structure Force where
  point : Point
  /-- the value accepted last -/
  value : BitVec 16
  /-- a change of the point is accepted and not yet in effect -/
  pending : Bool := true
  noWriter : Bool := false
  field : BitVec 16 := 0
  fieldQ : BitVec 2 := 0
  party : Nat := 0
  suppressed : Nat := 0
  setTime : Nat := 0
  /-- the cycle k of R107; none while k is not fixed -/
  effectN : Option Nat := none
  /-- the value in effect; none before the first one -/
  now : Option (BitVec 16) := none
  deriving DecidableEq, Repr

/-- An accepted FORCE_SET entry or release that waits for its effect or for its record, 04 R107, R113. -/
structure FChange where
  point : Point
  /-- a release -/
  rel : Bool
  /-- the value set, or the value that the release ends -/
  value : BitVec 16
  party : Nat
  /-- force table version that brings the change; 11 R284 FORCE_VER -/
  ver : Nat
  /-- the cycle k of R107; none while k is not fixed -/
  k : Option Nat := none
  /-- the change has taken effect -/
  done : Bool := false
  /-- its record has been written -/
  told : Bool := false
  deriving DecidableEq, Repr

/-- An entry of the station map, 04 R99. -/
structure StnMap where
  diBase : Nat := 0
  doBase : Nat := 0
  aiBase : Nat := 0
  aoBase : Nat := 0
  diN : Nat := 0
  doN : Nat := 0
  aiN : Nat := 0
  aoN : Nat := 0
  deriving DecidableEq, Repr

/-- Forces, the last field values and the bookkeeping of the image. -/
structure Img where
  /-- at most 4,096 entries by ascending POINT; 04 R111 -/
  force : List Force := []
  /-- list, oldest first; 04 R107: changes of the table that wait for their effect or record -/
  changes : List FChange := []
  /-- 2 copies in flash, written alternately; 18 R480: force store, as the number of its write, the entries and the changes -/
  store : Vector (Nat × List Force × List FChange) 2 := Vector.replicate 2 (0, [], [])
  /-- list of (point, value); 04 R104: field value of each input point in the last commit before substitution -/
  lastField : List (Point × BitVec 16) := []
  /-- 32 bits; 04 R96 SUBSTITUTED of the last input block -/
  substIn : Nat := 0
  /-- list of (point, TIME); 04 R115: cancels that wait for a place in the ACT windows; no TIME before a snapshot has carried the forced
  value -/
  cancels : List (Point × Option Nat) := []
  /-- list of (station code or 2,040, count); 04 R115 ACT_FORCED counts -/
  actForced : List (Nat × Nat) := []
  deriving DecidableEq, Repr

/-! ## Network configuration, 05 R135, R366 -/

/-- A window entry, 05 R135, with its reserved bytes. -/
structure WinEnt where
  start : Nat
  len : Nat
  ty : Nat
  path : Nat
  owner : Nat
  pexp : Nat := 0
  phase : Nat := 0
  part : Nat := 0
  rsvd : Nat := 0
  deriving DecidableEq, Repr

/-- A station parameter entry, 07 R186. -/
structure StnPar where
  maker : Nat
  devType : Nat
  minFw : Nat
  serial : Nat
  lossCount : Nat
  returnGood : Nat
  holdCycles : Nat
  encN : Nat
  deriving DecidableEq, Repr

/-- An entry of the local channel block, 10 R257. -/
structure LioCfg where
  mode : Nat := 0
  lflags : Nat := 0
  debounceUs : Nat := 0
  retryMs : Nat := 0
  deriving DecidableEq, Repr

/-- The time source block, 08 R204. -/
structure TimeSrc where
  ports : Nat := 0
  domain : Nat := 0
  transport : Nat := 0
  maxClass : Nat := 6
  asym : Int := 0
  deriving DecidableEq, Repr

/-- A network configuration, 13 R366. Station map and parameters are held for the codes that are not all zero. -/
structure NetCfg where
  sched : Nat
  t : Nat
  s : Nat
  i : Nat
  o : Nat
  a : Nat
  matrixExp : Nat := 0
  profile : Nat := 0
  rank : Nat := 0
  src : TimeSrc := {}
  plain : List Nat := []
  lio : List LioCfg := []
  map : List (Nat × StnMap) := []
  par : List (Nat × StnPar) := []
  wins : List WinEnt := []
  deriving DecidableEq, Repr

/-! ## Network, 05 and 06 -/

/-- Start-up states, 06 R167; `none_` is 21 R522 NOT_STARTED. -/
inductive Start where
  | none_ | listen | contend | lead | follow | failed | silent
  deriving DecidableEq, Repr

/-- Guardian states of a branch, 06 R182. -/
inductive Guard where
  | closed | open_ | becalmed
  deriving DecidableEq, Repr

/-- Counters of one branch and channel, 05 R156, 06 R180, R182; 32 bits, saturating. -/
structure BrCount where
  frames : Nat := 0
  crc : Nat := 0
  disc : Vector Nat 7 := Vector.replicate 7 0
  downDrop : Nat := 0
  pairLate : Nat := 0
  arbDrop : Nat := 0
  cutoff : Nat := 0
  becalmed : Nat := 0
  deriving DecidableEq, Repr

/-- One branch of the module's star. -/
structure Branch where
  /-- 3 states; 06 R182 -/
  g : Guard := .closed
  /-- count; 06 R180: cut-offs in the current matrix cycle -/
  cuts : Nat := 0
  /-- 1 bit; 06 R182: a violation in the current matrix cycle -/
  dirtyM : Bool := false
  /-- count; 06 R182: whole clean matrix cycles since the BECALMED entry's own -/
  clean : Nat := 0
  /-- 1 bit; 06 R182: still in the matrix cycle M of the BECALMED entry -/
  inM : Bool := false
  /-- 1 bit; 22 R543, 05 R120: PHY link up -/
  link : Bool := false
  /-- ns from C(N); 05 R138: end of the last downstream frame of the cycle -/
  downEnd : Nat := 0
  /-- ns from C(N); 05 R141: end of the last CFG frame placed in the cycle's downstream arbitrating window -/
  cfgEnd : Nat := 0
  /-- channel A counters -/
  ca : BrCount := {}
  /-- channel B counters -/
  cb : BrCount := {}
  deriving DecidableEq, Repr

/-- What an outstanding CFG request is for, 05 R556. -/
inductive CfgFor where
  | identity | inclWrite | inclRead | delays | counters | change | safe
  deriving DecidableEq, Repr

/-- A CFG request, 05 R155; `sentN` is none while it waits for a place among the 16. -/
structure CfgReq where
  code : Nat
  tag : Nat
  obj : Nat
  ofs : Nat
  write : Bool
  count : Nat
  data : List Byte := []
  why : CfgFor
  sentN : Option Nat := none
  deriving DecidableEq, Repr

/-- A frame that the star sends: branch (none: every branch), the offset from C(N) at which it begins (05 R138, R141), frame. -/
structure TxFrame where
  branch : Option Nat
  at_ : Nat := 0
  f : Frame
  deriving DecidableEq, Repr

/-- The Gipin controller, star, guardian and time unit. -/
structure Net where
  /-- 13 R366: configuration in force (running, or current for the next start) -/
  cfg : Option NetCfg := none
  /-- 13 R368: held next configuration -/
  next : Option NetCfg := none
  /-- 12 R332: settings block 0x0001 -/
  stored : Option NetCfg := none
  /-- 13 R368: rank in force at the next start trigger -/
  rank : Nat := 0
  /-- 7 states; 06 R167 -/
  start : Start := .none_
  /-- 1 to 3; 06 R161 ROUND -/
  round : Nat := 1
  /-- ns; 06 R160: end of the listen time -/
  listenEnd : Option Nat := none
  /-- 1 bit; 06 R160: the star sends -/
  sending : Bool := false
  /-- 1 bit; 06 R168: slot of the time leader, 0 A, 1 B -/
  leader : Side := .a
  /-- 06 R167, R169: leadership changes at the next cycle start to this module (true) or its partner (false) -/
  leadDue : Option Bool := none
  /-- 1 bit; 06 R167: the star is silenced at the end of the cycle -/
  silenceDue : Bool := false
  /-- 06 R161: own proposal -/
  proposal : Option CStart := none
  /-- 06 R164: cycle-0 or joined start time that this star waits for as a follower -/
  joinAt : Option Nat := none
  /-- ns; 06 R164: T of the network that this star joins, as its CSTART or SYNC content gives it -/
  joinT : Nat := 0
  /-- ns; 06 R164: instant of the first valid transfer to which the follower has locked -/
  lockAt : Option Nat := none
  /-- 06 R163: partner's rank heard in its CSTART -/
  partnerRank : Option Nat := none
  /-- 06 R159: last SYNC content received from the partner -/
  partnerSync : Option SyncContent := none
  /-- count; 06 R167: consecutive consistent SYNC contents -/
  partnerRun : Nat := 0
  /-- at most 64 link delays; 06 R158: valid transfers held -/
  xfer : List Nat := []
  /-- at most 8 link delays; 06 R158: completed exchanges before the first valid ones -/
  xferTry : List Nat := []
  /-- ns; 06 R167: instant of the last valid transfer -/
  xferAt : Option Nat := none
  /-- ns; 06 R167: instant at which the module entered FOLLOW -/
  followAt : Nat := 0
  /-- list of window indexes; 05 R125: windows of this cycle whose PAIR_LATE has been counted -/
  lateWin : List Nat := []
  /-- N; 05 R157: cycle of the last reading of the COUNTERS objects -/
  pollN : Option Nat := none
  /-- (SCHED_ID, SWITCH_N); 05 R142: announced schedule -/
  switch_ : Option (Nat × Nat) := none
  /-- 05 R142: configuration that becomes current at SWITCH_N; not announced yet while `switch_` is none -/
  switchCfg : Option NetCfg := none
  /-- N; 06 R159: cycle whose SYNC content has been passed to the follower without an announcement -/
  plainN : Option Nat := none
  /-- 16 branches; 06 R182 -/
  br : Vector Branch 16 := Vector.replicate 16 {}
  /-- list of (code, channel, N); 06 R185: positions behind a BECALMED station port -/
  stnBecalm : List (Nat × Side × Nat) := []
  /-- list; 05 R155: CFG requests, outstanding or waiting -/
  reqs : List CfgReq := []
  /-- list of (branch, tag, N); 05 R556: tags not to be reused before N -/
  deadTags : List (Nat × Nat × Nat) := []
  /-- list; 05 R138: frames that the star sent in this cycle -/
  tx : List TxFrame := []
  /-- list; 05 R125: downstream frame contents ready for the windows of this cycle: (window index, frame) -/
  ready : List (Nat × Frame) := []
  /-- list; 05 R125: frame contents that the holder passed over the link for this cycle -/
  fromPair : List (Nat × Frame) := []
  /-- 8 bits; 05 R155: last TAG chosen -/
  tag : Nat := 0
  deriving DecidableEq, Repr

/-! ## Stations as the module knows them, 07 -/

/-- Station states in the module, 07 R192; order of the codes of 13 R553. -/
inductive SSt where
  | absent | checking | joining | refused | included | returned | lost
  deriving DecidableEq, Repr

/-- Delay measurement of one channel of a station, 06 R174. -/
structure Delay where
  /-- 32 bits; 06 R173 PD_DOWN held by the module -/
  down : Option Nat := none
  /-- 32 bits; 06 R173 PD_UP held by the module -/
  up : Option Nat := none
  /-- at most 8 (SYNC_N, RT); 06 R174 -/
  rts : List (Nat × Int) := []
  /-- 16 bits; 06 R173 FWD_DOWN last reported -/
  fwdDown : Nat := 0xFFFF
  /-- 16 bits; 06 R173 FWD_UP last reported -/
  fwdUp : Nat := 0xFFFF
  /-- 1 bit; 06 R175: the next measurement is written whatever the difference -/
  force_ : Bool := true
  deriving DecidableEq, Repr

/-- A part of an IN or OUT stream: number, last part, bytes, FLAGS. -/
structure Part where
  num : Nat
  last : Nat
  bytes : List Byte
  flags : BitVec 16
  deriving DecidableEq, Repr

/-- One configured station in the module. -/
structure StnM where
  code : Nat
  st : SSt := .absent
  wasLost : Bool := false
  miss : Nat := 0
  good : Nat := 0
  losses : Nat := 0
  refusal : Nat := 0
  /-- N of the entry into the state; 07 R192 -/
  since : Nat := 0
  /-- check 11 has passed; 07 R192 -/
  checked : Bool := false
  /-- serving cycles since check 11; 07 R192 -/
  waited : Nat := 0
  /-- N of the last complete IN frame; 02 R48 -/
  lastGood : Nat := 0
  /-- the station reports SAFE; 07 R199 -/
  safe : Bool := false
  /-- IN frames seen since STATION_SAFE; the SAFE record has been written -/
  safeRec : Bool := false
  da : Delay := {}
  db : Delay := {}
  /-- parts of the IN stream of this cycle; 05 R126 -/
  parts : List Part := []
  /-- last complete IN stream and its UNC flag; 07 R194 -/
  stream : List Byte := []
  unc : Bool := false
  /-- the station carries substitute values in commits; 04 R103 -/
  subst : Bool := true
  /-- outputs are withheld; 07 R196 -/
  withheld : Bool := true
  /-- TIMEs of sent entries, not passed; 08 R209 -/
  sent : List Nat := []
  /-- TIMEs of the entries sent since the last complete IN frame; 11 R301 -/
  sentNew : List Nat := []
  /-- after a takeover the count follows ACT_PENDING; 11 R301: none before the first IN frame, then its value -/
  takeCount : Option Nat := none
  /-- the rule of R301 for the count applies -/
  takeMode : Bool := false
  /-- entries discarded under 07 R196 -/
  actLost : Nat := 0
  /-- identity as read; 07 R187 -/
  ident : List Byte := []
  /-- writes and reads of R190 still to come: object, offset, bytes -/
  todo : List (Nat × Nat × List Byte) := []
  /-- last ARB_DROP readings; 05 R157 -/
  arbA : Nat := 0
  arbB : Nat := 0
  /-- values of the last snapshot sent to the station, for HOLD; 07 R196 -/
  lastOut : List (Point × BitVec 16) := []
  /-- points with a standing OUTPUT_FAULT report; 05 R154, 04 R100 -/
  outFault : List Point := []
  /-- a change of the safe values waits to be written; 02 R53 -/
  safeDue : Bool := false
  deriving DecidableEq, Repr

/-! ## Stations themselves, 05 to 08 (00 R4: compatible stations) -/

/-- A timed entry at a station, in the local queue, in the pool or in the log: 05 R153. -/
structure ActEnt where
  point : Point
  value : BitVec 16 := 0
  cancel : Bool := false
  time : Nat
  /-- SEQ of the ACT frame that carries it, or would for a local point (08 R218) -/
  seq : Nat := 0
  /-- start instant at the station that holds it; 08 R212 -/
  start : Nat := 0
  deriving DecidableEq, Repr

/-- HELD, ACT_N and CHG_N of a point, 08 R218, with the OUT value applied last and the terminal value. -/
structure PtOut where
  point : Point
  held : Bool := false
  actN : Nat := 0
  chgN : Nat := 0
  out : BitVec 16 := 0
  term : BitVec 16 := 0
  /-- TIME of the entry applied last; 08 R212 -/
  actAt : Nat := 0
  deriving DecidableEq, Repr

/-- One channel attachment of a station, 06 R171 to R185. -/
structure StnCh where
  /-- last valid SYNC; 06 R171 -/
  sync : Option SyncContent := none
  /-- cycles without a valid SYNC in a row; 06 R177 -/
  missed : Nat := 0
  /-- a valid SYNC arrived in this cycle; 05 R151 -/
  got : Bool := false
  /-- one arrived that counts for the rows that keep the schedule, TIME_OK and the reference; 06 R177 -/
  good : Bool := false
  /-- station time of the SFD of the last valid SYNC; 06 R173 -/
  syncRx : Nat := 0
  /-- forwarding delays in ns of the last 1,024 frames downstream and upstream, newest first; 05 R122, 06 R173 -/
  downD : List Nat := []
  upD : List Nat := []
  /-- ns from C(N): end of the last frame that arrived at the downstream port in this cycle; 05 R140 -/
  heard : Option Nat := none
  /-- a frame of its own went out in this cycle's arbitrating window; 05 R140 -/
  arbSent : Bool := false
  /-- ns from C(N): end of the last frame that leaves upstream in the arbitrating window, own or held; 05 R140 -/
  arbEnd : Nat := 0
  /-- N of the last DELAY report; 06 R172 -/
  repN : Option Nat := none
  /-- path delays held; 06 R173 -/
  pdDown : Option Nat := none
  pdUp : Option Nat := none
  /-- 06 R176 -/
  integrated : Bool := false
  /-- valid SYNCs within 100 ns in a row; 06 R176 -/
  near : Nat := 0
  /-- last offset within 15 ns; 06 R177 -/
  fine : Bool := false
  /-- consistent SYNCs off the station's time in a row; 06 R177 -/
  off : Nat := 0
  /-- guardian of the downstream port; 06 R185 -/
  g : Guard := .open_
  cuts : Nat := 0
  dirtyM : Bool := false
  clean : Nat := 0
  inM : Bool := false
  /-- COUNTERS fields; 05 R157 -/
  upFwd : Nat := 0
  downFwd : Nat := 0
  crc : Nat := 0
  discard : Nat := 0
  arbDrop : Nat := 0
  cutoff : Nat := 0
  becalmed : Nat := 0
  /-- PHY links upstream and downstream; 05 R120 -/
  linkUp : Bool := false
  linkDown : Bool := false
  deriving DecidableEq, Repr

/-- A frame that a station sends upstream: attachment, instant of its SFD in ns from C(N) on the station's clock (05 R137, R140), frame. -/
structure UpFrame where
  ch : Side
  at_ : Nat
  f : Frame
  deriving DecidableEq, Repr

/-- A frame that a station has forwarded downstream: attachment, forwarding delay in ns behind its arrival, frame (05 R122, R147). -/
structure DownFrame where
  ch : Side
  delay : Nat
  f : Frame
  deriving DecidableEq, Repr

/-- Time states of a station, 06 R177. -/
inductive NSt where
  | listen | coarse | synced
  deriving DecidableEq, Repr

/-- A station of the network: its own state. -/
structure Stn where
  code : Nat
  /-- 3 states; 06 R177 -/
  nst : NSt := .listen
  ref : Side := .a
  timeOk : Bool := false
  /-- no exclusive frame until a valid SYNC; 06 R177 -/
  quiet : Bool := false
  a : StnCh := {}
  b : StnCh := {}
  /-- N as the station holds it -/
  n : Nat := 0
  /-- content of the SYNC from which the station keeps its schedule; 06 R177 -/
  cur : Option SyncContent := none
  /-- objects held: (object, bytes); 05 R155, 07 R189 -/
  objs : List (Nat × List Byte) := []
  /-- pending schedule: WINDOWS bytes; 05 R142 -/
  pendWin : List Byte := []
  /-- announced (SCHED_ID, SWITCH_N) and the schedule in force; 05 R142 -/
  sched : Nat := 0
  announced : Option (Nat × Nat) := none
  /-- at most 256 entries; 08 R212 -/
  queue : List ActEnt := []
  overflow : Bool := false
  pts : List PtOut := []
  /-- OUT parts received for the next still point; 05 R152 -/
  parts : List Part := []
  /-- ACT frames taken in this cycle: (window, part); 08 R211 -/
  acts : List (Nat × Nat) := []
  /-- the station has taken a frame with CALM since the last without; 02 R55 -/
  calm : Bool := false
  /-- outputs at safe values; 07 R198 -/
  safe : Bool := true
  /-- basic cycles since the still point of the last complete OUT; 07 R197 -/
  wdt : Nat := 0
  /-- the network watchdog runs; 07 R197 -/
  wdOn : Bool := false
  /-- consecutive cycles without a valid SYNC on any channel; 06 R177 -/
  dark : Nat := 0
  /-- consecutive cycles without a valid SYNC on any integrated channel; 06 R177 -/
  lost : Nat := 0
  /-- the missing SYNCs of cycle N have been judged; 06 R177 -/
  missDone : Bool := false
  /-- cycle in which `parts` arrived; 05 R152 -/
  partsN : Nat := 0
  /-- cycle and pending entries at its still point; 05 R151 ACT_PENDING -/
  still : Option (Nat × Nat) := none
  /-- cycle, stream and FLAGS of the IN frames of the cycle; 05 R148, R151 -/
  inS : Option (Nat × List Byte × Nat) := none
  /-- own EVT entries waiting, with the attachment where the rule names one; 05 R154, 06 R185 -/
  evts : List (Option Side × List Byte) := []
  /-- CFG responses waiting: attachment, cycle of the request, payload; 05 R155 -/
  resps : List (Side × Nat × List Byte) := []
  /-- frames sent upstream in this cycle -/
  up : List UpFrame := []
  /-- frames forwarded downstream in this cycle; 05 R122 -/
  down : List DownFrame := []
  deriving DecidableEq, Repr

/-! ## Actuation and reference, 08 -/

/-- Reference states, 08 R206; order of 13 R553. -/
inductive RefSt where
  | free | acquire | locked | holdover
  deriving DecidableEq, Repr

/-- Actuation pool, push windows, local queue, actuation log and the IEEE 1588 reference. -/
structure Act where
  /-- at most 8,192 entries in commit order; 08 R209 -/
  pool : List ActEnt := []
  /-- 8 × 64 bits; 08 R207 NET_ACT_PUSH_A -/
  pushA : Vector Word 8 := Vector.replicate 8 0
  /-- 8 × 8 bits; 08 R207 NET_ACT_RESULT -/
  result : Vector Nat 8 := Vector.replicate 8 0
  /-- at most 256 entries; 08 R217 local queue -/
  localQ : List ActEnt := []
  /-- 64 bits; 13 R553 ACT_REJECTED of TRK (instance 32) -/
  trkRejected : Nat := 0
  /-- at most 262,144 places in the order of the ring; 09 R250 actuation log -/
  log : List ActEnt := []
  /-- 4 states; 08 R206 -/
  ref : RefSt := .free
  /-- ns, signed; 08 R205 last θ -/
  theta : Int := 0
  /-- count; 08 R206: consecutive Syncs within 1 µs -/
  near : Nat := 0
  /-- count; 08 R206: consecutive Syncs beyond 1 µs -/
  far : Nat := 0
  /-- ns; 08 R206: instant of the last valid Sync -/
  syncAt : Nat := 0
  /-- list of (port, Announce); 08 R203: masters heard on the enabled ports -/
  masters : List (Nat × Announce) := []
  /-- (port, Announce); 08 R203: best master selected -/
  master : Option (Nat × Announce) := none
  /-- currentUtcOffset with its valid flag; 08 R205 -/
  utc : Option Int := none
  deriving DecidableEq, Repr

/-! ## Tracking, 09 -/

/-- Source states, 09 R225. -/
inductive SrcSt where
  | idle | fresh | predict | missing | fault | lost
  deriving DecidableEq, Repr

/-- An encoder source record, 09 R225. -/
structure Src_ where
  cfg : SrcCfg
  st : SrcSt := .idle
  count : BitVec 32 := 0
  edge : Nat := 0
  recN : Nat := 0
  miss : Nat := 0
  eflags : BitVec 16 := 0
  /-- a record has been received since APP_LOAD; 09 R226 -/
  seen : Bool := false
  deriving DecidableEq, Repr

/-- A segment state record, 09 R228; the words carry their residues (09 R222). -/
structure SegSt where
  odo : Word := 0
  prevOdo : Word := 0
  odoC : Word := 0
  vel : Word := 0
  lastCount : BitVec 32 := 0
  frac : Nat := 0
  predicted : Bool := false
  sourceLost : Bool := false
  frozen : Bool := false
  reverse : Bool := false
  standstill : Bool := false
  rebase : Bool := true
  stillTime : Nat := 0
  sampleTime : Nat := 0
  sampleCount : BitVec 32 := 0
  objects : Nat := 0
  head : Option Nat := none
  tail : Option Nat := none
  advN : Nat := 0
  faultCode : Nat := 0
  faults : Nat := 0
  fired : Nat := 0
  missed : Nat := 0
  entered : Nat := 0
  left : Nat := 0
  /-- handovers stopped by a LIST fault; 09 R247 -/
  hoStop : Bool := false
  deriving DecidableEq, Repr

/-- Window crossings of a segment without action since the last reset, by reason (09 R239, 13 R553). -/
structure Cross where
  frozen : Nat := 0
  source : Nat := 0
  calm : Nat := 0
  deriving DecidableEq, Repr

/-- A segment: configuration and state. -/
structure Seg where
  num : Nat
  cfg : SegCfg
  st : SegSt := {}
  deriving DecidableEq, Repr

/-- An object record, 09 R231. -/
structure Obj where
  num : Nat
  offset : Word
  ahead : Option Nat := none
  behind : Option Nat := none
  seg : Nat
  valid : Bool := true
  missed : Bool := false
  heldEnd : Bool := false
  left : Bool := false
  refused : Bool := false
  tag : BitVec 32 := 0
  id : Word := 0
  createTime : Nat := 0
  segTime : Nat := 0
  length : Nat := 0
  user : BitVec 32 := 0
  wnext : Nat := 0
  hops : Nat := 0
  /-- commits until the record is freed after leaving tracking; 09 R242 -/
  freeIn : Option Nat := none
  deriving DecidableEq, Repr

/-- A window record with FIRED, 09 R238. -/
structure Win where
  num : Nat
  cfg : WinCfg
  fired : Nat := 0
  deriving DecidableEq, Repr

/-- The registers of one tracking command window, 09 R234. -/
structure CmdWin where
  obj : Word := 0
  seg : Word := 0
  pos : Word := 0
  tag : Word := 0
  id : Word := 0
  user : Word := 0
  code : Nat := 0
  robj : Nat := 0
  deriving DecidableEq, Repr

/-- The tracking engine. -/
structure Trk where
  /-- 4,194,304 records, those not free, by ascending number; 09 R219 -/
  objs : List Obj := []
  /-- 131,072 records, those configured; 09 R219 -/
  wins : List Win := []
  /-- 16,384 records, those configured; 09 R219 -/
  segs : List Seg := []
  /-- 65,536 records, those configured; 09 R219 -/
  hos : List (Nat × HoCfg) := []
  /-- 4,096 records, those configured; 09 R219 -/
  srcs : List (Nat × Src_) := []
  /-- 8 command windows; 09 R234 -/
  win : Vector CmdWin 8 := Vector.replicate 8 {}
  /-- 64 bits; 13 R553 TRK_BACKLOG -/
  backlog : Nat := 0
  /-- list of (segment, 3 × 64 bits); 13 R553: crossings without action -/
  cross : List (Nat × Cross) := []
  /-- count; 09 R244: events of the last commit -/
  events : Nat := 0
  /-- list; 09 R247: residue checks that fail in the commit under way (the model's own: log entry 83) -/
  flts : List ResFault := []
  /-- 1 bit; 09 R235: a residue check fails in the command under way (the model's own: log entry 83) -/
  cmdFlt : Bool := false
  /-- 0 to 262,143; 09 R250: place of the next entry of the actuation log -/
  logN : Nat := 0
  /-- 1 bit; 09 R249: the next commit is the first as primary -/
  firstCommit : Bool := false
  deriving DecidableEq, Repr

/-! ## Local channels, 10 -/

/-- States of a group supply, 10 R273. -/
inductive Supply where
  | valid | sag | low | recovering
  deriving DecidableEq, Repr

/-- One local channel. -/
structure LioCh where
  /-- 10 R257: configuration in force -/
  cfg : LioCfg := {}
  /-- 1 bit; 10 R261: debounced level -/
  level : Bool := false
  /-- 1 bit; 10 R261: in BAND -/
  band : Bool := false
  /-- 1 bit; 10 R263: in WIRE_BREAK -/
  wbreak : Bool := false
  /-- 1 bit; 10 R267: command state -/
  cmd : Bool := false
  /-- 1 bit; 10 R267: switch closed -/
  sw : Bool := false
  /-- code 3 or 4; 10 R270: trip -/
  trip : Option Nat := none
  /-- ns; 10 R270: instant of the trip -/
  tripAt : Nat := 0
  /-- ns; 10 R274: instant of the last trip, for the 1 s -/
  lastTrip : Option Nat := none
  /-- 1 bit; 10 R273: a clear is held until the group is VALID -/
  clrHeld : Bool := false
  /-- code; 10 R274: FAULT, the code of the standing fault -/
  fault : Nat := 0
  /-- code 0, 1 or 2; 10 R268: output fault that stands until agreement has persisted -/
  outFlt : Nat := 0
  /-- 64 bits; 13 R553 TRIPS -/
  trips : Nat := 0
  /-- 64 bits; 13 R553 LIO_FAULT -/
  faults : Nat := 0
  /-- 1 bit; 08 R218 HELD -/
  held : Bool := false
  /-- 32 bits; 08 R218 ACT_N -/
  actN : Nat := 0
  /-- ns; 08 R212, R218: TIME of the entry applied last -/
  actAt : Nat := 0
  /-- 32 bits; 08 R218 CHG_N -/
  chgN : Nat := 0
  /-- 1 bit; 08 R218: value of the snapshot applied before -/
  out : Bool := false
  /-- 1 bit; 10 R264: value latched at the still point -/
  latch : Bool := false
  /-- 2 bits; 10 R264: quality latched (1: the substitute value is to be laid) -/
  latchQ : BitVec 2 := 0
  deriving DecidableEq, Repr

/-- One group of local channels. -/
structure LioGrp where
  /-- 4 states; 10 R273 -/
  st : Supply := .low
  /-- ns; 10 R273: expiry of the 10 ms timer -/
  timer : Option Nat := none
  /-- list of codes; 10 R273: supply faults that no latch has carried yet -/
  due : List Nat := []
  /-- list of codes; 10 R273: those of them that the latch of the last still point carried -/
  ready : List Nat := []
  deriving DecidableEq, Repr

/-- The local channel logic. -/
structure Lio where
  /-- 16 channels; 10 R255 -/
  ch : Vector LioCh 16 := Vector.replicate 16 {}
  /-- group 1; 10 R255 -/
  g1 : LioGrp := {}
  /-- group 2; 10 R255 -/
  g2 : LioGrp := {}
  /-- 10 R258: block that takes effect at a still point, with the first cycle at which it may -/
  due : Option (Nat × List LioCfg) := none
  deriving DecidableEq, Repr

/-! ## The pair, 11 -/

/-- Roles, 11 R286; order of the codes of 11 R284. -/
inductive Role where
  | bringUp | primary | standby | joining | out
  deriving DecidableEq, Repr

/-- A commanded switch under way, 11 R305. `wait`: looking for a usable cycle; `cut`: releases held from the output
cut-off of k − 1; `closing`: the final transfer waits for its acknowledgement; `acked`: the still point may act. -/
inductive SwPhase where
  | wait | cut | closing | acked
  deriving DecidableEq, Repr

/-- A switch: phase, cycles passed since acceptance, cycle k, whether it is for an extraction (18 R486). -/
structure Switch where
  phase : SwPhase := .wait
  cycles : Nat := 0
  k : Nat := 0
  swap : Bool := false
  deriving DecidableEq, Repr

/-- Messages that the module sends to its partner, 11 R283. -/
inductive PairMsg where
  /-- heartbeat or fault message, 11 R284 -/
  | beat (h : Heartbeat)
  /-- CSTART, 06 R161 -/
  | cstart (c : CStart)
  /-- SYNC content with a valid transfer, 06 R159 -/
  | sync (c : SyncContent)
  /-- downstream frame content for a window, 05 R125 -/
  | content (win : Nat) (f : Frame)
  /-- accepted upstream frame, 05 R126 -/
  | upstream (f : Frame)
  /-- DELAY report with t4, 06 R174 -/
  | delay (t4 : Nat) (f : Frame)
  /-- station state, 07 R193 -/
  | station (code st : Nat) (wasLost : Bool) (miss good losses refusal : Nat)
  /-- network configuration with SWITCH_N when announced, 05 R142, 13 R368 -/
  | netConfig (c : NetCfg) (next : Bool) (switchN : Nat)
  /-- NET_START passed to the partner, 13 R369 -/
  | netStart
  /-- local channel block, 10 R258 -/
  | lioBlock (b : List LioCfg)
  /-- application image, delta or firmware, 12 R316, R317, R325 -/
  | image (img : AppImage)
  | firmware (img : AppImage)
  /-- change cycle announced, 12 R317 -/
  | announce (nc : Nat)
  /-- report on an image or configuration, 12 R317 -/
  | report (kind : ReportKind) (ok : Bool)
  /-- mirror lines of a transfer, 11 R292 -/
  | block (xfer block : Nat) (lines : List Span) (digest : BitVec 128)
  /-- close block with COMMIT and N_c, and the digest of the audit slice, 11 R292, R295, 12 R318 -/
  | close (xfer blocks : Nat) (commit : Option Nat) (slice : Nat) (audit : BitVec 128)
  | ack (xfer : Nat)
  | resend (block : Nat)
  /-- snapshot transfer with its check block, 11 R294 -/
  | snapshot (cycle : Nat) (lines : List Span) (check : BitVec 128)
  /-- force table change, 04 R117 -/
  | forces (ver : Nat) (f : List Force)
  /-- base copy chunk, 11 R307 -/
  | chunk (c : Span)
  /-- held releases and unsent pool entries of a final close, 11 R305 -/
  | held (r : List Rel) (pool : List ActEnt)
  /-- request for a pair-commanded reset, 03 R84 -/
  | resetRequest
  /-- request to join, 11 R306 -/
  | rejoin
  /-- pair-link authentication, 14 R393 -/
  | auth
  deriving DecidableEq, Repr

/-- A close block, 11 R291, R295, 12 R318. -/
structure CloseBlk where
  xfer : Nat
  blocks : Nat
  commit : Option Nat := none
  slice : Nat := 0
  audit : BitVec 128 := 0
  fin : Option FinalClose := none
  deriving DecidableEq, Repr

/-- The VANE arbiter, the pair sentinel, the pair link and the mirror engine. -/
structure Pair where
  /-- 3 bits; 11 R286 -/
  role : Role := .bringUp
  /-- 1 bit; 11 R286 CURRENT of this module as a standby -/
  current : Bool := false
  /-- 1 bit; 21 R527 DRIVE: own line driven asserted -/
  drive : Bool := false
  /-- 1 bit; 11 R278: own line as observed at the pins -/
  own : Bool := false
  /-- 1 bit; 11 R278: partner's line as observed at the pins -/
  other : Bool := false
  /-- ns; 11 R278: instant of the last change of the own drive -/
  driveAt : Nat := 0
  /-- ns; 11 R278, R287: instant since when the partner's line reads released -/
  otherOffAt : Nat := 0
  /-- 1 bit; 11 R281: the own line reads asserted while driven released -/
  stuck : Bool := false
  /-- 1 bit; 11 R281: VANE_CONFLICT declared -/
  conflict : Bool := false
  /-- 2 bits; 11 R283: lanes up, bit k for lane k -/
  lanes : BitVec 2 := 0
  /-- 1 bit; 14 R393: pair-link authentication complete -/
  auth : Bool := false
  /-- 256 bits; 14 R393: the partner's unit key, and the pair key, learned at authentication -/
  unit : Key := 0
  key : Key := 0
  /-- 64 bytes; 11 R284: partner's last valid heartbeat since reset -/
  hb : Option Heartbeat := none
  /-- 1 bit; 11 R285: HEARTBEAT_LOST declared -/
  hbLost : Bool := false
  /-- 8 bits; 11 R284: LEAVE_CAUSE of the partner's last fault message -/
  leave : Nat := 0
  /-- 1 bit; 11 R299: the partner was PRIMARY -/
  partnerPrim : Bool := false
  /-- ns; 11 R300: observation of the release for a takeover -/
  takeFrom : Option Nat := none
  /-- ns; 18 R481, 11 R287: instant of Lull service -/
  lullAt : Nat := 0
  /-- 1 bit; 21 R519 PAIR_CTRL.HOT -/
  hotReg : Bool := false
  /-- 1 bit; 11 R298: hot mode in force -/
  hot : Bool := false
  /-- 1 bit; 21 R519 PAIR_CTRL.AUTOSTART -/
  autostart : Bool := false
  /-- 2 bits; 12 R332 settings block 0x0002: HOT, AUTOSTART -/
  stored : Bool × Bool := (false, false)
  /-- list of (ns, HOT, AUTOSTART); 21 R521: PAIR_CTRL writes that the settings block may not hold yet -/
  ctrl : List (Nat × Bool × Bool) := []
  /-- ns; 11 R298: lanes were woken for a possible takeover -/
  wokenAt : Option Nat := none
  /-- list of 64-byte line addresses; 11 R291: dirty lines of the open transfer -/
  dirty : List Nat := []
  /-- 11 R291: writes to lines that were dirty already, each of which may have been shipped again -/
  again : Nat := 0
  /-- ns; 11 R285: arrival of the last heartbeat -/
  hbAt : Nat := 0
  /-- 32 bits; 11 R284 XFER_SEQ: last transfer closed or applied -/
  xferSeq : Nat := 0
  /-- (seq, lines shipped counting repeats, blocks, final); 11 R292: transfer that waits for its acknowledgement -/
  unacked : Option (Nat × Nat × Nat × Bool) := none
  /-- lines of the blocks shipped in the open transfer, or in the one that waits; 11 R292, R293: carried on when it cannot close -/
  shipped : List (List Nat) := []
  /-- transfers given up since the last one closed, whose sequences are used up; 11 R292, R293 -/
  lost : Nat := 0
  /-- lines of the open transfer sent again on request; 11 R292 -/
  resent : Nat := 0
  /-- cycle; 11 R291: cycle of the last close -/
  closeN : Option Nat := none
  /-- 1 bit; 11 R321: the transfer that waits carries COMMIT -/
  unackedCommit : Bool := false
  /-- KiB; 11 R284 LAST_KIB -/
  lastKib : Nat := 0
  /-- KiB; 13 R553 MAX_KIB -/
  maxKib : Nat := 0
  /-- 64 bits; 13 R553: entries into STALE -/
  stales : Nat := 0
  /-- 64 bits; 13 R553: block re-sends -/
  resends : Nat := 0
  /-- 64 bits; 13 R553: audit differences -/
  audits : Nat := 0
  /-- 1 bit; 11 R286: the partner standby is CURRENT, as the primary holds it -/
  partnerCur : Bool := false
  /-- (transfer, block, lines); 11 R292: mirror staging of the standby -/
  staging : List (Nat × Nat × List Span) := []
  /-- (block, times); 11 R292: blocks whose digest differed -/
  differed : List (Nat × Nat) := []
  /-- line addresses; 11 R295, 20 R502: lines that a standby still misses of slices whose audit differed, or that poison holds -/
  auditLeft : List Nat := []
  /-- 11 R292: close block that waits for blocks sent again -/
  heldClose : Option CloseBlk := none
  /-- transfer; 11 R292: ended without a close by a third difference -/
  voided : Option Nat := none
  /-- slice number; 11 R295: next audit slice -/
  slice : Nat := 0
  /-- 32 bits; 11 R284 SNAP_SEQ -/
  snapSeq : Nat := 0
  /-- 32 bits; 11 R284 FORCE_VER: force table version held -/
  forceVer : Nat := 0
  /-- version; 04 R117: last version shipped to the partner -/
  forceShipped : Nat := 0
  /-- version; 04 R107: last version the partner acknowledged -/
  forceAcked : Nat := 0
  /-- 11 R305: commanded switch under way -/
  switch_ : Option Switch := none
  /-- held releases and pool entries received with the final close; 11 R305 -/
  swHeld : List Rel × List ActEnt := ([], [])
  /-- 1: base, 2: catch-up; 11 R307: rejoin under way in this module -/
  rejoin : Option Nat := none
  /-- bytes; 11 R307: base copy received -/
  baseDone : Nat := 0
  /-- chunks that arrived while the rejoin stands suspended; 11 R307 -/
  heldChunks : List Span := []
  /-- 1 bit; 11 R307: this primary marks and ships a base copy for its partner -/
  basing : Bool := false
  /-- 1 bit; 12 R324, 11 R304: the partner rejoins, until it is CURRENT -/
  partnerJoins : Bool := false
  /-- ns; 11 R303: since when no module has been holder -/
  noHolderAt : Option Nat := none
  /-- 1 bit; 11 R303: STATUS shows NO_HOLDER -/
  noHolder : Bool := false
  /-- 64 bits; 13 R553: takeovers since power-on -/
  takeovers : Nat := 0
  /-- 64 bits; 13 R553: commanded switches since power-on -/
  switches : Nat := 0
  /-- ns; 19 R498: T_MIN of the partner -/
  partnerTmin : Nat := 125000
  /-- 1 bit; 11 R282: the pair-reset line of the partner is driven (1 ms pulse) -/
  resetOut : Bool := false
  /-- 1 bit; 11 R282: the partner has requested a pair-commanded reset -/
  partnerReq : Bool := false
  /-- 11 R309: VANE is to be released at the end of the downstream traffic, with its instant -/
  releaseAt : Option Nat := none
  /-- list, newest last; 11 R283: messages sent to the partner in this cycle -/
  sent : List PairMsg := []
  deriving DecidableEq, Repr

/-! ## Change and update, 12 -/

/-- States of flash slots, 12 R315. -/
inductive Slot where
  | empty | staged | trial | active | failed | previous
  deriving DecidableEq, Repr

/-- An application slot. -/
structure AppSlot where
  st : Slot := .empty
  img : Option AppImage := none
  /-- 12 R314: a confidential image or delta as received -/
  recv : Option AppImage := none
  deriving DecidableEq, Repr

/-- A firmware slot. -/
structure FwSlot where
  st : Slot := .empty
  img : Option AppImage := none
  deriving DecidableEq, Repr

/-- What a settings block holds, 12 R332. -/
inductive SetVal where
  | net (c : Option NetCfg)
  | pair (hot autostart : Bool)
  | gust (l : List (Nat × Nat × Nat))
  | margin (mhz : Vector Nat 8) (tMin : Nat)
  | eth (l : List (Bool × BitVec 32 × Nat × BitVec 32))
  deriving DecidableEq, Repr

/-- One copy of a settings block in flash, 12 R332: BLOCK_ID, FORMAT, SERIAL, the body in its FORMAT, whose layout the manual does not give,
with what it says; the CRC as the difference from the one that is due. -/
structure SetHead where
  id : Nat
  fmt : Nat
  serial : Nat
  body : List Byte := []
  val : SetVal
  crcErr : BitVec 32 := 0
  deriving DecidableEq, Repr

/-- What the partner has reported of its firmware (12 R325 to R330). -/
structure FwHeld where
  trial : Bool := false
  runs : Option Digest := none
  target : Option Digest := none
  deriving DecidableEq, Repr

/-- A change between its announcement and its change instant, 12 R318. -/
structure Change where
  /-- the new image with its full body -/
  img : AppImage
  /-- a rollback: the back rules apply -/
  back : Bool := false
  /-- N_c -/
  nc : Nat
  /-- boundaries abandoned -/
  tries : Nat := 0
  /-- Q has passed and the switch of step 3 to 5 is done -/
  done : Bool := false
  /-- the check at Q failed, or the Windbreak update aborted: this boundary is abandoned -/
  abandoned : Bool := false
  deriving DecidableEq, Repr

/-- Images, slots, floors and settings. -/
structure Chg where
  /-- 2 application slots; 12 R315 -/
  app : Vector AppSlot 2 := Vector.replicate 2 {}
  /-- 12 R315: the running application image -/
  running : Option AppImage := none
  /-- 12 R318: change announced -/
  change : Option Change := none
  /-- 12 R321: COMMIT not yet acknowledged by the standby, with N_c -/
  commitDue : Option Nat := none
  /-- 12 R317: a standby's staged image of an announced change -/
  staged : Option AppImage := none
  /-- network time; 12 R323: end of the rollback period, and whether the rules run back -/
  rollback : Option Nat := none
  /-- 12 R317: APP_LOAD, APP_CHANGE or FW_STAGE wait for the partner's report -/
  partnerWait : Option ReportKind := none
  /-- 12 R317: the own staging has passed -/
  ownOk : Bool := false
  /-- 2 firmware slots; 12 R315 (the running one ACTIVE: log entry 1) -/
  fw : Vector FwSlot 2 := #v[{ st := .active, img := some { hdr := { kind := 1 } } }, {}]
  /-- index; 12 R327: the slot whose firmware runs -/
  fwRun : Nat := 0
  /-- count; 12 R327: consecutive failed starts of the trial -/
  fails : Nat := 0
  /-- count; 12 R327: the failed starts before the one that has reached Lull service -/
  failsWas : Nat := 0
  /-- 32 bits; 12 R312: firmware floor -/
  fwFloor : Nat := 0
  /-- 32 bits; 12 R312: application floor -/
  appFloor : Nat := 0
  /-- list; 12 R332 to R334: the copies of the settings blocks in flash, at most 2 for a block and a FORMAT, the newer one last -/
  area : List SetHead := []
  /-- 12 R325 to R330: the partner's firmware, by its last report since this module's start -/
  partner : Option FwHeld := none
  /-- (report, good, status); 12 R331: report on an operation that stands suspended -/
  partnerSaid : Option (ReportKind × Bool × Nat) := none
  /-- step of 12 R326; 0 none -/
  handover : Nat := 0
  /-- 64 bits; 12 R326: N of the switch still point of the handover -/
  handoverN : Nat := 0
  deriving DecidableEq, Repr

/-! ## Host interface, 13 and 21 -/

/-- States of a queue or of the event ring, 21 R516. -/
inductive QSt where
  | disabled | enabled | error | draining
  deriving DecidableEq, Repr

/-- A completion, 13 R351, with the bytes the command wrote to its buffer (13 R378). -/
structure Cpl where
  cmdId : BitVec 32
  opcode : Nat
  status : Nat
  kind : Nat := 0
  r0 : Word := 0
  r1 : Word := 0
  sqHead : Nat := 0
  queue : Nat := 0
  detail : Nat := 0
  phase : Bool := true
  intr : Bool := true
  data : List Byte := []
  /-- 16 bits; 13 R354: session of the command, which no byte of the completion shows -/
  session : Nat := 0
  deriving DecidableEq, Repr

/-- A queue pair, 13 R336, 21 R516. -/
structure HQ where
  /-- 2 bits; 21 R516 HQ_STATE -/
  st : QSt := .disabled
  /-- 2 bits; 21 R516 ERR_REASON -/
  err : Nat := 0
  /-- 64 bits; 21 R516 HQ_SQ_BASE -/
  sqBase : Word := 0
  /-- 64 bits; 21 R516 HQ_CQ_BASE -/
  cqBase : Word := 0
  /-- 13 bits; 21 R516 HQ_SIZE -/
  size : Nat := 0
  /-- 4 bits; 21 R516 HQ_VECTOR -/
  vector : Nat := 0
  /-- 10 bits, µs; 21 R516 HQ_HOLDOFF -/
  holdoff : Nat := 0
  /-- 12 bits; 21 R516 HQ_POS.SQ_HEAD -/
  sqHead : Nat := 0
  /-- 12 bits; 21 R516 HQ_POS.SQ_TAIL -/
  sqTail : Nat := 0
  /-- 12 bits; 21 R516 HQ_POS.CQ_HEAD -/
  cqHead : Nat := 0
  /-- 12 bits; 21 R516 HQ_POS.CQ_POST -/
  cqPost : Nat := 0
  /-- 1 bit; 21 R516 HQ_POS.PHASE -/
  phase : Bool := true
  /-- count; 13 R354: entries of the CQ posted and not consumed -/
  used : Nat := 0
  /-- list; 13 R342: entries of the SQ posted by the host and not yet fetched -/
  posted : List SqEnt := []
  /-- at most 8 descriptors; 13 R359: fetched and not begun -/
  backlog : List Desc := []
  /-- list, newest last; 13 R351: completions posted -/
  cq : List Cpl := []
  /-- list; 13 R354: completions held while the CQ is full -/
  waiting : List Cpl := []
  deriving DecidableEq, Repr

/-- An event entry, 13 R356. -/
structure EvEnt where
  code : Nat
  seq : Nat
  time : Nat
  param : List Byte
  phase : Bool := true
  deriving DecidableEq, Repr

/-- The event ring, 13 R356, 21 R518. -/
structure EvRing where
  st : QSt := .disabled
  err : Nat := 0
  base : Word := 0
  size : Nat := 0
  vector : Nat := 0
  holdoff : Nat := 0
  post : Nat := 0
  head : Nat := 0
  phase : Bool := true
  /-- ESEQ of the next event; 13 R356 -/
  seq : Nat := 0
  lost : Nat := 0
  /-- dropped since the last EVENTS_LOST -/
  lostNow : Nat := 0
  /-- entries posted and not consumed -/
  used : Nat := 0
  /-- ns; 13 R338: end of DRAINING -/
  drainEnd : Nat := 0
  ents : List EvEnt := []
  deriving DecidableEq, Repr

/-- An MSI-X vector, 13 R358. -/
structure Msi where
  /-- instant of the last message -/
  last : Option Nat := none
  /-- something was posted within the holdoff -/
  due : Bool := false
  /-- ns; 13 R358: end of the holdoff that it waits for -/
  dueAt : Nat := 0
  /-- messages sent -/
  sent : Nat := 0
  masked : Bool := false
  pba : Bool := false
  addr : Word := 0
  data : BitVec 32 := 0
  deriving DecidableEq, Repr

/-- A session, 14 R386. -/
structure Sess where
  num : Nat
  party : Nat
  slot : Nat
  proven : Bool := false
  src : Src
  openedAt : Nat
  /-- highest CMD_ID accepted; 13 R346 -/
  lastCmd : Option Nat := none
  bootLimit : Nat := 0
  /-- cursors of ring and archive; 16 R437 -/
  curRing : Nat := 0
  curArch : Nat := 0
  /-- the key the session proved or is to prove -/
  key : Option Key := none
  /-- 256 bits; 14 R386, R388: the ephemeral private key of the module, 0 once it is erased -/
  eph : Key := 0
  /-- 512 bits; 14 R388: the command key, once proven -/
  ck : BitVec 512 := 0
  deriving DecidableEq, Repr

/-- A change of the life-cycle state, 14 R399, R401: the target, the new Owner's key, the serial number and the certificate that a
provisioning stores. -/
structure StateChange where
  target : Nat
  owner : Option Key := none
  serial : Nat := 0
  cert : Option (BitVec 512) := none
  deriving DecidableEq, Repr

/-- What a begun command without a FINAL completion waits for. -/
inductive Work where
  /-- force version to be in effect: 04 R107; `released` entries, `set` points -/
  | force (ver : Nat) (released : Nat)
  | netConfigure (sched : Nat) (next : Bool) (lioDone : Bool)
  | netStart
  | pairSwitch
  | rejoin
  | appLoad (img : AppImage) (stored : Bool)
  | appChange (img : AppImage)
  | rollback
  | fwStage (img : AppImage)
  | handover
  | logExport (store : Nat) (next : Nat) (last : Nat) (max : Nat) (overtaken : Bool) (count : Nat) (data : List Byte)
  | scrub (corrected uncorrectable : Nat)
  | flashVerify (checked failed : Nat)
  | inject
  | snapshot (scope first count : Nat) (image : Option (List Byte)) (n : Nat) (still : Nat) (standby : Bool)
  /-- target, new Owner key, new unit serial; 14 R401 -/
  | lifecycle (x : StateChange)
  /-- OP_SUSPEND that waits for the suspend point of its target; 13 R372 -/
  | opSuspend (sess cmdId : Nat)
  /-- OP_CANCEL that waits for its target's FINAL completion; 13 R372 -/
  | opCancel (sess cmdId : Nat)
  deriving DecidableEq, Repr

/-- A begun command that has not posted its FINAL completion. -/
structure Run where
  src : Src
  session : Nat
  cmdId : BitVec 32
  opcode : Nat
  party : Nat
  noIntr : Bool := false
  length : Nat := 0
  bufAddr : Word := 0
  /-- a long operation; 13 R361 -/
  long : Bool := false
  /-- 13 R372: suspended, or a suspend is due at the next suspend point -/
  suspended : Bool := false
  suspendDue : Bool := false
  /-- 12 R331: a cancel is due at the next step boundary -/
  cancelDue : Bool := false
  /-- 16 bits; 13 R352: the step, DETAIL of PROGRESS -/
  step : Nat := 0
  done : Nat := 0
  total : Nat := 0
  work : Work
  deriving DecidableEq, Repr

/-- A TLS service connection, 13 R377. -/
structure Conn where
  port : Nat
  /-- list; 13 R378: capsules sent to the client -/
  cpls : List Cpl := []
  evs : List EvEnt := []
  /-- list; 13 R375: capsules received and not begun -/
  backlog : List Desc := []
  deriving DecidableEq, Repr

/-- A plant Ethernet port, 21 R523. -/
structure Eth where
  service : Bool := false
  addr : BitVec 32 := 0
  pre : Nat := 0
  gw : BitVec 32 := 0
  /-- values in force -/
  inService : Bool := false
  inAddr : BitVec 32 := 0
  inPre : Nat := 0
  inGw : BitVec 32 := 0
  /-- 48 bits; factory value, DESIGN CHOICE (log entry 1) -/
  mac : BitVec 48 := 0
  linkUp : Bool := false
  deriving DecidableEq, Repr

/-- Rings, doorbells, sessions, commands under way, service channel. -/
structure Host_ where
  /-- 8 queue pairs; 13 R336 -/
  q : Vector HQ 8 := Vector.replicate 8 {}
  /-- 3 bits; 21 R516 HQ_SEL -/
  sel : Nat := 0
  /-- 13 R356 event ring -/
  ev : EvRing := {}
  /-- 16 vectors; 13 R335 -/
  msi : Vector Msi 16 := Vector.replicate 16 {}
  /-- at most 32; 14 R386 -/
  sess : List Sess := []
  /-- list; 13 R352: commands begun without a FINAL completion -/
  runs : List Run := []
  /-- 1 bit; 13 R375 BUSY -/
  busy : Bool := false
  /-- ns; 13 R375: since when the backlog has stayed at 16 or less -/
  lowSince : Option Nat := none
  /-- at most 4; 13 R377 -/
  conn : Vector (Option Conn) 4 := Vector.replicate 4 none
  /-- list, newest last; 13 R377, R378: connections closed, with the capsules sent on them -/
  gone : List Conn := []
  /-- 3 bits; 13 R374: the queue of 1 to 7 served last -/
  turnQ : Nat := 7
  /-- 2 bits; 13 R374: the service connection served last -/
  turnC : Nat := 3
  /-- 2 plant ports; 21 R523 -/
  eth : Vector Eth 2 := Vector.replicate 2 {}
  /-- 12 R332: settings block 0x0005, (service, address, prefix, gateway) per port -/
  ethStored : List (Bool × BitVec 32 × Nat × BitVec 32) := []
  /-- (value, ns); 21 R520: first write of a HIF_RESET_REQ pair -/
  resetReq : Option (Nat × Nat) := none
  /-- (BAR0 register, low half); 21 R515: held halves -/
  heldLow : List (Nat × BitVec 32) := []
  /-- (register, high half); 21 R515: half latched by a 4-byte read -/
  latchedHigh : Option (Nat × BitVec 32) := none
  /-- list of (host address, bytes), newest last; 13 R335: memory writes issued as requester -/
  dma : List (Word × List Byte) := []
  /-- list of (host address, bytes), newest last; 13 R335: memory reads issued as requester -/
  reads : List (Word × Nat) := []
  /-- 64 bits; 21 R530 PUB_SEQ -/
  pubSeq : Nat := 0
  /-- ns; 21 R530: instant of the last input publication -/
  pubAt : Option Nat := none
  deriving DecidableEq, Repr

/-! ## Keys and life-cycle, 14 -/

/-- A service grant, 14 R383. -/
structure Grant where
  key : Key
  limit : Nat
  deriving DecidableEq, Repr

/-- A copy of the key list in managed flash, 14 R383. -/
structure KeyList where
  owner : Option Key := none
  integ : Vector (Option Key) 8 := Vector.replicate 8 none
  grant : Vector (Option Grant) 8 := Vector.replicate 8 none
  deriving DecidableEq, Repr

/-- KEY, fuses, key list, debug port. -/
structure Keys where
  /-- 3 bits; 14 R397 life-cycle state: both fuse copies, but while a change stands half programmed copy 2 alone -/
  life : Nat := 0
  /-- 14 R397, R401: the change that copy 1 of the fuse field holds while copy 2 is incomplete -/
  half : Option StateChange := none
  /-- 1 bit; 14 R401 step 5: the second LIFECYCLE record is due at the start -/
  lifeNew : Bool := false
  /-- 512 bits; 14 R386, R399: CERT_SIG stored at provisioning -/
  cert : Option (BitVec 512) := none
  /-- 1 bit; 14 R399: the DRK fuses are programmed to all ones -/
  drkOnes : Bool := false
  /-- 4 bits; 14 R397 -/
  epoch : Nat := 0
  /-- 2 bits; 14 R397 -/
  refurb : Nat := 0
  /-- 64 bits; 14 R399, 21 R525: 0 in BLANK -/
  serial : Nat := 0
  /-- 8 bits; 21 R525 HW_REV, factory value, DESIGN CHOICE (log entry 1) -/
  hwRev : Nat := 1
  /-- 256 bits; 14 R383 Owner key -/
  owner : Option Key := none
  /-- 8 slots; 14 R383 -/
  integ : Vector (Option Key) 8 := Vector.replicate 8 none
  /-- 8 slots; 14 R383 -/
  grant : Vector (Option Grant) 8 := Vector.replicate 8 none
  /-- 14 R383: the older copy of the list, none where it has not been written -/
  prev : Option KeyList := none
  /-- 1 bit; 14 R383 KEYLIST_LOST stands -/
  listLost : Bool := false
  /-- list of owning keys; 14 R384: entries of the key-wrapped store -/
  store : List Key := []
  /-- 32 bits; 14 R381 -/
  boot : Nat := 1
  /-- 1 bit; 14 R380: a health test has failed -/
  rngFail : Bool := false
  /-- 1 bit; 14 R403: the debug port is open -/
  dbgOpen : Bool := false
  /-- 3 bits; 14 R403 TSCOPE in force -/
  dbgScope : BitVec 16 := 7
  /-- 32 bits; 14 R399: tokens whose BOOT_FIRST lies below are revoked (log entry 86) -/
  tokVoid : Nat := 0
  /-- 1 bit; 14 R395 DEBUG_OPEN: open since the last reset -/
  dbgSeen : Bool := false
  /-- 32 bits; 13 R364 LULL_COUNT -/
  lullCount : Nat := 0
  /-- 32 bits; 13 R364 CALM_COUNT -/
  calmCount : Nat := 0
  /-- ns; 14 R399: last press of the SWAP button -/
  swapAt : Option Nat := none
  /-- step; 14 R401: state change under way -/
  transition : Option Nat := none
  /-- list of keys; 14 R382: Vendor keys whose digests the boot ROM holds (factory values, DESIGN CHOICE: log entry 1) -/
  vendor : List Key := [1, 2]
  deriving DecidableEq, Repr

/-! ## Windbreak, 15 -/

/-- The registers of one region, 15 R426. -/
structure Rgn where
  addr : Word := 0
  perm : Word := 0
  scope : Word := 0
  deriving DecidableEq, Repr

/-- A transaction that waits: at the gate or at a crossing, with the compared item that it carries, the lane, the item's number and
its leading copy. -/
structure Held where
  t : Txn
  item : Option Item := none
  lane : Nat := 0
  num : Nat := 0
  lead : Nat := 2
  deriving DecidableEq, Repr

/-- Windbreak control. -/
structure Wb where
  /-- 1 bit; 15 R426 UPDATE -/
  update : Bool := false
  /-- 1 bit; 15 R426 LOAD -/
  load : Bool := false
  /-- 1 bit; 15 R426 ARMED -/
  armed : Bool := false
  /-- 1 bit; 15 R426 HELD -/
  held : Bool := false
  /-- 1 bit; 15 R426 ABORTED -/
  aborted : Bool := false
  /-- 32 bits; 15 R426 PRECISE -/
  precise : Nat := 0
  /-- 32 bits; 15 R426 IMPRECISE -/
  imprecise : Nat := 0
  /-- 16 bits; 15 R426 UPDATES -/
  updates : Nat := 0
  /-- 16 bits; 15 R426 ABORTS -/
  aborts : Nat := 0
  /-- 32 bits, ns; 15 R426 LAST_HOLD -/
  lastHold : Nat := 0
  /-- 64 bits; 15 R426 WB_LAST -/
  last : Word := 0x7F0000000000
  /-- 64 regions; 15 R409 -/
  rgn : Vector Rgn 64 := Vector.replicate 64 {}
  /-- 64 regions; 15 R419: shadow -/
  shadow : Vector Rgn 64 := Vector.replicate 64 {}
  /-- ns; 15 R421: instant at which UPDATE was set -/
  since : Nat := 0
  /-- list; 15 R419: transactions held at the gate -/
  gate : List Held := []
  /-- list; 01 R21: transactions held at the crossing to a parked lane island -/
  crossing : List Held := []
  /-- 8 classes of 01 R16: requester of the class that was granted last, for the round robin -/
  turn : Vector Nat 8 := Vector.replicate 8 0
  /-- 64 bytes; 15 R422: data returned to the last requester; none for an error response -/
  reply : Option (List Byte) := some []
  deriving DecidableEq, Repr

/-! ## Recorder, 16 -/

/-- A record, 16 R432: LENGTH is 24 plus the payload. -/
structure Rec where
  seq : Nat := 0
  code : Nat
  time : Nat
  src : Nat
  party : Nat := 0
  flags : BitVec 16 := 0
  boot : Nat := 0
  pay : List Byte := []
  deriving DecidableEq, Repr

/-- The token bucket of a code, 16 R440; tokens in units of 10^−9. -/
structure Bucket where
  code : Nat
  tokens : Nat
  at_ : Nat
  sup : Nat := 0
  first : Nat := 0
  last : Nat := 0
  deriving DecidableEq, Repr

/-- The event recorder. -/
structure Recd where
  /-- 64 MiB, oldest first; 16 R427 -/
  ring : List Rec := []
  /-- 32 bits; 16 R431: SEQ of the next record -/
  seq : Nat := 65536
  /-- 32 bits; 16 R431: last multiple committed to flash -/
  seqFlash : Nat := 0
  /-- 256 MiB, oldest first; 16 R429 -/
  archive : List Rec := []
  /-- list; 16 R429: critical records not yet in the archive -/
  due : List Rec := []
  /-- 16 KiB, oldest first; 16 R430 -/
  hold : List Rec := []
  /-- list; 18 R467: what the last flash commit wrote of the hold buffer; no rule reads it back (log entry 66) -/
  holdSaved : List Rec := []
  /-- count; 16 R430: held records discarded -/
  holdLost : Nat := 0
  /-- 1 bit; 16 R430: the ring is served -/
  served : Bool := false
  /-- list; 16 R440: buckets that are not full or have suppressed records -/
  buckets : List Bucket := []
  /-- list of (code, RATE, BURST); 16 R442: gust table, settings block 0x0003 -/
  gust : List (Nat × Nat × Nat) := []
  /-- list of (code, count); 16 R444: records written -/
  wrote : List (Nat × Nat) := []
  /-- list of (code, count); 16 R444: records suppressed -/
  supp : List (Nat × Nat) := []
  /-- list of (code, instance, count); 13 R553: happenings counted -/
  happen : List (Nat × Nat × Nat) := []
  deriving DecidableEq, Repr

/-! ## Clock, calendar, backup, 17 -/

/-- The BKP domain. -/
structure Rtc where
  /-- units of 2^−15 s since 2000; 17 R445 CAL_SEC and FRAC, at the instant `calAt` -/
  cal : Nat := 0
  /-- ns; instant at which `cal` was set -/
  calAt : Nat := 0
  /-- ns, signed; 17 R450 CAL_OFS -/
  calOfs : Int := 0
  /-- 16 bits, signed; 17 R457 TAI_UTC -/
  taiUtc : Int := 37
  /-- 8 bits, signed; 17 R457 ZONE -/
  zone : Int := 0
  /-- 1 bit; 17 R457 DST -/
  dst : Bool := false
  /-- 8 bits, signed ppm; 17 R457 TRIM -/
  trim : Int := 0
  /-- ppm; the MODEL's own: what the crystal is fast against its nominal frequency, a free value (log entry 88) -/
  crystal : Int := 0
  /-- 1 bit; 17 R457 TIME_INVALID -/
  invalid : Bool := true
  /-- 1 bit; 17 R457 BATT_LOW -/
  battLow : Bool := false
  /-- 8 bits, 20 mV; 17 R457 BATT -/
  batt : Nat := 0
  /-- 1 bit; 17 R457 STAMP_SET -/
  stampSet : Bool := false
  /-- 1 bit; 17 R457 STAMP_LOST -/
  stampLost : Bool := false
  /-- 34 bits; 17 R457 STAMP_SEC -/
  stampSec : Nat := 0
  /-- 1 bit; 17 R457 ALARM_ARMED -/
  armed : Bool := false
  /-- 1 bit; 17 R457 ALARM_FIRED -/
  fired : Bool := false
  /-- 1 bit; 17 R457 ALARM_SKIPPED -/
  skipped : Bool := false
  /-- 64 bits; 17 R457 RTC_ALARM -/
  alarm : Word := 0
  /-- 64 bytes; 17 R457 RTC_BKP -/
  bkp : Vector Byte 64 := Vector.replicate 64 0
  /-- 1 bit; 17 R458 retention-doubt latch -/
  doubt : Bool := false
  /-- 1 bit; 17 R460: a switch-over since the last start is to be recorded -/
  switched : Bool := false
  /-- 1 bit; 17 R447: the calendar has reached its end -/
  ended : Bool := false
  deriving DecidableEq, Repr

/-! ## Power, resets, indicators, 18 and 21 -/

/-- Power states, 18 R471. -/
inductive Power where
  | run | lull | hold | off
  deriving DecidableEq, Repr

/-- A feed, 18 R462. -/
structure Feed where
  valid : Bool := false
  mv : Nat := 0
  pathFault : Bool := false
  deriving DecidableEq, Repr

/-- Power sequencer, feed monitors, reset controller, watchdog and indicators. -/
structure Pwr where
  /-- 1 bit; 01 R14: the slot strap has been sampled since the power-on reset -/
  sampled : Bool := false
  /-- 2 bits; 01 R19: references that AON has found stopped or off frequency -/
  refBad : BitVec 2 := 0
  /-- 2 bits; 01 R19: references that have stopped -/
  refStop : BitVec 2 := 0
  /-- 24 bits; 01 R19: islands whose PLL AON has found out of lock -/
  pllBad : BitVec 24 := 0
  /-- 18 R462 FEED_A (VALID after power-good: log entry 1) -/
  fa : Feed := { valid := true }
  /-- 18 R462 FEED_B -/
  fb : Feed := {}
  /-- 8 bits; 18 R489 STORE_PCT -/
  store : Nat := 0
  /-- 2 bits; 18 R471 -/
  st : Power := .lull
  /-- 4 bits; 18 R472 kind of the last reset -/
  kind : Nat := 1
  /-- 12 bits; 21 R526 GOOD -/
  good : BitVec 12 := 0
  /-- 12 bits; 18 R469: domains switched on -/
  on : BitVec 12 := 0
  /-- 12 bits; 21 R526 FAULTED -/
  faulted : BitVec 12 := 0
  /-- 0 to 5; 18 R469: order step under way, 6 done -/
  stage : Nat := 1
  /-- 1 bit; 18 R469: DOMAIN_FAIL stopped bring-up -/
  failed : Bool := false
  /-- 0 to 6; 18 R466: last step of the hold-up sequence taken -/
  holdup : Nat := 0
  /-- ns; 18 R466: td, the declaration that began the hold-up sequence -/
  td : Nat := 0
  /-- 1 bit; 18 R473: the DRAM wipe is complete -/
  dramOk : Bool := false
  /-- 1 bit; 18 R481: Lull service has been reached since the reset -/
  lullService : Bool := false
  /-- 1 bit; 18 R483: full service -/
  full : Bool := false
  /-- 1 bit; 18 R483: readiness has been declared -/
  ready : Bool := false
  /-- 1 bit; 03 R79: the self-test has failed -/
  selfFail : Bool := false
  /-- 1 bit; 22 R539, 18 R485: PRESENT_n asserted for 100 ms -/
  present : Bool := true
  /-- ns; 18 R474: last restart of the management watchdog -/
  wdt : Nat := 0
  /-- 1 bit; 18 R477: seal of the retained regions stored in AON -/
  sealRegions : Bool := false
  /-- 1 bit; 18 R477: seal of the recorder ring stored in AON -/
  sealRing : Bool := false
  /-- 2 bits; 21 R525 ID_LED.SWAP -/
  ledSwap : Nat := 0
  /-- 1 bit; 18 R486: an extraction request runs -/
  extract : Bool := false
  /-- 1 bit; 18 R471: module waits in reset for power-good -/
  waitGood : Bool := true
  /-- 1 bit; 22 R540: PCIe, pair-link and pair-reset drivers at high impedance -/
  hiZ : Bool := false
  /-- 1 bit; 14 R401, 18 R477: firmware start after reset still to report (TRIAL start under way) -/
  starting : Bool := true
  /-- list of (code, count); 13 R553 section 8 BOOT counts by kind -/
  boots : List (Nat × Nat) := [(1, 1)]
  deriving DecidableEq, Repr

/-! ## Margins, 19 -/

/-- A margin, 19 R490. -/
structure Margin where
  value : Int := 0
  /-- lowest VALUE of the day; 19 R491 -/
  low : Option Int := none
  days : Nat := 0
  steps : Nat := 0
  /-- network time; 19 R491: predicted date, 0 for none -/
  pred : Nat := 0
  exhausted : Bool := false
  /-- date recorded last by MARGIN_SHORTFALL or SERVICE_DUE, 0 none -/
  told : Nat := 0
  deriving DecidableEq, Repr

/-- Ageing monitors and plans. -/
structure Mgn where
  /-- 113 margins in the order of 19 R490; values before the first measurement 0, DESIGN CHOICE: log entry 1 -/
  m : Vector Margin 113 := Vector.replicate 113 {}
  /-- hours; 19 R496 OP_HOURS -/
  hours : Nat := 0
  /-- 8 × 16 bits MHz; 19 R496 CUR_LANE_MHZ -/
  mhz : Vector Nat 8 := Vector.replicate 8 1600
  /-- ns; 19 R496 CUR_T_MIN_NS -/
  tMin : Nat := 125000
  /-- list of (operating hours, daily lowest VALUE of each margin), newest last; 19 R491 history in flash -/
  log : List (Nat × List Int) := []
  /-- 19 R493: proposed plan (PLAN_SEQ, lane frequencies, T_MIN) -/
  plan : Option (Nat × List Nat × Nat) := none
  /-- 32 bits; 19 R493: last PLAN_SEQ -/
  planSeq : Nat := 0
  /-- h; 19 R492: patrol period -/
  patrol : Nat := 8
  /-- count; 19 R492: errors the scrubber corrected in this day -/
  corrected : Nat := 0
  /-- 64 bits; 20 R501: correctable memory errors counted -/
  memCorr : Nat := 0
  /-- list of physical word addresses; 20 R502: words that hold poison -/
  poison : List Nat := []
  deriving DecidableEq, Repr

/-! ## The whole state -/

/-- The state of the block, with the queue of waiting commands. -/
structure State where
  /-- 1 bit; 01 R14: slot, sampled at power-on reset (A: log entry 1) -/
  slot : Side := .a
  clk : Clk := {}
  cyc : Cyc := {}
  lanes : Lanes := {}
  calm : Calm := {}
  img : Img := {}
  net : Net := {}
  /-- list by ascending code; 07 R192: configured stations -/
  stnM : List StnM := []
  /-- list by ascending code; 00 R4: the stations' own states -/
  stn : List Stn := []
  act : Act := {}
  trk : Trk := {}
  lio : Lio := {}
  pair : Pair := {}
  chg : Chg := {}
  host : Host_ := {}
  keys : Keys := {}
  wb : Wb := {}
  recd : Recd := {}
  rtc : Rtc := {}
  pwr : Pwr := {}
  mgn : Mgn := {}
  /-- list of (address, byte) pairs in canonical form; 01 R24, 04 R93: shared SRAM, image SRAM and DRAM, 0 where nothing is listed (18 R473) -/
  mem : List Host.Cell := []
  /-- counter; the MODEL's own: index of the next free value (log entry 3) -/
  free : Nat := 0
  /-- list, first in first out; the MODEL's own: commands that wait -/
  pending : List Instr := []
  deriving DecidableEq, Repr

/-- The module right after a power-on reset: every field at its default (18 R479, log entry 1). -/
def State.reset : State := {}

end Sys2Proof.Machine
end

