-- ==== Sys2Proof/Machine/Operands.lean ====
section
/-! DEFINITION. Operand forms: little-endian fields, point addresses, station map lookups, schedule arithmetic, the
application image's tasks and Windbreak entries, parsing of the parameter buffers. -/

namespace Sys2Proof
open Machine

/-! ## Bytes and fields -/

/-- `k` bytes of `n`, least significant first (00 R9). -/
def le (k n : Nat) : List Byte :=
  match k with
  | 0 => []
  | k + 1 => BitVec.ofNat 8 n :: le k (n / 256)

/-- The number that a run of bytes holds, least significant first (00 R9). -/
def unle : List Byte → Nat
  | [] => 0
  | b :: bs => b.toNat + 256 * unle bs

/-- A signed number as an unsigned field of 64 bits. -/
def s64 (i : Int) : Nat := (BitVec.ofInt 64 i).toNat

/-- Pad with zero bytes to a multiple of `m`. -/
def padTo (m : Nat) (l : List Byte) : List Byte := l ++ List.replicate (roundUp l.length m - l.length) 0

/-- Byte at an offset of a list, 0 beyond its end. -/
def byteAt (l : List Byte) (i : Nat) : Byte := l.getD i 0

/-- `k` bytes from an offset, 0 beyond the end. -/
def slice (l : List Byte) (i k : Nat) : List Byte := (List.range k).map fun j => byteAt l (i + j)

/-- A field of `k` bytes at offset `i`. -/
def field (l : List Byte) (i k : Nat) : Nat := unle (slice l i k)

/-- A byte of a parameter buffer. -/
def Buf.byte (b : Buf) (i : Nat) : Byte := ((b.cells.find? fun c => c.1 == i).map (·.2)).getD 0

/-- A field of `k` bytes of a parameter buffer. -/
def Buf.field (b : Buf) (i k : Nat) : Nat := unle ((List.range k).map fun j => b.byte (i + j))

/-- A run of `k` bytes of a parameter buffer. -/
def Buf.bytes (b : Buf) (i k : Nat) : List Byte := (List.range k).map fun j => b.byte (i + j)

/-- No listed byte in [i, j) of a buffer is other than zero. -/
def Buf.zero (b : Buf) (i j : Nat) : Bool := b.cells.all fun c => !(i ≤ c.1 && c.1 < j) || c.2 == 0

/-- A field of the INLINE bytes, 13 R344. -/
def Cmd.inf (c : Cmd) (i k : Nat) : Nat := field c.inl i k

/-- INLINE bytes from `i` on are zero. -/
def Cmd.inlZero (c : Cmd) (i : Nat) : Bool := (c.inl.drop i).all (· == 0)

/-- Bits of a byte list as points are packed, 04 R95: bit i mod 8 of byte i / 8. -/
def bitAt (l : List Byte) (i : Nat) : Bool := (byteAt l (i / 8)).getLsbD (i % 8)

/-- Pack bits as 04 R95 gives. -/
def packBits (l : List Bool) : List Byte :=
  (List.range ((l.length + 7) / 8)).map fun i =>
    BitVec.ofNat 8 ((List.range 8).foldl (fun a j => if l.getD (8 * i + j) false then a + 2 ^ j else a) 0)

/-- Pack 2-bit fields as the quality areas of 04 R95. -/
def packPairs (l : List (BitVec 2)) : List Byte :=
  (List.range ((l.length + 3) / 4)).map fun i =>
    BitVec.ofNat 8 ((List.range 4).foldl (fun a j => a + (l.getD (4 * i + j) 0).toNat * 4 ^ j) 0)

/-- Serial-number comparison modulo 2^32 (08 R218): `a` is at or after `b`. -/
def serialGe (a b : Nat) : Bool := (a + 2 ^ 32 - b % 2 ^ 32) % 2 ^ 32 < 2 ^ 31

/-! ## Frames on the wire, 05 R143, R144 -/

/-- One bit of a CRC-32C with the polynomial 0x1EDC_6F41 in reflected form. -/
def crcBit (c : BitVec 32) : BitVec 32 := if c.getLsbD 0 then (c >>> 1) ^^^ 0x82F63B78 else c >>> 1

/-- A byte of a CRC-32C, its least significant bit first. -/
def crcByte (c : BitVec 32) (b : Byte) : BitVec 32 := (List.range 8).foldl (fun c _ => crcBit c) (c ^^^ b.setWidth 32)

/-- The CRC-32C of a run of bytes. -/
def crc32c (l : List Byte) : BitVec 32 := l.foldl crcByte 0xFFFFFFFF ^^^ 0xFFFFFFFF

/-- The 16 bytes of a header. -/
def Frame.header (f : Frame) : List Byte :=
  le 1 f.ftype ++ le 1 (f.part % 16 + 16 * f.last) ++ le 2 f.sched ++ le 2 f.addr.toNat ++ le 2 f.length ++ le 4 f.seq ++
    le 2 f.flags.toNat ++ le 1 f.version ++ [f.rsvd]

/-- The CRC that the frame carries. -/
def Frame.crc (f : Frame) : BitVec 32 := crc32c (f.header ++ f.payload) ^^^ f.crcErr

/-- The CRC is that of header and payload. -/
def Frame.crcOk (f : Frame) : Bool := f.crcErr = 0

/-- Header, payload and CRC, the CRC least significant byte first. -/
def Frame.wire (f : Frame) : List Byte := f.header ++ f.payload ++ le 4 f.crc.toNat

/-- The frame in a run of bytes of at least a header and a CRC. -/
def Frame.ofWire (b : List Byte) : Option Frame :=
  if b.length < 20 then none
  else
    let k := b.length - 4
    some { ftype := field b 0 1, part := field b 1 1 % 16, last := field b 1 1 / 16, sched := field b 2 2
           addr := BitVec.ofNat 16 (field b 4 2), length := field b 6 2, seq := field b 8 4
           flags := BitVec.ofNat 16 (field b 12 2), version := field b 14 1, rsvd := byteAt b 15
           payload := slice b 16 (k - 16), crcErr := BitVec.ofNat 32 (field b k 4) ^^^ crc32c (slice b 0 k) }

/-- Bytes 0 to 59 of a heartbeat or fault message, 11 R284. -/
def Heartbeat.body (h : Heartbeat) : List Byte :=
  le 8 h.cycle ++ le 1 h.kind ++ le 1 h.role ++ le 2 h.pflags.toNat ++ le 1 h.calmCause ++ le 1 h.leaveCause ++ le 2 h.fwGen ++
    le 4 h.xferSeq ++ le 4 h.snapSeq ++ le 4 h.forceVer ++ le 4 h.lastKib ++ le 1 h.feeds.toNat ++ le 1 h.laneFaults ++
    le 2 h.rsvd.toNat ++ le 16 h.appId.toNat ++ le 8 (h.rsvd.toNat / 2 ^ 16)

/-- The CRC that it carries. -/
def Heartbeat.crc (h : Heartbeat) : BitVec 32 := crc32c h.body ^^^ h.crcErr

/-- The CRC is that of bytes 0 to 59. -/
def Heartbeat.crcOk (h : Heartbeat) : Bool := h.crcErr = 0

/-- The 64 bytes of the message. -/
def Heartbeat.wire (h : Heartbeat) : List Byte := h.body ++ le 4 h.crc.toNat

/-- The message in 64 bytes. -/
def Heartbeat.ofWire (b : List Byte) : Heartbeat :=
  { cycle := field b 0 8, kind := field b 8 1, role := field b 9 1, pflags := BitVec.ofNat 16 (field b 10 2)
    calmCause := field b 12 1, leaveCause := field b 13 1, fwGen := field b 14 2, xferSeq := field b 16 4, snapSeq := field b 20 4
    forceVer := field b 24 4, lastKib := field b 28 4, feeds := BitVec.ofNat 8 (field b 32 1), laneFaults := field b 33 1
    rsvd := BitVec.ofNat 80 (field b 34 2 + field b 52 8 * 2 ^ 16), appId := BitVec.ofNat 128 (field b 36 16)
    crcErr := BitVec.ofNat 32 (field b 60 4) ^^^ crc32c (slice b 0 60) }

/-- The first 16 bytes of a SHA-512 digest. -/
def sha16 (b : List Byte) : BitVec 128 := (Config.sha512 b).setWidth 128

/-- The digest of a block of mirror lines over transfer, block number, addresses and data (11 R292), in 4, 4, 8 and 64 bytes (DESIGN CHOICE,
log entry 84). -/
def blockDigest (xfer block : Nat) (lines : List Span) : BitVec 128 :=
  sha16 (le 4 xfer ++ le 4 block ++ lines.flatMap fun x => le 8 x.addr ++ x.bytes)

/-- The check block of a snapshot transfer: the digest of a block 0 under its cycle (11 R294 gives no content: DESIGN CHOICE, log entry 107). -/
def snapCheck (cycle : Nat) (lines : List Span) : BitVec 128 := blockDigest cycle 0 lines

/-! ## Association lists by ascending key -/

/-- Value at a key. -/
def alook {α : Type} (k : Nat) : List (Nat × α) → Option α
  | [] => none
  | (i, a) :: l => if i = k then some a else alook k l

/-- Insert or replace at a key, keys ascending. -/
def aset {α : Type} (k : Nat) (a : α) : List (Nat × α) → List (Nat × α)
  | [] => [(k, a)]
  | (i, b) :: l => if i = k then (k, a) :: l else if k < i then (k, a) :: (i, b) :: l else (i, b) :: aset k a l

/-- Add to a count kept by key. -/
def abump (k n : Nat) (l : List (Nat × Nat)) : List (Nat × Nat) := aset k ((alook k l).getD 0 + n) l

/-! ## Point addresses, 04 R97 to R99 -/

/-- STATION of a point address. -/
def ptStn (p : Point) : Nat := (p >>> 21).toNat
/-- KIND: 0 DI, 1 DO, 2 AI, 3 AO. -/
def ptKind (p : Point) : Nat := ((p >>> 19) &&& 3).toNat
/-- The reserved bits [18:16]. -/
def ptRsvd (p : Point) : Nat := ((p >>> 16) &&& 7).toNat
/-- INDEX. -/
def ptIdx (p : Point) : Nat := (p &&& 0xFFFF).toNat
/-- The address of a point. -/
def mkPoint (stn kind idx : Nat) : Point := BitVec.ofNat 32 (stn * 2 ^ 21 + kind * 2 ^ 19 + idx)

/-- The code of the local channels, 04 R98. -/
def localCode : Nat := 2040
/-- The code of the internal points, 04 R98. -/
def internalCode : Nat := 2044

/-- The station map entry of a code; all zero where none is held. -/
def Machine.NetCfg.mapOf (c : NetCfg) (code : Nat) : StnMap := (alook code c.map).getD {}

/-- Points of a kind that a station map entry counts. -/
def Machine.StnMap.countOf (m : StnMap) (kind : Nat) : Nat :=
  match kind with | 0 => m.diN | 1 => m.doN | 2 => m.aiN | _ => m.aoN

/-- First position of a kind. -/
def Machine.StnMap.baseOf (m : StnMap) (kind : Nat) : Nat :=
  match kind with | 0 => m.diBase | 1 => m.doBase | 2 => m.aiBase | _ => m.aoBase

/-- The fixed entry of the local channels, 04 R99. -/
def localMap : StnMap := { diN := 16, doN := 16 }

/-- The entry that holds a point, none for internal points and reserved codes. -/
def entryOf (c : Option NetCfg) (p : Point) : Option StnMap :=
  if ptStn p < 1024 then c.map (·.mapOf (ptStn p))
  else if ptStn p = localCode then some localMap
  else none

/-- The image position of a network or local point, within its kind. -/
def posOf (c : Option NetCfg) (p : Point) : Option Nat :=
  match entryOf c p with
  | some m => if ptIdx p < m.countOf (ptKind p) then some (m.baseOf (ptKind p) + ptIdx p) else none
  | none => none

/-- 04 R97: reserved bits zero, a code of R98 with an allowed kind, an index within the station map; `vars` is the
running image's forceable-variable table. -/
def pointOk (c : Option NetCfg) (vars : List FVar) (p : Point) : Bool :=
  ptRsvd p = 0 &&
  (if ptStn p < 1024 || ptStn p = localCode then (posOf c p).isSome
   else if ptStn p = internalCode then
     (ptKind p = 0 || ptKind p = 2) &&
       (match vars[ptIdx p]? with
        | some v => (v.width = 1 && ptKind p = 0) || (v.width = 16 && ptKind p = 2)
        | none => false)
   else false)

/-- What 04 R97 asks of a point address: reserved bits zero, a station code of R98, an index within the station map. An internal point has
no place in the map. -/
def pointR97 (c : Option NetCfg) (p : Point) : Bool :=
  ptRsvd p = 0 && (ptStn p = internalCode || ((ptStn p < 1024 || ptStn p = localCode) && (posOf c p).isSome))

/-- A point of the digital kinds. -/
def ptDigital (p : Point) : Bool := ptKind p < 2
/-- An output point. -/
def ptOutput (p : Point) : Bool := ptKind p = 1 || ptKind p = 3

/-! ## Schedule arithmetic, 05 -/

/-- D(P) = (28 + P) × 8 ns, 05 R121. -/
def frameNs (p : Nat) : Nat := (28 + p) * 8
/-- PD_MAX(p), 05 R123. -/
def pdMax (p : Nat) : Nat := (p + 1) * 220 + p * 400
/-- G of 05 R137 in ns. -/
def guardNs : Nat := 250
/-- Branch of a station code, 05 R145. -/
def codeBranch (code : Nat) : Nat := code / 64 % 16
/-- Position of a station code, 05 R145. -/
def codePos (code : Nat) : Nat := code % 64
/-- The broadcast address of a branch, 05 R145. -/
def bcast (b : Nat) : BitVec 16 := BitVec.ofNat 16 (0x8000 + b * 64)
/-- PATH: branch and direction of a window entry. -/
def Machine.WinEnt.branch (w : WinEnt) : Nat := w.path % 16
def Machine.WinEnt.down (w : WinEnt) : Bool := w.path / 16 % 2 = 1
/-- The cycle N serves the window, 05 R130. -/
def Machine.WinEnt.serves (w : WinEnt) (n : Nat) : Bool := n % 2 ^ w.pexp = w.phase
/-- End of the window, 05 R133. -/
def Machine.WinEnt.fin (w : WinEnt) : Nat := w.start + frameNs w.len
/-- Windows of a type that a station owns. -/
def Machine.NetCfg.winsOf (c : NetCfg) (code ty : Nat) : List WinEnt := c.wins.filter fun w => w.owner = code && w.ty = ty
/-- Serving exponent and phase of a station: those of its windows, every cycle when it has none (05 R136). -/
def Machine.NetCfg.servingOf (c : NetCfg) (code : Nat) : Nat × Nat :=
  match c.wins.find? (fun w => w.owner = code) with
  | some w => (w.pexp, w.phase)
  | none => (0, 0)
/-- Cycle N serves the station, 05 R130. -/
def Machine.NetCfg.servesStn (c : NetCfg) (code n : Nat) : Bool :=
  n % 2 ^ (c.servingOf code).1 = (c.servingOf code).2
/-- The station parameters of a configured station. -/
def Machine.NetCfg.parOf (c : NetCfg) (code : Nat) : Option StnPar := alook code c.par
/-- Basic cycles of a matrix cycle, L. -/
def Machine.NetCfg.l (c : NetCfg) : Nat := 2 ^ c.matrixExp
/-- Plain actuation is selected for the station, 13 R366. -/
def Machine.NetCfg.isPlain (c : NetCfg) (code : Nat) : Bool := c.plain.contains code
/-- Largest payload of the profile, 05 R131. -/
def Machine.NetCfg.maxLen (c : NetCfg) : Nat := if c.profile = 1 then 256 else 1024
/-- End of the last downstream exclusive window plus the 3 µs of 05 R138, from C(N). -/
def Machine.NetCfg.downEnd (c : NetCfg) : Nat :=
  (c.wins.filter (·.down)).foldl (fun m w => max m (w.fin + 3000)) 0

/-- Size of a station's largest IN stream, 05 R151. -/
def inStreamMax (m : StnMap) (enc : Nat) : Nat :=
  8 + 16 * enc + roundUp ((m.diN + 7) / 8) 4 + roundUp (2 * m.aiN) 4 + roundUp ((m.diN + m.aiN + 7) / 8) 4

/-- Size of a station's OUT stream, 05 R152. -/
def outStreamLen (m : StnMap) : Nat := roundUp ((m.doN + 7) / 8) 4 + roundUp (2 * m.aoN) 4

/-! ## The application image, 02 and 15 -/

/-- The address of an entry of section 0x05 is in use with a size that 15 R409 admits. -/
def WbEntry.sizeExp (e : WbEntry) : Nat := (e.addr &&& 0x3F).toNat
/-- First address of the region. -/
def WbEntry.base (e : WbEntry) : Nat := (e.addr &&& 0xFFFFFFF000).toNat
/-- First address after the region. -/
def WbEntry.lim (e : WbEntry) : Nat := e.base + 2 ^ e.sizeExp
/-- The region has an address of [lo, hi). -/
def WbEntry.meets (e : WbEntry) (lo hi : Nat) : Bool := e.base < hi && lo < e.lim
/-- Right `r` (0 R, 1 W, 2 X) of class `c` (0 M, 1 S, 2 U). -/
def WbEntry.right (e : WbEntry) (c r : Nat) : Bool := e.perm.getLsbD (3 * c + r)

/-- The task table of an image. -/
def AppImage.task (i : AppImage) (t : Nat) : Option TaskCfg := i.body.tasks.find? (·.num = t)

/-- The lane runs split in the image, 02 R41. -/
def AppBody.laneSplit (b : AppBody) (l : Nat) : Bool := b.splitLanes.getLsbD l

/-- 02 R39, 15 R418: the image's regions make the task an output owner. -/
def AppBody.owner (b : AppBody) (t : TaskCfg) : Bool :=
  !b.laneSplit t.lane &&
  b.wb.any fun e =>
    e.lanes.getLsbD t.lane && e.tasks.getLsbD t.num && e.right t.cls 1 &&
      (e.meets 0x02080000 0x02090000 || e.meets 0x10168000 0x10169000)

/-- A region grants write access to compared task code: the runtime (class M) or a compared task of the image, on a compared lane
that its LANES name (15 R409, 01 R30). -/
def AppBody.grantsCompared (b : AppBody) (e : WbEntry) : Bool :=
  let named (l : Nat) : Bool := e.lanes.getLsbD l && !b.laneSplit l
  (e.right 0 1 && (List.range 8).any named) ||
  b.tasks.any fun t => named t.lane && (t.cls = 1 || t.cls = 2) && e.tasks.getLsbD t.num && e.right t.cls 1

/-- A DRAM page to which the highest-numbered region of the image that holds it grants write access to compared task code: in full
follow it is mirror content (01 R30, 15 R411). -/
def AppBody.follows (b : AppBody) (a : Nat) : Bool :=
  0x0080000000 ≤ a && a < 0x0180000000 &&
  match b.wb.reverse.find? fun e => e.base ≤ a && a < e.lim with
  | some e => b.grantsCompared e
  | none => false

/-- The highest-numbered region of the image that holds an address grants a task write access there, on its lane (15 R411, R418). -/
def AppBody.taskWrites (b : AppBody) (t : TaskCfg) (a : Nat) : Bool :=
  match b.wb.reverse.find? fun e => e.base ≤ a && a < e.lim with
  | some e => e.lanes.getLsbD t.lane && e.tasks.getLsbD t.num && e.right t.cls 1
  | none => false

/-- Addresses at which what the image's regions grant can change. -/
def AppBody.edges (b : AppBody) : List Nat := b.wb.flatMap fun e => [e.base, e.lim]

/-- 02 R44: a cyclic task of period 1 that is an output owner. -/
def AppBody.direct (b : AppBody) (t : TaskCfg) : Bool := t.kind = .cyclic && t.e = 0 && b.owner t

/-- KiB of a task's input ranges with their quality bits, rounded up (02 R38, R45). -/
def TaskCfg.copyBits (t : TaskCfg) : Nat :=
  t.inputs.foldl (fun a r => a + r.2 * (if ptDigital r.1 then 3 else 18)) 0

/-- The mode and the value that a safe or substitute table holds for a point; ZERO where it lists none (02 R53). -/
def modeOf (l : List PtCfg) (p : Point) : BitVec 2 × BitVec 16 :=
  match l.find? (·.point = p) with
  | some c => (c.mode, c.value)
  | none => (0, 0)

/-- The value of a mode with the value to hold (02 R53, 04 R102). -/
def modeVal (m : BitVec 2 × BitVec 16) (held : BitVec 16) : BitVec 16 :=
  if m.1 = 2 then m.2 else if m.1 = 1 then held else 0

/-! ## Parsing of parameter buffers -/

/-- Request entries of FORCE_SET, 04 R105: point, value, reserved. -/
def parseForces (b : Buf) (n : Nat) : List (Point × Nat × Nat) :=
  (List.range n).map fun i =>
    (BitVec.ofNat 32 (b.field (8 * i) 4), b.field (8 * i + 4) 2, b.field (8 * i + 6) 2)

/-- Point addresses of FORCE_RELEASE, 13 R370. -/
def parsePoints (b : Buf) (n : Nat) : List Point := (List.range n).map fun i => BitVec.ofNat 32 (b.field (4 * i) 4)

/-- Gust entries, 16 R442: code, RATE, BURST, reserved. -/
def parseGust (b : Buf) (n : Nat) : List (Nat × Nat × Nat × Nat) :=
  (List.range n).map fun i => (b.field (8 * i) 2, b.field (8 * i + 2) 2, b.field (8 * i + 4) 2, b.field (8 * i + 6) 2)

/-- The codes whose 32-byte entry of a table at `base` has a listed byte other than zero. -/
def usedCodes (b : Buf) (base : Nat) : List Nat :=
  (b.cells.filter fun c => base ≤ c.1 && c.1 < base + 32768 && c.2 != 0).foldl
    (fun l c => let k := (c.1 - base) / 32; if l.contains k then l else l ++ [k]) []

/-- A station map entry, 04 R99. -/
def parseMap (b : Buf) (o : Nat) : StnMap :=
  { diBase := b.field o 4, doBase := b.field (o + 4) 4, aiBase := b.field (o + 8) 2, aoBase := b.field (o + 10) 2,
    diN := b.field (o + 12) 4, doN := b.field (o + 16) 4, aiN := b.field (o + 20) 2, aoN := b.field (o + 22) 2 }

/-- A station parameter entry, 07 R186. -/
def parsePar (b : Buf) (o : Nat) : StnPar :=
  { maker := b.field (o + 2) 2, devType := b.field (o + 4) 2, minFw := b.field (o + 6) 2, serial := b.field (o + 8) 8,
    lossCount := b.field (o + 16) 1, returnGood := b.field (o + 17) 1, holdCycles := b.field (o + 18) 2,
    encN := b.field (o + 20) 1 }

/-- A window entry, 05 R135. -/
def parseWin (b : Buf) (o : Nat) : WinEnt :=
  { start := b.field o 4, len := b.field (o + 4) 2, ty := b.field (o + 6) 1, path := b.field (o + 7) 1,
    owner := b.field (o + 8) 2, pexp := b.field (o + 10) 1, phase := b.field (o + 11) 1, part := b.field (o + 12) 1,
    rsvd := b.field (o + 13) 3 }

/-- A window entry's 16 bytes, 05 R135. -/
def Machine.WinEnt.enc (w : WinEnt) : List Byte :=
  le 4 w.start ++ le 2 w.len ++ le 1 w.ty ++ le 1 w.path ++ le 2 w.owner ++ le 1 w.pexp ++ le 1 w.phase ++
    le 1 w.part ++ le 3 w.rsvd

/-- An entry of the local channel block, 10 R257. -/
def parseLio (b : Buf) (o : Nat) : LioCfg :=
  { mode := b.field o 1, lflags := b.field (o + 1) 1, debounceUs := b.field (o + 2) 2, retryMs := b.field (o + 4) 2 }

/-- A signed field of 16 bits. -/
def int16 (n : Nat) : Int := (BitVec.ofNat 16 n).toInt
/-- A signed field of 8 bits. -/
def int8 (n : Nat) : Int := (BitVec.ofNat 8 n).toInt
/-- A signed field of 32 bits. -/
def int32 (n : Nat) : Int := (BitVec.ofNat 32 n).toInt

/-- The NET_CONFIGURE buffer, 13 R366, R367. -/
def parseNet (b : Buf) : NetCfg :=
  let codes := usedCodes b 0x8200
  { sched := b.field 2 2, t := b.field 4 4, s := b.field 8 4, i := b.field 12 4, o := b.field 16 4, a := b.field 20 4,
    matrixExp := b.field 24 1, profile := b.field 25 1, rank := b.field 26 2,
    src := { ports := b.field 0x40 1, domain := b.field 0x41 1, transport := b.field 0x42 1,
             maxClass := b.field 0x43 1, asym := int16 (b.field 0x44 2) },
    plain := ((b.cells.filter fun c => 0x80 ≤ c.1 && c.1 < 0x100).foldl
      (fun l c => l ++ ((List.range 8).filter fun j => c.2.getLsbD j).map fun j => 8 * (c.1 - 0x80) + j) []),
    lio := (List.range 16).map fun i => parseLio b (0x100 + 16 * i),
    map := (usedCodes b 0x200).foldl (fun l k => aset k (parseMap b (0x200 + 32 * k)) l) [],
    par := (codes.filter fun k => (b.byte (0x8200 + 32 * k)).getLsbD 0).foldl
      (fun l k => aset k (parsePar b (0x8200 + 32 * k)) l) [],
    wins := (List.range (b.field 28 4)).map fun i => parseWin b (0x10200 + 16 * i) }

end Sys2Proof
end

