-- ==== Sys2Proof/Machine/Ops.lean ====
section
/-! DEFINITION. Named operations over the state: time, memory in its canonical form, the process image, free values,
records, events, interrupts and completions. -/

namespace Sys2Proof.Machine
open Sys2Proof

/-! ## Time, 00 R8, 17 R446 -/

/-- The clock at a later physical instant: network time advances with it by the rate in force (08 R202). -/
def Clk.to (c : Clk) (t : Nat) : Clk :=
  if t ≤ c.now then c
  else
    let r := c.rem + c.rate * ((t : Int) - c.now)
    { c with now := t, netOfs := c.netOfs + r / 1000000000, rem := r % 1000000000 }

/-- The clock at an instant in network time, at most 1 ns late on the physical clock. -/
def Clk.toNet (c : Clk) (t : Nat) : Clk :=
  let d : Int := (t : Int) - ((c.now : Int) + c.netOfs)
  if d ≤ 0 then c
  else
    let now := ((c.now : Int) + (d * 1000000000 + 999999999 + c.rate) / (1000000000 + c.rate)).toNat
    { c with now := now, netOfs := (t : Int) - now, rem := 0 }

/-- One nanosecond of the physical clock passes (log entry 2). -/
def State.tick (s : State) : State := { s with clk := s.clk.to (s.clk.now + 1) }

/-- A command that the manual places at a physical instant brings the clock to it (log entry 2). -/
def State.reach (s : State) (t : Nat) : State := { s with clk := s.clk.to t }

/-- The same for an instant in network time. -/
def State.reachNet (s : State) (t : Nat) : State := { s with clk := s.clk.toNet t }

/-- The PAIR_CTRL writes of at least 10 ms ago stand in settings block 0x0002 (21 R521). -/
def Pair.ctrlDue (p : Pair) (now : Nat) : Pair :=
  { p with stored := (((p.ctrl.filter fun x => x.1 + 10000000 ≤ now).getLast?).map (·.2)).getD p.stored
           ctrl := p.ctrl.filter fun x => now < x.1 + 10000000 }

/-- Network time of the module in ns (05 R127). -/
def State.netTime (s : State) : Nat := ((s.clk.now : Int) + s.clk.netOfs).toNat

/-- Last second of the calendar's range, 17 R445. -/
def calMax : Nat := 12622780799

/-- Millionths of the nominal rate at which the calendar counts: the crystal, corrected by TRIM (17 R449). -/
def Rtc.speed (r : Rtc) : Nat := (1000000 + r.crystal + r.trim).toNat

/-- The calendar at a physical instant, in units of 2^−15 s; it stays at its last second (17 R447). -/
def Rtc.units (r : Rtc) (now : Nat) : Nat :=
  min (r.cal + (now - r.calAt) * 32768 * r.speed / 1000000000000000) (calMax * 32768)

/-- The physical instant at which the calendar reaches a count. -/
def Rtc.instant (r : Rtc) (units : Nat) : Nat :=
  r.calAt + ((units - r.cal) * 1000000000000000 + 32768 * r.speed - 1) / (32768 * r.speed)

/-- Count on from an instant, before TRIM changes. -/
def Rtc.rebase (r : Rtc) (now : Nat) : Rtc := { r with cal := r.units now, calAt := now }

/-- CAL_SEC, 17 R445. -/
def Rtc.sec (r : Rtc) (now : Nat) : Nat := r.units now / 32768

/-- Network time of a calendar value in ns, 17 R446. -/
def calToNet (units : Nat) (taiUtc : Int) : Nat :=
  (((units / 32768 : Nat) : Int) + taiUtc).toNat * 1000000000 + units % 32768 * 1000000000 / 32768

/-- The calendar value of a network time, 17 R446. -/
def netToCal (t : Int) (taiUtc : Int) : Nat :=
  ((t - taiUtc * 1000000000) * 32768 / 1000000000).toNat

/-- The instant that records and stored happenings carry: network time, or before it is established the calendar
converted to TAI (16 R432, 03 R85). -/
def State.stamp (s : State) : Nat :=
  if s.clk.netOn then s.netTime else calToNet (s.rtc.units s.clk.now) s.rtc.taiUtc

/-- Network time is held established: by the time leader, or by a follower with a valid time transfer (17 R449). -/
def State.timeHeld (s : State) : Bool := s.clk.netOn && (s.net.start = .lead || s.net.start = .follow)

/-- T of the configuration in force, 0 without one. -/
def State.t (s : State) : Nat := (s.net.cfg.map (·.t)).getD 0

/-- C(N), 05 R128: the start of the present cycle in network time. -/
def State.cycleStart (s : State) : Nat := s.cyc.c0 + s.cyc.n * s.t

/-- C(n) for a cycle number, 05 R128. -/
def State.startOf (s : State) (n : Nat) : Nat := s.cyc.c0 + n * s.t

/-- Network time of the still point of cycle n, 02 R34. -/
def State.stillOf (s : State) (n : Nat) : Nat := s.startOf n + (s.net.cfg.map (·.s)).getD 0

/-! ## Free values, log entry 3 -/

/-- Draw a free 512-bit value. -/
def State.draw (s : State) : BitVec 512 × State :=
  (Config.freeWord s.free, { s with free := s.free + 1 })

/-- Draw a free number. -/
def State.drawNat (s : State) : Nat × State :=
  ((Config.freeNat s.free).toNat, { s with free := s.free + 1 })

/-! ## Memory -/

/-- Byte at an address; an address that is not listed holds 0 (18 R473). -/
def memGet : List Host.Cell → Nat → Byte
  | [], _ => 0
  | (i, b) :: m, a => if i = a then b else memGet m a

/-- Store a byte, keeping addresses rising and no entry at 0. -/
def memSet : List Host.Cell → Nat → Byte → List Host.Cell
  | [], a, v => if v = 0 then [] else [(a, v)]
  | (i, b) :: m, a, v =>
    if i < a then (i, b) :: memSet m a v
    else if i = a then (if v = 0 then m else (a, v) :: m)
    else (if v = 0 then (i, b) :: m else (a, v) :: (i, b) :: m)

/-- The canonical form of memory: addresses strictly rising, no entry equal to what an unlisted address reads as. -/
def memWf : List Host.Cell → Bool
  | [] => true
  | (_, b) :: [] => b != 0
  | (i, b) :: (j, c) :: m => b != 0 && decide (i < j) && memWf ((j, c) :: m)

/-- Store a run of bytes. -/
def memPut (m : List Host.Cell) (a : Nat) : List Byte → List Host.Cell
  | [] => m
  | b :: bs => memPut (memSet m a b) (a + 1) bs

/-- Read a run of bytes. -/
def memBytes (m : List Host.Cell) (a k : Nat) : List Byte := (List.range k).map fun i => memGet m (a + i)

/-- Zero a range. -/
def memClear (m : List Host.Cell) (a k : Nat) : List Host.Cell := m.filter fun c => c.1 < a || a + k ≤ c.1

/-- Store a list of cells. -/
def memCells (m : List Host.Cell) : List Host.Cell → List Host.Cell
  | [] => m
  | c :: cs => memCells (memSet m c.1 c.2) cs

/-- Cells of a range, moved to another base. -/
def memTake (m : List Host.Cell) (a k b : Nat) : List Host.Cell :=
  (m.filter fun c => a ≤ c.1 && c.1 < a + k).map fun c => (c.1 - a + b, c.2)

/-- Copy a range over another. -/
def memCopy (m : List Host.Cell) (a b k : Nat) : List Host.Cell := memCells (memClear m b k) (memTake m a k b)

/-- A number of `k` bytes at an address. -/
def memNum (m : List Host.Cell) (a k : Nat) : Nat := unle (memBytes m a k)

/-! ## Mirror content, 11 R288, 01 R30 -/

/-- Insert a line address once, ascending. -/
def insLine (a : Nat) : List Nat → List Nat
  | [] => [a]
  | b :: l => if a = b then b :: l else if a < b then a :: b :: l else b :: insLine a l

/-- The address lies in the mirror content of the running image that mirror lines carry (11 R288, R289, 01 R30, 09 R221). In full follow
the input blocks are shipped in no mode (R288), and the publication block is out of the mirror engine's reach (21 R530; log entry 90). -/
def mirrored (img : Option AppImage) (a : Nat) : Bool :=
  (0x02080000 ≤ a && a < 0x020C0000) || (0x02100000 ≤ a && a < 0x021C0000) ||
  (0x0160000000 ≤ a && a < 0x017C000000) ||
  (match img with
   | none => false
   | some i =>
     if i.body.mirrorFull then
       (0x01000000 ≤ a && a < 0x017C0000) || (0x021C0000 ≤ a && a < 0x02200000) || i.body.follows (a / 4096 * 4096)
     else i.body.mirror.any fun r => r.base ≤ a && a < r.base + 4096 * r.pages)

/-- Mark the lines of a write of `k` bytes dirty, in a primary (11 R291). -/
def State.mark (s : State) (a k : Nat) : State :=
  if s.pair.role = .primary ∧ 0 < k then
    let lines := (List.range ((a + k - 1) / 64 - a / 64 + 1)).map fun i => (a / 64 + i) * 64
    let lines := lines.filter (mirrored s.chg.running)
    { s with pair := { s.pair with
        dirty := lines.foldl (fun d l => insLine l d) s.pair.dirty
        again := s.pair.again + lines.countP s.pair.dirty.contains } }
  else s

/-- A completed write to memory: the bytes and the dirty lines. -/
def State.store (s : State) (a : Nat) (bs : List Byte) : State :=
  ({ s with mem := memPut s.mem a bs } : State).mark a bs.length

/-- Read a run of bytes of memory. -/
def State.bytes (s : State) (a k : Nat) : List Byte := memBytes s.mem a k

/-! ## The process image, 04 R93 to R96 -/

/-- Block bases of 04 R93. -/
def inView : Nat := 0x02000000
def hidden : Nat := 0x02040000
def outImage : Nat := 0x02080000
def snapBlock : Nat := 0x020C0000
def substBlock : Nat := 0x02100000
def safeBlock : Nat := 0x02140000
def forceBlock : Nat := 0x02180000
/-- Size of a block. -/
def blockLen : Nat := 0x40000
/-- Offset of the image header. -/
def hdrOfs : Nat := 0x21000

/-- Replace bit `i` of a byte. -/
def setBit8 (b : Byte) (i : Nat) (v : Bool) : Byte :=
  if v then b ||| (1#8 <<< i) else b &&& ~~~(1#8 <<< i)

/-- Value of the point of a kind at a position of a block, 04 R95. -/
def ptGet (m : List Host.Cell) (base kind pos : Nat) : BitVec 16 :=
  if kind < 2 then (if (memGet m (base + pos / 8)).getLsbD (pos % 8) then 1 else 0)
  else BitVec.ofNat 16 (memNum m (base + 0x8000 + 2 * pos) 2)

/-- Set the value of a point in a block. -/
def ptSet (m : List Host.Cell) (base kind pos : Nat) (v : BitVec 16) : List Host.Cell :=
  if kind < 2 then memSet m (base + pos / 8) (setBit8 (memGet m (base + pos / 8)) (pos % 8) (v.getLsbD 0))
  else memPut m (base + 0x8000 + 2 * pos) (le 2 v.toNat)

/-- Address and length of a point's value in a block. -/
def ptSpan (base kind pos : Nat) : Nat × Nat :=
  if kind < 2 then (base + pos / 8, 1) else (base + 0x8000 + 2 * pos, 2)

/-- Address of the byte that holds a point's quality. -/
def qualAddr (base kind pos : Nat) : Nat := (if kind < 2 then base + 0x10000 else base + 0x20000) + pos / 4

/-- Quality (or mode) of a point in a block. -/
def qualGet (m : List Host.Cell) (base kind pos : Nat) : BitVec 2 :=
  BitVec.ofNat 2 ((memGet m (qualAddr base kind pos)).toNat / 4 ^ (pos % 4))

/-- Set the quality (or mode) of a point in a block. -/
def qualSet (m : List Host.Cell) (base kind pos : Nat) (q : BitVec 2) : List Host.Cell :=
  let a := qualAddr base kind pos
  let b := (memGet m a).toNat
  let w := 4 ^ (pos % 4)
  memSet m a (BitVec.ofNat 8 (b - b / w % 4 * w + q.toNat * w))

/-- The image header's 64 bytes, 04 R96. -/
def imageHeader (n still done forces flags subst : Nat) : List Byte :=
  le 8 n ++ le 8 still ++ le 8 done ++ le 2 forces ++ le 2 flags ++ le 4 subst ++ List.replicate 32 0

/-! ## Conditions that many rules name -/

/-- The module is in Lull service (18 R484). -/
def State.lull (s : State) : Bool := s.pwr.lullService && !s.pwr.full

/-- The module is the VANE holder, 11 R279. -/
def State.holder (s : State) : Bool := s.pair.own && !s.pair.other

/-- The module is PRIMARY, with a partner or alone (11 R286). -/
def State.primary (s : State) : Bool := s.pair.role = .primary

/-- The partner is in pair duty, 11 R286. -/
def State.partnerDuty (s : State) : Bool :=
  match s.pair.hb with
  | some h => !s.pair.hbLost && s.pair.leave = 0 && (h.role = 1 || h.role = 2)
  | none => false

/-- The partner stands in STANDBY. -/
def State.partnerStandby (s : State) : Bool :=
  match s.pair.hb with
  | some h => s.partnerDuty && h.role = 2
  | none => false

/-- The link carries messages: a lane up and authenticated (11 R283, 14 R393). -/
def State.linked (s : State) : Bool := s.pair.lanes ≠ 0 && s.pair.auth

/-- Bit of PFLAGS in the partner's last heartbeat, 11 R284. -/
def State.partnerFlag (s : State) (i : Nat) : Bool :=
  match s.pair.hb with
  | some h => h.pflags.getLsbD i
  | none => false

/-- The partner is a current standby and neither in Calm (as its own) nor locked out: able to take over (03 R83). -/
def State.partnerAble (s : State) : Bool := s.partnerStandby && s.pair.partnerCur && !s.partnerFlag 3

/-- The tasks of the running image. -/
def State.tasks (s : State) : List TaskCfg := (s.chg.running.map (·.body.tasks)).getD []

/-- The task table entry of a task number. -/
def State.taskCfg (s : State) (t : Nat) : Option TaskCfg := s.chg.running.bind (·.task t)

/-- A task of the image is READY or RUNNING. -/
def State.busyTask (s : State) : Bool :=
  s.tasks.any fun t => (s.lanes.task.toList.getD t.num {}).st = .ready || (s.lanes.task.toList.getD t.num {}).st = .running

/-- State of a task number. -/
def State.taskAt (s : State) (t : Nat) : Task := s.lanes.task.toList.getD t {}

/-- Update a task. -/
def State.onTask (s : State) (t : Nat) (f : Task → Task) : State :=
  { s with lanes := { s.lanes with task := s.lanes.task.setIfInBounds t (f (s.taskAt t)) } }

/-- The lane-fault record: the newer of its two flash copies (03 R85). -/
def Lanes.faultLog (l : Lanes) : List Nat := if l.faultRec[1].1 ≤ l.faultRec[0].1 then l.faultRec[0].2 else l.faultRec[1].2

/-- Write the lane-fault record: the older copy takes the new content (03 R85). -/
def Lanes.logFaults (l : Lanes) (log : List Nat) : Lanes :=
  if l.faultRec[1].1 ≤ l.faultRec[0].1 then { l with faultRec := l.faultRec.set 1 (l.faultRec[0].1 + 1, log) }
  else { l with faultRec := l.faultRec.set 0 (l.faultRec[1].1 + 1, log) }

/-- The force store: the newer of its two flash copies (18 R480). -/
def Img.saved (i : Img) : List Force × List FChange := if i.store[1].1 ≤ i.store[0].1 then i.store[0].2 else i.store[1].2

/-- Write the force store: the older copy takes the table and its waiting changes (18 R480). -/
def Img.save (i : Img) : Img :=
  if i.store[1].1 ≤ i.store[0].1 then { i with store := i.store.set 1 (i.store[0].1 + 1, i.force, i.changes) }
  else { i with store := i.store.set 0 (i.store[1].1 + 1, i.force, i.changes) }

/-- A lane, 8 the management lane. -/
def State.laneAt (s : State) (l : Nat) : Lane := s.lanes.lane.toList.getD l {}

/-- Update a lane. -/
def State.onLane (s : State) (l : Nat) (f : Lane → Lane) : State :=
  { s with lanes := { s.lanes with lane := s.lanes.lane.setIfInBounds l (f (s.laneAt l)) } }

/-- A copy of a lane. -/
def Lane.copy (l : Lane) : Side → LaneCopy
  | .a => l.a
  | .b => l.b

/-- Update a copy of a lane. -/
def Lane.onCopy (l : Lane) (c : Side) (f : LaneCopy → LaneCopy) : Lane :=
  match c with
  | .a => { l with a := f l.a }
  | .b => { l with b := f l.b }

/-- The start of a lane: nothing counted, nothing outstanding, both copies at their entry points, L1 caches invalidated
(03 R60, R62, R75). -/
def LaneCopy.start (c : LaneCopy) : LaneCopy :=
  { c with items := 0, checks := 0, waiting := false, reserve := none, skew := [], ret := 0, muted := false, exc := none }

/-- The lane starts: the buffers of both copies are empty and no event waits. -/
def Lane.start (l : Lane) : Lane :=
  { l with halted := false, debugHalt := false, stillAt := none, a := l.a.start, b := l.b.start, wait := none, waitOver := []
           awaiting := [], pending := [], delivered := [], l1Inval := true }

/-- Both copies of the lane stand in a matched WAIT; a split lane: each copy stands in its own (03 R66, R73). -/
def Lane.inWait (l : Lane) : Bool := if l.split then l.a.waiting && l.b.waiting else l.wait.isSome

/-- The lane takes the mode that waits for it, once both copies stand in a matched WAIT or are halted; the lane starts again: compared,
both copies at the runtime's entry point; split, each at that of its own first split task (02 R41, 03 R75). -/
def Lane.takeMode (l : Lane) : Lane :=
  match l.modeDue with
  | some (split, ea, eb) =>
    if l.halted || l.inWait then
      let n := l.start
      { n with
        split := split, halted := l.halted, modeDue := none, pending := l.pending
        a := { n.a with entry := ea }, b := { n.b with entry := eb } }
    else l
  | none => l

/-- The lane starts and its copies stand in a matched WAIT (11 R297, R298). -/
def Lane.rest (l : Lane) : Lane :=
  let n := l.start
  { n with wait := some 0, a := { n.a with waiting := true }, b := { n.b with waiting := true } }

/-- The task lanes of a standby: each stands in a matched WAIT. -/
def State.restLanes (s : State) : State :=
  { s with lanes := { s.lanes with lane := Vector.ofFn fun i : Fin 9 => if i.val < 8 then (s.lanes.lane[i]).rest else s.lanes.lane[i] } }

/-- Start the task lanes. -/
def State.startLanes (s : State) : State :=
  { s with lanes := { s.lanes with lane := Vector.ofFn fun i : Fin 9 => if i.val < 8 then (s.lanes.lane[i]).start else s.lanes.lane[i] } }

/-- Invalidate the L1 caches of the task lanes (03 R62). -/
def State.invalL1 (s : State) : State :=
  { s with lanes := { s.lanes with lane := Vector.ofFn fun i : Fin 9 =>
      if i.val < 8 then { s.lanes.lane[i] with l1Inval := true } else s.lanes.lane[i] } }

/-- A station of the module's manager. -/
def State.stnAt (s : State) (code : Nat) : Option StnM := s.stnM.find? (·.code = code)

/-- Update a station of the module's manager. -/
def State.onStnM (s : State) (code : Nat) (f : StnM → StnM) : State :=
  { s with stnM := s.stnM.map fun x => if x.code = code then f x else x }

/-- A station's own state. -/
def State.stnOf (s : State) (code : Nat) : Option Stn := s.stn.find? (·.code = code)

/-- Update a station's own state; a station the model has not met begins powered up at its defaults. -/
def State.onStn (s : State) (code : Nat) (f : Stn → Stn) : State :=
  if s.stn.any (·.code = code) then { s with stn := s.stn.map fun x => if x.code = code then f x else x }
  else { s with stn := s.stn ++ [f { code := code }] }

/-- Confidential application image, 12 R310 IFLAGS bit 0. -/
def State.confidential (s : State) : Bool :=
  match s.chg.running with
  | some i => i.hdr.iflags.getLsbD 0
  | none => false

/-! ## Records, 16 -/

/-- SOURCE of a record, 16 R433. -/
def srcOf (block inst : Nat) : Nat := block * 2048 + (if inst < 2048 then inst else 0)

/-- Payload of items of 8 bytes, 16 R434. -/
def items (l : List Nat) : List Byte := l.flatMap (le 8)

/-- Codes marked C, 16 R435, 17 R461, 18 R488, 19 R499. -/
def critical (code : Nat) : Bool :=
  [0x0001, 0x0006, 0x0007, 0x0009, 0x0010, 0x0011, 0x0100, 0x0200, 0x0300, 0x0301, 0x0302, 0x0303, 0x0402, 0x0802, 0x0803, 0x0804,
   0x0900, 0x0901, 0x0904, 0x0905, 0x0906, 0x0907, 0x090E, 0x0A00, 0x0A01, 0x0A03, 0x0A04, 0x0A05, 0x0A07,
   0x0C00, 0x0C01, 0x0C02, 0x0C04, 0x0C05, 0x0C06, 0x0E00, 0x0E01, 0x0E05, 0x0E06,
   0x0F00, 0x0F01, 0x0F02, 0x0F04, 0x0F05, 0x0F06, 0x0F07, 0x0F08, 0x0F09, 0x0F0A,
   0x1001, 0x1002, 0x1003, 0x1004].contains code

/-- Codes marked N: never limited. -/
def unlimited (code : Nat) : Bool := [0x0005, 0x0C03, 0x0D00, 0x0D01].contains code

/-- Codes marked W: severity 1. -/
def warning (code : Nat) : Bool :=
  [0x0002, 0x0003, 0x0004, 0x0101, 0x0102, 0x0103, 0x0104, 0x0201, 0x0400, 0x0403, 0x0405, 0x0406, 0x0409, 0x040A,
   0x0500, 0x0504, 0x0505, 0x0507, 0x0600, 0x0601, 0x0602, 0x0603, 0x0700, 0x0701, 0x0702, 0x0703, 0x0704, 0x0706,
   0x0707, 0x0800, 0x0801, 0x0903, 0x0908, 0x0909, 0x090A, 0x090D, 0x0A02, 0x0C03, 0x0D00, 0x0D01, 0x0F0B].contains code

/-- The other codes that are assigned. -/
def plainCode (code : Nat) : Bool :=
  [0x0008, 0x0304, 0x0401, 0x0404, 0x0407, 0x0408, 0x0501, 0x0502, 0x0503, 0x0506, 0x0705, 0x0902, 0x090B, 0x090C,
   0x0A06, 0x0E02, 0x0E03, 0x0E04, 0x0E07, 0x0F03, 0x1000].contains code

/-- A code that the gust limit can act on, 16 R440. -/
def limitable (code : Nat) : Bool := (warning code || plainCode code) && !critical code && !unlimited code

/-- SEVERITY, 16 R432. -/
def severity (code : Nat) : Nat := if critical code then 2 else if warning code then 1 else 0

/-- LENGTH of a record. -/
def Rec.len (r : Rec) : Nat := 24 + r.pay.length

/-- Bytes of a run of records. -/
def recBytes (l : List Rec) : Nat := l.foldl (fun a r => a + r.len) 0

/-- The bytes of a record, 16 R432. -/
def Rec.enc (r : Rec) : List Byte :=
  le 4 r.seq ++ le 2 r.len ++ le 2 r.code ++ le 8 r.time ++ le 2 r.src ++ le 1 (severity r.code) ++ le 1 r.party ++
    le 2 r.flags.toNat ++ le 2 r.boot ++ r.pay

/-- Discard whole records, oldest first, until `need` more bytes fit in `cap` (16 R428). -/
def makeRoom (cap need : Nat) : List Rec → List Rec
  | [] => []
  | r :: l => if recBytes (r :: l) + need ≤ cap then r :: l else makeRoom cap need l

/-- RATE and BURST of a code, 16 R440, R442. -/
def Recd.limit (r : Recd) (code : Nat) : Nat × Nat :=
  match r.gust.find? (fun g => g.1 = code) with
  | some g => g.2
  | none => (100, 1000)

/-- The bucket of a code, full where none is held. -/
def Recd.bucket (r : Recd) (code : Nat) (now : Nat) : Bucket :=
  match r.buckets.find? (·.code = code) with
  | some b => b
  | none => { code := code, tokens := (r.limit code).2 * 1000000000, at_ := now }

/-- A bucket brought to an instant: it gains RATE tokens per second while below BURST (16 R440). -/
def Recd.fill (r : Recd) (b : Bucket) (now : Nat) : Bucket :=
  { b with tokens := min ((r.limit b.code).2 * 1000000000) (b.tokens + (r.limit b.code).1 * (now - b.at_)), at_ := now }

/-- Hold a bucket in place of the one of its code. -/
def Recd.put (r : Recd) (b : Bucket) : Recd :=
  { r with buckets := b :: r.buckets.filter fun x => x.code ≠ b.code }

/-- FLAGS of a record, 16 R432. -/
def State.recFlags (s : State) (code : Nat) (follow : Bool) : BitVec 16 :=
  BitVec.ofNat 16 ((if s.img.force.isEmpty then 0 else 1) + (if follow then 2 else 0) + (if critical code then 4 else 0)
    + (if s.calm.on then 8 else 0) + (if s.lull then 16 else 0) + (if s.clk.netOn then 0 else 32))

/-- Write a record into the ring: it takes its SEQ here (16 R428, R431); a critical one is due for the archive. -/
def Recd.write (d : Recd) (r : Rec) : Recd :=
  let r := { r with seq := d.seq }
  { d with ring := makeRoom 0x4000000 r.len d.ring ++ [r]
           seq := (d.seq + 1) % 2 ^ 32
           seqFlash := if d.seq % 65536 = 0 then d.seq else d.seqFlash
           due := if critical r.code then d.due ++ [r] else d.due
           wrote := abump r.code 1 d.wrote }

/-- Remove the newest non-critical record of a list. -/
def dropNewest (l : List Rec) : Option (List Rec) :=
  match l.reverse.findIdx? fun r => !critical r.code with
  | some i => some (l.eraseIdx (l.length - 1 - i))
  | none => none

/-- Hold a record in AON, 16 R430: a critical one displaces the newest non-critical ones, as many as it needs. -/
def Recd.toHold (d : Recd) (r : Rec) : Nat → Recd
  | 0 => { d with holdLost := d.holdLost + 1 }
  | k + 1 =>
    if recBytes d.hold + r.len ≤ 16384 then { d with hold := d.hold ++ [r] }
    else if critical r.code then
      match dropNewest d.hold with
      | some l => Recd.toHold { d with hold := l, holdLost := d.holdLost + 1 } r k
      | none => { d with holdLost := d.holdLost + 1 }
    else { d with holdLost := d.holdLost + 1 }

/-- Put a record where it goes: the ring while it is served, else the hold buffer (16 R430). -/
def Recd.take (d : Recd) (r : Rec) : Recd :=
  if d.served then d.write r else d.toHold r (d.hold.length + 2)

/-- The GUST record of a bucket, 16 R441. -/
def gustRec (b : Bucket) (time boot : Nat) (flags : BitVec 16) : Rec :=
  { code := 0x0005, time := time, src := srcOf 16 0, flags := flags, boot := boot,
    pay := items [b.code, b.sup, b.first, b.last] }

/-- Write a record under the gust limit, 16 R440 to R443. -/
def State.putRec (s : State) (r : Rec) : State :=
  let lim := s.recd.limit r.code
  if !limitable r.code || lim = (0, 0) then { s with recd := s.recd.take r }
  else
    let b := s.recd.fill (s.recd.bucket r.code s.clk.now) s.clk.now
    if 1000000000 ≤ b.tokens then
      let d := if 0 < b.sup then s.recd.take (gustRec b s.stamp (s.keys.boot % 65536) (s.recFlags 5 false)) else s.recd
      { s with recd := (d.put { b with tokens := b.tokens - 1000000000, sup := 0 }).take r }
    else
      let b := { b with sup := b.sup + 1, first := if b.sup = 0 then r.time else b.first, last := r.time }
      { s with recd := { s.recd.put b with supp := abump r.code 1 s.recd.supp } }

/-- Count a happening, whatever becomes of its record (16 R443, 13 R553). -/
def bumpHappen (code inst : Nat) : List (Nat × Nat × Nat) → List (Nat × Nat × Nat)
  | [] => [(code, inst, 1)]
  | (c, i, k) :: l => if c = code ∧ i = inst then (c, i, satAdd 64 k 1) :: l else (c, i, k) :: bumpHappen code inst l

/-- A record, its happening counted for an instance that 13 R553 names. -/
def State.recordFor (s : State) (code src inst : Nat) (pay : List Byte) (party : Nat) (follow : Bool) : State :=
  let s := { s with recd := { s.recd with happen := bumpHappen code inst s.recd.happen } }
  s.putRec { code := code, time := s.stamp, src := src, party := party, flags := s.recFlags code follow,
             boot := s.keys.boot % 65536, pay := pay }

/-- A record by its code, source, payload, party and FOLLOW flag; its happening counts for the instance of its source. -/
def State.recordBy (s : State) (code src : Nat) (pay : List Byte) (party : Nat) (follow : Bool) : State :=
  s.recordFor code src (src % 2048) pay party follow

/-- A record of 8-byte items without a party. -/
def State.record (s : State) (code src : Nat) (l : List Nat) : State := s.recordBy code src (items l) 0 false

/-- SETUP_ERROR, 00 R11: register offset and value written. -/
def State.setupError (s : State) (ofs : Nat) (v : Nat) : State := s.record 0x0002 (srcOf 0 0) [ofs, v]

/-! ## Interrupts, events and completions, 13 -/

/-- A span of host memory cut at the multiples of `most`: what one request of the endpoint may carry (13 R335). -/
def pieces (most : Nat) : Nat → Nat → Nat → List (Nat × Nat)
  | 0, _, _ => []
  | f + 1, a, n => if n = 0 then [] else (a, min n (most - a % most)) :: pieces most f (a + min n (most - a % most)) (n - min n (most - a % most))

/-- Write host memory: requests of at most 256 bytes, in order (13 R335). -/
def State.hostWrite (s : State) (addr : Nat) (data : List Byte) : State :=
  { s with host := { s.host with
    dma := s.host.dma ++ (pieces 256 data.length addr data.length).map fun x =>
      (BitVec.ofNat 64 x.1, (data.drop (x.1 - addr)).take x.2) } }

/-- Read host memory: requests of at most 512 bytes (13 R335). -/
def State.hostRead (s : State) (addr len : Nat) : State :=
  { s with host := { s.host with reads := s.host.reads ++ (pieces 512 len addr len).map fun x => (BitVec.ofNat 64 x.1, x.2) } }

/-- An entry of 32 bytes goes to its ring as two posted writes, the last 4 bytes behind the others (13 R353, R356). -/
def State.writeEntry (s : State) (addr : Nat) (b : List Byte) : State := (s.hostWrite addr (b.take 28)).hostWrite (addr + 28) (b.drop 28)

/-- The 32 bytes of a completion, 13 R351. -/
def Cpl.bytes (c : Cpl) : List Byte :=
  le 4 c.cmdId.toNat ++ le 2 c.opcode ++ le 1 c.status ++ le 1 c.kind ++ le 8 c.r0.toNat ++ le 8 c.r1.toNat ++ le 2 c.sqHead ++
    le 1 c.queue ++ le 1 0 ++ le 2 c.detail ++ le 2 (if c.phase then 1 else 0)

/-- The 32 bytes of an event entry, 13 R356. -/
def EvEnt.bytes (e : EvEnt) : List Byte :=
  le 2 e.code ++ le 2 0 ++ le 4 e.seq ++ le 8 e.time ++ e.param ++ le 2 0 ++ le 2 (if e.phase then 1 else 0)

/-- Send or defer the message of a vector, 13 R358; of two holdoffs the one that ends first (rings may share a vector). -/
def State.signal (s : State) (vec holdoff : Nat) : State :=
  let m := s.host.msi.toList.getD vec {}
  let m :=
    if m.masked then { m with pba := true }
    else match m.last with
      | some t =>
        if s.clk.now < t + holdoff * 1000 then
          { m with due := true, dueAt := if m.due then min m.dueAt (t + holdoff * 1000) else t + holdoff * 1000 }
        else { m with last := some s.clk.now, sent := m.sent + 1, due := false }
      | none => { m with last := some s.clk.now, sent := m.sent + 1, due := false }
  { s with host := { s.host with msi := s.host.msi.setIfInBounds vec m } }

/-- The reference that feeds a clocked island, 01 R19: 0 for reference 1, which feeds the copies A, FAB and NET, 1 for reference 2; none for
AON (islands: 19 R490). -/
def refOf (i : Nat) : Option Nat :=
  if i < 8 || i = 16 || i = 19 || i = 21 then some 0 else if i < 24 then some 1 else none

/-- The clock of an island has stopped: its reference, or its PLL is out of lock (01 R19). -/
def State.unclocked (s : State) (i : Nat) : Bool :=
  s.pwr.pllBad.getLsbD i || ((refOf i).map fun r => s.pwr.refStop.getLsbD r).getD false

/-- Put an entry into the event ring, which has room (13 R356). -/
def EvRing.push (r : EvRing) (e : EvEnt) : EvRing :=
  { r with ents := r.ents ++ [{ e with phase := r.phase, seq := r.seq }], post := (r.post + 1) % r.size, used := r.used + 1,
           phase := if r.post + 1 = r.size then !r.phase else r.phase, seq := (r.seq + 1) % 2 ^ 32 }

/-- Post an event to the ring and to every service connection (13 R356, R357). -/
def State.event (s : State) (code : Nat) (param : List Byte) : State :=
  let e : EvEnt := { code := code, seq := s.host.ev.seq, time := s.stamp, param := param, phase := false }
  let conn := s.host.conn.map fun c => c.map fun c => { c with evs := c.evs ++ [e] }
  let s : State := { s with host := { s.host with conn := conn } }
  if s.host.ev.st = .enabled then
    if s.host.ev.used < s.host.ev.size then
      let s := s.writeEntry (s.host.ev.base.toNat + 32 * s.host.ev.post) ({ e with phase := s.host.ev.phase } : EvEnt).bytes
      ({ s with host := { s.host with ev := s.host.ev.push e } } : State).signal s.host.ev.vector s.host.ev.holdoff
    else { s with host := { s.host with ev := { s.host.ev with lost := s.host.ev.lost + 1, lostNow := s.host.ev.lostNow + 1,
                                                               seq := (s.host.ev.seq + 1) % 2 ^ 32 } } }
  else { s with host := { s.host with ev := { s.host.ev with seq := (s.host.ev.seq + 1) % 2 ^ 32 } } }

/-- A queue. -/
def State.hq (s : State) (q : Nat) : HQ := s.host.q.toList.getD q {}

/-- Update a queue. -/
def State.onHq (s : State) (q : Nat) (f : HQ → HQ) : State :=
  { s with host := { s.host with q := s.host.q.setIfInBounds q (f (s.hq q)) } }

/-- Put a completion into a CQ that has room (13 R353). -/
def HQ.push (q : HQ) (c : Cpl) : HQ :=
  { q with cq := q.cq ++ [{ c with phase := q.phase, sqHead := q.sqHead }], cqPost := (q.cqPost + 1) % q.size,
           used := q.used + 1, phase := if q.cqPost + 1 = q.size then !q.phase else q.phase }

/-- Post a completion to a queue whose CQ has room (13 R351, R353). -/
def State.putCpl (s : State) (q : Nat) (c : Cpl) : State :=
  let h := s.hq q
  (s.writeEntry (h.cqBase.toNat + 32 * h.cqPost) ({ c with phase := h.phase, sqHead := h.sqHead } : Cpl).bytes).onHq q fun h => h.push c

/-- A held PROGRESS that a later completion of the same command replaces (13 R354). -/
def Cpl.replaces (c w : Cpl) : Bool := w.kind = 2 && w.cmdId = c.cmdId && w.opcode = c.opcode && w.session = c.session

/-- Post a completion, 13 R351 to R354, R338, R343, R378. -/
def State.post (s : State) (src : Src) (c : Cpl) : State :=
  match src with
  | .self => s
  | .conn k =>
    let x := s.host.conn[k].map fun x => { x with cpls := x.cpls ++ [{ c with phase := false, sqHead := 0, queue := 0 }] }
    { s with host := { s.host with conn := s.host.conn.set k.val x } }
  | .queue q =>
    let h := s.hq q.val
    let c := { c with queue := q.val }
    if h.st = .enabled then
      if h.used < h.size ∧ h.waiting = [] then
        let s := s.putCpl q.val c
        if c.intr then s.signal h.vector h.holdoff else s
      else s.onHq q.val fun h =>
        { h with waiting := (h.waiting.filter fun w => !c.replaces w) ++ [c] }
    else s

/-- Status codes, 13 R551. -/
def stOk : Nat := 0x00
def stEmpty : Nat := 0x01
def stAccepted : Nat := 0x02
def stSuspended : Nat := 0x03
def stCancelled : Nat := 0x04
def stInvalid : Nat := 0x80
def stDenied : Nat := 0x81
def stBadSession : Nat := 0x82
def stBusy : Nat := 0x83
def stFailed : Nat := 0x84

/-- DETAIL codes, 13 R355. -/
def dNone : Nat := 0x0000
def dOpcode : Nat := 0x0001
def dReserved : Nat := 0x0002
def dBuffer : Nat := 0x0003
def dRole : Nat := 0x0004
def dContent : Nat := 0x0005
def dState : Nat := 0x0006
def dDma : Nat := 0x0010
def dPartner : Nat := 0x0011
def dTimeout : Nat := 0x0012
def dCalm : Nat := 0x0013

/-- Post the FINAL completion of a command from its descriptor. -/
def State.final (s : State) (op : Nat) (c : Cmd) (status detail : Nat) (r0 r1 : Word := 0) (data : List Byte := []) : State :=
  let s := if data.isEmpty then s else
    match c.src with
    | .queue _ => s.hostWrite c.bufAddr.toNat data
    | _ => s
  s.post c.src { cmdId := c.cmdId, opcode := op, status := status, detail := detail, r0 := r0, r1 := r1,
                 intr := !c.flags.getLsbD 1, data := data, session := c.session.toNat }

/-- Post a completion of a command under way. -/
def State.runPost (s : State) (r : Run) (status kind detail : Nat) (r0 r1 : Word := 0) (data : List Byte := []) : State :=
  let s := if data.isEmpty then s else
    match r.src with
    | .queue _ => s.hostWrite r.bufAddr.toNat data
    | _ => s
  s.post r.src { cmdId := r.cmdId, opcode := r.opcode, status := status, kind := kind, detail := detail, r0 := r0, r1 := r1,
                 intr := !r.noIntr, data := data, session := r.session }

/-- The command under way with a session and CMD_ID. -/
def State.runOf (s : State) (sess : Nat) (cmdId : BitVec 32) : Option Run :=
  s.host.runs.find? fun r => r.session = sess && r.cmdId = cmdId

/-- Two entries of the list of commands under way are the same command. -/
def Run.same (a b : Run) : Bool := a.session = b.session && a.cmdId = b.cmdId && a.src = b.src && a.opcode = b.opcode

/-- Replace a command under way. -/
def State.setRun (s : State) (r : Run) : State :=
  { s with host := { s.host with runs := s.host.runs.map fun x => if x.same r then r else x } }

/-- The OP_SUSPEND and OP_CANCEL commands that wait for a target. -/
def waitsFor (r : Run) (x : Run) : Bool :=
  match x.work with
  | .opSuspend sess id => sess = r.session && BitVec.ofNat 32 id = r.cmdId
  | .opCancel sess id => sess = r.session && BitVec.ofNat 32 id = r.cmdId
  | _ => false

/-- What a waiting command completes with when its target posts FINAL: a cancel OK when the target was cancelled; else INVALID with
STATE (13 R372). -/
def waiterEnd (status : Nat) (w : Run) : Nat × Nat :=
  match w.work with
  | .opCancel _ _ => if status = stCancelled then (stOk, dNone) else (stInvalid, dState)
  | _ => (stInvalid, dState)

/-- Post the FINAL completion of a command under way; commands that wait for it complete (13 R372). -/
def State.endRun (s : State) (r : Run) (status detail : Nat) (r0 r1 : Word := 0) (data : List Byte := []) : State :=
  let waiters := s.host.runs.filter (waitsFor r)
  let s := { s with host := { s.host with runs := s.host.runs.filter fun x => !x.same r && !waitsFor r x } }
  waiters.foldl (fun s w => s.runPost w (waiterEnd status w).1 0 (waiterEnd status w).2) (s.runPost r status 0 detail r0 r1 data)

/-- End every command under way that a condition selects, with a status. -/
def State.endRuns (s : State) (p : Run → Bool) (status detail : Nat) (r0 r1 : Word := 0) : State :=
  (s.host.runs.filter p).foldl (fun s r => s.endRun r status detail r0 r1) s

/-- A standby becomes STALE; entries into STALE are counted (11 R286). -/
def State.goStale (s : State) : State :=
  if s.pair.current then { s with pair := { s.pair with current := false, stales := satAdd 64 s.pair.stales 1 } } else s

/-- Priority of a message on the pair link, 1 the highest (11 R283); a message that the table does not name goes with the frame content. -/
def PairMsg.prio : PairMsg → Nat
  | .beat _ => 1
  | .snapshot _ _ _ => 3
  | .forces _ _ => 3
  | .block _ _ _ _ => 4
  | .close _ _ _ _ _ => 4
  | .held _ _ => 4
  | .chunk _ => 5
  | .image _ => 5
  | _ => 2

/-- A message takes its place behind those of its priority and above. -/
def queueMsg (m : PairMsg) : List PairMsg → List PairMsg
  | [] => [m]
  | x :: l => if m.prio < x.prio then m :: x :: l else x :: queueMsg m l

/-- Send a message over the pair link; nothing is sent while the link is lost or not authenticated (14 R393). -/
def State.send (s : State) (m : PairMsg) : State :=
  if s.pair.lanes = 0 ∨ (!s.pair.auth ∧ m ≠ .auth) then s
  else { s with pair := { s.pair with sent := queueMsg m s.pair.sent } }

end Sys2Proof.Machine
end

