-- ==== Sys2Proof/Machine/Flags.lean ====
section
/-! DEFINITION. Status words and flag computations: calendar fields, SUMMARY, heartbeat, frame and image flags, RTC and
local channel words. -/

namespace Sys2Proof.Machine
open Sys2Proof

/-! ## Calendar, 17 R445, R457 -/

/-- A leap year, 17 R445. -/
def leapYear (y : Nat) : Bool := y % 4 = 0 && (y % 100 ≠ 0 || y % 400 = 0)

/-- Length of a month. -/
def monthLen (y m : Nat) : Nat :=
  if m = 2 then (if leapYear y then 29 else 28) else if m = 4 ∨ m = 6 ∨ m = 9 ∨ m = 11 then 30 else 31

/-- Days from 2000-01-01 to the first day of a year. -/
def yearDays (y : Nat) : Nat := (y - 2000) * 365 + ((y - 2000 + 3) / 4 - (y - 2000 + 99) / 100 + (y - 2000 + 399) / 400)

/-- Days of a year before a month. -/
def monthDays (y m : Nat) : Nat := ((List.range (m - 1)).map fun i => monthLen y (i + 1)).foldl (· + ·) 0

/-- A valid calendar value, 17 R448. -/
def calValid (y m d h mi s : Nat) : Bool :=
  2000 ≤ y && y ≤ 2399 && 1 ≤ m && m ≤ 12 && 1 ≤ d && d ≤ monthLen y m && h ≤ 23 && mi ≤ 59 && s ≤ 59

/-- Seconds since 2000-01-01T00:00:00 of a calendar value. -/
def calSec (y m d h mi s : Nat) : Nat := (yearDays y + monthDays y m + (d - 1)) * 86400 + h * 3600 + mi * 60 + s

/-- Year, month and day of a count of days since 2000-01-01. -/
def civil (days : Nat) : Nat × Nat × Nat :=
  let y0 := 2000 + days / 366
  let y := ((List.range 3).map (y0 + ·)).foldl (fun a y => if yearDays y ≤ days then y else a) y0
  let r := days - yearDays y
  let m := ((List.range 12).map (· + 1)).foldl (fun a m => if monthDays y m ≤ r then m else a) 1
  (y, m, r - monthDays y m + 1)

/-- The packing of RTC_CAL, 17 R457. -/
def calPack (sec frac : Nat) : Nat :=
  let days := sec / 86400
  let r := sec % 86400
  let c := civil days
  frac + r % 60 * 2 ^ 15 + r / 60 % 60 * 2 ^ 21 + r / 3600 * 2 ^ 27 + c.2.2 * 2 ^ 32 + c.2.1 * 2 ^ 37 +
    (c.1 - 2000) * 2 ^ 41 + (days + 5) % 7 * 2 ^ 50

/-- Local civil time minus UTC in seconds, 17 R450. -/
def Rtc.localOfs (r : Rtc) : Int := r.zone * 900 + (if r.dst then 3600 else 0)

/-- Local civil seconds at an instant. -/
def Rtc.localSec (r : Rtc) (now : Nat) : Int := (r.sec now : Int) + r.localOfs

/-- RTC_STATE, 17 R457. -/
def State.rtcState (s : State) : Nat :=
  let r := s.rtc
  let b (x : Bool) (i : Nat) : Nat := if x then 2 ^ i else 0
  b r.invalid 0 + b r.battLow 1 + b s.timeHeld 2 + b r.dst 3 + b r.stampSet 4 + b r.stampLost 5 + b r.armed 6 +
    b r.fired 7 + b r.skipped 8 + r.batt % 256 * 2 ^ 16 + (BitVec.ofInt 8 r.zone).toNat * 2 ^ 24 +
    (BitVec.ofInt 16 r.taiUtc).toNat * 2 ^ 32 + (BitVec.ofInt 8 r.trim).toNat * 2 ^ 48

/-! ## Codes -/

/-- ROLE, 11 R284. -/
def Role.code : Role → Nat
  | .bringUp => 0
  | .primary => 1
  | .standby => 2
  | .joining => 3
  | .out => 4

/-- STATE of a station, 13 R553. -/
def SSt.code : SSt → Nat
  | .absent => 0
  | .checking => 1
  | .joining => 2
  | .refused => 3
  | .included => 4
  | .returned => 5
  | .lost => 6

/-- The station state of a code. -/
def SSt.ofCode : Nat → SSt
  | 0 => .absent
  | 1 => .checking
  | 2 => .joining
  | 3 => .refused
  | 4 => .included
  | 5 => .returned
  | _ => .lost

/-- REF_STATE, 13 R553. -/
def RefSt.code : RefSt → Nat
  | .free => 0
  | .acquire => 1
  | .locked => 2
  | .holdover => 3

/-- SUPPLY, 10 R275. -/
def Supply.code : Supply → Nat
  | .valid => 0
  | .sag => 1
  | .low => 2
  | .recovering => 3

/-- POWER_STATE, 13 R553 (Off is no state in which STATUS is read). -/
def Power.code : Power → Nat
  | .run => 0
  | .lull => 1
  | .hold => 2
  | .off => 3

/-- Queue and event ring states, 21 R516. -/
def QSt.code : QSt → Nat
  | .disabled => 0
  | .enabled => 1
  | .error => 2
  | .draining => 3

/-! ## Flags -/

/-- A flag at a bit. -/
def bitIf (b : Bool) (i : Nat) : Nat := if b then 2 ^ i else 0

/-- Outputs stand at their safe values because of Calm, the span of 02 R58 after APP_START included. -/
def State.calmOut (s : State) : Bool := s.calm.on || s.calm.image

/-- FLAGS of frames that the module sends, 05 R146 (CALM also in the span of 02 R58). -/
def State.frameFlags (s : State) : Nat :=
  bitIf (!s.img.force.isEmpty) 0 + bitIf s.calmOut 1 + bitIf s.lull 2

/-- FLAGS of an image header, 04 R96. -/
def State.imageFlags (s : State) : Nat :=
  bitIf s.calm.on 0 + bitIf (!s.img.force.isEmpty) 1 + bitIf s.lull 2

/-- CURRENT as this module shows it: a standby its own, a primary its standby's (DEDUCED, log entry 4). -/
def State.currentShown (s : State) : Bool :=
  match s.pair.role with
  | .primary => s.pair.partnerCur
  | _ => s.pair.current && !s.pair.stuck

/-- The header in a firmware slot. -/
def FwSlot.hdr (f : FwSlot) : Option ImgHdr := f.img.map (·.hdr)

/-- The firmware slot that runs. -/
def State.fwSlot (s : State) : FwSlot := s.chg.fw.toList.getD s.chg.fwRun {}

/-- Firmware generation that runs. -/
def State.fwGen (s : State) : Nat :=
  match s.fwSlot.hdr with
  | some h => h.gen
  | none => 0

/-- The digest of the running application image, 12 R310. -/
def State.appDigest (s : State) : Digest := (s.chg.running.map (·.hdr.resultDigest)).getD 0

/-- APP_ID: the first 16 bytes of that digest, 11 R284. -/
def State.appId (s : State) : BitVec 128 := s.appDigest.setWidth 128

/-- PFLAGS, 11 R284. -/
def State.pflags (s : State) : Nat :=
  bitIf s.currentShown 0 + bitIf s.calm.on 1 + bitIf s.lull 2 + bitIf s.lanes.lockout 3 + bitIf s.pair.hot 4 +
    bitIf (0 < s.pwr.holdup) 5 + bitIf s.pwr.extract 6 + bitIf (s.pair.lanes = 1 || s.pair.lanes = 2) 7

/-- A heartbeat (kind 1) or a fault message (kind 2) as the module sends it, 11 R284. -/
def State.beat (s : State) (kind leave : Nat) : Heartbeat :=
  { cycle := s.cyc.n, kind := kind, role := s.pair.role.code, pflags := BitVec.ofNat 16 s.pflags,
    calmCause := if s.calm.on then s.calm.cause else 0, leaveCause := leave, fwGen := s.fwGen,
    xferSeq := s.pair.xferSeq, snapSeq := s.pair.snapSeq, forceVer := s.pair.forceVer, lastKib := s.pair.lastKib,
    feeds := BitVec.ofNat 8 (bitIf s.pwr.fa.valid 0 + bitIf s.pwr.fb.valid 1),
    laneFaults := min s.lanes.faultLog.length 255, appId := s.appId }

/-- STATE of SUMMARY, 13 R364. -/
def State.summaryState (s : State) : Nat :=
  bitIf s.currentShown 0 + bitIf s.calm.on 1 + bitIf s.lanes.lockout 2 + bitIf (s.net.start = .failed) 3 +
    bitIf s.pair.noHolder 4 + bitIf s.host.busy 5 + bitIf s.rtc.invalid 6 + bitIf s.pair.hot 7 +
    bitIf (!s.img.force.isEmpty) 8

/-- SUBSTITUTED of the header of the input view, 04 R96. -/
def State.substituted (s : State) : Nat := memNum s.mem (inView + hdrOfs + 28) 4

/-- The SUMMARY body, 13 R364. -/
def State.summary (s : State) : List Byte :=
  le 2 0x7240 ++ le 1 s.keys.hwRev ++ le 1 s.slot.num ++ le 2 s.fwGen ++ le 1 s.pair.role.code ++
    le 1 (if s.pwr.full then 1 else 0) ++ le 8 (if s.cyc.running then s.cyc.n else 0) ++ le 8 (if s.clk.netOn then s.netTime else 0) ++
    le 2 s.summaryState ++ le 1 (if s.calm.on then s.calm.cause else 0) ++ le 1 s.keys.life ++ le 2 s.img.force.length ++
    le 2 (s.stnM.countP (·.st = .lost)) ++ le 4 s.substituted ++ le 4 s.keys.lullCount ++ le 4 s.keys.calmCount ++
    le 16 s.appId.toNat ++ le 4 0

/-- ID_LED.FAULT: Calm in its own right (02 R55), LANE_LOCKOUT (03 R85), a failed bring-up (18 R469). -/
def State.faultLit (s : State) : Bool := (s.calm.on && !s.calm.follower) || s.lanes.lockout || s.pwr.failed

/-- LIO_CH_STATE of a channel at an instant, 10 R275. -/
def LioCh.word (c : LioCh) (ch now : Nat) : Nat :=
  c.cfg.mode % 4 + bitIf c.level 2 + bitIf c.band 3 + bitIf c.wbreak 4 + bitIf c.cmd 5 + bitIf c.sw 6 + bitIf c.trip.isSome 7 +
    (Config.measured (2 * ch) now).toNat * 2 ^ 16 + (Config.measured (2 * ch + 1) now).toNat * 2 ^ 32 + c.fault % 256 * 2 ^ 48

/-- LIO_GRP_STATE of a group at an instant, 10 R275. -/
def LioGrp.word (g : LioGrp) (grp now : Nat) : Nat := g.st.code + (Config.measured (32 + grp) now).toNat * 2 ^ 16

/-- A group by its side: A is group 1. -/
def Lio.grp (l : Lio) : Side → LioGrp
  | .a => l.g1
  | .b => l.g2

/-- Update a group. -/
def State.onGrp (s : State) (g : Side) (f : LioGrp → LioGrp) : State :=
  match g with
  | .a => { s with lio := { s.lio with g1 := f s.lio.g1 } }
  | .b => { s with lio := { s.lio with g2 := f s.lio.g2 } }

/-- A local channel. -/
def State.lch (s : State) (c : Nat) : LioCh := s.lio.ch.toList.getD c {}

/-- Update a local channel. -/
def State.onLch (s : State) (c : Nat) (f : LioCh → LioCh) : State :=
  { s with lio := { s.lio with ch := s.lio.ch.setIfInBounds c (f (s.lch c)) } }

/-- The group of a local channel, 10 R255. -/
def chGroup (c : Nat) : Side := if c < 8 then .a else .b

/-! ## Settings blocks, 12 R332 to R334 -/

/-- A firmware slot of this module is TRIAL. -/
def State.ownTrial (s : State) : Bool := s.chg.fw.toList.any (·.st = .trial)

/-- SETTINGS_FMT of the running firmware. -/
def State.fwFmt (s : State) : Nat := (s.fwSlot.hdr.map (·.settingsFmt)).getD 0

/-- The FORMATs that a write takes: the running firmware's, and while a TRIAL slot exists those of both slots (12 R334). -/
def State.writeFmts (s : State) : List Nat :=
  let own := s.fwFmt
  let held := s.chg.fw.toList.filterMap fun f => if f.st = .active || f.st = .trial then f.hdr.map (·.settingsFmt) else none
  own :: if s.ownTrial then held.filter (· ≠ own) else []

/-- Every older FORMAT that a write takes can hold the content (12 R334). -/
def State.fits (s : State) (id : Nat) (content : List Byte) : Bool :=
  s.writeFmts.all fun f => s.fwFmt ≤ f || Config.fitsFormat f id content

/-- Header bytes 0 to 11 of a copy, and its CRC (12 R332). -/
def SetHead.header (x : SetHead) : List Byte := le 2 x.id ++ le 2 x.fmt ++ le 4 x.body.length ++ le 4 x.serial
def SetHead.crc (x : SetHead) : BitVec 32 := crc32c (x.header ++ x.body) ^^^ x.crcErr

/-- The CRC of a copy is valid. -/
def SetHead.good (x : SetHead) : Bool := x.crc = crc32c (x.header ++ x.body)

/-- The copy that a read takes: of those with a valid CRC the one with the higher SERIAL (12 R332). -/
def newest : List SetHead → Option SetHead
  | [] => none
  | x :: l => match newest l with
    | some y => if x.good && y.serial < x.serial then some x else some y
    | none => if x.good then some x else none

/-- Write a block in a FORMAT: into the copy that a read would not take, with the next SERIAL (12 R332). -/
def saveCopy (id fmt : Nat) (v : SetVal) (l : List SetHead) : List SetHead :=
  let of_ (x : SetHead) : Bool := x.id = id && x.fmt = fmt
  let last := newest (l.filter of_)
  let n := ((last.map (·.serial)).getD 0 + 1) % 2 ^ 32
  l.filter (fun x => !of_ x) ++ last.toList ++ [{ id := id, fmt := fmt, serial := n, body := Config.settingsBody fmt id n, val := v }]

/-- What a settings block is to hold. -/
def State.settingOf (s : State) (id : Nat) : SetVal :=
  match id with
  | 1 => .net s.net.stored
  | 2 => .pair s.pair.hotReg s.pair.autostart
  | 3 => .gust s.recd.gust
  | 4 => .margin s.mgn.mhz s.mgn.tMin
  | _ => .eth s.host.ethStored

/-- A settings block is written, in every FORMAT that a write takes. -/
def State.wroteBlock (s : State) (id : Nat) : State :=
  { s with chg := { s.chg with area := s.writeFmts.foldl (fun l f => saveCopy id f (s.settingOf id) l) s.chg.area } }

/-- Settings blocks are erased from flash. -/
def State.eraseBlocks (s : State) (p : SetHead → Bool) : State :=
  { s with chg := { s.chg with area := s.chg.area.filter fun x => !p x } }

end Sys2Proof.Machine
end

