-- ==== Sys2Proof/Machine/Crypto.lean ====
section
/-! DEFINITION. KEY: the keys derived from the device root key, content keys and tags of confidential images, command keys and MACs (14
R379, R384, R386 to R388, R392, R393, 12 R310, R314, 13 R346). -/

namespace Sys2Proof.Machine
open Sys2Proof

/-- The bytes of an ASCII text. -/
def ascii (t : String) : List Byte := t.toList.map fun c => BitVec.ofNat 8 c.toNat

/-- Bytes of a key, least significant first. -/
def keyBytes (k : Key) : List Byte := le 32 k.toNat

/-- The first 32 bytes of a 64-byte output. -/
def first32 (x : BitVec 512) : Key := x.setWidth 256

/-! ## Keys inside KEY, 14 R379, R384 -/

/-- The DRK as its fuses hold it: SCRAPPED has programmed them to all ones (14 R399). -/
def State.drk (s : State) : Key := if s.keys.drkOnes then BitVec.allOnes 256 else Config.drk

/-- HKDF over the DRK. -/
def State.derive (s : State) (salt info : List Byte) : BitVec 512 := Config.hkdf (keyBytes s.drk) salt info

/-- Secret of the identity key. -/
def State.identitySecret (s : State) : Key := first32 (s.derive [] (ascii "KLN identity"))

/-- Secret of the unit key. -/
def State.unitSecret (s : State) : Key := first32 (s.derive [] (ascii "KLN unit"))

/-- IDENTITY_KEY. -/
def State.identityKey (s : State) : Key := Config.edPublic s.identitySecret

/-- UNIT_XKEY. -/
def State.unitKey (s : State) : Key := Config.x25519Base s.unitSecret

/-- Signature of the identity key. -/
def State.sign (s : State) (b : List Byte) : BitVec 512 := Config.edSign s.identitySecret b

/-- Store key of the entry of an owning public key; STORE_EPOCH in one byte (DESIGN CHOICE, log entry 86). -/
def State.storeKey (s : State) (owner : Key) : Key :=
  first32 (s.derive (le 1 s.keys.epoch) (ascii "KLN store" ++ le 64 (Config.sha512 (keyBytes owner)).toNat))

/-- Seal key of the retained area. -/
def State.sealKey (s : State) : BitVec 512 := s.derive [] (ascii "KLN seal")

/-! ## Image headers and confidential images, 12 R310, R314, 14 R392, R393 -/

/-- Header bytes 0 to 271, which the signature covers. -/
def hdrBytes (h : ImgHdr) : List Byte :=
  le 4 h.magic ++ le 2 h.hdrVersion ++ le 1 h.kind ++ le 1 h.iflags.toNat ++ le 2 h.hwType ++ le 2 h.hwRevMask.toNat ++
    le 4 h.rsvd12.toNat ++ le 8 h.unitSerial ++ le 4 h.rollback ++ le 2 h.gen ++ le 2 h.settingsFmt ++ le 8 h.bodyLength ++
    le 8 h.rsvd40.toNat ++ le 64 h.baseDigest.toNat ++ le 64 h.resultDigest.toNat ++ le 64 h.bodyDigest.toNat ++ keyBytes h.signer

/-- Header bytes 0 to 335, the additional data of a confidential body. -/
def imageAad (i : AppImage) : List Byte := hdrBytes i.hdr ++ le 64 i.sig.toNat

/-- The image is CONFIDENTIAL. -/
def secret (i : AppImage) : Bool := i.hdr.iflags.getLsbD 0

/-- The content key from an X25519 result, 14 R392. -/
def contentKey (shared : Key) (h : ImgHdr) : Key :=
  first32 (Config.hkdf (keyBytes shared) (keyBytes h.ephKey) (ascii "KLN image" ++ le 64 h.resultDigest.toNat))

/-- The tag that a body calls for under a content key. -/
def tagFor (k : Key) (i : AppImage) : BitVec 128 := Config.gcmTag k i.hdr.nonce (imageAad i) i.body

/-- A confidential body decrypts under the key that this module derives with its unit key (12 R314, 14 R392). -/
def State.tagOk (s : State) (i : AppImage) : Bool :=
  !secret i || i.hdr.tag = tagFor (contentKey (Config.x25519 s.unitSecret i.hdr.ephKey) i.hdr) i

/-- An image as it is passed to the partner: a confidential one is encrypted again to the partner's unit key, with a fresh EPH_KEY, NONCE
and TAG in header bytes 336 to 399 (14 R393). -/
def State.passed (s : State) (i : AppImage) : AppImage × State :=
  if !secret i then (i, s)
  else
    let (e, s) := s.draw
    let (n, s) := s.draw
    let i := { i with hdr := { i.hdr with ephKey := Config.x25519Base (first32 e), nonce := n.setWidth 96 } }
    let k := contentKey (Config.x25519 (first32 e) s.pair.unit) i.hdr
    ({ i with hdr := { i.hdr with tag := tagFor k i } }, s)

/-- Pass an application image or delta to the partner. -/
def State.passImage (s : State) (i : AppImage) : State :=
  let (i, s) := s.passed i
  s.send (.image i)

/-- The store of KEY holds the plaintext of a confidential image under its signer's store key (12 R314, 14 R384). -/
def State.keepSecret (s : State) (i : AppImage) : State :=
  if secret i && !s.keys.store.contains i.hdr.signer then
    { s with keys := { s.keys with store := s.keys.store ++ [i.hdr.signer] } }
  else s

/-! ## Sessions and MACs, 14 R387, R388, 13 R346 -/

/-- The message that SIG of SESSION_PROVE covers, 14 R387; `where_` is the queue number, or 0xFF on a service connection. -/
def proveMsg (serial sess where_ : Nat) (hostEph : Key) : List Byte :=
  ascii "KLNP" ++ le 8 serial ++ le 2 sess ++ le 1 where_ ++ le 1 0 ++ keyBytes hostEph

/-- The message that the proof of possession in a key buffer covers, 14 R398. -/
def State.possessMsg (s : State) (c : Cmd) : List Byte := ascii "KLNK" ++ le 8 s.keys.serial ++ le 4 s.keys.boot ++ c.inl

/-- The command key of a session, 14 R388. -/
def commandKey (shared modEph hostEph : Key) (serial sess : Nat) : BitVec 512 :=
  Config.hkdf (keyBytes shared) (keyBytes modEph ++ keyBytes hostEph) (ascii "KLN command" ++ le 8 serial ++ le 2 sess)

/-- Descriptor bytes 0 to 47, 13 R344. -/
def descBytes (op : Nat) (c : Cmd) : List Byte :=
  le 2 op ++ le 2 c.flags.toNat ++ le 4 c.cmdId.toNat ++ le 2 c.session.toNat ++ le 2 c.rsvd10.toNat ++ le 4 c.length ++
    le 8 c.bufAddr.toNat ++ c.inl ++ le 8 c.rsvd40.toNat

/-- The MAC that 13 R346 calls for, under a session's command key: over the descriptor and a buffer to the module. -/
def macFor (ck : BitVec 512) (op : Nat) (c : Cmd) (toModule : Bool) : BitVec 128 :=
  (Config.hmac512 ck (descBytes op c ++ if toModule then c.buf.bytes 0 c.length else [])).setWidth 128

/-- The MAC that a command carries. -/
def macOf (ck : BitVec 512) (op : Nat) (c : Cmd) (toModule : Bool) : BitVec 128 := macFor ck op c toModule ^^^ c.macErr

end Sys2Proof.Machine
end

