-- ==== Sys2Proof/Machine/Halt.lean ====
section
/-! DEFINITION. Shared reactions: the VANE line, local switches and safe values, fault messages, Calm, the reaction to a lane
fault, releases of tasks. -/

namespace Sys2Proof.Machine
open Sys2Proof

/-! ## Local switches and the VANE line, 10 R267, 11 R278 -/

/-- Follow the switch condition of 10 R267 on every channel. -/
def State.switches (s : State) : State :=
  let f (i : Fin 16) : LioCh :=
    let c := s.lio.ch[i]
    let g := (s.lio.grp (chGroup i.val)).st
    { c with sw := c.cfg.mode = 2 && c.cmd && s.holder && (g = .valid || g = .sag) && c.trip.isNone }
  { s with lio := { s.lio with ch := Vector.ofFn f } }

/-- Keep the instant since when no module has been holder (11 R303). -/
def State.watchHolder (s : State) : State :=
  { s with pair := { s.pair with
      noHolderAt := if s.pair.own ≠ s.pair.other then none
                    else match s.pair.noHolderAt with
                      | some t => some t
                      | none => some s.clk.now } }

/-- Release the own line: drive and, unless the line is stuck, the observed level; switches open (11 R280, 10 R277). The module makes no more
requests of stations, and a schedule change that it has not announced lapses (05 R155, R142). -/
def State.releaseVane (s : State) : State :=
  let s : State := { s with
    pair := { s.pair with drive := false, own := s.pair.stuck, driveAt := s.clk.now, releaseAt := none }
    net := { s.net with reqs := [], switchCfg := if s.net.switch_.isNone then none else s.net.switchCfg } }
  let s := s.endRuns (fun r => match r.work with
    | .netConfigure _ false _ => s.net.switchCfg.isNone
    | _ => false) stFailed dState
  s.watchHolder.switches

/-- Assert the own line (11 R278); the caller has checked that the partner's is released. -/
def State.assertVane (s : State) : State :=
  let s : State := { s with pair := { s.pair with drive := true, own := true, driveAt := s.clk.now, noHolder := false } }
  s.watchHolder.switches

/-- The slot rule of 11 R278: slot A as soon as it observes the partner's line released, slot B after 2 µs. -/
def State.mayAssert (s : State) : Bool :=
  !s.pair.other && !s.pair.stuck && (s.slot = .a || s.pair.otherOffAt + 2000 ≤ s.clk.now)

/-- Take a role and post the event ROLE (11 R286, 13 R357). -/
def State.setRole (s : State) (r : Role) : State :=
  if s.pair.role = r then s
  else ({ s with pair := { s.pair with role := r } } : State).event 0x0004 (le 1 r.code ++ List.replicate 11 0)

/-- Send a fault message, 11 R284. -/
def State.faultMessage (s : State) (leave : Nat) : State := s.send (.beat (s.beat 2 leave))

/-- Leave pair duty: release VANE if held, send a fault message, role OUT (11 R286). -/
def State.leavePair (s : State) (leave : Nat) : State :=
  let s := if s.pair.drive then s.releaseVane else s
  ((s.faultMessage leave).setRole .out)

/-! ## Safe values, 02 R53 -/

/-- The output points of a station map entry, with kind and position. -/
def outPts (code : Nat) (m : StnMap) : List (Point × Nat × Nat) :=
  ((List.range m.doN).map fun i => (mkPoint code 1 i, 1, m.doBase + i)) ++
  ((List.range m.aoN).map fun i => (mkPoint code 3 i, 3, m.aoBase + i))

/-- The input points of a station map entry, with kind and position. -/
def inPts (code : Nat) (m : StnMap) : List (Point × Nat × Nat) :=
  ((List.range m.diN).map fun i => (mkPoint code 0 i, 0, m.diBase + i)) ++
  ((List.range m.aiN).map fun i => (mkPoint code 2 i, 2, m.aiBase + i))

/-- Every output point of the image: configured stations and local channels. -/
def State.outPoints (s : State) : List (Point × Nat × Nat) :=
  (match s.net.cfg with
   | some c => c.map.flatMap fun e => outPts e.1 e.2
   | none => []) ++ outPts localCode localMap

/-- Every input point of the image. -/
def State.inPoints (s : State) : List (Point × Nat × Nat) :=
  (match s.net.cfg with
   | some c => c.map.flatMap fun e => inPts e.1 e.2
   | none => []) ++ inPts localCode localMap

/-- Safe values of the running image. -/
def State.safeTab (s : State) : List PtCfg := (s.chg.running.map (·.body.safe)).getD []

/-- Substitute values of the running image. -/
def State.substTab (s : State) : List PtCfg := (s.chg.running.map (·.body.subst)).getD []

/-- The safe value of a point; HOLD keeps the value of the last snapshot (02 R53). -/
def State.safeVal (s : State) (p : Point) (kind pos : Nat) : BitVec 16 :=
  modeVal (modeOf s.safeTab p) (ptGet s.mem snapBlock kind pos)

/-- Lay the safe-value image into a block (02 R55 step 3). -/
def State.safeImage (s : State) (base : Nat) (m : List Host.Cell) : List Host.Cell :=
  s.outPoints.foldl (fun m p => qualSet (ptSet m base p.2.1 p.2.2 (s.safeVal p.1 p.2.1 p.2.2)) base p.2.1 p.2.2 1) m

/-- The safe-value image stands in the output image, values and qualities, whose lines are dirty (02 R55, 11 R291). -/
def State.laySafe (s : State) : State :=
  s.outPoints.foldl (fun t p =>
    let v := ptSpan outImage p.2.1 p.2.2
    (t.mark v.1 v.2).mark (qualAddr outImage p.2.1 p.2.2) 1) { s with mem := s.safeImage outImage s.mem }

/-- Put every OUTPUT channel at its safe value; HELD is cleared (02 R55 step 4, 10 R277, 08 R218). -/
def State.localSafe (s : State) : State :=
  let f (i : Fin 16) : LioCh :=
    let c := s.lio.ch[i]
    if c.cfg.mode = 2 then
      let m := modeOf s.safeTab (mkPoint localCode 1 i.val)
      { c with cmd := if m.1 = 1 then c.cmd else (modeVal m 0).getLsbD 0, held := false }
    else c
  ({ s with lio := { s.lio with ch := Vector.ofFn f }, act := { s.act with localQ := [] } } : State).switches

/-! ## Calm, 02 R54 to R58 -/

/-- A halted task: queues emptied (02 R50, R56). -/
def Task.halt (t : Task) : Task :=
  if t.st = .stopped then t else { t with st := .halted, held := false, queue := [] }

/-- The task runs on the lane copy: both copies of a compared lane, its own copy of a split one (02 R41). -/
def State.onCopyOf (s : State) (l : Nat) (c : Side) (t : TaskCfg) : Bool :=
  t.lane = l && (!(s.laneAt l).split || t.copy = c)

/-- Charge the time since its delivery or last dispatch to a task that runs, and to the load of its lane copy unless it is the
background task (02 R43). -/
def State.charge (s : State) (l : Nat) (c : Side) (t : TaskCfg) : State :=
  let d := s.clk.now - (s.taskAt t.num).since
  let s := s.onTask t.num fun x => { x with since := s.clk.now, ran := x.ran + d }
  if t.kind = .background then s
  else
    let f (x : LaneCopy) : LaneCopy := { x with busy := x.busy + d }
    s.onLane l fun x => if x.split then x.onCopy c f else { x with a := f x.a, b := f x.b }

/-- Charge every task that runs, up to this instant: at a halt and at the end of a matrix cycle. -/
def State.chargeAll (s : State) : State :=
  (s.tasks.filter fun t => (s.taskAt t.num).st = .running && !(s.taskAt t.num).held).foldl (fun s t => s.charge t.lane t.copy t) s

/-- Halt every task lane on both copies, with the events at its delivery unit (02 R55 step 2). -/
def State.haltLanes (s : State) : State :=
  let s := s.chargeAll
  let f (i : Fin 9) : Lane :=
    let l := s.lanes.lane[i]
    if i.val < 8 then ({ l with halted := true, pending := [], delivered := [], wait := none } : Lane).takeMode else l
  { s with lanes := { s.lanes with lane := Vector.ofFn f } }

/-- Halt the tasks. -/
def State.haltTasks (s : State) : State :=
  { s with lanes := { s.lanes with task := s.lanes.task.map Task.halt } }

/-- Latch Calm with a cause and the items of its record; a second cause is recorded with FOLLOW (02 R54, R55). -/
def State.latchCalm (s : State) (cause : Nat) (follower : Bool) (its : List Nat) (party : Nat := 0) : State :=
  if s.calm.on && cause ≠ 3 then s.recordBy 0x0100 (srcOf 0 0) (items (cause :: its)) party true
  else
    let s := s.haltLanes.haltTasks
    let s : State := { s with
      keys := { s.keys with calmCount := if s.calm.on then s.keys.calmCount else satAdd 32 s.keys.calmCount 1 }
      calm := { s.calm with on := true, cause := cause, follower := follower, image := true, flash := true }
      act := { s.act with pool := [], localQ := [] }
      cyc := { s.cyc with starting := false, firstRel := none, heldRel := [] } }
    let s := if follower then s else s.laySafe.localSafe
    (s.recordBy 0x0100 (srcOf 0 0) (items (cause :: its)) party false).event 0x0005 (le 1 cause ++ List.replicate 11 0)

/-! ## The reaction to a lane fault, 03 R83 to R87 -/

/-- Count a lane fault that was not injected, 03 R85. -/
def State.countFault (s : State) (injected : Bool) : State :=
  if injected then s else { s with lanes := s.lanes.logFaults (s.lanes.faultLog ++ [s.stamp]) }

/-- Lane faults that count as within 24 h, 03 R85. -/
def State.faultsIn24h (s : State) : Nat :=
  if s.rtc.invalid then s.lanes.faultLog.length
  else s.lanes.faultLog.countP fun t => s.stamp ≤ t + 86400000000000

/-- Write the record of a lane fault; the halted management lane leaves it in AON (03 R87, 16 R430). -/
def State.faultRecord (s : State) (lane : Nat) (pay : List Byte) (follow : Bool) : State :=
  let s := if lane = 8 then { s with recd := { s.recd with served := false } } else s
  s.recordBy 0x0200 (srcOf 1 lane) pay 0 follow

/-- The latch of a lane fault: halt, record, count, and the reaction of the situation (03 R83, R84, R86, R87). `counted` is
false for a domain fault, whose reaction is the same with LEAVE_CAUSE 3 and without a lane fault's record and count (18 R470);
`mgt`: the management lane is concerned. -/
def State.reactFault (s : State) (mgt : Bool) (leave : Nat) : State :=
  let s := if mgt then s.onLane 8 fun l => { l with halted := true } else s
  if s.lanes.faulted then s
  else if s.primary && s.calm.on then s
  else if s.primary && !(s.partnerAble && !s.partnerFlag 1) then
    ({ s with net := { s.net with ready := [] } } : State).latchCalm 2 false []
  else if s.pair.role = .out then s.haltLanes
  else
    let s := s.haltLanes
    let s : State := { s with
      net := { s.net with ready := [] }
      lanes := { s.lanes with faulted := true, resetReq := if mgt then some s.clk.now else s.lanes.resetReq } }
    let s := s.leavePair leave
    if mgt then s.send .resetRequest else s

/-- The record of the latch carries FOLLOW: a fault during a reaction, or of a primary already in Calm (03 R83, R86). -/
def State.faultFollows (s : State) : Bool := s.lanes.faulted || (s.primary && s.calm.on)

/-- Latch a lane fault with the payload of its record. -/
def State.laneFault (s : State) (lane : Nat) (pay : List Byte) (injected : Bool) : State :=
  ((s.faultRecord lane pay s.faultFollows).countFault injected).reactFault (lane = 8) 1

/-! ## Releases, 02 R44 to R56 -/

/-- The input copy of a task from the bank committed last, 02 R44. -/
def State.inputCopy (s : State) (ranges : List (Point × Nat)) : List PtVal :=
  ranges.flatMap fun r => (List.range r.2).flatMap fun i =>
    let p : Point := r.1 + BitVec.ofNat 32 i
    match posOf s.net.cfg p with
    | some pos =>
      if ptOutput p then []
      else [{ point := p, value := ptGet s.mem inView (ptKind p) pos, qual := qualGet s.mem inView (ptKind p) pos }]
    | none => []

/-- The task reads the committed bank itself, 02 R44. -/
def State.directTask (s : State) (t : TaskCfg) : Bool :=
  match s.chg.running with
  | some i => i.body.direct t
  | none => false

/-- The task is an output owner, 02 R39. -/
def State.ownerTask (s : State) (t : TaskCfg) : Bool :=
  match s.chg.running with
  | some i => i.body.owner t
  | none => false

/-- Put an event at a lane's delivery unit. -/
def State.atDelivery (s : State) (lane : Nat) (e : DEv) : State := s.onLane lane fun l => { l with pending := l.pending ++ [e] }

/-- Deliver a release to an IDLE task: fill its input copy, READY (02 R44, R50). -/
def State.deliver (s : State) (t : TaskCfg) (r : Rel) : State :=
  let copy := if s.directTask t then [] else s.inputCopy t.inputs
  (s.onTask t.num fun x => { x with st := .ready, record := r.bytes, incopy := copy, releases := satAdd 64 x.releases 1,
                                    since := s.clk.now, ran := 0 }).atDelivery t.lane (.release r)

/-- A release of an event or error task that is lost, 02 R47, R48. -/
def State.loseRel (s : State) (t : TaskCfg) : State :=
  (s.onTask t.num fun x => { x with lost := satAdd 64 x.lost 1 }).record
    (if t.kind = .event then 0x0102 else 0x0103) (srcOf 2 t.num) []

/-- A skip of a cyclic or mark task, 02 R50. -/
def State.skipRel (s : State) (t : TaskCfg) : State :=
  (s.onTask t.num fun x => { x with skips := satAdd 64 x.skips 1 }).record 0x0101 (srcOf 2 t.num) []

/-- The kinds whose releases queue. -/
def taskQueues (t : TaskCfg) : Bool := t.kind = .event || t.kind = .error

/-- A release of a task at its instant, by the states of 02 R50. -/
def State.release (s : State) (r : Rel) : State :=
  match s.taskCfg r.task with
  | none => s
  | some t =>
    if s.cyc.noRel || !s.primary then s
    else if s.calm.on then
      if taskQueues t then s.onTask t.num fun x => { x with calmDisc := satAdd 64 x.calmDisc 1 } else s
    else match (s.taskAt t.num).st with
      | .stopped => s
      | .halted => s
      | .idle =>
        if s.cyc.starting then (if taskQueues t then s.loseRel t else s)
        else if s.cyc.holdRel then { s with cyc := { s.cyc with heldRel := s.cyc.heldRel ++ [r] } }
        else s.deliver t r
      | _ =>
        if s.cyc.holdRel then { s with cyc := { s.cyc with heldRel := s.cyc.heldRel ++ [r] } }
        else match t.kind with
          | .cyclic => if s.ownerTask t then s.latchCalm 1 false [t.num, t.lane, s.cyc.n] else s.skipRel t
          | .mark => s.skipRel t
          | .event =>
            if (s.taskAt t.num).queue.length < 256 then s.onTask t.num fun x => { x with queue := x.queue ++ [r.bytes] }
            else s.loseRel t
          | .error =>
            if (s.taskAt t.num).queue.length < 64 then s.onTask t.num fun x => { x with queue := x.queue ++ [r.bytes] }
            else s.loseRel t
          | .background => s

/-- A fault for the error task of a category, by the two items of its record: it is released at the next commit, or lost between APP_START
and the first releases (02 R48, R52). The categories are numbered in the order of the table of R48; the places of the items in the 16
bytes and the numbers of the supply sources are the model's (DESIGN CHOICE, log entry 75). -/
def State.errRelease (s : State) (cat : Nat) (a b : Nat) : State :=
  if !s.primary then s
  else if s.cyc.starting then (s.tasks.filter fun t => t.kind = .error && t.category = cat).foldl State.loseRel s
  else { s with cyc := { s.cyc with errDue := s.cyc.errDue ++ [(cat, le 8 a ++ le 8 b)] } }

/-- Release the event tasks whose source a condition selects, with a record (02 R47). -/
def State.releaseEvents (s : State) (p : EvSrc → Bool) (bytes : List Byte) : State :=
  (s.tasks.filter fun t => t.kind = .event && p t.source).foldl
    (fun s t => s.release { task := t.num, src := 2, bytes := bytes }) s

end Sys2Proof.Machine
end

