-- ==== Sys2Proof/Machine/TrackTable.lean ====
section
/-! DEFINITION. The tracking tables: residue-coded words (09 R222 to R224), records and their bytes (R225 to R241), object lists
(R232). -/

namespace Sys2Proof.Machine
open Sys2Proof

/-! ## Words, 09 R222 to R224, R552 -/

/-- Value of a word: bits [57:0], signed. -/
def wval (w : Word) : Int := (w.setWidth 58).toInt
/-- Residue of a word: bits [63:58]. -/
def wres (w : Word) : Nat := (w >>> 58).toNat
/-- The residue is the value modulo 61. -/
def wordOk (w : Word) : Bool := (wres w : Int) = wval w % 61
/-- The word of a value in range. -/
def mkWord (v : Int) : Word := BitVec.ofNat 64 ((v % 2 ^ 58).toNat + (v % 61).toNat * 2 ^ 58)
/-- The range of R222. -/
def inRange (v : Int) : Bool := -(2 ^ 57) ≤ v && v < 2 ^ 57
/-- The range of a network time, R552. -/
def inTime (v : Int) : Bool := 0 ≤ v && v < 2 ^ 64

/-- What a step of the engine can meet (09 R224); where both hold, the failed check counts. -/
inductive StepErr where
  | residue | range
  deriving DecidableEq, Repr

/-- The tracking fault of a step in the advance (1 or 4) and in an event (2 or 4), 09 R247. -/
def StepErr.inAdvance : StepErr → Nat
  | .residue => 1
  | .range => 4
def StepErr.inEvent : StepErr → Nat
  | .residue => 2
  | .range => 4

/-- An operand in the engine: its value and the residue that stands beside it (09 R223). -/
structure Coded where
  v : Int
  r : Nat
  deriving DecidableEq, Repr

/-- A step of the engine. -/
abbrev TrkStep (α : Type) := Except StepErr α

/-- A word as stored, with its own residue. -/
def Coded.ofWord (w : Word) : Coded := { v := wval w, r := wres w }
/-- An operand that is no word receives its residue when it is loaded. -/
def Coded.of (v : Int) : Coded := { v := v, r := (v % 61).toNat }

/-- A result: what the residue unit has computed against the residue generator, then the range (09 R223, R224, R552). -/
def checkStep (ok : Int → Bool) (res v : Int) : TrkStep Coded :=
  if res % 61 ≠ v % 61 then .error .residue else if !ok v then .error .range else .ok (.of v)

/-- add, sub, mul and divmod of 09 R223; a divisor is positive. -/
def Coded.add (a b : Coded) : TrkStep Coded := checkStep inRange (a.r + b.r) (a.v + b.v)
def Coded.sub (a b : Coded) : TrkStep Coded := checkStep inRange (a.r + 61 - b.r) (a.v - b.v)
def Coded.mul (a b : Coded) : TrkStep Coded := checkStep inRange (a.r * b.r) (a.v * b.v)
def Coded.div (a b : Coded) : TrkStep (Coded × Coded) :=
  let q := Coded.of (a.v / b.v)
  let m := Coded.of (a.v % b.v)
  if (q.r * b.r + m.r) % 61 ≠ a.r then .error .residue else if !inRange q.v then .error .range else .ok (q, m)

/-- A sum and a difference that are network times, and a difference of two network times that enters word arithmetic (09 R552). -/
def Coded.addTime (a b : Coded) : TrkStep Coded := checkStep inTime (a.r + b.r) (a.v + b.v)
def Coded.subTime (a b : Coded) : TrkStep Coded := checkStep inTime (a.r + 61 - b.r) (a.v - b.v)

/-- The event time of 09 R240 for a position `p`: STILL_TIME + ((p − x) × 10^9) div VEL. -/
def eventTime (still : Nat) (p x vel : Coded) : TrkStep Nat := do
  if vel.v ≤ 0 then return still
  let m ← (← p.sub x).mul (.of 1000000000)
  let q ← m.div vel
  let t ← (Coded.of still).addTime q.1
  return t.v.toNat

/-! ## Lookups -/

/-- The object record of a number. -/
def Trk.obj (t : Trk) (n : Nat) : Option Obj := t.objs.find? (·.num = n)

/-- Insert or replace an object record, numbers ascending. -/
def putObj (o : Obj) : List Obj → List Obj
  | [] => [o]
  | p :: l => if o.num = p.num then o :: l else if o.num < p.num then o :: p :: l else p :: putObj o l

/-- Put an object record. -/
def Trk.setObj (t : Trk) (o : Obj) : Trk := { t with objs := putObj o t.objs }
/-- Update an object record. -/
def Trk.onObj (t : Trk) (n : Nat) (f : Obj → Obj) : Trk := { t with objs := t.objs.map fun o => if o.num = n then f o else o }
/-- Free an object record. -/
def Trk.freeObj (t : Trk) (n : Nat) : Trk := { t with objs := t.objs.filter (·.num ≠ n) }
/-- A segment. -/
def Trk.seg (t : Trk) (n : Nat) : Option Seg := t.segs.find? (·.num = n)
/-- Update a segment's state. -/
def Trk.onSeg (t : Trk) (n : Nat) (f : SegSt → SegSt) : Trk :=
  { t with segs := t.segs.map fun g => if g.num = n then { g with st := f g.st } else g }
/-- A handover entry; one that the image does not list reads as zeros (09 R241, R242). -/
def Trk.hoAt (t : Trk) (n : Nat) : HoCfg := (alook n t.hos).getD { toSeg := 0 }
/-- Crossings without action of a segment. -/
def Trk.crossOf (t : Trk) (n : Nat) : Cross := (alook n t.cross).getD {}
/-- Count a crossing without action. -/
def Trk.onCross (t : Trk) (n : Nat) (f : Cross → Cross) : Trk := { t with cross := aset n (f (t.crossOf n)) t.cross }
/-- An enabled segment. -/
def Trk.enabled (t : Trk) (n : Nat) : Option Seg := (t.seg n).bind fun g => if g.cfg.enabled then some g else none
/-- A window's configuration; an unconfigured record is all zeros. -/
def Trk.winAt (t : Trk) (n : Nat) : WinCfg := ((t.wins.find? (·.num = n)).map (·.cfg)).getD { start := 0, stop := 0, trig := 0 }

/-- The first free object number from `n` on, over records in ascending order. -/
def freeFrom (n : Nat) : List Obj → Nat
  | [] => n
  | o :: l => if o.num = n then freeFrom (n + 1) l else if n < o.num then n else freeFrom n l

/-- Records of the object table. -/
def objMax : Nat := 4194304

/-- Free object records, TRK_FREE. -/
def Trk.free (t : Trk) : Nat := objMax - t.objs.length

/-! ## Object lists, 09 R232 -/

/-- The list of a segment from HEAD; each link is checked against the record before it. None for an inconsistent list. -/
def walkFrom (t : Trk) (seg : Nat) (prev : Option Nat) (cur : Option Nat) (acc : List Nat) : Nat → Option (List Nat)
  | 0 => if cur = none then some acc.reverse else none
  | k + 1 =>
    match cur with
    | none => some acc.reverse
    | some n =>
      match t.obj n with
      | some o => if o.valid && o.seg = seg && o.ahead = prev then walkFrom t seg (some n) o.behind (n :: acc) k else none
      | none => none

/-- The objects of a segment, front to back; none when links, OBJECTS, HEAD or TAIL are inconsistent (09 R247, LIST). -/
def Trk.walk (t : Trk) (g : Seg) : Option (List Nat) :=
  match walkFrom t g.num none g.st.head [] (t.objs.length) with
  | some l => if l.length = g.st.objects && l.getLast? = g.st.tail then some l else none
  | none => none

/-- Insert an object by descending position, behind equals. -/
def insOffset (o : Obj) : List Obj → List Obj
  | [] => [o]
  | p :: l => if wval o.offset < wval p.offset then o :: p :: l else p :: insOffset o l

/-- The objects of a segment whose list is inconsistent, by their records alone and in descending position (DESIGN CHOICE, log entry 106: 09
R247 stops the handovers alone and gives no order). -/
def Trk.loose (t : Trk) (seg : Nat) : List Nat :=
  ((t.objs.filter fun o => o.valid && o.seg = seg).foldl (fun l o => insOffset o l) []).map (·.num)

/-- Offset of an object as a number. -/
def Trk.offset (t : Trk) (n : Nat) : Int := ((t.obj n).map fun o => wval o.offset).getD 0

/-- Take an object out of its segment's list. -/
def Trk.unlink (t : Trk) (n : Nat) : Trk :=
  match t.obj n with
  | none => t
  | some o =>
    let t := match o.ahead with
      | some a => t.onObj a fun x => { x with behind := o.behind }
      | none => t
    let t := match o.behind with
      | some b => t.onObj b fun x => { x with ahead := o.ahead }
      | none => t
    t.onSeg o.seg fun g => { g with
      objects := g.objects - 1
      head := if g.head = some n then o.behind else g.head
      tail := if g.tail = some n then o.ahead else g.tail
      left := satAdd 32 g.left 1 }

/-- Insert an object, whose record holds its OFFSET, into the list of a segment: behind every object at its position or beyond it
(equal positions: behind). -/
def Trk.link (t : Trk) (o : Obj) (l : List Nat) : Trk :=
  let off := wval o.offset
  let ahead := (l.filter fun n => t.offset n ≤ off).getLast?
  let behind := match ahead with
    | some a => l[(l.findIdx (· = a)) + 1]?
    | none => l.head?
  let t := t.setObj { o with ahead := ahead, behind := behind, valid := true, heldEnd := false }
  let t := match ahead with
    | some a => t.onObj a fun x => { x with behind := some o.num }
    | none => t
  let t := match behind with
    | some b => t.onObj b fun x => { x with ahead := some o.num }
    | none => t
  t.onSeg o.seg fun g => { g with
    objects := g.objects + 1
    head := if ahead.isNone then some o.num else g.head
    tail := if behind.isNone then some o.num else g.tail
    entered := satAdd 32 g.entered 1 }

/-- The first window index of a segment whose START passes a test (09 R233). -/
def Trk.firstWin (t : Trk) (g : Seg) (p : Int → Bool) : Nat :=
  ((List.range g.cfg.winCount).find? fun i => p ((t.winAt (g.cfg.winFirst + i)).start : Int)).getD g.cfg.winCount

/-! ## Record bytes, 09 R225 to R241 -/

/-- An object number or none in a link field. -/
def linkNum (o : Option Nat) : Nat := o.getD 0xFFFFFFFF
/-- The link that a field holds. -/
def numLink (n : Nat) : Option Nat := if n = 0xFFFFFFFF then none else some n

/-- SRC_STATE. -/
def SrcSt.code : SrcSt → Nat
  | .idle => 0
  | .fresh => 1
  | .predict => 2
  | .missing => 3
  | .fault => 4
  | .lost => 5

/-- The state of a code. -/
def SrcSt.ofCode : Nat → SrcSt
  | 0 => .idle
  | 1 => .fresh
  | 2 => .predict
  | 3 => .missing
  | 4 => .fault
  | _ => .lost

/-- The 32 bytes of an encoder source record. -/
def Src_.enc (r : Src_) : List Byte :=
  le 2 (r.cfg.station % 1024 + bitIf r.cfg.enabled 15) ++ le 1 r.cfg.input ++ le 1 r.st.code ++ le 4 r.count.toNat ++
    le 8 r.edge ++ le 8 r.recN ++ le 2 r.miss ++ le 2 r.eflags.toNat ++ le 4 0

/-- An encoder source record from its bytes. -/
def srcDec (b : List Byte) : Src_ :=
  { cfg := { station := field b 0 2 % 1024, enabled := (byteAt b 1).getLsbD 7, input := field b 2 1 },
    st := SrcSt.ofCode (field b 3 1), count := BitVec.ofNat 32 (field b 4 4), edge := field b 8 8, recN := field b 16 8,
    miss := field b 24 2, eflags := BitVec.ofNat 16 (field b 26 2), seen := field b 3 1 ≠ 0 }

/-- The 64 bytes of a segment configuration record. -/
def segCfgEnc (c : SegCfg) : List Byte :=
  le 8 c.length.toNat ++ le 4 (BitVec.ofInt 32 c.scale).toNat ++ le 2 c.source ++ le 1 c.velShift ++
    le 1 (if c.enabled then 1 else 0) ++ le 4 c.velMin ++ le 2 c.velZeroUs ++ le 2 c.winCount ++ le 4 c.winFirst ++
    le 4 c.hoFirst ++ le 2 c.hoCount ++ List.replicate 30 0

/-- A segment configuration record from its bytes. -/
def segCfgDec (b : List Byte) : SegCfg :=
  { length := BitVec.ofNat 64 (field b 0 8), scale := int32 (field b 8 4), source := field b 12 2, velShift := field b 14 1,
    enabled := (byteAt b 15).getLsbD 0, velMin := field b 16 4, velZeroUs := field b 20 2, winCount := field b 22 2,
    winFirst := field b 24 4, hoFirst := field b 28 4, hoCount := field b 32 2 }

/-- The 128 bytes of a segment state record. -/
def SegSt.enc (g : SegSt) : List Byte :=
  le 8 g.odo.toNat ++ le 8 g.prevOdo.toNat ++ le 8 g.odoC.toNat ++ le 8 g.vel.toNat ++ le 4 g.lastCount.toNat ++ le 2 g.frac ++
    le 2 (bitIf g.predicted 0 + bitIf g.sourceLost 1 + bitIf g.frozen 2 + bitIf g.reverse 3 + bitIf g.standstill 4 +
      bitIf g.rebase 5) ++
    le 8 g.stillTime ++ le 8 g.sampleTime ++ le 4 g.sampleCount.toNat ++ le 4 g.objects ++ le 4 (linkNum g.head) ++
    le 4 (linkNum g.tail) ++ le 8 g.advN ++ le 1 g.faultCode ++ le 3 0 ++ le 4 g.faults ++ le 4 g.fired ++ le 4 g.missed ++
    le 4 g.entered ++ le 4 g.left ++ List.replicate 24 0

/-- A segment state record from its bytes. -/
def segStDec (b : List Byte) : SegSt :=
  { odo := BitVec.ofNat 64 (field b 0 8), prevOdo := BitVec.ofNat 64 (field b 8 8), odoC := BitVec.ofNat 64 (field b 16 8),
    vel := BitVec.ofNat 64 (field b 24 8), lastCount := BitVec.ofNat 32 (field b 32 4), frac := field b 36 2,
    predicted := (byteAt b 38).getLsbD 0, sourceLost := (byteAt b 38).getLsbD 1, frozen := (byteAt b 38).getLsbD 2,
    reverse := (byteAt b 38).getLsbD 3, standstill := (byteAt b 38).getLsbD 4, rebase := (byteAt b 38).getLsbD 5,
    stillTime := field b 40 8, sampleTime := field b 48 8, sampleCount := BitVec.ofNat 32 (field b 56 4),
    objects := field b 60 4, head := numLink (field b 64 4), tail := numLink (field b 68 4), advN := field b 72 8,
    faultCode := field b 80 1, faults := field b 84 4, fired := field b 88 4, missed := field b 92 4, entered := field b 96 4,
    left := field b 100 4, hoStop := (byteAt b 38).getLsbD 2 && field b 80 1 = 5 }

/-- The 64 bytes of an object record. -/
def Obj.enc (o : Obj) : List Byte :=
  le 8 o.offset.toNat ++ le 4 (linkNum o.ahead) ++ le 4 (linkNum o.behind) ++ le 2 o.seg ++
    le 2 (bitIf o.valid 0 + bitIf o.missed 1 + bitIf o.heldEnd 2 + bitIf o.left 3 + bitIf o.refused 4) ++ le 4 o.tag.toNat ++
    le 8 o.id.toNat ++ le 8 o.createTime ++ le 8 o.segTime ++ le 4 o.length ++ le 4 o.user.toNat ++ le 2 o.wnext ++
    le 2 o.hops ++ le 4 0

/-- An object record from its bytes; none for a free record. -/
def objDec (n : Nat) (b : List Byte) : Option Obj :=
  let fl := byteAt b 18
  if fl.getLsbD 0 || fl.getLsbD 3 then
    some { num := n, offset := BitVec.ofNat 64 (field b 0 8), ahead := numLink (field b 8 4), behind := numLink (field b 12 4),
           seg := field b 16 2, valid := fl.getLsbD 0, missed := fl.getLsbD 1, heldEnd := fl.getLsbD 2, left := fl.getLsbD 3,
           refused := fl.getLsbD 4, tag := BitVec.ofNat 32 (field b 20 4), id := BitVec.ofNat 64 (field b 24 8),
           createTime := field b 32 8, segTime := field b 40 8, length := field b 48 4, user := BitVec.ofNat 32 (field b 52 4),
           wnext := field b 56 2, hops := field b 58 2, freeIn := if fl.getLsbD 0 then none else some 0 }
  else none

/-- The 32 bytes of a window record. -/
def Win.enc (w : Win) : List Byte :=
  le 4 w.cfg.start ++ le 4 w.cfg.stop ++ le 4 w.cfg.trig ++ le 4 w.fired ++ le 2 w.cfg.matchVal.toNat ++
    le 2 w.cfg.matchMask.toNat ++ le 1 w.cfg.action ++ le 1 w.cfg.actNum ++ le 2 w.cfg.wflags.toNat ++ le 4 w.cfg.point.toNat ++
    le 2 w.cfg.leadUs ++ le 2 w.cfg.offDist

/-- A window record from its bytes. -/
def winDec (n : Nat) (b : List Byte) : Win :=
  { num := n, fired := field b 12 4,
    cfg := { start := field b 0 4, stop := field b 4 4, trig := field b 8 4, matchVal := BitVec.ofNat 16 (field b 16 2),
             matchMask := BitVec.ofNat 16 (field b 18 2), action := field b 20 1, actNum := field b 21 1,
             wflags := BitVec.ofNat 16 (field b 22 2), point := BitVec.ofNat 32 (field b 24 4), leadUs := field b 28 2,
             offDist := field b 30 2 } }

/-- The 16 bytes of a handover entry. -/
def hoEnc (h : HoCfg) : List Byte :=
  le 2 h.toSeg ++ le 2 h.hflags.toNat ++ le 4 h.entryPos ++ le 2 h.matchVal.toNat ++ le 2 h.matchMask.toNat ++ le 1 h.actNum ++
    le 3 0

/-- A handover entry from its bytes. -/
def hoDec (b : List Byte) : HoCfg :=
  { toSeg := field b 0 2, hflags := BitVec.ofNat 16 (field b 2 2), entryPos := field b 4 4,
    matchVal := BitVec.ofNat 16 (field b 8 2), matchMask := BitVec.ofNat 16 (field b 10 2), actNum := field b 12 1 }

/-- The 16 bytes of an actuation entry, 05 R153. -/
def ActEnt.enc (e : ActEnt) : List Byte :=
  le 4 e.point.toNat ++ le 2 e.value.toNat ++ le 2 (if e.cancel then 1 else 0) ++ le 8 e.time

/-- An actuation entry from its bytes. -/
def actDec (b : List Byte) : ActEnt :=
  { point := BitVec.ofNat 32 (field b 0 4), value := BitVec.ofNat 16 (field b 4 2), cancel := (byteAt b 6).getLsbD 0,
    time := field b 8 8 }

/-! ## The tables in memory, 09 R219 -/

/-- Table of an offset in the tracking area: base, record size (0 for a reserved range), table number. -/
def trkTable (o : Nat) : Nat × Nat × Nat :=
  if o < 0x10000000 then (0, 64, 0)
  else if o < 0x10400000 then (0x10000000, 32, 1)
  else if o < 0x10600000 then (0x10400000, 128, 2)
  else if o < 0x10700000 then (0x10600000, 64, 3)
  else if o < 0x10800000 then (0x10700000, 16, 4)
  else if o < 0x10820000 then (0x10800000, 32, 5)
  else if 0x10C00000 ≤ o && o < 0x11000000 then (0x10C00000, 16, 6)
  else (0, 0, 7)

/-- Record `n` of a table as bytes; an unconfigured or free record reads as zeros. -/
def trkRecord (t : Trk) (log : List ActEnt) (table n : Nat) : List Byte :=
  match table with
  | 0 => ((t.obj n).map (·.enc)).getD (List.replicate 64 0)
  | 1 => ((t.wins.find? (·.num = n)).map (·.enc)).getD (List.replicate 32 0)
  | 2 => ((t.seg n).map (·.st.enc)).getD (List.replicate 128 0)
  | 3 => ((t.seg n).map (fun g => segCfgEnc g.cfg)).getD (List.replicate 64 0)
  | 4 => ((alook n t.hos).map hoEnc).getD (List.replicate 16 0)
  | 5 => ((alook n t.srcs).map (·.enc)).getD (List.replicate 32 0)
  | 6 => ((log[n]?).map (·.enc)).getD (List.replicate 16 0)
  | _ => []

/-- Byte of the tracking area at an offset; reserved ranges read as zero. -/
def trkByte (t : Trk) (log : List ActEnt) (o : Nat) : Byte :=
  let tb := trkTable o
  if tb.2.1 = 0 then 0 else byteAt (trkRecord t log tb.2.2 ((o - tb.1) / tb.2.1)) ((o - tb.1) % tb.2.1)

/-- Put a record into a list by number. -/
def putBy {α : Type} (num : α → Nat) (a : α) : List α → List α
  | [] => [a]
  | b :: l => if num a = num b then a :: l else if num a < num b then a :: b :: l else b :: putBy num a l

/-- Replace record `n` of a table from its bytes. An entry of the actuation log that changes at the place of the next one is the last one
written (09 R250). -/
def trkPut (t : Trk) (log : List ActEnt) (table n : Nat) (b : List Byte) : Trk × List ActEnt :=
  match table with
  | 0 => (match objDec n b with
    | some o => t.setObj o
    | none => t.freeObj n, log)
  | 1 => ({ t with wins := putBy (·.num) (winDec n b) t.wins }, log)
  | 2 =>
    let g : Seg := (t.seg n).getD { num := n, cfg := segCfgDec [] }
    ({ t with segs := putBy (·.num) { g with st := segStDec b } t.segs }, log)
  | 3 =>
    let g : Seg := (t.seg n).getD { num := n, cfg := segCfgDec [] }
    ({ t with segs := putBy (·.num) { g with cfg := segCfgDec b } t.segs }, log)
  | 4 => ({ t with hos := aset n (hoDec b) t.hos }, log)
  | 5 => ({ t with srcs := aset n (srcDec b) t.srcs }, log)
  | 6 =>
    let e := actDec b
    if log[n]? = some e || (log.length ≤ n && b.all (· = 0)) then (t, log)
    else ({ t with logN := if n = t.logN then (n + 1) % 262144 else t.logN }, if n < log.length then log.set n e else log ++ [e])
  | _ => (t, log)

/-- Lay bytes at an offset of the tracking area, record by record (a mirror line, 11 R292). -/
def trkOverlay (t : Trk) (log : List ActEnt) (o : Nat) (bs : List Byte) : Nat → Trk × List ActEnt
  | 0 => (t, log)
  | k + 1 =>
    let tb := trkTable o
    if bs = [] ∨ tb.2.1 = 0 then (t, log)
    else
      let n := (o - tb.1) / tb.2.1
      let at_ := (o - tb.1) % tb.2.1
      let old := trkRecord t log tb.2.2 n
      let take := min bs.length (tb.2.1 - at_)
      let new_ := old.take at_ ++ bs.take take ++ old.drop (at_ + take)
      let r := trkPut t log tb.2.2 n new_
      trkOverlay r.1 r.2 (o + take) (bs.drop take) k

/-! ## TRACK_SNAPSHOT images, 09 R252, R253 -/

/-- Bytes of section `i` of a snapshot. -/
def sectionLen (i count : Nat) : Nat :=
  match i with
  | 0 => 0x20000
  | 1 => 0x100000
  | 2 => 0x200000
  | 3 => 0x400000
  | 4 => 0x100000
  | 5 => 64 * count
  | 6 => 0x400000
  | _ => 0

/-- Where section `i` of a snapshot ends in the buffer. -/
def sectionEnd (scope count i : Nat) : Nat :=
  64 + (((List.range (i + 1)).filter fun k => scope.testBit k).map fun k => sectionLen k count).foldl (· + ·) 0

/-- Bytes of a snapshot, the header included. -/
def snapLen (scope count : Nat) : Nat :=
  64 + (((List.range 7).filter fun i => scope.testBit i).map fun i => sectionLen i count).foldl (· + ·) 0

/-- Section `i` in its own record layout. -/
def State.snapSection (s : State) (i first count : Nat) : List Byte :=
  let tab (table n : Nat) : List Byte := (List.range n).flatMap fun k => trkRecord s.trk s.act.log table k
  match i with
  | 0 => tab 5 4096
  | 1 => tab 3 16384
  | 2 => tab 2 16384
  | 3 => tab 1 131072
  | 4 => tab 4 65536
  | 5 => (List.range count).flatMap fun k => trkRecord s.trk s.act.log 0 (first + k)
  | _ => tab 6 262144

/-- The selected tables as they stand, behind the header, which is written last (09 R253). -/
def State.snapImage (s : State) (scope first count : Nat) : List Byte :=
  ((List.range 7).filter fun i => scope.testBit i).flatMap fun i => s.snapSection i first count

/-- The header, 09 R252. -/
def State.snapHeader (s : State) (scope first count n still : Nat) (standby : Bool) : List Byte :=
  le 8 n ++ le 8 still ++ le 4 scope ++ le 4 first ++ le 4 count ++ le 4 s.trk.free ++ le 8 (snapLen scope count) ++ le 2 1 ++
    le 2 (if standby then 1 else 0) ++ List.replicate 20 0

/-- A snapshot that waits for its instant takes its image, header first (09 R253). -/
def State.takeSnapshots (s : State) (standby : Bool) : State :=
  let n := s.cyc.n
  let still := s.stillOf n
  let take (r : Run) : Run := match r.work with
    | .snapshot scope first count none _ _ _ =>
      let b := s.snapHeader scope first count n still standby ++ s.snapImage scope first count
      { r with work := .snapshot scope first count (some b) n still standby }
    | _ => r
  { s with host := { s.host with runs := s.host.runs.map take } }

end Sys2Proof.Machine
end

