-- ==== Sys2Proof/Machine/Command.lean ====
section
/-! DEFINITION. Shared operations of the host commands: fetching, the checks of 13 R345 in their order, sessions,
permissions. -/

namespace Sys2Proof.Machine
open Sys2Proof

/-- Command codes, 13 R361. -/
def knownOp (op : Nat) : Bool :=
  [0x0001, 0x0010, 0x0011, 0x0012, 0x0020, 0x0030, 0x0031, 0x0032, 0x0033, 0x0040, 0x0041, 0x0042, 0x0050, 0x0051, 0x0052,
   0x0060, 0x0061, 0x0062, 0x0063, 0x0064, 0x0070, 0x0071, 0x0072, 0x0073, 0x0080, 0x0081, 0x0082, 0x0090, 0x0091, 0x00A0,
   0x00B0, 0x00C0, 0x00C1, 0x00D0, 0x00E0, 0x00E1, 0x00E2, 0x00F0].contains op

/-! ## Sessions, 14 R386 to R389 -/

/-- An open session. -/
def State.sessOf (s : State) (n : Nat) : Option Sess := s.host.sess.find? (·.num = n)

/-- Update a session. -/
def State.onSess (s : State) (n : Nat) (f : Sess → Sess) : State :=
  { s with host := { s.host with sess := s.host.sess.map fun x => if x.num = n then f x else x } }

/-- Remove a session. -/
def State.dropSess (s : State) (n : Nat) : State :=
  { s with host := { s.host with sess := s.host.sess.filter fun x => x.num ≠ n } }

/-- Close a session with the event SESSION_CLOSED (13 R357): reason 1 queue disabled, 2 connection closed, 3 by the module. -/
def State.closeSess (s : State) (n reason : Nat) : State :=
  (s.dropSess n).event 0x0008 (le 2 n ++ le 1 reason ++ List.replicate 9 0)

/-- Close every session that a condition selects. -/
def State.closeAll (s : State) (p : Sess → Bool) (reason : Nat) : State :=
  (s.host.sess.filter p).foldl (fun s x => s.closeSess x.num reason) s

/-- Commands under way whose completions are discarded (13 R338, R377). -/
def State.orphan (s : State) (src : Src) : State :=
  { s with host := { s.host with runs := s.host.runs.map fun r => if r.src = src then { r with src := .self } else r } }

/-! ## Permissions, 14 R390, R391 -/

/-- The party (13 R385 code) may issue the command in the life-cycle state; LIFECYCLE_ADVANCE has its own rule. -/
def allowed (life party op : Nat) : Bool :=
  if op = 0x0001 ∨ op = 0x0020 then true
  else if life = 4 then false
  else if op = 0x0010 then party = 0
  else if op = 0x0011 then true
  else if op = 0x0012 then party ≠ 0
  else if op = 0x00A0 then party ≠ 0
  else if party = 1 && (life = 1 || life = 2) then false
  else if [0x0030, 0x0040, 0x0052, 0x00C0].contains op then party ≠ 0
  else if [0x0031, 0x0032, 0x0033].contains op then party = 1 || party = 2 || party = 4
  else if op = 0x0041 then party = 2
  else if op = 0x0042 ∨ op = 0x00D0 then party = 1 || party = 2 || party = 4
  else if op = 0x0050 ∨ op = 0x0051 then party = 2
  else if [0x0060, 0x0061, 0x0062, 0x0063, 0x0064].contains op then party = 2 || party = 3
  else if [0x0070, 0x0071, 0x0072, 0x0073].contains op then party = 1 || party = 2
  else if op = 0x0080 ∨ op = 0x0081 then party = 1 || party = 2 || party = 3
  else if op = 0x0082 ∨ op = 0x00F0 then party = 2 || party = 3 || party = 4
  else if op = 0x0090 ∨ op = 0x0091 then party = 1 || party = 2 || party = 4
  else if op = 0x00C1 then party = 1 || party = 2
  else if [0x00E0, 0x00E1, 0x00E2].contains op then party ≠ 0
  else false

/-! ## Ring errors, 13 R342, R343, R350, 15 R425 -/

/-- The queue enters ERROR for a reason, with the event QUEUE_ERROR; what it fetched and not began is dropped. -/
def State.queueError (s : State) (q reason : Nat) : State :=
  (s.onHq q fun h => { h with st := .error, err := reason, posted := [], backlog := [], waiting := [] }).event 0x0003
    (le 1 q ++ le 1 reason ++ List.replicate 10 0)

/-- A span lies in a ring of `n` entries of `size` bytes from `base`. -/
def inRing (base size n addr len : Nat) : Bool := base ≤ addr && addr + len ≤ base + size * n

/-- The rings of the enabled queues hold the span: the SQ to be read, the CQ and the event ring to be written (15 R425). -/
def State.inAperture (s : State) (write : Bool) (addr len : Nat) : Bool :=
  (s.host.q.toList.any fun h =>
    h.st = .enabled && (if write then inRing h.cqBase.toNat 32 h.size addr len else inRing h.sqBase.toNat 64 h.size addr len)) ||
  (write && s.host.ev.st = .enabled && inRing s.host.ev.base.toNat 32 s.host.ev.size addr len)

/-- The host aperture refuses an access (15 R425): it is counted and written as WB_VIOLATION with REASON 11; a write is a posted one, whose
notice is imprecise (DEDUCED, log entry 87). -/
def State.apertureRefuses (s : State) (d : Dma) (write : Bool) (addr size : Nat) : State :=
  if d ≠ .aperture then s
  else
    let w := if write then { s.wb with imprecise := satAdd 32 s.wb.imprecise 1 }
      else { s.wb with
        precise := satAdd 32 s.wb.precise 1
        last := BitVec.ofNat 64 (addr % 2 ^ 40 + 0x7F * 2 ^ 40 + 4 * 2 ^ 47 + 11 * 2 ^ 50) }
    ({ s with wb := w } : State).recordBy 0x0D00 (srcOf 12 0)
      (le 1 4 ++ le 1 (bitIf write 0) ++ le 1 11 ++ le 1 (bitIf (!write) 0) ++ List.replicate 4 0xFF ++
        le 8 (if write then 0 else addr) ++ le 2 (if write then 0 else size) ++ le 2 1 ++ le 4 0) 0 false

/-! ## Fetching, 13 R342, R344, R359, R375 -/

/-- The descriptor that an entry's bytes spell, 13 R344. -/
def descOf (e : SqEnt) (q : Fin 8) : Desc :=
  { opcode := field e.head 0 2
    cmd :=
      { src := .queue q, flags := BitVec.ofNat 16 (field e.head 2 2), cmdId := BitVec.ofNat 32 (field e.head 4 4)
        session := BitVec.ofNat 16 (field e.head 8 2), rsvd10 := BitVec.ofNat 16 (field e.head 10 2), length := field e.head 12 4
        bufAddr := BitVec.ofNat 64 (field e.head 16 8), inl := slice e.head 24 16, rsvd40 := BitVec.ofNat 64 (field e.head 40 8)
        macErr := e.macErr, dma := e.dma, buf := e.buf } }

/-- The 64 bytes of a descriptor, 13 R344, under a session's command key: the MAC is zero with SESSION 0 and for SESSION_PROVE (13 R346,
14 R387), but for what it differs by. -/
def descWire (d : Desc) (ck : BitVec 512) (toModule : Bool) : List Byte :=
  descBytes d.opcode d.cmd ++
    le 16 ((if d.cmd.session = 0 || d.opcode = 0x0011 then 0 else macFor ck d.opcode d.cmd toModule) ^^^ d.cmd.macErr).toNat

/-- An entry of a ring of which the command says nothing: its bytes are free values (log entry 3). -/
def State.unknownEnts : Nat → State → List SqEnt × State
  | 0, s => ([], s)
  | k + 1, s =>
    let (l, s) := State.unknownEnts k s
    let (d, s) := s.draw
    (l ++ [{ head := le 48 d.toNat, macErr := d.extractLsb' 384 128 }], s)

/-- How many more descriptors of a queue may be fetched now. -/
def State.fetchRoom (s : State) (q : Nat) : Nat :=
  let h := s.hq q
  if h.st ≠ .enabled || !h.waiting.isEmpty || (h.size ≤ h.used && 0 < h.size) then 0
  else if s.host.busy then (if q = 0 && h.backlog.isEmpty then 1 else 0)
  else 8 - h.backlog.length

/-- Take one fetched descriptor: an unknown code completes at once with INVALID and OPCODE (13 R345, check 1). -/
def State.fetchOne (s : State) (q : Nat) (d : Desc) : State :=
  let s := s.hostRead ((s.hq q).sqBase.toNat + 64 * (s.hq q).sqHead) 64
  let s := s.onHq q fun h => { h with posted := h.posted.drop 1, sqHead := (h.sqHead + 1) % h.size }
  if knownOp d.opcode then s.onHq q fun h => { h with backlog := h.backlog ++ [d] }
  else s.final d.opcode d.cmd stInvalid dOpcode

/-- The backlog: commands fetched and capsules received, not yet begun. -/
def State.backlog (s : State) : Nat :=
  s.host.q.toList.foldl (fun n h => n + h.backlog.length) 0 +
  s.host.conn.toList.foldl (fun n c => n + ((c.map (·.backlog.length)).getD 0)) 0

/-- In BUSY, the instant since when the backlog has stayed at 16 or less (13 R375). -/
def State.noteLow (s : State) : State :=
  if !s.host.busy then s
  else if 16 < s.backlog then { s with host := { s.host with lowSince := none } }
  else { s with host := { s.host with lowSince := s.host.lowSince.orElse fun _ => some s.clk.now } }

/-- Fetch the next entry where the queue may fetch one; a refused read puts it in ERROR (13 R350). -/
def State.fetchNext (s : State) (q : Nat) : State :=
  match (s.hq q).posted with
  | [] => s
  | e :: _ =>
    if s.fetchRoom q = 0 then s
    else
      let a := (s.hq q).sqBase.toNat + 64 * (s.hq q).sqHead
      let d := if e.ring = .ok && !s.inAperture false a 64 then .aperture else e.ring
      if d ≠ .ok then (s.apertureRefuses d false a 64).queueError q 3
      else s.fetchOne q (descOf e (Fin.ofNat 8 q))

/-- Fetch what the queue may have fetched. -/
def State.fetch (s : State) (q : Nat) : State :=
  ((List.range (s.hq q).posted.length).foldl (fun s _ => s.fetchNext q) s).noteLow

/-- Fetch from every queue, queue 0 first (13 R374). -/
def State.fetchAll (s : State) : State := (List.range 8).foldl State.fetch s

/-- The management lane serves its rings (18 R481, 03 R87). -/
def State.serves (s : State) : Bool := s.pwr.lullService && !(s.laneAt 8).halted

/-- A fetched descriptor is that of a command. -/
def isDesc (op : Nat) (c : Cmd) (d : Desc) : Bool := d.opcode = op && d.cmd = c

/-- The command is the next of its queue or connection: the first one fetched and not begun (13 R359). -/
def State.inOrder (s : State) (op : Nat) (c : Cmd) : Bool :=
  let head (l : List Desc) : Bool := match l with
    | d :: _ => isDesc op c d
    | [] => false
  match c.src with
  | .queue q => head (s.hq q.val).backlog
  | .conn k => head (((s.host.conn[k]).map (·.backlog)).getD [])
  | .self => true

/-- Every earlier command of the queue or connection has posted its FINAL completion: none is under way and no FINAL is held (13 R359). -/
def State.fenceMet (s : State) (src : Src) : Bool :=
  (s.host.runs.all fun r => r.src ≠ src) &&
  (match src with
   | .queue q => (s.hq q.val).waiting.all fun w => w.kind ≠ 0
   | _ => true)

/-- KEY is needed to begin the command, for a session's MAC, a proof or a signature, and its clock has stopped (01 R19). -/
def State.keyStopped (s : State) (op : Nat) (c : Cmd) : Bool := (c.session ≠ 0 || op = 0x0010 || op = 0x00A0) && s.unclocked 23

/-- The queue or connection has a command that ring service could begin. -/
def State.ready (s : State) (src : Src) : Bool :=
  let go (l : List Desc) : Bool := match l with
    | d :: _ => !s.keyStopped d.opcode d.cmd && (!d.cmd.flags.getLsbD 0 || s.fenceMet src)
    | [] => false
  match src with
  | .queue q => (s.hq q.val).st = .enabled && go (s.hq q.val).backlog
  | .conn k => go (((s.host.conn[k]).map (·.backlog)).getD [])
  | .self => false

/-- The order of ring service, 13 R374: queue 0, queues 1 to 7 in turn, the service connections in turn, taken as a strict order (DEDUCED, log
entry 109). -/
def State.serviceOrder (s : State) : List Src :=
  .queue 0 :: ((List.finRange 7).map fun i => Src.queue (Fin.ofNat 8 ((s.host.turnQ + i.val) % 7 + 1))) ++
    (List.finRange 4).map fun i => Src.conn (Fin.ofNat 4 (s.host.turnC + 1 + i.val))

/-- Ring service stands at the queue or connection of the command. -/
def State.inTurn (s : State) (src : Src) : Bool :=
  src = .self || s.serviceOrder.find? s.ready = some src

/-- The command can be begun: ring service stands at its queue or connection, it is the next of it, and a FENCE finds every earlier command of
its queue finished (13 R338, R343, R359, R374). -/
def State.canBegin (s : State) (op : Nat) (c : Cmd) : Bool :=
  s.serves && !s.keyStopped op c && s.inOrder op c && s.inTurn c.src &&
  (match c.src with
   | .queue q => (s.hq q.val).st = .enabled
   | .conn k => (s.host.conn[k]).isSome
   | .self => true) &&
  (!c.flags.getLsbD 0 || s.fenceMet c.src)

/-- Take the first fetched descriptor of the command out of its backlog, and fetch on. -/
def State.unqueue (s : State) (op : Nat) (c : Cmd) : State :=
  let drop (l : List Desc) : List Desc := l.eraseP (isDesc op c)
  match c.src with
  | .queue q =>
    let s : State := if q.val = 0 then s else { s with host := { s.host with turnQ := q.val } }
    (s.onHq q.val fun h => { h with backlog := drop h.backlog }).fetch q.val
  | .conn k =>
    let x := (s.host.conn[k]).map fun x => { x with backlog := drop x.backlog }
    ({ s with host := { s.host with conn := s.host.conn.set k.val x, turnC := k.val } } : State).noteLow
  | .self => s

/-! ## The checks of 13 R345 -/

/-- Check 2: reserved flags and fields. -/
def resOk (c : Cmd) (inlOk : Bool) : Bool := c.flags.toNat / 4 = 0 && c.rsvd10 = 0 && c.rsvd40 = 0 && inlOk

/-- Check 3: LENGTH and BUF_ADDR (13 R348); `dir` 0 no buffer, 1 to module, 2 to host. -/
def bufOk (c : Cmd) (dir : Nat) : Bool :=
  (dir ≠ 0 || (c.length = 0 && c.bufAddr = 0)) && (c.length ≠ 0 || c.bufAddr = 0) &&
  (c.bufAddr = 0 || (c.bufAddr.toNat % 8 = 0 && c.bufAddr.toNat + c.length ≤ 2 ^ 64)) &&
  (dir ≠ 1 || c.length ≤ 0x4000000)

/-- The queue is queue 0. -/
def onQueue0 (c : Cmd) : Bool :=
  match c.src with
  | .queue q => q.val = 0
  | _ => false

/-- The commands that the module issues by itself: APP_START at readiness, and a rejoin, with party 0 (18 R483, 03 R84). -/
def selfOp (op : Nat) (c : Cmd) : Bool := c.src = .self && c.session = 0 && (op = 0x0062 || op = 0x0091)

/-- Check 4: session, CMD_ID and MAC (13 R346; SESSION_PROVE: 14 R387): the MAC carried is the one called for, `macFor` under the
session's command key where the session is proven, else zero. -/
def State.sessOk (s : State) (op : Nat) (c : Cmd) : Bool :=
  if c.src = .self then selfOp op c
  else if op = 0x0011 then
    match s.sessOf c.session.toNat with
    | some x => !x.proven && x.src = c.src && c.macErr = 0
    | none => false
  else if c.session = 0 then c.macErr = 0
  else
    match s.sessOf c.session.toNat with
    | some x => x.proven && x.src = c.src && (match x.lastCmd with | some n => n < c.cmdId.toNat | none => true) && c.macErr = 0
    | none => false

/-- The party of a command: that of its session, 0 with none (14 R385). -/
def State.partyOf (s : State) (c : Cmd) : Nat :=
  if c.session = 0 then 0
  else match s.sessOf c.session.toNat with
    | some x => if x.proven then x.party else 0
    | none => 0

/-- Check 5: the party may issue the command, and 13 R339 holds. -/
def mayIssue (op : Nat) (c : Cmd) (ok : Bool) : Bool :=
  selfOp op c || (c.src ≠ .self && ok && !(onQueue0 c && c.session = 0 && op ≠ 0x0010))

/-- The accesses to the buffer are not refused. -/
def dmaOk (c : Cmd) : Bool := c.dma = .ok

/-- The first of checks 2 to 5 that fails, as status and DETAIL; a refused read of a buffer to the module stands between
checks 3 and 4, since the MAC covers the buffer (13 R347, R350). -/
def State.checks (s : State) (op : Nat) (c : Cmd) (dir : Nat) (inlOk ok : Bool) : Option (Nat × Nat) :=
  if !resOk c inlOk then some (stInvalid, dReserved)
  else if !bufOk c dir then some (stInvalid, dBuffer)
  else if dir = 1 && 0 < c.length && !dmaOk c then some (stFailed, dDma)
  else if !s.sessOk op c then some (stBadSession, dNone)
  else if !mayIssue op c ok then some (stDenied, dNone)
  else none

/-- Checks 2 and 3 have passed: a buffer to the module is read, once (13 R347); a service connection has brought it with the capsule. -/
def State.readBuf (s : State) (c : Cmd) (dir : Nat) (inlOk : Bool) : State :=
  match c.src with
  | .queue _ => if resOk c inlOk && bufOk c dir && dir = 1 then s.hostRead c.bufAddr.toNat c.length else s
  | _ => s

/-- The buffer is read; where check 4 has passed, the CMD_ID is used up (13 R346). -/
def State.useId (s : State) (op : Nat) (c : Cmd) (dir : Nat) (inlOk : Bool) : State :=
  let s := s.readBuf c dir inlOk
  if resOk c inlOk && bufOk c dir && !(dir = 1 && 0 < c.length && !dmaOk c) && s.sessOk op c && c.session ≠ 0 then
    s.onSess c.session.toNat fun x => { x with lastCmd := some c.cmdId.toNat }
  else s

/-- Begin a command whose permission is `ok`: checks 2 to 5, the zero LENGTH of a module-to-host buffer (13 R349), then the
command's own rules `k`. A command that cannot be begun has no effect yet. -/
def State.hostCmdBy (s : State) (op : Nat) (c : Cmd) (dir : Nat) (inlOk ok : Bool) (k : State → State) : State :=
  if !s.canBegin op c then s
  else
    let s := s.unqueue op c
    match s.checks op c dir inlOk ok with
    | some (st, d) =>
      let s := if d = dDma then s.apertureRefuses c.dma false c.bufAddr.toNat c.length else s
      (s.useId op c dir inlOk).final op c st d
    | none =>
      let s := s.useId op c dir inlOk
      if dir = 2 && c.length = 0 then s.final op c stEmpty dNone else k s

/-- Begin a command under the table of 14 R390. -/
def State.hostCmd (s : State) (op : Nat) (c : Cmd) (dir : Nat) (inlOk : Bool) (k : State → State) : State :=
  s.hostCmdBy op c dir inlOk (allowed s.keys.life (s.partyOf c) op) k

/-- FINAL with bytes for the host's buffer; a refused write makes it FAILED with DMA (13 R350). -/
def State.finalData (s : State) (op : Nat) (c : Cmd) (status : Nat) (r0 r1 : Word) (data : List Byte) : State :=
  if dmaOk c || data.isEmpty then s.final op c status dNone r0 r1 data
  else (s.apertureRefuses c.dma true c.bufAddr.toNat c.length).final op c stFailed dDma

/-! ## Commands under way -/

/-- The entry of a command that will complete later. -/
def mkRun (op : Nat) (c : Cmd) (party : Nat) (long : Bool) (total : Nat) (w : Work) : Run :=
  { src := c.src, session := c.session.toNat, cmdId := c.cmdId, opcode := op, party := party,
    noIntr := c.flags.getLsbD 1, length := c.length, bufAddr := c.bufAddr, long := long, total := total, work := w }

/-- Begin a command that completes later. -/
def State.addRun (s : State) (r : Run) : State := { s with host := { s.host with runs := s.host.runs ++ [r] } }

/-- Long operations under way, 13 R360. -/
def State.longOps (s : State) : Nat := s.host.runs.countP (·.long)

/-- A command of a code is under way. -/
def State.running (s : State) (op : Nat) : Bool := s.host.runs.any (·.opcode = op)

/-- Accept a long operation: BUSY beyond 8, else ACCEPTED (13 R352, R360). -/
def State.accept (s : State) (r : Run) (op : Nat) (c : Cmd) : State :=
  if 8 ≤ s.longOps then s.final op c stBusy dNone
  else (s.addRun r).runPost r stAccepted 1 dNone

/-- Post PROGRESS: the step in DETAIL, units done and total in RESULT. The manual gives its status only for a suspension and a resumption
(13 R352): here it is a free value among the codes of 13 R551 that say neither refusal, failure, suspension nor cancel (log entry 19). -/
def State.progress (s : State) (r : Run) (step done total : Nat) : State :=
  let (d, s) := s.drawNat
  (s.setRun { r with step := step }).runPost r (d % 3) 2 step (BitVec.ofNat 64 done) (BitVec.ofNat 64 total)

/-- The operation has no steps that the manual numbers. -/
def Work.unnumbered (w : Work) : Bool :=
  match w with
  | .scrub _ _ => true
  | .flashVerify _ _ => true
  | .logExport _ _ _ _ _ _ _ => true
  | .snapshot _ _ _ _ _ _ _ => true
  | _ => false

/-- The step of an operation, DETAIL of its PROGRESS: a free value where the manual numbers no steps (log entry 19). -/
def State.stepOf (s : State) (r : Run) : Nat × State :=
  if r.work.unnumbered then (s.drawNat.1 % 65536, s.drawNat.2) else (r.step, s)

/-- A PROGRESS completion follows, of an operation that stood at `r.done` and now stands at `done`: each 4 MiB of a LOG_EXPORT (16 R438), each
256 MiB of a SCRUB (13 R371), each section of a snapshot and each further 16 MiB (09 R254); of the others each chunk. -/
def Run.tells (r : Run) (done : Nat) : Bool :=
  match r.work with
  | .logExport _ _ _ _ _ _ _ => r.done / 0x400000 < done / 0x400000
  | .scrub _ _ => r.done / 0x10000000 < done / 0x10000000
  | .snapshot scope _ count _ _ _ _ =>
    r.done / 0x1000000 < done / 0x1000000 ||
      (List.range 7).any fun i => scope.testBit i && r.done < sectionEnd scope count i && sectionEnd scope count i ≤ done
  | _ => true

/-- A chunk of an operation is done: its count is kept, and where one follows, PROGRESS within its step. -/
def State.chunkDone (s : State) (r : Run) (done total : Nat) : State :=
  let x := { r with done := done }
  if r.tells done then ((s.setRun x).stepOf x).2.progress x ((s.setRun x).stepOf x).1 done total else s.setRun x

/-- An operation is resumed: PROGRESS with ACCEPTED (13 R352). -/
def State.resumed (s : State) (r : Run) : State :=
  (s.stepOf r).2.runPost r stAccepted 2 (s.stepOf r).1 (BitVec.ofNat 64 r.done) (BitVec.ofNat 64 r.total)

/-- A running operation reaches its suspend point: PROGRESS with SUSPENDED; the OP_SUSPEND that waits for it is OK (13 R352,
R372). -/
def State.suspendRun (s : State) (r : Run) : State :=
  let s := ((s.stepOf r).2.setRun { r with suspended := true, suspendDue := false }).runPost r stSuspended 2 (s.stepOf r).1
    (BitVec.ofNat 64 r.done) (BitVec.ofNat 64 r.total)
  s.endRuns (fun x => match x.work with
    | .opSuspend sess id => sess = r.session && BitVec.ofNat 32 id = r.cmdId
    | _ => false) stOk dNone

/-- The command must be addressed to the primary (or a module that runs alone): 13 R355 ROLE. -/
def State.roleOk (s : State) : Bool := s.primary

end Sys2Proof.Machine
end

