-- ==== Sys2Proof/Machine/Force.lean ====
section
/-! DEFINITION. Forcing: 04 R105 to R119, 13 R370, 18 R480. -/

namespace Sys2Proof.Machine
open Sys2Proof

/-- The station map in use: of the configuration in force, else of the stored one. -/
def State.mapCfg (s : State) : Option NetCfg := s.net.cfg.orElse fun _ => s.net.stored

/-- The forceable variables of the running image. -/
def State.vars (s : State) : List FVar := (s.chg.running.map (·.body.forceable)).getD []

/-- A point address that 04 R97, R98 allow, local channels by their configuration. -/
def State.pointOk (s : State) (p : Point) : Bool :=
  Sys2Proof.pointOk s.mapCfg s.vars p &&
  (ptStn p ≠ localCode || (s.lch (ptIdx p)).cfg.mode = (if ptKind p = 0 then 1 else 2))

/-- The variable of an internal point stays as it is in an image. -/
def sameVar (a b : List FVar) (i : Nat) : Bool := a[i]? = b[i]?

/-- An internal point that a staged APP_CHANGE deletes or relocates, 04 R106. -/
def State.varMoves (s : State) (p : Point) : Bool :=
  ptStn p = internalCode &&
  ((s.chg.app.toList.any fun x => x.st = .staged && (match x.img with
    | some i => !sameVar s.vars i.body.forceable (ptIdx p)
    | none => false)) ||
   (match s.chg.change with
    | some c => !sameVar s.vars c.img.body.forceable (ptIdx p)
    | none => false) ||
   (match s.chg.staged with
    | some i => !sameVar s.vars i.body.forceable (ptIdx p)
    | none => false))

/-- The force on a point. -/
def State.forceAt (s : State) (p : Point) : Option Force := s.img.force.find? (·.point = p)

/-- The forced value in effect on a point, none while a first value is only pending. -/
def State.forced (s : State) (p : Point) : Option (BitVec 16) := (s.forceAt p).bind Force.now

/-- Insert or replace an entry, points ascending. -/
def putForce (f : Force) : List Force → List Force
  | [] => [f]
  | g :: l => if f.point = g.point then f :: l else if f.point.toNat < g.point.toNat then f :: g :: l else g :: putForce f l

/-- Write the force table with its store (18 R480) and mark its lines dirty for the standby (04 R117). -/
def State.setForces (s : State) (l : List Force) : State :=
  ({ s with img := ({ s.img with force := l } : Img).save } : State).mark forceBlock (32 * max l.length s.img.force.length)

/-- Version of the next change of the force table, 11 R284. -/
def State.nextVer (s : State) : Nat := s.pair.forceVer + 1

/-- The task may write the value at an address of the output image, or the push window of its lane: no split task may (02 R39, 15
R418). That a task that holds the push window alone counts as one that may write every output point is a DESIGN CHOICE (log entry 94). -/
def mayWrite (b : AppBody) (t : TaskCfg) (a : Nat) : Bool :=
  !b.laneSplit t.lane && (b.taskWrites t a || b.taskWrites t (0x10168000 + 0x100 * t.lane))

/-- The no-writer condition of an output point, 04 R118: no task of the image may write it. -/
def noWriter (cfg : Option NetCfg) (img : Option AppImage) (p : Point) : Bool :=
  match img, posOf cfg p with
  | some i, some pos =>
    let a := if ptDigital p then outImage + pos / 8 else outImage + 0x8000 + 2 * pos
    !i.body.tasks.any fun t => mayWrite i.body t a
  | _, _ => true

/-- FLAGS of a force entry, 04 R111. -/
def Force.flags (f : Force) : Nat :=
  1 + bitIf f.pending 1 + bitIf f.noWriter 2 + bitIf (ptStn f.point = internalCode) 3

/-- EFFECT_N while k is not fixed. -/
def noK : Nat := 0xFFFFFFFFFFFFFFFF

/-- The 32 bytes of a force entry, 04 R111. -/
def Force.enc (f : Force) : List Byte :=
  le 4 f.point.toNat ++ le 2 f.value.toNat ++ le 2 f.flags ++ le 2 f.field.toNat ++ le 1 f.fieldQ.toNat ++ le 1 f.party ++
    le 4 f.suppressed ++ le 8 f.setTime ++ le 8 (f.effectN.getD noK)

/-- A force entry from its 32 bytes; none where VALID is clear. -/
def forceDec (b : List Byte) : Option Force :=
  if (byteAt b 6).getLsbD 0 then
    let v := BitVec.ofNat 16 (field b 4 2)
    some { point := BitVec.ofNat 32 (field b 0 4), value := v, pending := (byteAt b 6).getLsbD 1,
           noWriter := (byteAt b 6).getLsbD 2, field := BitVec.ofNat 16 (field b 8 2), fieldQ := BitVec.ofNat 2 (field b 10 1),
           party := field b 11 1, suppressed := field b 12 4, setTime := field b 16 8,
           effectN := if field b 24 8 = noK then none else some (field b 24 8), now := if (byteAt b 6).getLsbD 1 then none else some v }
  else none

/-- The record of a change, 04 R113: point, value, party, k. -/
def State.forceRec (s : State) (c : FChange) (k : Nat) : State :=
  s.recordBy (if c.rel then 0x0301 else 0x0300) (srcOf 3 0) (items [c.point.toNat, c.value.toNat, c.party, k]) c.party false

/-- Every module in pair duty holds a version: the partner's acknowledgement counts while it is in pair duty (04 R107). -/
def State.verHeld (s : State) (v : Nat) : Bool := !s.partnerDuty || v ≤ s.pair.forceAcked

/-- A version of changes is complete: every module in pair duty holds it, and its changes have taken effect, or no network runs (04
R107). -/
def State.verDone (s : State) (k v : Nat) : Bool :=
  s.verHeld v && (k = noK || s.img.changes.all fun c => c.ver ≠ v || c.done)

/-- Complete what stands complete, with k: each change writes its record, the commands end (04 R107, R113). -/
def State.forceEnds (s : State) (k : Nat) : State :=
  let tell (c : FChange) : Bool := !c.told && s.verDone k c.ver
  let ready (r : Run) : Bool := match r.work with
    | .force v _ => s.verDone k v
    | _ => false
  let now := s.img.changes.filter tell
  let runs := s.host.runs.filter ready
  if now.isEmpty && runs.isEmpty then s
  else
    let s := now.foldl (fun s c => s.forceRec c k) s
    let left := (s.img.changes.map fun c => if tell c then { c with told := true } else c).filter fun c => !(c.told && c.done)
    let s := ({ s with img := { s.img with changes := left } } : State).setForces s.img.force
    runs.foldl (fun s r =>
      match r.work with
      | .force _ n =>
        if r.opcode = 0x0050 then s.endRun r stOk dNone (BitVec.ofNat 64 k)
        else s.endRun r stOk dNone (BitVec.ofNat 64 n) (BitVec.ofNat 64 k)
      | _ => s) s

/-- With no network running, a change that every module in pair duty holds completes with k unknown (04 R107). -/
def State.forceIdle (s : State) : State := if s.cyc.running then s else s.forceEnds noK

/-- The newest change of a point that has not taken effect. -/
def lastChange (l : List FChange) (p : Point) : Option FChange := l.reverse.find? fun c => c.point = p && !c.done

/-- The start of cycle n fixes k for every change that every module in pair duty holds (04 R107, 18 R480). -/
def State.fixForces (s : State) (n : Nat) : State :=
  let l := s.img.changes.map fun c => if c.k.isNone && s.verHeld c.ver then { c with k := some n } else c
  let f (x : Force) : Force := match lastChange l x.point with
    | some c => if c.k = some n then { x with effectN := some n } else x
    | none => x
  { s with img := { s.img with changes := l, force := s.img.force.map f } }

/-- One change takes effect on the table; the newest one of its point leaves the entry no longer PENDING, or removes it. -/
def applyChange (l : List FChange) (f : List Force) (c : FChange) : List Force :=
  let last := (lastChange l c.point).map (·.ver) = some c.ver
  if c.rel && last then f.filter fun x => x.point ≠ c.point
  else f.map fun x => if x.point ≠ c.point then x
    else { x with now := if c.rel then none else some c.value, pending := x.pending && !last }

/-- Changes of the points of a kind whose k has come take effect; then commands complete. -/
def State.effectForces (s : State) (out : Bool) : State :=
  let due (c : FChange) : Bool := !c.done && (ptStn c.point ≠ internalCode && ptOutput c.point) = out &&
    (match c.k with | some k => k ≤ s.cyc.n | none => false)
  let come := s.img.changes.filter due
  if come.isEmpty then s
  else
    let l := come.foldl (applyChange s.img.changes) s.img.force
    let ch := s.img.changes.map fun c => if due c then { c with done := true } else c
    (({ s with img := { s.img with changes := ch } } : State).setForces l).forceEnds s.cyc.n

/-- N of a release that takes effect now; no basic cycle without a running network. -/
def State.kNow (s : State) : Nat := if s.cyc.running then s.cyc.n else noK

/-- Release forces at once, with a cause (04 R113, R119): 1 APP_LOAD, 2 APP_CHANGE, 3 rollback, 4 life-cycle (log entry 8). -/
def State.dropForces (s : State) (p : Force → Bool) (cause : Nat) : State :=
  let gone := s.img.force.filter p
  if gone.isEmpty then s
  else
    let s := gone.foldl (fun s f =>
      s.record 0x0302 (srcOf 3 0) [f.point.toNat, f.value.toNat, f.party, s.kNow, cause]) s
    let left := s.img.changes.filter fun c => !(gone.any fun f => f.point = c.point)
    ({ s with pair := { s.pair with forceVer := s.nextVer }, img := { s.img with changes := left } } : State).setForces
      (s.img.force.filter fun f => !p f)

/-- NO_WRITER of every forced output point under an image; setting it writes FORCE_ORPHAN (04 R118). -/
def State.orphans (s : State) (img : Option AppImage) : State :=
  let nw (p : Point) : Bool := noWriter s.mapCfg img p
  let new_ := s.img.force.filter fun f => ptStn f.point ≠ internalCode && ptOutput f.point && nw f.point && !f.noWriter
  let s := new_.foldl (fun s f => s.record 0x0303 (srcOf 3 0) [f.point.toNat]) s
  s.setForces (s.img.force.map fun f =>
    if ptStn f.point ≠ internalCode && ptOutput f.point then { f with noWriter := nw f.point } else f)

/-! ## Commands -/

/-- No point twice. -/
def noTwicePt : List Point → Bool
  | [] => true
  | x :: l => !l.contains x && noTwicePt l

/-- The request entries pass 04 R106. -/
def State.forcesOk (s : State) (l : List (Point × Nat × Nat)) : Bool :=
  l.all (fun e => s.pointOk e.1 && (!ptDigital e.1 || e.2.1 ≤ 1) && e.2.2 = 0 && !s.varMoves e.1) &&
  noTwicePt (l.map (·.1)) &&
  s.img.force.length + l.countP (fun e => (s.forceAt e.1).isNone) ≤ 4096

/-- FIELD and FIELD_QUALITY of an entry accepted between two commits or snapshots, 04 R111: from the input view, and for an output from the
snapshot (DEDUCED, log entry 77). -/
def State.fieldOf (s : State) (p : Point) : BitVec 16 × BitVec 2 :=
  match posOf s.mapCfg p with
  | some pos =>
    let b := if ptOutput p then snapBlock else inView
    (ptGet s.mem b (ptKind p) pos, qualGet s.mem b (ptKind p) pos)
  | none => (0, 0)

/-- Accept one entry as PENDING; a value already in effect stands until then. -/
def State.acceptForce (s : State) (p : Point) (v party ver : Nat) : State :=
  let fq := s.fieldOf p
  let base : Force := match s.forceAt p with
    | some f => f
    | none => { point := p, value := 0, field := fq.1, fieldQ := fq.2
                noWriter := ptStn p ≠ internalCode && ptOutput p && noWriter s.mapCfg s.chg.running p }
  let f : Force := { base with value := BitVec.ofNat 16 v, pending := true, effectN := none, party := party, setTime := s.stamp }
  let c : FChange := { point := p, rel := false, value := BitVec.ofNat 16 v, party := party, ver := ver }
  { s with img := { s.img with force := putForce f s.img.force, changes := s.img.changes ++ [c] } }

/-- The force of an entry is to be released by a change under way. -/
def State.releasing (s : State) (p : Point) : Bool := ((lastChange s.img.changes p).map (·.rel)).getD false

/-- Accept the release of every entry that a condition selects: PENDING until it takes effect. -/
def State.acceptReleases (s : State) (hit : Force → Bool) (party ver : Nat) : State :=
  let gone := s.img.force.filter hit
  let ch := gone.map fun f => ({ point := f.point, rel := true, value := f.value, party := party, ver := ver } : FChange)
  let l := s.img.force.map fun f => if hit f then { f with pending := true, effectN := none } else f
  ({ s with pair := { s.pair with forceVer := ver }, img := { s.img with changes := s.img.changes ++ ch } } : State).setForces l

/-- FORCE_SET, 04 R105 to R107, 13 R370. -/
def execForceSet (c : Cmd) (s : State) : Host.Outcome State Fault Refusal :=
  .next (s.hostCmd 0x0050 c 1 (c.inlZero 0) fun s =>
    if c.length % 8 ≠ 0 || c.length < 8 || 2048 < c.length then s.final 0x0050 c stInvalid dBuffer
    else if !s.primary then s.final 0x0050 c stInvalid dRole
    else
      let l := parseForces c.buf (c.length / 8)
      if !s.forcesOk l then s.final 0x0050 c stInvalid dContent
      else
        let v := s.nextVer
        let party := s.partyOf c
        let s := l.foldl (fun s e => s.acceptForce e.1 e.2.1 party v) s
        let s := ({ s with pair := { s.pair with forceVer := v } } : State).setForces s.img.force
        (s.addRun (mkRun 0x0050 c party false 0 (.force v 0))).forceIdle)

/-- Release the entries that a condition selects: OK_EMPTY where it selects none (04 R107, R112). A point whose release is under way counts
as not forced (DESIGN CHOICE, log entry 95). -/
def releaseWhere (c : Cmd) (sel : Force → Bool) (s : State) : State :=
  let hit (f : Force) : Bool := sel f && !s.releasing f.point
  let n := s.img.force.countP hit
  if n = 0 then s.final 0x0051 c stEmpty dNone
  else
    let v := s.nextVer
    ((s.acceptReleases hit (s.partyOf c) v).addRun (mkRun 0x0051 c (s.partyOf c) false 0 (.force v n))).forceIdle

/-- Release the forced points of a list; an address that fails R97 makes the command INVALID (04 R112). -/
def releaseOwn (c : Cmd) (pts : List Point) (s : State) : State :=
  if !s.primary then s.final 0x0051 c stInvalid dRole
  else if !pts.all (pointR97 s.mapCfg) then s.final 0x0051 c stInvalid dContent
  else releaseWhere c (fun f => pts.contains f.point) s

/-- FORCE_RELEASE of named points, 04 R112. -/
def execForceRelease (c : Cmd) (s : State) : Host.Outcome State Fault Refusal :=
  .next (s.hostCmd 0x0051 c 1 (c.inf 0 4 / 2 = 0 && c.inlZero 4) fun s =>
    if c.inf 0 4 % 2 = 1 then s.final 0x0051 c stInvalid dContent
    else if c.length % 4 ≠ 0 || c.length < 4 || 1024 < c.length then s.final 0x0051 c stInvalid dBuffer
    else releaseOwn c (parsePoints c.buf (c.length / 4)) s)

/-- FORCE_RELEASE with ALL, 13 R370. -/
def execForceReleaseAll (c : Cmd) (s : State) : Host.Outcome State Fault Refusal :=
  .next (s.hostCmd 0x0051 c 0 (c.inf 0 4 / 2 = 0 && c.inlZero 4) fun s =>
    if c.inf 0 4 % 2 = 0 then s.final 0x0051 c stInvalid dBuffer
    else if !s.primary then s.final 0x0051 c stInvalid dRole
    else releaseWhere c (fun _ => true) s)

/-- FORCE_LIST, 04 R111, 13 R370. -/
def execForceList (c : Cmd) (s : State) : Host.Outcome State Fault Refusal :=
  .next (s.hostCmd 0x0052 c 2 (c.inlZero 4) fun s =>
    let total := s.img.force.length
    let l := (s.img.force.drop (c.inf 0 4)).take (c.length / 32)
    if total ≤ c.inf 0 4 then s.final 0x0052 c stEmpty dNone (BitVec.ofNat 64 total) 0
    else s.finalData 0x0052 c stOk (BitVec.ofNat 64 total) (BitVec.ofNat 64 l.length) (l.flatMap Force.enc))

end Sys2Proof.Machine
end

