-- ==== Sys2Proof/Machine/Rtc.lean ====
section
/-! DEFINITION. Clock, calendar and backup domain: 17 R445 to R461. -/

namespace Sys2Proof.Machine
open Sys2Proof

/-- The calendar in ns since 2000. -/
def State.calNs (s : State) : Int := (s.rtc.units s.clk.now * 1000000000 / 32768 : Nat)

/-- Network time converted under 17 R446, in ns. -/
def State.netCalNs (s : State) : Int := (s.netTime : Int) - s.rtc.taiUtc * 1000000000

/-- Put the calendar at a value in ns; at its last second it stays (17 R447). -/
def State.setCal (s : State) (ns : Int) : State :=
  let cal := (ns * 32768 / 1000000000).toNat
  { s with rtc := { s.rtc with cal := cal, calAt := s.clk.now, ended := s.rtc.ended && calMax * 32768 ≤ cal } }

/-- Seconds of a packed calendar value, 17 R457. -/
def packedSec (w : Nat) : Nat :=
  calSec (2000 + w / 2 ^ 41 % 512) (w / 2 ^ 37 % 16) (w / 2 ^ 32 % 32) (w / 2 ^ 27 % 32) (w / 2 ^ 21 % 64) (w / 2 ^ 15 % 64)

/-- RTC_ADJUST, 17 R461. -/
def State.adjustRec (s : State) (cause before party : Nat) : State :=
  s.recordBy 0x0E03 (srcOf 13 0)
    (items [cause, before, s.rtc.sec s.clk.now, s64 s.rtc.zone, if s.rtc.dst then 1 else 0]) party false

/-- The alarm fires, 17 R456. -/
def State.fireAlarm (s : State) (skipped : Bool) : State :=
  ({ s with rtc := { s.rtc with armed := false, fired := true, skipped := skipped } } : State).record 0x0E04 (srcOf 13 0)
    [s.rtc.alarm.toNat, if skipped then 1 else 0]

/-- After an adjustment: an armed alarm whose time local time has reached or passed fires, with SKIPPED when it was passed. -/
def State.afterAdjust (s : State) : State :=
  let l := s.rtc.localSec s.clk.now
  let a : Int := packedSec s.rtc.alarm.toNat
  if s.rtc.armed && a ≤ l then s.fireAlarm (a < l || s.rtc.units s.clk.now % 32768 ≠ 0) else s

/-- Network time becomes established, 17 R451. -/
def State.netEstablished (s : State) (seeded : Bool) : State :=
  if s.clk.netOn then s
  else
    let s : State := { s with clk := { s.clk with netOn := true, seeded := seeded } }
    let before := s.rtc.sec s.clk.now
    if !s.rtc.invalid then
      if s.act.ref = .locked then s
      else { s with rtc := { s.rtc with calOfs := s.calNs - s.netCalNs } }
    else if seeded then s
    else
      let s := ({ s with rtc := { s.rtc with calOfs := 0, invalid := false } } : State).setCal s.netCalNs
      (s.adjustRec 3 before 0).afterAdjust

/-- The reference state enters LOCKED, 17 R451. -/
def State.calLocked (s : State) : State :=
  let before := s.rtc.sec s.clk.now
  let d := s.calNs - s.netCalNs
  let s : State := { s with rtc := { s.rtc with calOfs := 0, invalid := false } }
  let s := if d.natAbs < 1000000 then s else s.setCal s.netCalNs
  (s.adjustRec 3 before 0).afterAdjust

/-! ## Commands -/

/-- The report of RTC_GET, 17 R452; LOCAL before 2000 is a free value (log entry 7). -/
def State.rtcReport (s : State) : List Byte × State :=
  let r := s.rtc
  let u := r.units s.clk.now
  let l := r.localSec s.clk.now
  let (loc, s) := if 0 ≤ l then (calPack l.toNat (u % 32768), s) else s.drawNat
  (le 8 (calPack (u / 32768) (u % 32768)) ++ le 8 loc ++ le 8 (u / 32768) ++ le 8 (if s.timeHeld then s.netTime else 0) ++
    le 8 s.rtcState ++ le 8 r.stampSec ++ le 8 r.alarm.toNat ++ le 8 (s64 r.calOfs) ++ r.bkp.toList, s)

/-- RTC_GET, 17 R452. -/
def execRtcGet (c : Cmd) (s : State) : Host.Outcome State Fault Refusal :=
  .next (s.hostCmd 0x0030 c 2 (c.inlZero 0) fun s =>
    if c.length ≠ 128 then s.final 0x0030 c stInvalid dBuffer
    else let (d, s) := s.rtcReport; s.finalData 0x0030 c stOk 128 0 d)

/-- RESULT of RTC_SET: CAL_SEC after the command. -/
def State.rtcDone (s : State) (c : Cmd) : State := s.final 0x0031 c stOk dNone (BitVec.ofNat 64 (s.rtc.sec s.clk.now))

/-- RTC_SET, ACTION 1 SET_UTC, 17 R453, R451. -/
def execSetUtc (c : Cmd) (s : State) : Host.Outcome State Fault Refusal :=
  .next (s.hostCmd 0x0031 c 0 (c.inf 1 1 = 0 && c.inlZero 9) fun s =>
    let y := c.inf 2 2
    if c.inf 0 1 ≠ 1 || !calValid y (c.inf 4 1) (c.inf 5 1) (c.inf 6 1) (c.inf 7 1) (c.inf 8 1) then
      s.final 0x0031 c stInvalid dContent
    else if s.act.ref = .locked then s.final 0x0031 c stInvalid dState
    else
      let before := s.rtc.sec s.clk.now
      let s := s.setCal ((calSec y (c.inf 4 1) (c.inf 5 1) (c.inf 6 1) (c.inf 7 1) (c.inf 8 1) : Nat) * 1000000000)
      let s : State := { s with rtc := { s.rtc with
        invalid := false, ended := false, calOfs := if s.timeHeld then s.calNs - s.netCalNs else s.rtc.calOfs } }
      ((s.adjustRec 1 before (s.partyOf c)).afterAdjust).rtcDone c)

/-- RTC_SET, ACTION 2 SET_CIVIL, 17 R453, R450. -/
def execSetCivil (c : Cmd) (s : State) : Host.Outcome State Fault Refusal :=
  .next (s.hostCmd 0x0031 c 0 (c.inf 1 1 = 0 && c.inlZero 6) fun s =>
    let zone := int8 (c.inf 4 1)
    if c.inf 0 1 ≠ 2 || zone < -48 || 56 < zone || 1 < c.inf 5 1 then s.final 0x0031 c stInvalid dContent
    else
      let before := s.rtc.sec s.clk.now
      let keep := s.act.ref = .locked && s.act.utc.isSome
      let s : State := { s with rtc := { s.rtc with
        taiUtc := if keep then s.rtc.taiUtc else int16 (c.inf 2 2), zone := zone, dst := c.inf 5 1 = 1 } }
      ((s.adjustRec 4 before (s.partyOf c)).afterAdjust).rtcDone c)

/-- RTC_SET, ACTION 3 SET_TRIM, 17 R453. TRIM −128 is outside R449's range. -/
def execSetTrim (c : Cmd) (s : State) : Host.Outcome State Fault Refusal :=
  .next (s.hostCmd 0x0031 c 0 (c.inf 1 1 = 0 && c.inlZero 3) fun s =>
    if c.inf 0 1 ≠ 3 || int8 (c.inf 2 1) < -127 then s.final 0x0031 c stInvalid dContent
    else if s.timeHeld then s.final 0x0031 c stInvalid dState
    else ({ s with rtc := { s.rtc.rebase s.clk.now with trim := int8 (c.inf 2 1) } } : State).rtcDone c)

/-- RTC_SET, ACTION 4 CLEAR_STAMP, 17 R453: the Owner alone. -/
def execClearStamp (c : Cmd) (s : State) : Host.Outcome State Fault Refusal :=
  .next (s.hostCmd 0x0031 c 0 (c.inlZero 1) fun s =>
    if c.inf 0 1 ≠ 4 then s.final 0x0031 c stInvalid dContent
    else if s.partyOf c ≠ 2 then s.final 0x0031 c stDenied dNone
    else
      let s := s.recordBy 0x0E06 (srcOf 13 0) (items [s.rtc.stampSec]) (s.partyOf c) false
      ({ s with rtc := { s.rtc with stampSet := false, stampLost := false } } : State).rtcDone c)

/-- RTC_SET, ACTION 5 WRITE_BACKUP, 17 R453. -/
def execWriteBackup (c : Cmd) (s : State) : Host.Outcome State Fault Refusal :=
  .next (s.hostCmd 0x0031 c 1 (c.inf 1 1 = 0 && c.inlZero 3) fun s =>
    let o := c.inf 2 1
    if c.inf 0 1 ≠ 5 || 63 < o then s.final 0x0031 c stInvalid dContent
    else if c.length = 0 || 64 - o < c.length then s.final 0x0031 c stInvalid dBuffer
    else
      let b := Vector.ofFn fun i : Fin 64 =>
        if o ≤ i.val ∧ i.val < o + c.length then c.buf.byte (i.val - o) else s.rtc.bkp[i]
      let s : State := { s with rtc := { s.rtc with bkp := b } }
      (s.recordBy 0x0E07 (srcOf 13 0) (items [o, c.length]) (s.partyOf c) false).rtcDone c)

/-- RTC_SHIFT, 17 R454. -/
def execRtcShift (c : Cmd) (s : State) : Host.Outcome State Fault Refusal :=
  .next (s.hostCmd 0x0032 c 0 (c.inlZero 1) fun s =>
    let d := c.inf 0 1
    if d ≠ 1 && d ≠ 2 then s.final 0x0032 c stInvalid dContent
    else if s.rtc.dst = (d = 1) then s.final 0x0032 c stInvalid dState
    else
      let s : State := { s with rtc := { s.rtc with dst := d = 1 } }
      ((s.adjustRec 5 (s.rtc.sec s.clk.now) (s.partyOf c)).afterAdjust).final 0x0032 c stOk dNone)

/-- ALARM_SET, ACTION 1: arm, 17 R455. -/
def execAlarmSetArm (c : Cmd) (s : State) : Host.Outcome State Fault Refusal :=
  .next (s.hostCmd 0x0033 c 0 (c.inf 1 1 = 0 && c.inlZero 9) fun s =>
    let y := c.inf 2 2
    let ok := calValid y (c.inf 4 1) (c.inf 5 1) (c.inf 6 1) (c.inf 7 1) (c.inf 8 1)
    let t : Int := calSec y (c.inf 4 1) (c.inf 5 1) (c.inf 6 1) (c.inf 7 1) (c.inf 8 1)
    let utc := t - s.rtc.localOfs
    if c.inf 0 1 ≠ 1 || !ok || utc < 0 || (calMax : Int) < utc || t ≤ s.rtc.localSec s.clk.now then
      s.final 0x0033 c stInvalid dContent
    else ({ s with rtc := { s.rtc with armed := true, fired := false, skipped := false,
                                       alarm := BitVec.ofNat 64 (calPack t.toNat 0) } } : State).final 0x0033 c stOk dNone)

/-- ALARM_SET, ACTION 0: disarm, 17 R455. -/
def execAlarmSetDisarm (c : Cmd) (s : State) : Host.Outcome State Fault Refusal :=
  .next (s.hostCmd 0x0033 c 0 (c.inlZero 1) fun s =>
    if c.inf 0 1 ≠ 0 then s.final 0x0033 c stInvalid dContent
    else if s.rtc.armed then ({ s with rtc := { s.rtc with armed := false } } : State).final 0x0033 c stOk dNone
    else s.final 0x0033 c stEmpty dNone)

/-! ## Happenings -/

/-- LEAP_SECOND: the calendar holds or skips a second, TAI_UTC changes, network time runs on (17 R446, 08 R205). -/
def execLeapSecond (insert : Bool) (s : State) : Host.Outcome State Fault Refusal :=
  let before := s.rtc.sec s.clk.now
  let d : Int := if insert then 1 else -1
  let s := s.setCal (s.calNs - d * 1000000000)
  let s : State := { s with rtc := { s.rtc with taiUtc := s.rtc.taiUtc + d }, act := { s.act with utc := s.act.utc.map (· + d) } }
  .next (s.adjustRec 6 before 0).afterAdjust

/-- TRIM that removes a difference in ns within 60 s, 17 R449. -/
def trimFor (d : Int) : Int :=
  let k : Int := ((d.natAbs + 59999) / 60000 : Nat)
  max (-127) (min 127 (if 0 ≤ d then -k else k))

/-- CALENDAR_DISCIPLINE: once per second while network time is established, until the calendar stays at its last second; a step is taken at
the next second boundary (17 R449). -/
def execCalendarDiscipline (s : State) : Host.Outcome State Fault Refusal :=
  if !s.timeHeld || s.rtc.ended then .next s
  else
    let d := s.calNs - (s.netCalNs + s.rtc.calOfs)
    if d.natAbs < 1000000 then .next { s with rtc := { s.rtc.rebase s.clk.now with trim := trimFor d } }
    else
      let u := s.rtc.units s.clk.now
      let s := if u % 32768 = 0 then s else s.reach (s.rtc.instant ((u / 32768 + 1) * 32768))
      let before := s.rtc.sec s.clk.now
      .next (((s.setCal (s.netCalNs + s.rtc.calOfs)).adjustRec 2 before 0).afterAdjust)

/-- ALARM_FIRE: local time reaches the alarm time (17 R456). -/
def execAlarmFire (s : State) : Host.Outcome State Fault Refusal :=
  if s.rtc.armed then
    let utc := (packedSec s.rtc.alarm.toNat : Int) - s.rtc.localOfs
    .next ((s.reach (s.rtc.instant (utc.toNat * 32768))).fireAlarm false)
  else .next s

/-- CALENDAR_END: the calendar reaches its last second and stays there (17 R447). -/
def execCalendarEnd (s : State) : Host.Outcome State Fault Refusal :=
  if s.rtc.ended then .next s
  else
    let s := s.reach (s.rtc.instant (calMax * 32768))
    let s := s.setCal ((calMax : Int) * 1000000000)
    .next (({ s with rtc := { s.rtc with ended := true, invalid := true } } : State).record 0x0E00 (srcOf 13 0) [2])

/-- BATTERY_TEST: the 60 s test of the cell (17 R459). -/
def execBatteryTest (mv : Nat) (s : State) : Host.Outcome State Fault Refusal :=
  let s : State := { s with rtc := { s.rtc with batt := min 255 (mv / 20) } }
  if mv < 2500 && !s.rtc.battLow then
    .next (({ s with rtc := { s.rtc with battLow := true } } : State).record 0x0E01 (srcOf 13 0) [mv])
  else if 2600 ≤ mv && s.rtc.battLow then
    .next (({ s with rtc := { s.rtc with battLow := false } } : State).record 0x0E02 (srcOf 13 0) [mv])
  else .next s

/-- BKP_SWITCH: from AON to the cell; the first one is stamped (17 R460). -/
def execBkpSwitch (s : State) : Host.Outcome State Fault Refusal :=
  .next { s with rtc := { s.rtc with
    switched := true, stampSec := if s.rtc.stampSet then s.rtc.stampSec else s.rtc.sec s.clk.now, stampSet := true } }

end Sys2Proof.Machine
end

