-- ==== Sys2Proof/Machine/Actuation.lean ====
section
/-! DEFINITION. Timed actuation: commits, the pool, the local queue (08 R207 to R210, R217, R218), and the IEEE 1588 reference
(08 R202 to R206). -/

namespace Sys2Proof.Machine
open Sys2Proof

/-- SEQ of the ACT frames of the next output snapshot: the entry of a local point counts as sent with it (08 R218, DEDUCED,
log entry 9). -/
def State.nextSeq (s : State) : Nat :=
  (if s.cyc.snapN = some s.cyc.n then s.cyc.n + 1 else s.cyc.n) % 2 ^ 32

/-- Release the actuation-late error task: point, TIME, and the reason at bytes 12 and 13 (02 R48, 08 R215; the places of point
and TIME: log entry 10). -/
def State.lateRelease (s : State) (p : Point) (time reason : Nat) : State :=
  s.errRelease 6 (p.toNat + time % 2 ^ 32 * 2 ^ 32) (time / 2 ^ 32 % 2 ^ 32 + reason * 2 ^ 32)

/-- An entry suppressed by a force on its point, 04 R115. -/
def State.suppress (s : State) (p : Point) : State :=
  let l := s.img.force.map fun f => if f.point = p then { f with suppressed := satAdd 32 f.suppressed 1 } else f
  ({ s with img := { s.img with force := l, actForced := abump (ptStn p) 1 s.img.actForced } } : State).record 0x0304
    (srcOf 5 (ptStn p)) []

/-- The output point exists and can be actuated: code 1 of 08 R208 does not apply. -/
def State.actPoint (s : State) (p : Point) : Bool :=
  ptOutput p && ptRsvd p = 0 &&
  (if ptStn p = localCode then ptKind p = 1 && ptIdx p < 16 && (s.lch (ptIdx p)).cfg.mode = 2
   else (match s.net.cfg with
     | some c => (c.parOf (ptStn p)).isSome && (posOf s.net.cfg p).isSome
     | none => false))

/-- The checks of 08 R208 in their order: the code. -/
def State.actCode (s : State) (e : ActEnt) (rsvd : Bool) : Nat :=
  if !s.actPoint e.point then 1
  else if (ptKind e.point = 1 && 1 < e.value.toNat) || (e.cancel && e.value ≠ 0) || rsvd then 2
  else if s.netTime + 10000000000 < e.time then 3
  else if (if ptStn e.point = localCode then 256 ≤ s.act.localQ.length else 8192 ≤ s.act.pool.length) then 4
  else 0

/-- Apply an entry to a local channel (08 R217, R218). -/
def State.applyLocal (s : State) (e : ActEnt) : State :=
  (s.onLch (ptIdx e.point) fun c => { c with cmd := e.value.getLsbD 0, held := true, actN := e.seq, actAt := e.time }).switches

/-- The start instant of an entry for a local channel: TIME minus the latency of its output stage (08 R216, R217), which the manual does not
state (a free value of at most 1 µs, log entry 3). -/
def localStart (e : ActEnt) : Nat := e.time - Config.localLatency (ptIdx e.point) % 1001

/-- An accepted entry for a local point, 08 R217. One with POINT and TIME of a queued entry replaces it, as at a station (DESIGN CHOICE, log
entry 81). -/
def State.acceptLocal (s : State) (e : ActEnt) : State :=
  let e := { e with seq := s.nextSeq }
  if (s.forced e.point).isSome then s.suppress e.point
  else if e.cancel then
    ({ s with act := { s.act with localQ := s.act.localQ.filter fun x => !(x.point = e.point && e.time ≤ x.time) } }
      : State).onLch (ptIdx e.point) fun c => { c with held := false }
  else if localStart e < s.netTime then
    let g := (s.lio.grp (chGroup (ptIdx e.point))).st
    let s := s.applyLocal e
    if g = .valid || g = .sag then
      (s.record 0x0601 (srcOf 7 (ptIdx e.point)) []).lateRelease e.point e.time 1
    else s
  else
    let q := s.act.localQ.filter fun x => !(x.point = e.point && x.time = e.time)
    { s with act := { s.act with localQ := q ++ [e] } }

/-- An accepted entry for a network point: a cancel first removes every unsent entry of its POINT at or after its TIME (08 R209, R210). -/
def State.acceptNet (s : State) (e : ActEnt) : State :=
  let pool := if e.cancel then s.act.pool.filter fun x => !(x.point = e.point && e.time ≤ x.time) else s.act.pool
  { s with act := { s.act with pool := pool ++ [e] } }

/-- Accept an entry that has passed the checks. -/
def State.acceptAct (s : State) (e : ActEnt) : State :=
  if ptStn e.point = localCode then s.acceptLocal e else s.acceptNet e

/-- Append to the actuation log, a ring of 262,144 entries; its line is to be mirrored (09 R221, R250). -/
def State.logAct (s : State) (e : ActEnt) : State :=
  let n := s.trk.logN
  let l := if n < s.act.log.length then s.act.log.set n e else s.act.log ++ [e]
  ({ s with act := { s.act with log := l }, trk := { s.trk with logN := (n + 1) % 262144 } } : State).mark (0x0170C00000 + 16 * n) 16

/-- A refused commit: counted for the task, or for TRK, with ACT_REJECTED (08 R208). -/
def State.rejectAct (s : State) (task : Option Nat) : State :=
  match task with
  | some t => (s.onTask t fun x => { x with rejected := satAdd 64 x.rejected 1 }).record 0x0600 (srcOf 2 t) []
  | none => ({ s with act := { s.act with trkRejected := satAdd 64 s.act.trkRejected 1 } } : State).record 0x0600 (srcOf 6 0) []

/-- A commit from a task or from TRK: its code and its effect; TRK logs accepted entries, a task its cancels (09 R250). -/
def State.commitAct (s : State) (task : Option Nat) (e : ActEnt) (rsvd : Bool) : Nat × State :=
  let code := s.actCode e rsvd
  if code ≠ 0 then (code, s.rejectAct task)
  else
    let s := s.acceptAct e
    (0, if task.isNone || e.cancel then s.logAct e else s)

/-- The entry of a lane's push window with a TIME. -/
def pushEntry (a : Word) (time : Word) : ActEnt :=
  { point := a.setWidth 32, value := (a >>> 32).setWidth 16, cancel := a.getLsbD 48, time := time.toNat }

/-- Commit from a lane's push window: the result stands in NET_ACT_RESULT (08 R207). -/
def State.push (s : State) (lane : Nat) (a time : Word) : State :=
  let task := ((s.laneAt lane).a).curTask
  let r := s.commitAct (some task) (pushEntry a time) ((a >>> 49) ≠ 0)
  { r.2 with act := { r.2.act with result := r.2.act.result.setIfInBounds lane r.1 } }

/-- The entry of the local queue that a channel applies next: the earliest TIME, commit order among equals. -/
def nextLocal (ch : Nat) (l : List ActEnt) : Option ActEnt :=
  l.foldl (fun b e => if ptIdx e.point ≠ ch then b else match b with
    | some x => if e.time < x.time then some e else b
    | none => some e) none

/-- LOCAL_ACT_INSTANT: a queued entry reaches its instant (08 R217, R218). -/
def execLocalActInstant (ch : Fin 16) (s : State) : Host.Outcome State Fault Refusal :=
  .next (match nextLocal ch.val s.act.localQ with
    | some e =>
      let s := s.reachNet (localStart e)
      (({ s with act := { s.act with localQ := s.act.localQ.filter fun x => !(x.point = e.point && x.time = e.time) } }
        : State).applyLocal e)
    | none => s)

/-! ## The IEEE 1588 reference, 08 R202 to R206 -/

/-- The time source block in force. -/
def State.timeSrc (s : State) : TimeSrc := (s.net.cfg.map (·.src)).getD {}

/-- This module is the time leader. -/
def State.leads (s : State) : Bool := s.cyc.running && s.net.leader = s.slot

/-- How far the rate may change now: 0.1 ppm per second since its last correction (08 R202). -/
def State.rateStep (s : State) : Nat := (s.clk.now - s.clk.rateAt) * 100 / 1000000000

/-- A leader corrects its rate. -/
def State.setRate (s : State) (r : Int) : State := { s with clk := { s.clk with rate := r, rateAt := s.clk.now } }

/-- The nearest rate within ±10 ppm. -/
def rateWithin (r : Int) : Int := max (-10000) (min 10000 r)

/-- Steer the rate toward θ within the limits of 08 R202; the amount is a free value (log entry 3). A rate beyond ±10 ppm, taken over with the
leadership, is not steered. -/
def State.steer (s : State) (elapsed : Nat) : State :=
  if s.leads && decide (s.clk.rate = rateWithin s.clk.rate) then
    let (k, s) := s.drawNat
    let d : Int := s.act.theta.sign * (k % (min s.rateStep (elapsed * 100 / 1000000000) + 1) : Nat)
    s.setRate (rateWithin (s.clk.rate + d))
  else s

/-- A leader whose rate, kept as it stood in FOLLOW (06 R169), lies beyond ±10 ppm comes back to them at 0.1 ppm per second (08 R202). -/
def State.pullRate (s : State) : State :=
  let far : Int := s.clk.rate - rateWithin s.clk.rate
  if !s.leads || far = 0 || s.rateStep = 0 then s else s.setRate (s.clk.rate - far.sign * (min s.rateStep far.natAbs : Nat))

/-- Leave ACQUIRE or LOCKED for HOLDOVER. -/
def State.loseRef (s : State) : State :=
  ({ s with act := { s.act with ref := .holdover, master := none, near := 0, far := 0 } } : State).record 0x040A (srcOf 4 32) []

/-- PORTS set to 0, or a port's address changed: FREE with the rate correction kept. -/
def State.freeRef (s : State) : State :=
  { s with act := { s.act with ref := .free, masters := [], master := none, near := 0, far := 0, utc := none } }

/-- TAI_UTC takes currentUtcOffset while the reference is LOCKED (17 R450). -/
def State.utcFromRef (s : State) : State :=
  match s.act.utc with
  | some u => if s.act.ref = .locked then { s with rtc := { s.rtc with taiUtc := u } } else s
  | none => s

/-- A lower one of two lists of numbers of equal length, the first first. -/
def lexLt : List Nat → List Nat → Bool
  | a :: l, b :: k => a < b || (a = b && lexLt l k)
  | _, _ => false

/-- What the default best master clock algorithm of IEEE 1588-2019 compares of a master heard on a port: its grandmaster, the steps to it,
sender and receiver (log entry 11). -/
def masterKey (x : Nat × Announce) : List Nat :=
  [x.2.prio1, x.2.clockClass, x.2.accuracy, x.2.variance, x.2.prio2, x.2.grandmaster.toNat, x.2.steps, x.2.source.toNat, x.1]

/-- A master on an enabled port, in the domain and on the transport of the time source block, with the PTP timescale and an accepted
clockClass (08 R203, R204, R206). -/
def acceptable (src : TimeSrc) (x : Nat × Announce) : Bool :=
  src.ports.testBit x.1 && x.2.domain = src.domain && x.2.transport = src.transport && x.2.ptpTimescale && x.2.clockClass ≤ src.maxClass

/-- The best of the acceptable masters heard. -/
def bestMaster (src : TimeSrc) (l : List (Nat × Announce)) : Option (Nat × Announce) :=
  (l.filter (acceptable src)).foldl (fun b x => match b with
    | some y => if lexLt (masterKey x) (masterKey y) then some x else some y
    | none => some x) none

/-- The best master is selected anew: measuring starts, goes on with it, or ends where no acceptable master remains (08 R206). Where another
master becomes the best in ACQUIRE or LOCKED, for which R206 has no row, the state stays, both counts of 16 Syncs begin again, and the 3 s
go on from the last Sync (DESIGN CHOICE, log entry 101). -/
def State.selectMaster (s : State) : State :=
  let best := bestMaster s.timeSrc s.act.masters
  let idle : Bool := s.act.ref = .free || s.act.ref = .holdover
  match best with
  | some m =>
    let same := s.act.master.map (fun x => (x.1, x.2.source)) = some (m.1, m.2.source)
    ({ s with act := { s.act with
        master := best, utc := if m.2.utcValid then some m.2.utcOffset else none
        ref := if idle then .acquire else s.act.ref
        near := if same then s.act.near else 0, far := if same then s.act.far else 0
        syncAt := if idle then s.clk.now else s.act.syncAt } } : State).utcFromRef
  | none => if idle then s else s.loseRef

/-- PTP_ANNOUNCE_RX: what a master announces replaces what it announced before. A master counts as heard from its first Announce on; one that
is not followed keeps counting, since the manual gives no Announce timeout (DESIGN CHOICE, log entry 100). -/
def execPtpAnnounceRx (port : Fin 2) (m : Announce) (s : State) : Host.Outcome State Fault Refusal :=
  let src := s.timeSrc
  if !src.ports.testBit port.val || m.domain ≠ src.domain || m.transport ≠ src.transport then .next s
  else
    let l := s.act.masters.filter fun x => !(x.1 = port.val && x.2.source = m.source)
    .next ({ s with act := { s.act with masters := (port.val, m) :: l } } : State).selectMaster

/-- Reference time as network time, 08 R205. -/
def ptpNet (sec ns : Nat) : Int := ((sec : Int) - 946684800) * 1000000000 + ns

/-- θ at a Sync: reference time of its arrival, with corrections, mean path delay and ASYM, minus the module's network time. -/
def State.thetaOf (s : State) (m : PtpSync) : Int :=
  ptpNet m.sec m.ns + m.corr + m.delay + s.timeSrc.asym - s.netTime

/-- A Sync of the selected master is measured. -/
def State.measured (s : State) (theta : Int) : State :=
  let elapsed := s.clk.now - s.act.syncAt
  let near := if theta.natAbs ≤ 1000 then s.act.near + 1 else 0
  let far := if theta.natAbs ≤ 1000 then 0 else s.act.far + 1
  let a := { s.act with theta := theta, near := near, far := far, syncAt := s.clk.now }
  match s.act.ref with
  | .acquire =>
    if 16 ≤ near then
      let s : State := { s with act := { a with ref := .locked, far := 0 } }
      ((s.record 0x0408 (srcOf 4 32) []).calLocked).utcFromRef
    else ({ s with act := a } : State).steer elapsed
  | .locked =>
    if 16 ≤ far then ({ s with act := { a with ref := .acquire, near := 0 } } : State).record 0x0409 (srcOf 4 32) []
    else ({ s with act := a } : State).steer elapsed
  | _ => s

/-- PTP_SYNC_RX: θ at a Sync of the selected master (08 R205, R206). -/
def execPtpSyncRx (port : Fin 2) (m : PtpSync) (s : State) : Host.Outcome State Fault Refusal :=
  let src := s.timeSrc
  let ours := s.act.master.map (fun x => (x.1, x.2.source)) = some (port.val, m.source)
  .next (if ours && m.domain = src.domain && m.transport = src.transport then s.measured (s.thetaOf m) else s)

/-- PTP_SYNC_TIMEOUT: no valid Sync for 3 s; the master that fell silent must be heard again. -/
def execPtpSyncTimeout (s : State) : Host.Outcome State Fault Refusal :=
  if s.act.ref = .acquire || s.act.ref = .locked then
    let s := s.reach (s.act.syncAt + 3000000000)
    let rest := match s.act.master with
      | some m => s.act.masters.filter fun x => !(x.1 = m.1 && x.2.source = m.2.source)
      | none => s.act.masters
    .next ({ s with act := { s.act with masters := rest } } : State).loseRef
  else .next s

end Sys2Proof.Machine
end

