-- ==== Sys2Proof/Machine/Ageing.lean ====
section
/-! DEFINITION. Ageing measurement and margin re-planning: 19 R490 to R499. -/

namespace Sys2Proof.Machine
open Sys2Proof

/-! ## The margins, 19 R490 -/

/-- Position of a margin among the 113 entries. -/
def marginIdx (kind inst : Nat) : Option Nat :=
  if kind = 1 && inst < 100 then some inst
  else if kind = 2 && inst < 8 then some (100 + inst)
  else if kind = 3 && inst < 2 then some (108 + inst)
  else if kind = 4 && inst = 0 then some 110
  else if kind = 5 && inst < 2 then some (111 + inst)
  else none

/-- KIND and INSTANCE of an entry. -/
def marginKey (i : Nat) : Nat × Nat :=
  if i < 100 then (1, i) else if i < 108 then (2, i - 100) else if i < 110 then (3, i - 108)
  else if i = 110 then (4, 0) else (5, i - 111)

/-- GUARD and FLOOR. -/
def guardFloor (kind inst : Nat) : Int × Int :=
  match kind with
  | 1 => (60, 25)
  | 2 => (64, 16)
  | 3 => (1000, 500)
  | 4 => (200, 50)
  | _ => if inst = 0 then (200, 100) else (30, 5)

/-- Steps of the automatic band, 19 R492. -/
def band (kind : Nat) : Nat :=
  match kind with
  | 1 => 8
  | 2 => 1
  | _ => 0

/-- Entries that one automatic step concerns: the four sensors of an island, the eight probes of the DRAM (log entry 14). -/
def sameStep (i j : Nat) : Bool :=
  if i < 100 then j < 100 && i / 4 = j / 4 else if i < 108 then 100 ≤ j && j < 108 else i = j

/-- A margin of the state. -/
def State.margin (s : State) (i : Nat) : Margin := s.mgn.m.toList.getD i {}

/-- Update the margins. -/
def State.onMargins (s : State) (f : Nat → Margin → Margin) : State :=
  { s with mgn := { s.mgn with m := Vector.ofFn fun i => f i.val s.mgn.m[i] } }

/-- SOURCE of the records of this chapter. -/
def ageSrc : Nat := srcOf 15 0

/-- The automatic step of a margin below its GUARD, 19 R492. -/
def State.autoStep (s : State) (kind inst i : Nat) : State :=
  let m := s.margin i
  if m.value < (guardFloor kind inst).1 && m.steps < band kind then
    let n := m.steps + 1
    (s.onMargins fun j x => if sameStep i j then { x with steps := n } else x).record 0x1000 ageSrc [kind, inst, n]
  else s

/-- A margin of KIND 1 or 2 below FLOOR, 19 R494. -/
def State.exhaust (s : State) (kind inst i : Nat) : State :=
  let m := s.margin i
  if kind ≤ 2 && m.value < (guardFloor kind inst).2 && !m.exhausted then
    (s.onMargins fun j x => if i = j then { x with exhausted := true } else x).record 0x1004 ageSrc [kind, inst, s64 m.value]
  else s

/-- MARGIN_MEASURE: the value, the day's lowest, the automatic step, exhaustion. -/
def execMarginMeasure (kind inst : Nat) (value : Int) (s : State) : Host.Outcome State Fault Refusal :=
  match marginIdx kind inst with
  | none => .next s
  | some i =>
    let s := s.onMargins fun j x => if i = j then
      { x with value := value, low := some (match x.low with | some l => min l value | none => value) } else x
    .next ((s.autoStep kind inst i).exhaust kind inst i)

/-! ## Predictions and plans, 19 R491, R493 -/

/-- A day, and a year of 365 days, in ns (log entry 14). -/
def dayNs : Nat := 86400 * 1000000000
def yearNs : Nat := 365 * dayNs

/-- What a margin proposes: lane frequency, T_MIN or only service. -/
inductive Proposes where
  | lane (l : Nat)
  | cycle
  | service
  deriving DecidableEq, Repr

/-- What a margin proposes, 19 R493. -/
def proposes (kind inst : Nat) : Proposes :=
  if kind = 1 && inst / 4 < 16 then .lane (inst / 4 % 8) else if kind = 1 && inst / 4 = 19 then .cycle else .service

/-- The plan in force, as a proposal would begin. -/
def State.basePlan (s : State) : List Nat × Nat :=
  match s.mgn.plan with
  | some (_, f, t) => (f, t)
  | none => (s.mgn.mhz.toList, s.mgn.tMin)

/-- Propose the change of a margin. How many steps bring the prediction beyond 10 years is a free value (log entry 3): at least one of
50 MHz, down to 1,200 MHz, or at least one of 25 µs. -/
def State.propose (s : State) (p : Proposes) : State :=
  let (f, t) := s.basePlan
  let (k, s) := s.drawNat
  let q := match p with
    | .lane l => (f.set l (max 1200 (f.getD l 1600 - 50 * (k % 8 + 1))), t)
    | .cycle => (f, t + 25000 * (k + 1))
    | .service => (f, t)
  if q = (f, t) then s
  else
    let n := (s.mgn.planSeq + 1) % 2 ^ 32
    { s with mgn := { s.mgn with plan := some (n, q.1, q.2), planSeq := n } }

/-- The margin calls for a change or for service: its prediction falls within 3 years with its band used up, or within 1 year
(19 R493). -/
def State.calls (s : State) (kind i : Nat) : Bool :=
  let m := s.margin i
  m.pred ≠ 0 && (if kind ≤ 2 then band kind ≤ m.steps && m.pred ≤ s.stamp + 3 * yearNs else m.pred ≤ s.stamp + yearNs)

/-- Proposal and record of one margin after the day's prediction. -/
def State.planOne (s : State) (i : Nat) : State :=
  let (kind, inst) := marginKey i
  let m := s.margin i
  if !s.calls kind i then s.onMargins fun j x => if i = j then { x with told := 0 } else x
  else if m.told = 0 || m.pred + 30 * dayNs < m.told then
    let s := s.onMargins fun j x => if i = j then { x with told := m.pred } else x
    let p := proposes kind inst
    if p = .service then s.record 0x1003 ageSrc [kind, inst, m.pred]
    else
      let s := s.propose p
      s.record 0x1001 ageSrc [kind, inst, m.pred, (s.mgn.plan.map (·.1)).getD 0]
  else s

/-- Prediction of a margin in a day's list: none with fewer than 30 daily values or beyond 10 years. -/
def State.predict (s : State) (dates : List (Nat × Nat × Nat)) (i : Nat) (m : Margin) : Nat :=
  let k := marginKey i
  match dates.find? (fun d => d.1 = k.1 && d.2.1 = k.2) with
  | some (_, _, d) => if m.days < 30 || s.stamp + 10 * yearNs < d then 0 else d
  | none => 0

/-- The patrol period after a day with more than 16 corrected errors, 19 R492. -/
def patrolNext (patrol corrected : Nat) : Nat := if corrected ≤ 16 then patrol else if 4 < patrol then 4 else 2

/-- MARGIN_DAILY: the daily lowest values go to the history; `dates` are the crossings that the fit predicts. -/
def execMarginDaily (dates : List (Nat × Nat × Nat)) (s : State) : Host.Outcome State Fault Refusal :=
  let lows := s.mgn.m.toList.map fun m => m.low.getD m.value
  let s : State := { s with mgn := { s.mgn with
    log := s.mgn.log ++ [(s.mgn.hours, lows)], hours := s.mgn.hours + 24
    patrol := patrolNext s.mgn.patrol s.mgn.corrected, corrected := 0 } }
  let s := s.onMargins fun _ m => if m.low.isSome then { m with days := m.days + 1, low := none } else m
  let s := s.onMargins fun i m => { m with pred := s.predict dates i m }
  .next ((List.range 113).foldl State.planOne s)

/-! ## MARGIN_STATE, MARGIN_REPORT, MARGIN_REPLAN -/

/-- A plan below nominal is in force. -/
def State.reduced (s : State) : Bool := s.mgn.mhz.toList.any (· < 1600) || 125000 < s.mgn.tMin

/-- MARGIN_STATE, 19 R495. -/
def State.marginState (s : State) : Nat :=
  if s.mgn.m.toList.any (·.exhausted) then 4
  else if s.mgn.plan.isSome then 2
  else if s.reduced then 3
  else if s.mgn.m.toList.any (0 < ·.steps) then 1
  else 0

/-- MARGIN_DATE, 19 R495: the earliest date of a record that stands; 0 with none. -/
def State.marginDate (s : State) : Nat :=
  s.mgn.m.toList.foldl (fun d m => if m.told = 0 then d else if d = 0 then m.told else min d m.told) 0

/-- An entry of MARGIN_REPORT. -/
def marginEnc (i : Nat) (m : Margin) : List Byte :=
  let (kind, inst) := marginKey i
  let g := guardFloor kind inst
  le 1 kind ++ le 1 0 ++ le 2 inst ++ le 4 (s64 m.value) ++ le 4 (s64 g.1) ++ le 4 (s64 g.2) ++ le 8 m.pred ++ le 2 m.steps ++ le 6 0

/-- The report, 19 R496. -/
def State.marginReport (s : State) : List Byte :=
  let p := s.basePlan
  le 2 1 ++ le 1 s.marginState ++ le 1 0 ++ le 4 ((s.mgn.plan.map (·.1)).getD 0) ++ le 4 113 ++ le 4 0 ++ le 8 s.mgn.hours ++
    le 8 s.marginDate ++ s.mgn.mhz.toList.flatMap (le 2) ++ le 4 s.mgn.tMin ++ le 4 0 ++ p.1.flatMap (le 2) ++ le 4 p.2 ++ le 20 0 ++
    (List.range 113).flatMap fun i => marginEnc i (s.margin i)

/-- MARGIN_REPORT. -/
def execMarginReport (c : Cmd) (s : State) : Host.Outcome State Fault Refusal :=
  .next (s.hostCmd 0x00C0 c 2 (c.inlZero 0) fun s =>
    if c.length < 3712 then s.final 0x00C0 c stInvalid dBuffer
    else s.finalData 0x00C0 c stOk 3712 0 s.marginReport)

/-- The module is not the VANE holder, or runs alone with every task STOPPED or HALTED (14 R400, 19 R497). -/
def State.quiescent (s : State) : Bool :=
  !s.holder || (!s.partnerDuty && s.tasks.all fun t => (s.taskAt t.num).st = .stopped || (s.taskAt t.num).st = .halted)

/-- The proposed T_MIN exceeds T of the running network or of a held next configuration. -/
def State.tMinBad (s : State) (t : Nat) : Bool :=
  (s.cyc.running && s.t < t) || (match s.net.next with | some c => decide (c.t < t) | none => false)

/-- MARGIN_REPLAN, 19 R497. -/
def execMarginReplan (c : Cmd) (s : State) : Host.Outcome State Fault Refusal :=
  .next (s.hostCmd 0x00C1 c 0 (c.inlZero 4) fun s =>
    let n := c.inf 0 4
    match s.mgn.plan with
    | some (q, f, t) =>
      if n = 0 || n ≠ q || !s.quiescent then s.final 0x00C1 c stInvalid dState
      else if s.tMinBad t then s.final 0x00C1 c stInvalid 0x0100
      else if !s.fits 4 ((q :: f ++ [t]).flatMap (le 8)) then s.final 0x00C1 c stInvalid dContent
      else
        let s : State := { s with mgn := { s.mgn with
          mhz := Vector.ofFn fun i => f.getD i.val 1600
          tMin := t
          plan := none } }
        let s := s.recordBy 0x1002 ageSrc (items ([q] ++ f ++ [t])) (s.partyOf c) false
        (s.wroteBlock 4).final 0x00C1 c stOk dNone (BitVec.ofNat 64 q)
    | none => s.final 0x00C1 c stInvalid dState)

end Sys2Proof.Machine
end

