-- ==== Sys2Proof/Machine/LocalIo.lean ====
section
/-! DEFINITION. Local 24 V channels: inputs, outputs, trips, faults and group supplies (10 R255 to R277). -/

namespace Sys2Proof.Machine
open Sys2Proof

/-- The supply of a channel's group. -/
def State.supplyOf (s : State) (ch : Nat) : Supply := (s.lio.grp (chGroup ch)).st

/-- A fault of a channel: standing code, record, error task at the next commit when `rel` (10 R274). -/
def State.chFault (s : State) (ch code : Nat) (rel : Bool) : State :=
  let s := (s.onLch ch fun c => { c with fault := code, faults := satAdd 64 c.faults 1 }).record 0x0800 (srcOf 7 ch) [code]
  if rel then s.errRelease 2 ch code else s

/-- The code that still stands when a fault ends. -/
def LioCh.standing (c : LioCh) : Nat :=
  if c.wbreak then 0x10 else if c.band then 0x11 else match c.trip with
    | some k => k
    | none => c.outFlt

/-- Change the debounced level of an input, with the event tasks of 10 R265 when `event`. -/
def State.setLevel (s : State) (ch : Nat) (high event : Bool) (edge : Nat) : State :=
  let was := (s.lch ch).level
  let s := s.onLch ch fun c => { c with level := high }
  if was = high || !event then s
  else
    let dir := if high then 1 else 2
    s.releaseEvents (fun e => match e with
      | .local c d => c = ch && (d = dir || d = 3)
      | _ => false) (le 1 ch ++ le 1 dir ++ List.replicate 6 0 ++ le 8 edge)

/-- LIO_DEBOUNCE_DONE: the samples have been LOW, or HIGH, for DEBOUNCE_US; `edgeTime` is the network time of the first of them
(10 R261, R262, R265, R269). -/
def execLioDebounceDone (ch : Fin 16) (high : Bool) (edgeTime : Nat) (s : State) : Host.Outcome State Fault Refusal :=
  let c := s.lch ch.val
  if c.cfg.mode = 1 then
    let s := s.reachNet (edgeTime + c.cfg.debounceUs * 1000)
    let s := s.onLch ch.val fun c => { c with band := false }
    let s := s.onLch ch.val fun c => { c with fault := c.standing }
    let up := s.supplyOf ch.val
    let forced := (s.forced (mkPoint localCode 0 ch.val)).isSome
    .next (s.setLevel ch.val high ((up = .valid || up = .sag) && !forced) edgeTime)
  else if c.cfg.mode = 2 then .next (s.onLch ch.val fun c => { c with level := high })
  else .next s

/-- LIO_BAND: an input enters BAND (10 R261, R274). -/
def execLioBand (ch : Fin 16) (s : State) : Host.Outcome State Fault Refusal :=
  let c := s.lch ch.val
  if c.cfg.mode = 1 && !c.band then
    .next (((s.onLch ch.val fun c => { c with band := true }).record 0x0801 (srcOf 7 ch.val) []).chFault ch.val 0x11 true)
  else .next s

/-- WIRE_BREAK: the measured current of an input with WIRE_CHECK has stayed below 0.5 mA, or at or above it (10 R263). -/
def execWireBreak (ch : Fin 16) (below : Bool) (s : State) : Host.Outcome State Fault Refusal :=
  let c := s.lch ch.val
  if c.cfg.mode ≠ 1 || !c.cfg.lflags.testBit 0 || c.wbreak = below then .next s
  else if below then .next ((s.onLch ch.val fun c => { c with wbreak := true }).chFault ch.val 0x10 true)
  else
    let s := s.onLch ch.val fun c => { c with wbreak := false }
    .next (s.onLch ch.val fun c => { c with fault := c.standing })

/-- An output fault stands. -/
def State.outputFault (s : State) (ch code : Nat) : State :=
  (s.onLch ch fun c => { c with outFlt := code }).chFault ch code true

/-- LIO_OUTPUT_FAULT: terminal and switch have disagreed for 500 µs (10 R268, R272). -/
def execLioOutputFault (ch : Fin 16) (terminalHigh : Bool) (s : State) : Host.Outcome State Fault Refusal :=
  let c := s.lch ch.val
  if c.cfg.mode ≠ 2 || c.sw = terminalHigh then .next s
  else if terminalHigh then
    if (c.cfg.lflags.testBit 1 && !s.holder) || c.outFlt = 1 then .next s else .next (s.outputFault ch.val 1)
  else if c.outFlt = 2 then .next s else .next (s.outputFault ch.val 2)

/-- LIO_FAULT_CLEAR: they have agreed for 500 µs. -/
def execLioFaultClear (ch : Fin 16) (s : State) : Host.Outcome State Fault Refusal :=
  .next (if (s.lch ch.val).outFlt = 0 then s
         else s.onLch ch.val fun c => { c with outFlt := 0, fault := { c with outFlt := 0 }.standing })

/-! ## Trips, 10 R270, R273, R274 -/

/-- A trip with its code: the switch opens; the error task is released only after 1 s without a trip. No trip is set in LOW or
RECOVERING. -/
def State.tripCh (s : State) (ch code : Nat) : State :=
  let c := s.lch ch
  let up := s.supplyOf ch
  if c.cfg.mode ≠ 2 || !c.sw || c.trip.isSome || up = .low || up = .recovering then s
  else
    let fresh := match c.lastTrip with
      | some t => t + 1000000000 ≤ s.clk.now
      | none => true
    let s := s.onLch ch fun c => { c with trip := some code, tripAt := s.clk.now, lastTrip := some s.clk.now,
                                          trips := satAdd 64 c.trips 1 }
    s.switches.chFault ch code fresh

/-- OVERCURRENT_TRIP: current limit for 2 ms. -/
def execOvercurrentTrip (ch : Fin 16) (s : State) : Host.Outcome State Fault Refusal := .next (s.tripCh ch.val 3)

/-- THERMAL_TRIP. -/
def execThermalTrip (ch : Fin 16) (s : State) : Host.Outcome State Fault Refusal := .next (s.tripCh ch.val 4)

/-- Clear a trip; in LOW or RECOVERING the clear is held (10 R273). -/
def State.clearTrip (s : State) (ch : Nat) : State :=
  let c := s.lch ch
  if c.trip.isNone then s
  else if s.supplyOf ch = .low || s.supplyOf ch = .recovering then s.onLch ch fun c => { c with clrHeld := true }
  else
    let s := s.onLch ch fun c => { c with trip := none, clrHeld := false }
    (s.onLch ch fun c => { c with fault := c.standing }).switches

/-- TRIP_RETRY_EXPIRY: RETRY_MS after a trip (10 R270). -/
def execTripRetryExpiry (ch : Fin 16) (s : State) : Host.Outcome State Fault Refusal :=
  let c := s.lch ch.val
  .next (if c.trip.isSome && 0 < c.cfg.retryMs then (s.reach (c.tripAt + c.cfg.retryMs * 1000000)).clearTrip ch.val else s)

/-- Clear the trips of a group that a mask selects. -/
def State.tripMask (s : State) (group : Side) (v : Word) : State :=
  (List.range 8).foldl (fun s c => if v.getLsbD c then s.clearTrip (8 * group.num + c) else s) s

/-- LIO_TRIP_CLR: write of the register of a group (10 R275); reserved bits are ignored (00 R11). -/
def execLioTripClr (group : Side) (v : Word) (s : State) : Host.Outcome State Fault Refusal := .next (s.tripMask group v)

/-! ## Group supplies, 10 R273 -/

/-- The record of a group's supply. -/
def State.supplyRec (s : State) (code : Nat) (g : Side) : State := s.record code (srcOf 7 (16 + g.num)) []

/-- SUPPLY_SAG: L+ below 19.2 V for more than 1 ms. -/
def execSupplySag (group : Side) (s : State) : Host.Outcome State Fault Refusal :=
  .next (if (s.lio.grp group).st = .valid then
           (s.onGrp group fun g => { g with st := .sag, due := g.due ++ [0x20] }).supplyRec 0x0802 group
         else s)

/-- SUPPLY_LOW: L+ below 15 V for 20 µs; every output switch of the group opens. -/
def execSupplyLow (group : Side) (s : State) : Host.Outcome State Fault Refusal :=
  let st := (s.lio.grp group).st
  .next (if st = .valid || st = .sag then
           ((s.onGrp group fun g => { g with st := .low, due := g.due ++ [0x21] }).supplyRec 0x0803 group).switches
         else s)

/-- SUPPLY_RISE: L+ at 19.2 V or above. -/
def execSupplyRise (group : Side) (s : State) : Host.Outcome State Fault Refusal :=
  match (s.lio.grp group).st with
  | .sag => .next ((s.onGrp group fun g => { g with st := .valid }).supplyRec 0x0804 group)
  | .low => .next (s.onGrp group fun g => { g with st := .recovering, timer := some (s.clk.now + 10000000) })
  | _ => .next s

/-- SUPPLY_DIP: L+ below 19.2 V in RECOVERING stops the timer. -/
def execSupplyDip (group : Side) (s : State) : Host.Outcome State Fault Refusal :=
  .next (if (s.lio.grp group).st = .recovering then s.onGrp group fun g => { g with st := .low, timer := none } else s)

/-- RECOVERING_TIMER_EXPIRY: VALID; held clears take effect before the switches close; the debounced levels that the inputs
show now are taken without an event (10 R265, R273). -/
def execRecoveringTimerExpiry (group : Side) (levels : BitVec 8) (s : State) : Host.Outcome State Fault Refusal :=
  let g := s.lio.grp group
  if g.st ≠ .recovering then .next s
  else
    let s := s.reach (g.timer.getD s.clk.now)
    let s := s.onGrp group fun g => { g with st := .valid, timer := none }
    let s := (List.range 8).foldl (fun s c =>
      let ch := 8 * group.num + c
      let s := s.onLch ch fun x => if x.cfg.mode = 1 then { x with level := levels.getLsbD c } else x
      if (s.lch ch).clrHeld then s.clearTrip ch else s) s
    .next (s.switches.supplyRec 0x0804 group)

/-! ## Still point and configuration, 10 R258, R264, R267, R276 -/

/-- The latch of an input at the still point: value, and the quality of 10 R264 (1 SUBSTITUTED: the substitute value is laid at
the commit; 3 UNCERTAIN; 0 GOOD). -/
def LioCh.atStill (c : LioCh) (up : Supply) : LioCh :=
  if c.cfg.mode = 1 then
    { c with latch := c.level
             latchQ := if up = .low || up = .recovering then 1 else if up = .sag || c.band || c.wbreak then 3 else 0 }
  else c

/-- The still point at an output: the value of a snapshot is applied when HELD is clear or CHG_N ≥ ACT_N (08 R218, 10 R267). An entry whose
TIME is not before the still point comes after the snapshot (08 R212). -/
def LioCh.applyOut (c : LioCh) (v : Bool) (n still : Nat) : LioCh :=
  if c.cfg.mode = 2 then
    let chg := if v = c.out then c.chgN else n % 2 ^ 32
    if !c.held || (serialGe chg c.actN && c.actAt < still) then { c with out := v, chgN := chg, cmd := v, held := false }
    else { c with out := v, chgN := chg }
  else c

/-- A changed local channel block takes effect: a channel that leaves OUTPUT opens its switch and loses its pending actuations; one that
enters OUTPUT applies the value of the last snapshot (10 R258); an input without WIRE_CHECK is in no WIRE_BREAK (R263); a change clears a
trip, or holds the clear (10 R270, R273). -/
def State.installLio (s : State) (b : List LioCfg) : State :=
  (List.range 16).foldl (fun s ch =>
    let old := (s.lch ch).cfg
    let new_ := b.getD ch {}
    if old = new_ then s
    else
      let s := s.clearTrip ch
      let v := (ptGet s.mem snapBlock 1 ch).getLsbD 0
      let s := s.onLch ch fun c =>
        if new_.mode = old.mode then
          let wb := c.wbreak && new_.lflags.testBit 0
          { c with cfg := new_, wbreak := wb, fault := if new_.mode = 1 then { c with wbreak := wb }.standing else c.fault }
        else { cfg := new_, trips := c.trips, faults := c.faults, level := c.level, cmd := new_.mode = 2 && v, out := new_.mode = 2 && v
               trip := c.trip, clrHeld := c.clrHeld, tripAt := c.tripAt, lastTrip := c.lastTrip, fault := c.trip.getD 0 }
      if old.mode = 2 && new_.mode ≠ 2 then
        { s with act := { s.act with localQ := s.act.localQ.filter fun e => ptIdx e.point ≠ ch } }
      else s) s |>.switches

/-- The latch carries the supply faults of a group. -/
def LioGrp.carry (g : LioGrp) : LioGrp := { g with ready := g.ready ++ g.due, due := [] }

/-- The latches of every channel and group at a still point. -/
def State.latchLocal (s : State) : State :=
  let f (i : Fin 16) : LioCh := (s.lio.ch[i]).atStill (s.lio.grp (chGroup i.val)).st
  { s with lio := { s.lio with
      ch := Vector.ofFn f
      g1 := s.lio.g1.carry
      g2 := s.lio.g2.carry } }

/-- The snapshot's values at the outputs. -/
def State.outLocal (s : State) (n : Nat) : State :=
  let f (i : Fin 16) : LioCh := (s.lio.ch[i]).applyOut ((ptGet s.mem snapBlock 1 i.val).getLsbD 0) n s.cyc.still
  ({ s with lio := { s.lio with ch := Vector.ofFn f } } : State).switches

/-- The outputs of the output snapshot held, whose header names its cycle. -/
def State.outSnapshot (s : State) : State := s.outLocal (memNum s.mem (snapBlock + hdrOfs) 8)

/-- Supply faults whose state the inputs of this commit carry release the supply-fault error task, in the primary (10 R273, 02 R48: sources
2 and 3 are groups 1 and 2). -/
def State.supplyFaults (s : State) : State :=
  let go (s : State) (g : Side) : State :=
    let s' := s.onGrp g fun x => { x with ready := [] }
    (s.lio.grp g).ready.foldl (fun s code => s.errRelease 3 (2 + g.num) code) s'
  go (go s .a) .b

end Sys2Proof.Machine
end

