-- ==== Sys2Proof/Machine/Tracking.lean ====
section
/-! DEFINITION. The tracking engine: commands (09 R234 to R237), the work of a commit (R226 to R247), takeover (R249, R250) and
change (R251). -/

namespace Sys2Proof.Machine
open Sys2Proof

/-- Update the tracking engine. -/
def State.onTrk (s : State) (f : Trk → Trk) : State := { s with trk := f s.trk }

/-- Mark the lines of a record of the tracking area dirty (09 R221). -/
def State.markTrk (s : State) (table n : Nat) : State :=
  match table with
  | 0 => s.mark (0x0160000000 + 64 * n) 64
  | 3 => s.mark (0x0170600000 + 64 * n) 64
  | 4 => s.mark (0x0170700000 + 16 * n) 16
  | 2 => s.mark (0x0170400000 + 128 * n) 128
  | 5 => s.mark (0x0170800000 + 32 * n) 32
  | 6 => s.mark (0x0170C00000 + 16 * n) 16
  | _ => s.mark (0x0170000000 + 32 * n) 32

/-- Take an object out of its list; the lines of its neighbours and of its segment change with it. -/
def State.unlinkObj (s : State) (n : Nat) : State :=
  match s.trk.obj n with
  | none => s
  | some o =>
    let s := (s.onTrk fun t => t.unlink n).markTrk 0 n
    let s := match o.ahead with
      | some a => s.markTrk 0 a
      | none => s
    let s := match o.behind with
      | some b => s.markTrk 0 b
      | none => s
    s.markTrk 2 o.seg

/-- Insert an object into the list of its segment; the lines of its neighbours and of the segment change with it. -/
def State.linkObj (s : State) (o : Obj) (l : List Nat) : State :=
  let s := (s.onTrk fun t => t.link o l).markTrk 0 o.num
  let s := match s.trk.obj o.num with
    | some x =>
      let s := match x.ahead with
        | some a => s.markTrk 0 a
        | none => s
      match x.behind with
      | some b => s.markTrk 0 b
      | none => s
    | none => s
  s.markTrk 2 o.seg

/-- The records of a table that a tracking area holds. -/
def Trk.nums (t : Trk) : Nat → List Nat
  | 0 => t.objs.map (·.num)
  | 1 => t.wins.map (·.num)
  | 4 => t.hos.map (·.1)
  | 5 => t.srcs.map (·.1)
  | _ => t.segs.map (·.num)

/-- Mark the records that differ from an older tracking area. -/
def State.markTrkDiff (s : State) (old : Trk) : State :=
  (List.range 6).foldl (fun s k =>
    (old.nums k ++ (s.trk.nums k).filter fun n => !(old.nums k).contains n).foldl (fun s n =>
      if trkRecord old [] k n = trkRecord s.trk [] k n then s else s.markTrk k n) s) s

/-- A tracking fault, 09 R247: error task, record, FAULTS, and FROZEN with FAULT_CODE where the table says so. A freezing fault while FROZEN
stands replaces FAULT_CODE (DESIGN CHOICE, log entry 104: 09 R228 names the fault that set FROZEN, R247 lets each freezing fault set it). -/
def State.trkFault (s : State) (seg code : Nat) : State :=
  let freezes := code < 0x10
  let s := s.onTrk fun t => t.onSeg seg fun g => { g with
    faults := satAdd 32 g.faults 1, frozen := g.frozen || freezes, faultCode := if freezes then code else g.faultCode
    hoStop := g.hoStop || code = 5 }
  ((s.markTrk 2 seg).record 0x0700 (srcOf 6 0) [seg, code]).errRelease 4 seg code

/-- An event is dropped by a fault: MISSED counted (09 R247, codes 0x02 and 0x04). -/
def State.dropEvent (s : State) (seg code : Nat) : State :=
  (s.onTrk fun t => t.onSeg seg fun h => { h with missed := satAdd 32 h.missed 1 }).trkFault seg code

/-- A residue check fails in this event (09 R247): the failure is used up. -/
def State.eventFault (s : State) (seg obj : Nat) : Bool × State :=
  let x := ResFault.event seg obj
  if s.trk.flts.contains x then (true, s.onTrk fun t => { t with flts := t.flts.erase x }) else (false, s)

/-- One event more in this commit (09 R244). -/
def State.countEvent (s : State) : State := s.onTrk fun t => { t with events := t.events + 1 }

/-! ## Sources and the advance, 09 R226 to R230 -/

/-- An encoder record in a station's last complete IN stream, 05 R151: EFLAGS, COUNT, EDGE_TIME. -/
def encRec (stream : List Byte) (input : Nat) : Option (BitVec 16 × BitVec 32 × Nat) :=
  ((List.range (field stream 4 1)).find? fun i => field stream (8 + 16 * i) 2 = input).map fun i =>
    (BitVec.ofNat 16 (field stream (8 + 16 * i + 2) 2), BitVec.ofNat 32 (field stream (8 + 16 * i + 4) 4),
     field stream (8 + 16 * i + 8) 8)

/-- The state of a source at the commit of cycle n, 09 R226. -/
def State.sourceAt (s : State) (n : Nat) (r : Src_) : Src_ :=
  let x := s.stnAt r.cfg.station
  let in_ := match x with
    | some x => x.st = .included || x.st = .returned
    | none => false
  let served := (s.net.cfg.map (·.servesStn r.cfg.station n)).getD false
  let complete := match x with
    | some x => served && x.lastGood = n
    | none => false
  let rec_ := match x with
    | some x => encRec x.stream r.cfg.input
    | none => none
  let good := rec_.filter fun q => !q.1.getLsbD 0
  match (if in_ && complete then good else none) with
  | some (fl, c, e) => { r with st := .fresh, count := c, edge := e, recN := n, eflags := fl, miss := 0, seen := true }
  | none =>
    if !r.seen then { r with st := .idle }
    else if in_ && !served then { r with st := .predict }
    else if in_ && !complete then { r with st := .missing, miss := r.miss + 1 }
    else if complete && good.isNone then { r with st := .fault }
    else { r with st := .lost }

/-- A signed 32-bit difference of counts. -/
def countDiff (a b : BitVec 32) : Int := (a - b).toInt

/-- The time without an edge exceeds VEL_ZERO_US (09 R230). -/
def standsStill (c : SegCfg) (r : Src_) (still : Nat) : Bool := (c.velZeroUs * 1000 : Int) < (still : Int) - r.edge

/-- The velocity after a FRESH advance with its sample time, sample count and STANDSTILL, 09 R230. -/
def velocity (c : SegCfg) (g : SegSt) (r : Src_) (still : Nat) : TrkStep (Coded × Nat × BitVec 32 × Bool) := do
  let v0 := Coded.ofWord g.vel
  let q ← (if r.count ≠ g.sampleCount ∧ g.sampleTime < r.edge then do
      let a ← (Coded.of (countDiff r.count g.sampleCount)).mul (.of c.scale)
      let b ← a.mul (.of 15625000)
      let e ← (Coded.of r.edge).sub (.of g.sampleTime)
      let d ← e.mul (.of 1024)
      let v ← b.div d
      let dv ← v.1.sub v0
      let k ← dv.div (.of (2 ^ c.velShift))
      let v ← v0.add k.1
      return (v, r.edge, r.count, false)
    else return (v0, g.sampleTime, g.sampleCount, g.standstill))
  if standsStill c r still then return (.of 0, q.2.1, q.2.2.1, true) else return q

/-- VEL × (S − EDGE_TIME) div 10^9, 09 R229. -/
def travel (vel : Coded) (r : Src_) (still : Nat) : TrkStep Coded := do
  let m ← vel.mul (← (Coded.of still).sub (.of r.edge))
  return (← m.div (.of 1000000000)).1

/-- One advance, 09 R229. -/
def advance (c : SegCfg) (g : SegSt) (r : Src_) (still n : Nat) : TrkStep SegSt := do
  let fin (g' : SegSt) : SegSt := { g' with
    prevOdo := g.odo, stillTime := still, advN := n, reverse := decide (wval g'.odo < wval g.odo) }
  let odoC := Coded.ofWord g.odoC
  match r.st with
  | .fresh =>
    if g.rebase then
      return fin { g with lastCount := r.count, sampleCount := r.count, sampleTime := r.edge, vel := mkWord 0, odo := g.odoC,
                          standstill := g.standstill || standsStill c r still, rebase := false, predicted := false
                          sourceLost := false }
    else
      let p ← (Coded.of (countDiff r.count g.lastCount)).mul (.of c.scale)
      let q ← (← p.add (.of g.frac)).div (.of 65536)
      let odoC ← odoC.add q.1
      let v ← velocity c g r still
      let e ← travel v.1 r still
      let unit : Int := (c.scale.natAbs / 65536 : Nat)
      let ext := if 0 ≤ v.1.v then max 0 (min unit e.v) else min 0 (max (-unit) e.v)
      let odo ← odoC.add (.of ext)
      return fin { g with odoC := mkWord odoC.v, frac := q.2.v.toNat, lastCount := r.count, vel := mkWord v.1.v,
                          sampleTime := v.2.1, sampleCount := v.2.2.1, standstill := v.2.2.2, odo := mkWord odo.v,
                          predicted := false, sourceLost := false }
  | .predict | .missing =>
    let odo ← odoC.add (← travel (.ofWord g.vel) r still)
    return fin { g with odo := mkWord odo.v, predicted := true }
  | _ => return fin { g with sourceLost := true, rebase := true }

/-- Advance one enabled segment at the commit of cycle n; `old` is the state its source had before (09 R229, R247). An advance whose residue
check fails is repeated once; a repeat that fails too leaves the segment as it was, as one that takes a word of wrong residue as stored
does. -/
def State.advanceSeg (s : State) (n still : Nat) (old : Nat → SrcSt) (g : Seg) : State :=
  match alook g.cfg.source s.trk.srcs with
  | none => s
  | some r =>
    let was := old g.cfg.source
    let s := if r.st = .lost && was ≠ .lost then s.trkFault g.num 0x10
             else if r.st = .fault && was ≠ .fault then s.trkFault g.num 0x11 else s
    let bad := !(wordOk g.st.odo && wordOk g.st.odoC && wordOk g.st.vel)
    let s := if bad then s.trkFault g.num 3 else s
    match s.trk.seg g.num with
    | none => s
    | some g =>
      let bad (again : Bool) : Bool := s.trk.flts.contains (.advance g.num again)
      let s := if bad true || bad false then s.trkFault g.num 1 else s
      let st0 := ((s.trk.seg g.num).map (·.st)).getD g.st
      if bad false then s
      else match advance g.cfg st0 r still n with
      | .error e => if e = .residue && bad true then s else s.trkFault g.num e.inAdvance
      | .ok st =>
        let s := if r.st = .fresh && g.st.rebase && g.st.sourceLost && was ≠ .idle then
            s.record 0x0701 (srcOf 6 0) [g.num] else s
        (s.onTrk fun t => t.onSeg g.num fun _ => st).markTrk 2 g.num

/-! ## Windows, 09 R233, R238 to R240 -/

/-- TAG[15:0] AND MATCH_MASK = MATCH_VAL. -/
def tagMatch (tag : BitVec 32) (val mask : BitVec 16) : Bool := (tag.setWidth 16 &&& mask) = val

/-- Release the event tasks bound to an action number, with the record of 09 R240. -/
def State.windowEvent (s : State) (act num obj time : Nat) : State :=
  s.releaseEvents (fun e => match e with
    | .window a => a = act
    | _ => false) (le 4 num ++ le 4 obj ++ le 8 time)

/-- Commit an entry of a window through 08 R208; a refusal sets REFUSED and raises ACT_REFUSED. -/
def State.windowAct (s : State) (seg obj : Nat) (e : ActEnt) : State :=
  let r := s.commitAct none e false
  if r.1 = 0 then r.2 else (r.2.onTrk fun t => t.onObj obj fun o => { o with refused := true }).trkFault seg 0x13

/-- The instants of a window's action: event time, t_on, t_off (09 R240). -/
def windowTimes (g : Seg) (w : WinCfg) (len : Nat) (x : Coded) : TrkStep (Nat × Nat × Nat) := do
  let vel := Coded.ofWord g.st.vel
  let lead ← (Coded.of w.leadUs).mul (.of 1000)
  let ev ← (if w.action % 2 = 1 then eventTime g.st.stillTime (.of w.start) x vel else pure 0)
  if w.action / 2 % 2 = 0 then return (ev, 0, 0)
  let on ← eventTime g.st.stillTime (.of w.trig) x vel
  let on ← (Coded.of on).subTime lead
  if w.offDist = 0 then return (ev, on.v.toNat, 0)
  let d ← (Coded.of w.trig).add (← (Coded.of w.offDist).mul (.of 1000))
  let d ← (if w.wflags.getLsbD 0 then d.add (.of len) else pure d)
  let off ← eventTime g.st.stillTime d x vel
  let off ← (Coded.of off).subTime lead
  return (ev, on.v.toNat, off.v.toNat)

/-- WNEXT advances past the window. -/
def State.passWin (s : State) (obj i : Nat) : State := s.onTrk fun t => t.onObj obj fun o => { o with wnext := i + 1 }

/-- The object's position on its segment: ODO − OFFSET (09 R231). -/
def position (g : Seg) (o : Obj) : TrkStep Coded := (Coded.ofWord g.st.odo).sub (.ofWord o.offset)

/-- Examine window i of a segment for an object at its START or beyond (09 R239); true when the window is deferred. -/
def State.examine (s : State) (seg i obj : Nat) : State × Bool :=
  match s.trk.seg seg, s.trk.obj obj with
  | some g, some o =>
    let num := g.cfg.winFirst + i
    let w := s.trk.winAt num
    let (hit, s) := (s.countEvent.markTrk 0 obj).eventFault seg obj
    match (if hit then .error .residue else position g o) with
    | .error e => ((s.dropEvent seg e.inEvent).passWin obj i, false)
    | .ok x =>
    if g.st.frozen || g.st.sourceLost || s.calm.on then
      ((s.onTrk fun t => t.onCross seg fun k =>
        if g.st.frozen then { k with frozen := satAdd 64 k.frozen 1 }
        else if g.st.sourceLost then { k with source := satAdd 64 k.source 1 }
        else { k with calm := satAdd 64 k.calm 1 }).passWin obj i, false)
    else if !tagMatch o.tag w.matchVal w.matchMask then (s.passWin obj i, false)
    else if (w.stop : Int) ≤ x.v then
      let s := s.onTrk fun t => (t.onSeg seg fun h => { h with missed := satAdd 32 h.missed 1 }).onObj obj fun o =>
        { o with missed := true }
      ((s.record 0x0702 (srcOf 6 0) []).passWin obj i, false)
    else if w.action / 2 % 2 = 1 && wval g.st.vel < g.cfg.velMin then (s, true)
    else
      match windowTimes g w o.length x with
      | .error e => ((s.dropEvent seg e.inEvent).passWin obj i, false)
      | .ok (ev, on, off) =>
        let s := if w.action % 2 = 1 then s.windowEvent w.actNum num obj ev else s
        let inv := w.wflags.getLsbD 1
        let s := if w.action / 2 % 2 = 1 then
            s.windowAct seg obj { point := w.point, value := if inv then 0 else 1, time := on } else s
        let s := if w.action / 2 % 2 = 1 && 0 < w.offDist then
            s.windowAct seg obj { point := w.point, value := if inv then 1 else 0, time := off } else s
        let s := s.onTrk fun t =>
          { t.onSeg seg fun h => { h with fired := satAdd 32 h.fired 1 } with
            wins := t.wins.map fun v => if v.num = num then { v with fired := satAdd 32 v.fired 1 } else v }
        ((s.markTrk 1 num).passWin obj i, false)
  | _, _ => (s, false)

/-- The object stands at window i of its segment: its WNEXT is i and its position, by the values as stored, is at START or above; the checks
of that step count in the crossing (log entry 83). -/
def State.atWin (s : State) (seg i obj : Nat) : Bool :=
  match s.trk.seg seg, s.trk.obj obj with
  | some g, some o => o.wnext = i && (s.trk.winAt (g.cfg.winFirst + i)).start ≤ wval g.st.odo - wval o.offset
  | _, _ => false

/-- The OFFSET words of a list of objects carry right residues; otherwise RESIDUE_LOAD, once for the segment. -/
def State.loadOffsets (s : State) (seg : Nat) (l : List Nat) : State :=
  if l.all fun n => match s.trk.obj n with
      | some o => wordOk o.offset
      | none => true
  then s else s.trkFault seg 3

/-- The windows of a segment in index order, each with its candidates from the front backward (09 R244). -/
def State.segWindows (s : State) (seg : Nat) (l : List Nat) : State :=
  match s.trk.seg seg with
  | none => s
  | some g =>
    (List.range g.cfg.winCount).foldl (fun s i =>
      l.foldl (fun s o => if s.atWin seg i o then (s.examine seg i o).1 else s) s) s

/-- The windows of one object that has arrived, from its WNEXT on (09 R243). -/
def State.objWindows (s : State) (seg obj : Nat) : Nat → State
  | 0 => s
  | k + 1 =>
    match s.trk.obj obj, s.trk.seg seg with
    | some o, some g =>
      if o.wnext < g.cfg.winCount && s.atWin seg o.wnext obj then
        let r := s.examine seg o.wnext obj
        if r.2 then r.1 else r.1.objWindows seg obj k
      else s
    | _, _ => s

/-! ## Handovers, 09 R241 to R243 -/

/-- Arrivals of a commit: (object, handovers made of it). -/
abbrev Arrivals := List (Nat × Nat)

/-- Handovers made of an object in this commit. -/
def hops (a : Arrivals) (obj : Nat) : Nat := (alook obj a).getD 0

/-- OFFSET of an object that enters a segment `past` its ENTRY_POS (09 R242). -/
def entryOffset (tg : Seg) (h : HoCfg) (past : Coded) : TrkStep Coded := do
  (Coded.ofWord tg.st.odo).sub (← (Coded.of h.entryPos).add past)

/-- The object moves to a segment at a position, with the event time of its arrival (09 R242); a fault drops the event. -/
def State.handTo (s : State) (seg : Nat) (o : Obj) (h : HoCfg) (past : Coded) (time : Nat) : State × Bool :=
  let t := s.unlinkObj o.num
  match t.trk.seg h.toSeg with
  | none => (s, false)
  | some tg =>
    let s := if wordOk tg.st.odo then s else s.trkFault h.toSeg 3
    match t.trk.walk tg with
    | none => (s.trkFault h.toSeg 5, false)
    | some l => match entryOffset tg h past with
      | .error e => (s.dropEvent seg e.inEvent, false)
      | .ok off =>
        let s := s.unlinkObj o.num
        let o := { o with offset := mkWord off.v, seg := h.toSeg, segTime := time, hops := satAdd 16 o.hops 1
                          wnext := s.trk.firstWin tg fun st => (h.entryPos : Int) ≤ st }
        (s.linkObj o l, true)

/-- The object leaves tracking: its record stands until the end of the next commit (09 R242). -/
def State.leaveTrack (s : State) (obj : Nat) : State :=
  (s.unlinkObj obj).onTrk fun t => t.onObj obj fun o =>
    { o with valid := false, left := true, ahead := none, behind := none, freeIn := some 1 }

/-- How far an object stands past its segment's end, and the event time of the end (09 R242). -/
def pastEnd (g : Seg) (o : Obj) : TrkStep (Coded × Nat) := do
  let x ← position g o
  let len := Coded.ofWord g.cfg.length
  return (← x.sub len, ← eventTime g.st.stillTime len x (.ofWord g.st.vel))

/-- One handover of an object at or beyond its segment's end by the first matching entry; none when it stays. A fault drops the handover:
WNEXT, which counts windows alone, stays, and the handover is tried again at the next commit (DESIGN CHOICE, log entry 102). A fifth
handover in a commit waits, with one TRK_CHAIN. -/
def State.handOver (s : State) (a : Arrivals) (seg obj : Nat) : State × Arrivals :=
  match s.trk.seg seg, s.trk.obj obj with
  | some g, some o =>
    if g.st.hoStop || 4 < hops a obj then (s, a)
    else if hops a obj = 4 then (s.record 0x0703 (srcOf 6 0) [], aset obj 5 a)
    else
      let s := if wordOk g.cfg.length then s else s.trkFault seg 3
      let (hit, s) := s.countEvent.eventFault seg obj
      let found := ((List.range g.cfg.hoCount).map fun i => (g.cfg.hoFirst + i, s.trk.hoAt (g.cfg.hoFirst + i))).find? fun q =>
        tagMatch o.tag q.2.matchVal q.2.matchMask
      if hit then (s.dropEvent seg 2, a)
      else match found with
      | none =>
        if o.heldEnd then (s, a)
        else (((s.onTrk fun t => t.onObj obj fun o => { o with heldEnd := true }).markTrk 0 obj).trkFault seg 0x12, a)
      | some (num, h) =>
        let go (s : State) (time : Nat) : State :=
          if h.hflags.getLsbD 0 then s.windowEvent h.actNum (0x80000000 + num) obj time else s
        match pastEnd g o with
        | .error e => (s.dropEvent seg e.inEvent, a)
        | .ok (past, time) =>
          if h.toSeg = 0xFFFF then (go (s.leaveTrack obj) time, a)
          else
            let r := s.handTo seg o h past time
            if r.2 then (go r.1 time, aset obj (hops a obj + 1) a) else (r.1, a)
  | _, _ => (s, a)

/-- The object is at or beyond its segment's end. -/
def State.atEnd (s : State) (seg obj : Nat) : Bool :=
  match s.trk.seg seg, s.trk.obj obj with
  | some g, some o => o.valid && o.seg = seg && wval g.cfg.length ≤ wval g.st.odo - wval o.offset
  | _, _ => false

/-- One segment's turn in the event phase: windows, then handovers from HEAD (09 R244, step 3). An inconsistent list stops the handovers
alone (09 R247). -/
def State.segEvents (s : State) (a : Arrivals) (seg : Nat) : State × Arrivals :=
  match s.trk.enabled seg with
  | none => (s, a)
  | some g =>
    match s.trk.walk g with
    | none =>
      let l := s.trk.loose seg
      (((if g.st.hoStop then s else s.trkFault seg 5).loadOffsets seg l).segWindows seg l, a)
    | some l =>
      let s := (s.loadOffsets seg l).segWindows seg l
      l.foldl (fun r o => if r.1.atEnd seg o then r.1.handOver r.2 seg o else r) (s, a)

/-- Step 4: the arrivals are evaluated on their segments, and handed over again at an end; at most 4 handovers of an object. -/
def State.arrive (s : State) (a : Arrivals) (obj : Nat) : Nat → State × Arrivals
  | 0 => (s, a)
  | k + 1 =>
    match s.trk.obj obj with
    | none => (s, a)
    | some o =>
      if !o.valid then (s, a)
      else
        let s := s.objWindows o.seg obj 1024
        if s.atEnd o.seg obj then
          let r := s.handOver a o.seg obj
          if hops r.2 obj = hops a obj then r else r.1.arrive r.2 obj k
        else (s, a)

/-- The lines of the records that step 5 frees. -/
def State.markLeft (s : State) : State := (s.trk.objs.filter fun o => o.freeIn = some 0).foldl (fun s o => s.markTrk 0 o.num) s

/-- Step 5: free the records that left tracking at the previous commit. -/
def Trk.freeLeft (t : Trk) : Trk :=
  { t with objs := (t.objs.filter fun o => o.freeIn ≠ some 0).map fun o =>
      if o.freeIn = some 1 then { o with freeIn := some 0 } else o }

/-- At the first commit as primary: re-commit the logged entries still ahead and the logged cancels, in log order (09 R250). -/
def State.recommit (s : State) : State :=
  if s.trk.firstCommit then
    let s := s.onTrk fun t => { t with firstCommit := false }
    let l := if s.act.log.length < 262144 then s.act.log else s.act.log.drop s.trk.logN ++ s.act.log.take s.trk.logN
    (l.filter fun e => e.cancel || s.netTime < e.time).foldl (fun s e =>
      if s.actCode e false = 0 then s.acceptAct e else s.rejectAct none) s
  else s

/-- The event phase of the commit before may not have finished at this one: its bound of 09 R245 reaches beyond a basic cycle. -/
def State.mayBacklog (s : State) : Bool :=
  s.t < 3000 + (s.trk.segs.countP (·.cfg.enabled)) * 5 / 2 + 250 * s.trk.events

/-- An event phase that has not finished is finished first: TRK_BACKLOG, and its count (09 R246). -/
def State.backlogged (s : State) (late : Bool) : State :=
  if late && s.mayBacklog then
    (s.onTrk fun t => { t with backlog := satAdd 64 t.backlog 1 }).record 0x0704 (srcOf 6 0) []
  else s

/-- The work of TRK at the image commit of cycle n in the primary, 09 R244; with its clock stopped TRK does none (01 R19). -/
def State.trackCommit (s : State) (n : Nat) (w : TrkWork) : State :=
  if s.unclocked 18 then s else
  let still := s.stillOf n
  let before := s.trk.srcs
  let s := (s.backlogged w.late).recommit
  let s := s.onTrk fun t => { t with events := 0, flts := w.faults }
  let s := s.onTrk fun t => { t with srcs := t.srcs.map fun r => if r.2.cfg.enabled then (r.1, s.sourceAt n r.2) else r }
  let same (r : Nat × Src_) : Bool := (alook r.1 before).map (·.enc) = some r.2.enc
  let s := s.trk.srcs.foldl (fun s r => if r.2.st = .fresh || !same r then s.markTrk 5 r.1 else s) s
  let old (k : Nat) : SrcSt := ((alook k before).map (·.st)).getD .idle
  let s := (s.trk.segs.filter (·.cfg.enabled)).foldl (fun s g => s.advanceSeg n still old g) s
  let r := (s.trk.segs.map (·.num)).foldl (fun r g => r.1.segEvents r.2 g) (s, ([] : Arrivals))
  let r := r.2.foldl (fun r o => r.1.arrive r.2 o.1 5) r
  r.1.markLeft.onTrk fun t => { t.freeLeft with flts := [] }

/-! ## Commands, 09 R234 to R237 -/

/-- A reserved bit of the command window is set. -/
def CmdWin.rsvd (w : CmdWin) : Bool :=
  (w.obj >>> 32) ≠ 0 || (w.seg >>> 14) ≠ 0 || (w.pos >>> 32) ≠ 0 || (w.user >>> 32) ≠ 0

/-- POS, signed. -/
def CmdWin.position (w : CmdWin) : Int := (w.pos.setWidth 32).toInt

/-- The first code of 09 R235 that applies to a command, 0 for none. -/
def State.cmdCode (s : State) (op : Nat) (rsvd : Bool) (w : CmdWin) : Nat :=
  let seg := (w.seg &&& 0x3FFF).toNat
  let obj := (w.obj.setWidth 32).toNat
  let g := s.trk.enabled seg
  let places := op = 1 || op = 4
  if op = 0 || 5 < op || rsvd || w.rsvd || !s.primary then 1
  else if (places || op = 5) && g.isNone then 2
  else if (op = 2 || op = 3 || op = 4) && !(match s.trk.obj obj with
      | some o => o.valid
      | none => false) then 3
  else if op = 1 && s.trk.free = 0 then 4
  else if places && (match g with
      | some g => decide (w.position < -wval g.cfg.length) || decide (wval g.cfg.length ≤ w.position)
      | none => false) then 5
  else if places && (match g with
      | some g => g.st.frozen
      | none => false) then 6
  else 0

/-- Put an object on a segment at POS (CREATE and MOVE); none when a fault arises, with its code. -/
def State.place (s : State) (o : Obj) (g : Seg) (pos : Int) : State ⊕ Nat :=
  match (Coded.ofWord g.st.odo).sub (.of pos) with
  | .error _ => .inr 6
  | .ok off =>
    match s.trk.walk g with
    | none => .inr 5
    | some l =>
      let sound (n : Nat) : Bool := ((s.trk.obj n).map fun o => wordOk o.offset).getD true
      if !wordOk g.st.odo || !wordOk g.cfg.length || !l.all sound || s.trk.cmdFlt then .inr 6
      else
        let o := { o with offset := mkWord off.v, seg := g.num, segTime := s.netTime,
                          wnext := s.trk.firstWin g fun st => pos < st }
        .inl (s.linkObj o l)

/-- The effect of a command that passes the checks (09 R236): result code, object number, state. -/
def State.cmdEffect (s : State) (op : Nat) (w : CmdWin) : Nat × Nat × State :=
  let seg := (w.seg &&& 0x3FFF).toNat
  let obj := (w.obj.setWidth 32).toNat
  match op with
  | 1 =>
    match s.trk.enabled seg with
    | none => (2, obj, s)
    | some g =>
      let n := freeFrom 0 s.trk.objs
      let o : Obj := { num := n, offset := 0, seg := seg, tag := w.tag.setWidth 32, id := w.id, createTime := s.netTime,
                       length := (w.tag >>> 32).toNat, user := w.user.setWidth 32 }
      match s.place o g w.position with
      | .inl s => (0, n, s)
      | .inr c => (7, obj, s.trkFault seg c)
  | 2 => (0, obj, (s.unlinkObj obj).onTrk fun t => t.freeObj obj)
  | 3 => (0, obj, (s.onTrk fun t => t.onObj obj fun o => { o with tag := w.tag.setWidth 32 }).markTrk 0 obj)
  | 4 =>
    match s.trk.obj obj with
    | none => (3, obj, s)
    | some o =>
      let s' := s.unlinkObj obj
      match s'.trk.enabled seg with
      | none => (2, obj, s)
      | some g =>
        match s'.place { o with hops := satAdd 16 o.hops 1 } g w.position with
        | .inl s => (0, obj, s)
        | .inr c => (7, obj, s.trkFault seg c)
  | 5 => (0, obj, ((s.onTrk fun t => t.onSeg seg fun g => { g with frozen := false, faultCode := 0, hoStop := false }).markTrk 2
      seg).record 0x0705 (srcOf 6 0) [])
  | _ => (1, obj, s)

/-- Write of TRK_CMD_GO from a lane's window: the command completes with its code (09 R235). -/
def State.trkGo (s : State) (lane op : Nat) (rsvd : Bool) : State :=
  let w := s.trk.win.toList.getD lane {}
  let c := s.cmdCode op rsvd w
  let r := if c = 0 then s.cmdEffect op w else (c, (w.obj.setWidth 32).toNat, s)
  r.2.2.onTrk fun t => { t with win := t.win.setIfInBounds lane { w with code := r.1, robj := r.2.1 } }

/-! ## APP_LOAD and APP_CHANGE, 09 R251 -/

/-- A segment configuration as MGT writes it: the residue of LENGTH is computed with it (09 R222). -/
def codedSeg (c : SegCfg) : SegCfg := { c with length := mkWord (wval c.length) }

/-- Segments by ascending number (09 R244). -/
def bySeg (l : List Seg) : List Seg := l.foldl (fun k g => putBy (·.num) g k) []

/-- The tracking area of a newly loaded image: every object freed, segments and sources at their first state. The command windows and the
counts of STATUS, which run from the last reset (13 R553), stay. -/
def trkLoad (t : Trk) (b : AppBody) : Trk :=
  { wins := b.wins.map fun w => { num := w.1, cfg := w.2 }
    segs := bySeg (b.segs.map fun g => { num := g.1, cfg := codedSeg g.2, st := { sourceLost := true } })
    hos := b.hos, srcs := b.srcs.map fun r => (r.1, { cfg := r.2 }), win := t.win, backlog := t.backlog, cross := t.cross }

/-- Configurations of an image for records of which some stand already: new ones, and those that the image no longer lists as zeros. -/
def retable {α : Type} (num : α → Nat) (zero : α → α) (old new_ : List α) : List α :=
  new_ ++ (old.filter fun x => !(new_.any fun y => num y = num x)).map zero

/-- The change of the tracking configuration at a change instant: MGT writes the configuration fields alone, so state, FIRED and the source
fields are kept, also where the image no longer lists a record; WNEXT is set again, objects of disabled segments are deleted; the count
deleted. A segment that the image lists for the first time begins with SOURCE_LOST and REBASE, so that its first FRESH advance writes
TRK_REBASE (DESIGN CHOICE, log entry 103). -/
def trkChange (t : Trk) (b : AppBody) : Trk × Nat :=
  let segs := b.segs.map fun g =>
    ({ num := g.1, cfg := codedSeg g.2, st := ((t.seg g.1).map (·.st)).getD { sourceLost := true } } : Seg)
  let wins := b.wins.map fun w =>
    ({ num := w.1, cfg := w.2, fired := ((t.wins.find? (·.num = w.1)).map (·.fired)).getD 0 } : Win)
  let srcs := b.srcs.map fun r => match alook r.1 t.srcs with
    | some x => (r.1, { x with cfg := r.2 })
    | none => (r.1, ({ cfg := r.2 } : Src_))
  let t' : Trk := { t with
    wins := retable (·.num) (fun w => { w with cfg := { start := 0, stop := 0, trig := 0 } }) t.wins wins
    segs := bySeg (retable (·.num) (fun g => { g with cfg := segCfgDec [] }) t.segs segs)
    hos := b.hos
    srcs := retable (·.1) (fun r => (r.1, { r.2 with cfg := { station := 0, enabled := false, input := 0 } })) t.srcs srcs }
  let gone := t.objs.filter fun o => o.valid && (t'.enabled o.seg).isNone
  let t' := gone.foldl (fun t o => (t.unlink o.num).freeObj o.num) t'
  let again (o : Obj) : Obj := match t'.seg o.seg with
    | some g => { o with wnext := t'.firstWin g fun st => wval g.st.odo - wval o.offset < st }
    | none => o
  ({ t' with objs := t'.objs.map again }, gone.length)

end Sys2Proof.Machine
end

