-- ==== Sys2Proof/Machine/Windbreak.lean ====
section
/-! DEFINITION. Windbreak access control: the table, the decision on an access, refusals and the update rows (15 R406 to
R426). -/

namespace Sys2Proof.Machine
open Sys2Proof

/-! ## Regions, 15 R409 -/

/-- VALID. -/
def Rgn.valid (r : Rgn) : Bool := r.addr.getLsbD 63
/-- First address. -/
def Rgn.base (r : Rgn) : Nat := (r.addr &&& 0xFFFFFFF000).toNat
/-- First address after the region. -/
def Rgn.lim (r : Rgn) : Nat := r.base + 2 ^ (r.addr &&& 0x3F).toNat
/-- The region holds an address. -/
def Rgn.holds (r : Rgn) (a : Nat) : Bool := r.valid && r.base ≤ a && a < r.lim
/-- A right: bit 3c + k of PERM. -/
def Rgn.right (r : Rgn) (c k : Nat) : Bool := r.perm.getLsbD (3 * c + k)
/-- The flags NOSPLIT, MIRROR, LOADW, CONF at bits 8 to 11 of SCOPE. -/
def Rgn.nosplit (r : Rgn) : Bool := r.scope.getLsbD 8
def Rgn.mirror (r : Rgn) : Bool := r.scope.getLsbD 9
def Rgn.loadw (r : Rgn) : Bool := r.scope.getLsbD 10
def Rgn.conf (r : Rgn) : Bool := r.scope.getLsbD 11

/-- The highest-numbered valid region that holds an address. -/
def Wb.find (w : Wb) (a : Nat) : Option Nat := (List.range 64).reverse.find? fun i => (w.rgn.toList.getD i {}).holds a

/-- WB_CTRL.STANDBY: the role is STANDBY or JOINING (15 R412). -/
def State.wbStandby (s : State) : Bool := s.pair.role = .standby || s.pair.role = .joining

/-! ## The address map, 01 R24, R25 -/

/-- The peripheral slot of an address. -/
def slotOf (a : Nat) : Option Nat :=
  if 0x10000000 ≤ a && a < 0x10300000 then some ((a - 0x10000000) / 0x10000) else none

def inSram (a : Nat) : Bool := 0x01000000 ≤ a && a < 0x01800000
def inImage (a : Nat) : Bool := 0x02000000 ≤ a && a < 0x02200000
def inDram (a : Nat) : Bool := 0x0080000000 ≤ a && a < 0x0180000000
def inRom (a : Nat) : Bool := a < 0x10000
def inTracking (a : Nat) : Bool := 0x0160000000 ≤ a && a < 0x0180000000
def inMirrorStaging (a : Nat) : Bool := 0x015C000000 ≤ a && a < 0x0160000000
def inSnapStaging (a : Nat) : Bool := 0x017C000000 ≤ a && a < 0x0180000000

/-- The fall-back rights of a slot (15 R413), as the classes that hold R and those that hold W. -/
def fallback (slot : Nat) : List Nat × List Nat :=
  match slot with
  | 0 => ([0, 1, 2, 3, 4, 5, 6, 7], [3])
  | 1 => ([0, 3, 4, 5], [3])
  | 2 => ([0, 3, 5], [3])
  | 3 => ([0, 3, 4, 5, 6], [3])
  | 4 => ([0, 1, 2, 3, 5, 6], [3])
  | 5 | 6 | 7 => ([3], [3])
  | 8 => ([3, 4, 5], [3])
  | 9 => ([0, 3, 5], [3])
  | 10 => ([3, 5, 7], [3, 7])
  | 11 => ([3, 5], [3])
  | 12 | 13 | 14 | 15 | 16 | 17 | 18 | 19 => ([0, 1, 2, 3, 5], [0, 3])
  | 20 => ([0, 1, 2, 3, 5, 7], [3, 7])
  | 21 => ([3, 5, 6, 7], [6, 7])
  | 22 | 23 => ([3, 5, 6], [3, 6])
  | 24 => ([0, 1, 2, 3, 5, 6], [3, 6])
  | 25 => ([3, 5, 6, 7], [3, 6, 7])
  | 26 | 27 => ([0, 1, 2, 3, 5, 6], [3, 6])
  | 28 => ([3, 4, 5], [3, 4])
  | 29 | 30 => ([3, 5, 6], [3, 6])
  | 31 => ([0, 3, 5], [3])
  | _ => ([], [])

/-! ## The decision, 15 R410 to R412 -/

/-- Rights that an access needs: 0 R, 1 W, 2 X. -/
def needs (kind : Nat) : List Nat :=
  match kind with
  | 0 | 3 => [0]
  | 1 | 4 => [1]
  | 2 => [0, 1]
  | _ => [2]

/-- The access writes. -/
def txnWrites (t : Txn) : Bool := t.kind.val = 1 || t.kind.val = 2 || t.kind.val = 4

/-- TASK of a transaction: the lane copy's current task (15 R408). -/
def State.txnTask (s : State) (t : Txn) : Nat := ((s.laneAt t.lane.val).copy t.copy).curTask

/-- SPLIT of a transaction: the lane runs split (15 R408). -/
def State.txnSplit (s : State) (t : Txn) : Bool := t.cls.val < 3 && (s.laneAt t.lane.val).split

/-- The transaction comes from the mirror engine. -/
def txnMirror (t : Txn) : Bool := t.cls.val = 7 && t.engine = 1

/-- The region gives the requester a right. -/
def State.regionAllows (s : State) (r : Rgn) (t : Txn) (k : Nat) : Bool :=
  let c := t.cls.val
  (r.right c k || (c = 3 && k = 1 && r.loadw && s.wb.load)) &&
  (2 < c || r.scope.getLsbD t.lane.val) && (c ≠ 1 && c ≠ 2 || r.scope.getLsbD (32 + s.txnTask t))

/-! ## What the firmware's own regions hold, 15 R415 -/

/-- Ranges of shared SRAM or DRAM that the content and the declarations of an image take up. -/
def takenBy (b : AppBody) : List (Nat × Nat) :=
  b.tasks.map (fun t => (t.stackAddr, t.stackAddr + t.stackSize)) ++ (b.code ++ b.data).map (fun x => (x.addr, x.addr + x.bytes.length)) ++
    (b.mirror ++ b.retained).map (fun r => (r.base, r.base + 4096 * r.pages)) ++ b.forceable.map (fun v => (v.addr, v.addr + 2)) ++ b.cacheable

/-- The 32 KiB pieces of shared SRAM below the publication block in which the firmware lays the input copies. -/
def copySlots : Nat := 248

/-- The piece that the firmware takes for a copy: from a free choice on, the first that no other copy and no content of the image takes. -/
def copySlot (b : AppBody) (used : List Nat) (from_ : Nat) : Nat :=
  let free (k : Nat) : Bool := !used.contains k &&
    !((takenBy b).any fun r => r.1 < 0x01000000 + 0x8000 * (k + 1) && 0x01000000 + 0x8000 * k < r.2)
  (((List.range copySlots).map fun i => (from_ + i) % copySlots).find? free).getD (from_ % copySlots)

/-- The pieces of the tasks of an image that have input ranges, by task number: the copies are private (02 R44). -/
def copyPlaces (b : AppBody) : List (Nat × Nat) :=
  (b.tasks.filter fun t => t.inputs ≠ []).foldl
    (fun l t => l ++ [(t.num, copySlot b (l.map (·.2)) (Config.incopyAddr t.num).toNat)]) []

/-- Place of a task's input copy, chosen by the firmware (02 R44; the choice is free: log entry 3). -/
def State.incopyAt (s : State) (t : Nat) : Nat :=
  0x01000000 + 0x8000 * ((s.chg.running.bind fun i => alook t (copyPlaces i.body)).getD 0)

/-- The bytes of an input copy: the values, a bit for a digital point and 16 for a word, and then the qualities, in the order of the
declared ranges: its declared size (02 R44 gives no layout: DESIGN CHOICE, log entry 3). -/
def incopyBytes (l : List PtVal) : List Byte :=
  packBits (l.flatMap (fun p => if ptDigital p.point then [p.value.getLsbD 0] else (List.range 16).map p.value.getLsbD) ++
    l.flatMap fun p => [p.qual.getLsbD 0, p.qual.getLsbD 1])

/-- The task whose input copy holds an address. -/
def State.incopyOf (s : State) (a : Nat) : Option TaskCfg :=
  s.tasks.find? fun t =>
    s.incopyAt t.num ≤ a && a < s.incopyAt t.num + (incopyBytes (s.taskAt t.num).incopy).length

/-- The address lies in the mirror content, the snapshot among it (11 R288, R296). -/
def State.mirrorContent (s : State) (a : Nat) : Bool := mirrored s.chg.running a || (snapBlock ≤ a && a < substBlock)

/-- The highest-numbered region of the application image that holds an address (15 R415). -/
def Wb.findImage (w : Wb) (a : Nat) : Option Rgn :=
  (((List.range 40).reverse.filter (8 ≤ ·)).find? fun i => (w.rgn.toList.getD i {}).holds a).map fun i => w.rgn.toList.getD i {}

/-- The image's regions give the requester a right (15 R416). -/
def State.imageAllows (s : State) (t : Txn) (k a : Nat) : Bool := (s.wb.findImage a).any fun r => s.regionAllows r t k

/-- What the firmware's regions say on a right (0 R, 1 W, 2 X) of a requester to an address, where 04 R93, R101, 02 R44, 09 R219,
R220, 11 R290, R296 and 21 R530 fix it: grant or refuse; the values of the output image follow the image's regions (15 R416, R417); none
where the rest of the table decides. In a standby the mirror engine alone writes mirror content (11 R296, 09 R249). -/
def State.firmwareSays (s : State) (t : Txn) (k a : Nat) : Option Bool :=
  let c := t.cls.val
  let task := c < 3
  let mir := c = 7 && t.engine = 1
  let trk := c = 7 && t.engine = 0
  let reader := task || c = 6 || c = 3 || mir
  let inside (lo hi : Nat) : Bool := lo ≤ a && a < hi
  if k = 1 && s.wbStandby && s.mirrorContent a then some mir
  else if inside inView hidden then some (k = 0 && reader)
  else if inside hidden outImage then some (c = 6 && k ≠ 2)
  else if inside outImage 0x02090000 then some ((k = 0 && reader) || (k ≠ 2 && s.imageAllows t k a))
  else if inside 0x02090000 snapBlock then some ((k = 0 && reader) || (k = 1 && c = 6))
  else if inside snapBlock substBlock then some ((k = 0 && (c = 6 || c = 3 || mir)) || (k = 1 && c = 6))
  else if inside substBlock forceBlock then some ((k = 0 && c = 6) || (k = 1 && c = 3))
  else if inside forceBlock (forceBlock + blockLen) then some ((k = 0 && (c = 6 || trk || c = 3 || mir)) || (k = 1 && c = 3))
  else if inside (forceBlock + blockLen) 0x02200000 then some false
  else if inside 0x0170820000 0x0170C00000 || inside 0x0171000000 0x017C000000 then some false
  else if inside 0x0160000000 0x017C000000 then
    let config := inside 0x0170000000 0x0170400000 || inside 0x0170600000 0x0170820000
    some ((k = 0 && (task || c = 3 || mir)) || (k ≠ 2 && trk) || (k = 1 && c = 3 && config && s.wb.load))
  else if inside 0x015C000000 0x0160000000 then some (mir && k ≠ 2)
  else if inside 0x017C000000 0x0180000000 then some ((trk && k ≠ 2) || (c = 3 && k = 0))
  else if inside 0x017C0000 0x01800000 then some ((c = 4 && k = 0) || (c = 3 && k ≠ 2))
  else match s.incopyOf a with
    | some x => some ((k = 0 && c = x.cls) || (k = 1 && c = 6))
    | none => none

/-- The fixed rules in their order (15 R412) on a byte address: the first that refuses, 0 for none. -/
def State.fixedRule (s : State) (t : Txn) (a : Nat) : Nat :=
  let sl := slotOf a
  let rg := (s.wb.find a).map fun i => s.wb.rgn.toList.getD i {}
  if !(inRom a || inSram a || inImage a || inDram a || sl.isSome) then 1
  else if (match sl with | some n => decide (32 ≤ n) | none => false) then 2
  else if sl = some 8 && txnWrites t && t.cls.val ≠ 3 then 3
  else if t.cls.val < 3 && (match sl with | some n => decide (12 ≤ n ∧ n ≤ 19 ∧ n ≠ 12 + t.lane.val) | none => false) then 4
  else if (inMirrorStaging a && !txnMirror t) ||
      (inSnapStaging a && !(t.cls.val = 7 && t.engine = 0) && !(t.cls.val = 3 && !txnWrites t)) then 5
  else if s.txnSplit t && txnWrites t &&
      (inImage a || inTracking a || sl = some 20 || sl = some 22 || sl = some 26 || sl = some 27 ||
        (match rg with | some r => r.nosplit | none => false)) then 6
  else if txnWrites t && s.wb.armed && (s.mirrorContent a || (s.wb.findImage a).any (·.mirror)) && (s.wbStandby != txnMirror t) then 7
  else if t.cls.val = 5 && (match rg with | some r => r.conf | none => false) then 8
  else 0

/-- The grants to MGT while ARMED is clear, 15 R414. -/
def unarmed (t : Txn) (a : Nat) : Bool :=
  t.cls.val = 3 && (needs t.kind.val).all fun k =>
    (inRom a && k ≠ 1) || inSram a || (inDram a && k ≠ 2)

/-- Number of the protective region that the firmware lays over a page; which one is free (15 R415; log entry 3). -/
def protectiveRgn (a : Nat) : Nat := 40 + Config.protective (a / 4096) % 24

/-- The REGION that a record shows: the protective or the application's region that holds the page, or the fall-back of its slot, 0xFF where
there is neither (15 R411, R424). -/
def State.shownRgn (s : State) (t : Txn) (a : Nat) : Nat :=
  if s.wb.armed && !(outImage ≤ a && a < 0x02090000) && (s.firmwareSays t 0 a).isSome then protectiveRgn a
  else match s.wb.find a with
    | some i => i
    | none => match slotOf a with
      | some n => if n < 32 then 0x40 + n else 0xFF
      | none => 0xFF

/-- The decision on one page: none passes, else REASON and REGION (15 R411, R424). -/
def State.decide_ (s : State) (t : Txn) (a : Nat) : Option (Nat × Nat) :=
  let shown := s.shownRgn t a
  let f := s.fixedRule t a
  if f ≠ 0 then some (f, shown)
  else if !s.wb.armed && unarmed t a then none
  else
    let verdict (k : Nat) : Option Bool := if s.wb.armed then s.firmwareSays t k a else none
    let ks := (needs t.kind.val).filter fun k => verdict k ≠ some true
    if ks.any fun k => verdict k = some false then some (9, protectiveRgn a)
    else if ks = [] then none
    else match s.wb.find a with
      | some i => if ks.all (s.regionAllows (s.wb.rgn.toList.getD i {}) t) then none else some (9, i)
      | none => match slotOf a with
        | some n =>
          if ks.all fun k => k ≠ 2 && (if k = 0 then (fallback n).1 else (fallback n).2).contains t.cls.val
          then none else some (10, 0x40 + n)
        | none => some (12, 0xFF)

/-- The pages that an access touches: the first byte touched in each. -/
def pagesOf (a size : Nat) : List Nat :=
  let n := (a + max size 1 - 1) / 4096 - a / 4096
  a :: (List.range n).map fun i => (a / 4096 + 1 + i) * 4096

/-- The first page that refuses: REASON, REGION, address, and whether an earlier page passed. -/
def State.refusal (s : State) (t : Txn) : Option (Nat × Nat × Nat × Bool) :=
  (pagesOf t.addr t.size).findSome? fun a => (s.decide_ t a).map fun r => (r.1, r.2, a, a ≠ t.addr)

/-! ## Reports, 15 R423, R424 -/

/-- The refusal is precise: every one but that of a posted write of MGT, HOST or DBG (15 R423). -/
def precise (t : Txn) : Bool := !(t.posted && t.kind.val = 1 && 3 ≤ t.cls.val && t.cls.val ≤ 5)

/-- The payload of WB_VIOLATION after the header. -/
def State.violationPay (s : State) (t : Txn) (reason region addr : Nat) (straddle : Bool) : List Byte :=
  let precise := precise t
  let ms := t.cls.val < 3
  let split := (s.laneAt t.lane.val).split
  le 1 t.cls.val ++ le 1 t.kind.val ++ le 1 reason ++
    le 1 (bitIf precise 0 + bitIf straddle 1 + bitIf (t.cls.val = 7 && t.engine = 1) 2) ++
    le 1 (if ms then t.lane.val else 0xFF) ++ le 1 (if ms then s.txnTask t else 0xFF) ++
    le 1 (if ms then (if split then t.copy.num else 2) else 0xFF) ++ le 1 region ++
    le 8 (if precise then addr else 0) ++ le 2 (if precise then t.size else 0) ++
    le 2 (if precise then 1 else t.merged) ++ le 4 0

/-- Record and count a refusal; one by rule 8, and of a debug write to Windbreak control, writes DEBUG_REFUSED (15 R423, 14 R404). -/
def State.violate (s : State) (t : Txn) (reason region addr : Nat) (straddle : Bool) : State :=
  let w := s.wb
  let w := if !precise t then { w with imprecise := satAdd 32 w.imprecise 1 }
    else { w with precise := satAdd 32 w.precise 1
                  last := BitVec.ofNat 64 (addr % 2 ^ 40 + (if region < 0x7F then region else 0x7F) * 2 ^ 40 +
                    t.cls.val * 2 ^ 47 + reason * 2 ^ 50) }
  let s' : State := { s with wb := w }
  if reason = 8 || (reason = 3 && t.cls.val = 5) then s'.record 0x0C03 (srcOf 11 0) [addr]
  else s'.recordBy 0x0D00 (srcOf 12 0) (s.violationPay t reason region addr straddle) 0 false

/-- The run of bytes lies in one memory of the map (01 R24). -/
def inMemory (a k : Nat) : Bool :=
  k = 0 || (inSram a && inSram (a + k - 1)) || (inImage a && inImage (a + k - 1)) || (inDram a && inDram (a + k - 1))

/-- A write of a class that works without a command's transaction, MGT laying out an image or the mirror engine: outside the map it is
denied as to every requester (01 R24). -/
def State.storeIn (s : State) (cls : Fin 8) (engine a : Nat) (bs : List Byte) : State :=
  if inMemory a bs.length then s.store a bs
  else s.violate { cls := cls, kind := 1, addr := a, size := bs.length, engine := engine, posted := true } 1 0xFF a false

/-! ## Filling and updating the table, 15 R414 to R421 -/

/-- The region of an entry of section 0x05, 15 R416. -/
def entryRgn (b : AppBody) (confid : Bool) (e : WbEntry) : Rgn :=
  let forced := b.forceable.any fun v => e.base ≤ v.addr && v.addr < e.lim
  let keep := b.retained.any fun r => e.base < r.base + 4096 * r.pages && r.base < e.lim
  let mir := e.meets 0x02080000 0x020C0000 || e.meets 0x02100000 0x021C0000 || e.meets 0x0160000000 0x017C000000 ||
    (if b.mirrorFull then
       e.meets 0x01000000 0x017C0000 || e.meets 0x021C0000 0x02200000 ||
         ((e.base :: 0x0080000000 :: b.edges).any fun a => e.base ≤ a && a < e.lim && b.follows a)
     else b.mirror.any fun r => e.base < r.base + 4096 * r.pages && r.base < e.lim)
  { addr := e.addr
    perm := BitVec.ofNat 64 (e.perm.toNat % 512 + 2 ^ 9 + (if confid then 0 else 2 ^ 15 + 2 ^ 16) +
      (if forced then 2 ^ 19 else 0) + 2 ^ 21)
    scope := BitVec.ofNat 64 (e.lanes.toNat + bitIf keep 8 + bitIf mir 9 + 2 ^ 10 + bitIf confid 11 + e.tasks.toNat * 2 ^ 32) }

/-- A region register as it is held: the reserved bits of 15 R426 read zero and ignore writes (00 R11). -/
def rgnHeld (reg : Nat) (v : Word) : Word :=
  match reg with
  | 0 => v &&& 0x800000FFFFFFF03F
  | 1 => v &&& 0xFFFFFF
  | _ => v &&& 0xFFFFFFFF00000FFF

/-- The table that the firmware writes: its own bands, and entry i of the image at region 8 + i (15 R415; log entry 3). -/
def tableOf (img : Option AppImage) : Vector Rgn 64 :=
  Vector.ofFn fun i =>
    let fw : Rgn := let r := Config.firmwareRegion i.val; { addr := rgnHeld 0 r.1, perm := rgnHeld 1 r.2.1, scope := rgnHeld 2 r.2.2 }
    if i.val < 8 || 40 ≤ i.val then fw
    else match img with
      | some a => match a.body.wb[i.val - 8]? with
        | some e => entryRgn a.body (a.hdr.iflags.getLsbD 0) e
        | none => {}
      | none => {}

/-- The next instant in network time at which MGT may set UPDATE: now, or behind the input close or output cut-off that is nearer than
10 µs (15 R420, 01 R15). -/
def State.updateInstant (s : State) : Nat :=
  match s.net.cfg with
  | some c =>
    let evs := (List.range 3).flatMap fun i => [s.startOf (s.cyc.n + i) + c.i, s.startOf (s.cyc.n + i) + c.o]
    let clear (t : Nat) : Bool := evs.all fun e => e ≤ t || t + 10000 ≤ e
    if s.cyc.running then ((s.netTime :: evs.filter (s.netTime ≤ ·)).find? clear).getD s.netTime else s.netTime
  | none => s.netTime

/-- One update that completes, begun at an instant that R420 allows: the new table applies (15 R419); how long its hold lasted, at most the
8 µs of R421, is free (log entry 3). -/
def State.loadTable (s : State) (img : Option AppImage) : State :=
  let (k, s) := (s.reachNet s.updateInstant).drawNat
  { s with wb := { s.wb with rgn := tableOf img, armed := true, updates := min 65535 (s.wb.updates + 1), lastHold := k % 8001 } }

/-- MGT sets UPDATE only when, with the network running, the next input close and the next output cut-off lie at least 10 µs ahead
(15 R420, 01 R15). -/
def State.updateTime (s : State) : Bool :=
  match s.net.cfg with
  | some c =>
    let next (at_ : Nat) (done : Option Nat) : Nat := s.cycleStart + at_ + (if done = some s.cyc.n then c.t else 0)
    !s.cyc.running || (s.netTime + 10000 ≤ next c.i s.cyc.commitN && s.netTime + 10000 ≤ next c.o s.cyc.snapN)
  | none => true

/-- WB_UPDATE_SET: the table goes to its shadow and the gate closes. -/
def State.updateSet (s : State) : State :=
  if s.wb.update || !s.updateTime then s
  else { s with wb := { s.wb with update := true, held := true, shadow := s.wb.rgn, since := s.clk.now } }

/-- WB_UPDATE_SET. -/
def execWbUpdateSet (s : State) : Host.Outcome State Fault Refusal := .next s.updateSet

/-- LOAD set by a write of a value to WB_CTRL: accepted during an update only. -/
def State.loadSet (s : State) (v : Nat) : State :=
  if s.wb.update then { s with wb := { s.wb with load := true } } else s.setupError 0x0000 v

/-- WB_LOAD_SET. -/
def execWbLoadSet (s : State) : Host.Outcome State Fault Refusal := .next (s.loadSet 2)

/-- Reserved encodings of WB_RGN_ADDR: a region in use with an exponent outside 12 to 40 or a base off its size (15 R409, R426). That
an address register with VALID clear may hold any exponent is a DESIGN CHOICE (log entry 70). -/
def rgnBad (reg : Nat) (v : Word) : Bool :=
  reg = 0 && v.getLsbD 63 && ((v &&& 0x3F).toNat < 12 || 40 < (v &&& 0x3F).toNat ||
    (v &&& 0xFFFFFFF000).toNat % 2 ^ (v &&& 0x3F).toNat ≠ 0)

/-- A region register write: ignored with a setup-error record while UPDATE or HELD is clear, ignored after an abort. -/
def State.rgnWrite (s : State) (r : Fin 64) (reg : Nat) (v : Word) : State :=
  let ofs := 0x1000 + 0x20 * r.val + 8 * reg
  if s.wb.aborted then s
  else if !(s.wb.update && s.wb.held) || rgnBad reg v then s.setupError ofs v.toNat
  else
    let g := s.wb.rgn[r]
    let g := match reg with
      | 0 => { g with addr := rgnHeld 0 v }
      | 1 => { g with perm := rgnHeld 1 v }
      | _ => { g with scope := rgnHeld 2 v }
    { s with wb := { s.wb with rgn := s.wb.rgn.set r.val g } }

/-- WB_RGN_WRITE. -/
def execWbRgnWrite (r : Fin 64) (reg : Fin 3) (v : Word) (s : State) : Host.Outcome State Fault Refusal :=
  .next (s.rgnWrite r reg.val v)

/-- WB_ABORTED_CLEAR: writing 1 clears ABORTED. -/
def execWbAbortedClear (s : State) : Host.Outcome State Fault Refusal :=
  .next { s with wb := { s.wb with aborted := false } }

end Sys2Proof.Machine
end

