-- ==== Sys2Proof/Machine/ImageCheck.lean ====
section
/-! DEFINITION. The checks on images: headers (12 R311, R325, R330), content (02 R37, R38, R49, R53, 04 R102, R110, 09 R251, 11 R289,
12 R313, 15 R417, 18 R478), deltas and their migration rules (04 R119, 12 R319, R320). -/

namespace Sys2Proof.Machine
open Sys2Proof

/-! ## Headers -/

/-- Reserved fields, and those of a KIND or of a confidential image that the header is none of, are zero (12 R310). -/
def hdrZeros (h : ImgHdr) : Bool :=
  h.rsvd12 = 0 && h.rsvd40 = 0 && h.rsvd380 = 0 && h.rsvd400 = 0 && h.iflags.toNat / 2 = 0 && (h.kind ≠ 1 || h.iflags = 0) &&
    (h.kind = 1 || h.settingsFmt = 0) && (h.kind = 3 || h.baseDigest = 0) &&
    (h.iflags.getLsbD 0 || (h.ephKey = 0 && h.nonce = 0 && h.tag = 0))

/-- Own fields of a header for a KIND that a command takes; `length` is that of the buffer (12 R310, R311). -/
def hdrFits (h : ImgHdr) (kind length : Nat) : Bool :=
  h.magic = 0x4B4C594E && h.hdrVersion = 1 && h.kind = kind && hdrZeros h && length = h.bodyLength + 512

/-- The signer is one that may sign the KIND, 12 R311. -/
def State.signerOk (s : State) (h : ImgHdr) : Bool :=
  if h.kind = 1 then s.keys.vendor.contains h.signer else s.keys.integ.toList.contains (some h.signer)

/-- The header checks in their order but the last: the status of the first that fails, with its DETAIL (12 R311). -/
def State.hdrCheckAny (s : State) (i : AppImage) (kind length : Nat) : Option (Nat × Nat) :=
  let h := i.hdr
  if !hdrFits h kind length then some (stInvalid, dContent)
  else if h.hwType ≠ 0x7240 || !h.hwRevMask.getLsbD s.keys.hwRev then some (stDenied, dNone)
  else if h.unitSerial ≠ 0 && h.unitSerial ≠ s.keys.serial then some (stDenied, dNone)
  else if !s.signerOk h then some (stDenied, dNone)
  else if !i.sigOk then some (stDenied, dNone)
  else if h.rollback < (if kind = 1 then s.chg.fwFloor else s.chg.appFloor) then some (stDenied, dNone)
  else none

/-- The header checks, with that of a delta's base (12 R311). -/
def State.hdrCheck (s : State) (i : AppImage) (kind length : Nat) : Option (Nat × Nat) :=
  match s.hdrCheckAny i kind length with
  | some e => some e
  | none =>
    if kind = 3 && (s.chg.running.map (·.hdr.resultDigest)) ≠ some i.hdr.baseDigest then some (stInvalid, dContent) else none

/-- The header checks on an image that the partner passes, whose length is that of its body (12 R316, R317, R325). -/
def State.passedCheck (s : State) (i : AppImage) : Option (Nat × Nat) := s.hdrCheck i i.hdr.kind (i.hdr.bodyLength + 512)

/-- The ACTIVE firmware's generation. -/
def State.activeGen (s : State) : Nat :=
  match s.chg.fw.toList.find? (·.st = .active) with
  | some f => (f.hdr.map (·.gen)).getD 0
  | none => 0

/-- A TRIAL firmware slot exists in either module: the partner's shows in its last report, or by a handover under way (log entry 16). -/
def State.anyTrial (s : State) : Bool := s.ownTrial || 0 < s.chg.handover || s.chg.partner.any (·.trial)

/-! ## Limits of the content -/

/-- The input publication block, 21 R530. -/
def pubArea : Nat × Nat := (0x017C0000, 0x01800000)

/-- No number twice. -/
def uniq : List Nat → Bool
  | [] => true
  | x :: l => !l.contains x && uniq l

/-- [a, b) and [c, d) meet. -/
def meets (x y : Nat × Nat) : Bool := x.1 < y.2 && y.1 < x.2

/-- No two ranges of a list meet; empty ranges meet none. -/
def apart : List (Nat × Nat) → Bool
  | [] => true
  | x :: l => (l.all fun y => !(meets x y && x.1 < x.2 && y.1 < y.2)) && apart l

/-- [a, b) lies within shared SRAM or within DRAM. -/
def inRam (x : Nat × Nat) : Bool :=
  (0x01000000 ≤ x.1 && x.2 ≤ 0x01800000) || (0x0080000000 ≤ x.1 && x.2 ≤ 0x0180000000)

/-- The tracking area with the staging above it, and the mirror staging below it (01 R24, 09 R219, 11 R290). -/
def trackArea : Nat × Nat := (0x0160000000, 0x0180000000)
def mirrorArea : Nat × Nat := (0x015C000000, 0x0160000000)
/-- The recorder ring, 16 R427. -/
def ringArea : Nat × Nat := (0x0158000000, 0x015C000000)

/-- A task of the table keeps its limits, 02 R38, R49. -/
def taskOk (b : AppBody) (t : TaskCfg) : Bool :=
  t.num < 32 && t.prio < 32 && t.lane < 8 && (t.split = b.laneSplit t.lane) &&
  (t.kind ≠ .cyclic && t.kind ≠ .mark || (t.e ≤ 6 && t.phase < 2 ^ t.e)) &&
  (t.kind ≠ .mark || (t.mark < 16 && b.marks.any (·.1 = t.mark))) &&
  (t.kind ≠ .event || (match t.source with
    | .window a => decide (a < 256)
    | .local c e => decide (c < 16 ∧ 1 ≤ e ∧ e ≤ 3)
    | .host h => decide (h < 16))) &&
  (t.kind ≠ .error || (t.category < 7 && !b.laneSplit t.lane)) &&
  t.inputs.length ≤ 8 && t.copyBits ≤ 32 * 8192 &&
  4096 ≤ t.stackSize && t.stackSize ≤ 262144 && inRam (t.stackAddr, t.stackAddr + t.stackSize) &&
  (t.cls = 1 || t.cls = 2)

/-- The task table and the marks, 02 R37, R38. -/
def tasksOk (b : AppBody) : Bool :=
  b.tasks.length ≤ 32 && uniq (b.tasks.map (·.num)) && uniq ((b.tasks.filter (·.kind ≠ .background)).map (·.prio)) &&
  b.tasks.countP (·.kind = .background) ≤ 1 && uniq ((b.tasks.filter (·.kind = .error)).map (·.category)) &&
  b.tasks.all (taskOk b) && b.marks.all (·.1 < 16) && uniq (b.marks.map (·.1)) && uniq (b.marks.map (·.2))

/-- Mirror regions, 11 R289; none counts in full follow. -/
def mirrorOk (b : AppBody) : Bool :=
  let span (r : Region) : Nat × Nat := (r.base, r.base + 4096 * r.pages)
  b.mirrorFull ||
  (b.mirror.length ≤ 32 &&
   b.mirror.all (fun r => r.base % 4096 = 0 && r.base < 2 ^ 40 && 1 ≤ r.pages && r.pages ≤ 131072 && r.rsvd = 0 && inRam (span r) &&
     !meets (span r) (0x0160000000, 0x017C000000) && !meets (span r) mirrorArea) &&
   apart (b.mirror.map span) && b.mirror.foldl (fun a r => a + r.pages) 0 ≤ 131072)

/-- Retained regions, 18 R478. -/
def retainedOk (b : AppBody) : Bool :=
  let span (r : Region) : Nat × Nat := (r.base, r.base + 4096 * r.pages)
  b.retained.length ≤ 8 &&
  b.retained.all (fun r => r.base % 4096 = 0 && r.base < 2 ^ 40 && 1 ≤ r.pages && r.pages ≤ 131072 && r.rsvd = 0 && inRam (span r) &&
    !meets (span r) trackArea && !meets (span r) mirrorArea && !meets (span r) ringArea) &&
  apart (b.retained.map span) && b.retained.foldl (fun a r => a + r.pages) 0 ≤ 4096

/-- [a, b) lies within the union of ranges. -/
def within (rs : List (Nat × Nat)) (x : Nat × Nat) : Nat → Bool
  | 0 => x.2 ≤ x.1
  | k + 1 =>
    x.2 ≤ x.1 || (match rs.find? fun r => r.1 ≤ x.1 && x.1 < r.2 with
      | some r => within rs (r.2, x.2) k
      | none => false)

/-- Where an image region may grant W, 15 R417. -/
def wbWrite : List (Nat × Nat) :=
  [(0x01000000, 0x01800000), (0x0080000000, 0x0180000000), (0x02080000, 0x02090000), (0x10148000, 0x10149000),
   (0x10168000, 0x10169000), (0x101A0000, 0x101A1000), (0x101B0000, 0x101B1000)]

/-- An entry of section 0x05, 15 R409, R416, R417. -/
def wbOk (e : WbEntry) : Bool :=
  let n := e.sizeExp
  let x := (e.base, e.lim)
  let w := e.right 0 1 || e.right 1 1 || e.right 2 1
  let ex := e.right 0 2 || e.right 1 2 || e.right 2 2
  let any := e.perm.toNat % 512 ≠ 0
  e.addr.getLsbD 63 && (e.addr &&& 0x7FFFFF0000000FC0) = 0 && 12 ≤ n && n ≤ 40 && e.base % 2 ^ n = 0 &&
  e.perm.toNat < 512 && e.rsvd = 0 &&
  (!w || within wbWrite x 8) && (!ex || inRam x) &&
  !((w || ex) && meets x trackArea) && !(any && meets x mirrorArea) && !(any && meets x (0x017C000000, 0x0180000000)) &&
  !(any && (meets x (0x10000000, 0x100C0000) || meets x (0x100C0000, 0x10140000) || meets x (0x101C0000, 0x101F0000) ||
    meets x (0x101F0000, 0x10200000)))

/-- Windbreak regions. -/
def wbsOk (b : AppBody) : Bool := b.wb.length ≤ 32 && b.wb.all wbOk

/-- The recorder ring, the mirror staging and the publication block hold no stack, content, region or section 0x05 entry of an image
(16 R427, 11 R290, 21 R530). -/
def placesOk (b : AppBody) : Bool :=
  let span (r : Region) : Nat × Nat := (r.base, r.base + 4096 * r.pages)
  let run (x : Span) : Nat × Nat := (x.addr, x.addr + x.bytes.length)
  let all := b.tasks.map (fun t => (t.stackAddr, t.stackAddr + t.stackSize)) ++ b.code.map run ++ b.data.map run ++
    (if b.mirrorFull then [] else b.mirror.map span) ++ b.retained.map span ++ b.wb.map fun e => (e.base, e.lim)
  all.all fun x => !meets x ringArea && !meets x mirrorArea && !meets x pubArea

/-- A point address of an image against the station map that the module holds; with none held every network index lies outside it (04
R97). -/
def imgPoint (c : Option NetCfg) (p : Point) : Bool := ptStn p ≠ internalCode && pointR97 c p

/-- The point addresses of the input ranges, the safe and the substitute values. -/
def pointsOk (c : Option NetCfg) (b : AppBody) : Bool :=
  b.tasks.all (fun t => t.inputs.all fun r => !ptOutput r.1 && imgPoint c r.1 && (r.2 = 0 ||
    (ptIdx r.1 + r.2 ≤ 65536 && imgPoint c (r.1 + BitVec.ofNat 32 (r.2 - 1))))) &&
  b.safe.all (fun x => ptOutput x.point && imgPoint c x.point) && b.subst.all (fun x => !ptOutput x.point && imgPoint c x.point)

/-- Safe and substitute values: no mode 3 (02 R53, 04 R102). -/
def modesOk (b : AppBody) : Bool := b.safe.all (·.mode ≠ 3) && b.subst.all (·.mode ≠ 3)

/-- Forceable variables: 1 or 16 bits, in no cacheable region (04 R98, R110). -/
def varsOk (b : AppBody) : Bool :=
  b.forceable.all fun v => (v.width = 1 || v.width = 16) &&
    !b.cacheable.any fun r => meets r (v.addr, v.addr + if v.width = 1 then 1 else 2)

/-! ## Tracking configuration, 09 R251 -/

/-- Fields of a source record in range. -/
def srcOk (x : Nat × SrcCfg) : Bool := x.1 < 4096 && x.2.station < 1024 && x.2.input < 8

/-- Fields of a segment configuration record in range. -/
def segOk (x : Nat × SegCfg) : Bool :=
  let g := x.2
  x.1 < 16384 && 1 ≤ wval g.length && wval g.length ≤ 4294967295 && g.scale ≠ 0 &&
  -(2 ^ 31) ≤ g.scale && g.scale < 2 ^ 31 && g.source < 4096 && g.velShift ≤ 8 && 1 ≤ g.velMin && g.velMin ≤ 100000000 &&
  1 ≤ g.velZeroUs && g.velZeroUs ≤ 65535 && g.winCount ≤ 1024 && g.winFirst + g.winCount ≤ 131072 && g.hoCount ≤ 16 &&
  g.hoFirst + g.hoCount ≤ 65536 && g.rsvd = 0

/-- Fields of a window record in range, END above START, TRIG not below it. -/
def winOk (x : Nat × WinCfg) : Bool :=
  let w := x.2
  x.1 < 131072 && w.start < w.stop && w.start ≤ w.trig && w.stop < 2 ^ 32 && w.trig < 2 ^ 32 && w.action ≤ 3 && w.actNum < 256 &&
  w.wflags.toNat / 4 = 0 && w.leadUs < 65536 && w.offDist < 65536

/-- Fields of a handover entry in range. -/
def hoOk (x : Nat × HoCfg) : Bool :=
  x.1 < 65536 && (x.2.toSeg < 16384 || x.2.toSeg = 0xFFFF) && x.2.hflags.toNat / 2 = 0 && x.2.entryPos < 2 ^ 32 && x.2.actNum < 256 &&
  x.2.rsvd = 0

/-- START of a list of windows does not decrease. -/
def rising : List Nat → Bool
  | x :: y :: l => x ≤ y && rising (y :: l)
  | _ => true

/-- The windows of a segment are configured and in order. -/
def segWins (b : AppBody) (g : SegCfg) : Bool :=
  let ws := (List.range g.winCount).map fun i => alook (g.winFirst + i) b.wins
  ws.all (·.isSome) && rising (ws.filterMap fun w => w.map (·.start))

/-- The point of an ACTUATE window against a configuration: a configured DO point or a local output channel. -/
def actPointOk (c : NetCfg) (p : Point) : Bool :=
  ptKind p = 1 && ptRsvd p = 0 &&
  (if ptStn p = localCode then ((c.lio[ptIdx p]?).map (·.mode)) = some 2
   else ptStn p < 1024 && (posOf (some c) p).isSome)

/-- The configuration that the point check uses: in force, else held next, else stored. -/
def State.pointCfg (s : State) : Option NetCfg :=
  if s.cyc.started then s.net.cfg else s.net.next.orElse fun _ => s.net.stored

/-- What 04 R97 asks of an ACTUATE window's point while no configuration is held: the point check of 09 R251 is not made, whether a network
point lies within a map or a local channel is an output. -/
def heldPoint (p : Point) : Bool := ptRsvd p = 0 && (ptStn p < 1024 || (ptStn p = localCode && (posOf none p).isSome))

/-- A segment is enabled in the image. -/
def enabledIn (b : AppBody) (n : Nat) : Bool := (alook n b.segs).any (·.enabled)

/-- The tracking configuration keeps 09 R251. -/
def State.trkOk (s : State) (b : AppBody) : Bool :=
  b.srcs.all srcOk && b.segs.all segOk && b.wins.all winOk && b.hos.all hoOk &&
  uniq (b.srcs.map (·.1)) && uniq (b.segs.map (·.1)) && uniq (b.wins.map (·.1)) && uniq (b.hos.map (·.1)) &&
  b.segs.all (fun g => segWins b g.2) &&
  apart (b.segs.map fun g => (g.2.winFirst, g.2.winFirst + g.2.winCount)) &&
  apart (b.segs.map fun g => (g.2.hoFirst, g.2.hoFirst + g.2.hoCount)) &&
  (match s.pointCfg with
   | some c => b.wins.all fun w => !(w.2.action = 2 || w.2.action = 3) || actPointOk c w.2.point
   | none => b.wins.all fun w => !(w.2.action = 2 || w.2.action = 3) || heldPoint w.2.point) &&
  b.segs.all (fun g => !g.2.enabled || (alook g.2.source b.srcs).any (·.enabled)) &&
  b.hos.all (fun h => h.2.toSeg = 0xFFFF || enabledIn b h.2.toSeg) &&
  b.segs.all (fun g => (List.range g.2.hoCount).all fun i => (alook (g.2.hoFirst + i) b.hos).isSome || enabledIn b 0)

/-! ## A whole body -/

/-- The section table keeps 12 R313 within a body of a length. -/
def secsOk (b : AppBody) (len : Nat) : Bool :=
  1 ≤ b.secs.length && b.secs.length ≤ 64 && b.rsvd = 0 && !b.malformed && uniq (b.secs.map (·.stype)) &&
  8 + 16 * b.secs.length ≤ len &&
  b.secs.all fun x => ((1 ≤ x.stype && x.stype ≤ 11) || (16 ≤ x.stype && x.stype ≤ 18)) && x.rsvd2 = 0 && x.rsvd12 = 0 &&
    (if x.length = 0 then x.offset = 0 else x.offset + x.length ≤ len)

/-- A section type is carried. -/
def carries (b : AppBody) (t : Nat) : Bool := b.secs.any (·.stype = t)

/-- Sections of a full image: 0x01 to 0x0B, each present, none of a delta's (12 R313). -/
def fullPresent (b : AppBody) (len : Nat) : Bool :=
  secsOk b len && (List.range 11).all (fun i => carries b (i + 1)) && b.secs.all (·.stype ≤ 11)

/-- Sections of a delta: both rule tables among them. -/
def deltaPresent (b : AppBody) (len : Nat) : Bool := secsOk b len && carries b 16 && carries b 17

/-- Every rule that binds the content of an image. -/
def State.contentOk (s : State) (b : AppBody) : Bool :=
  tasksOk b && mirrorOk b && retainedOk b && wbsOk b && placesOk b && pointsOk s.pointCfg b && modesOk b && varsOk b &&
    s.trkOk b

/-! ## Deltas, 12 R313, R319, R320, 04 R119 -/

/-- The body that a delta makes of its base: each carried section replaces the base's whole. -/
def mergeBody (base d : AppBody) : AppBody :=
  let has (t : Nat) : Bool := carries d t
  { secs := base.secs.map fun x => (d.secs.find? fun y => y.stype = x.stype).getD x
    rsvd := d.rsvd, malformed := d.malformed
    tasks := if has 1 then d.tasks else base.tasks
    splitLanes := if has 2 then d.splitLanes else base.splitLanes
    marks := if has 2 then d.marks else base.marks
    code := if has 3 then d.code else base.code
    cacheable := if has 3 then d.cacheable else base.cacheable
    data := if has 4 then d.data else base.data
    wb := if has 5 then d.wb else base.wb
    mirrorFull := if has 6 then d.mirrorFull else base.mirrorFull
    mirror := if has 6 then d.mirror else base.mirror
    safe := if has 7 then d.safe else base.safe
    subst := if has 8 then d.subst else base.subst
    forceable := if has 9 then d.forceable else base.forceable
    srcs := if has 10 then d.srcs else base.srcs
    segs := if has 10 then d.segs else base.segs
    wins := if has 10 then d.wins else base.wins
    hos := if has 10 then d.hos else base.hos
    retained := if has 11 then d.retained else base.retained
    fwd := d.fwd, back := d.back, release := d.release }

/-- The body of a full image that a delta has made, apart from what only the delta carries. -/
def fullBody (b : AppBody) : AppBody := { b with fwd := [], back := [], release := [] }

/-- The data regions of an image: its Windbreak regions in shared SRAM and DRAM that grant a write right (log entry 17). -/
def dataRegions (b : AppBody) : List (Nat × Nat) :=
  (b.wb.filter fun e => (e.right 0 1 || e.right 1 1 || e.right 2 1) && inRam (e.base, e.lim)).map fun e => (e.base, e.lim)

/-- Bytes that a rule writes. -/
def migBytes (r : MigRule) : Nat := if r.op = 3 || r.op = 4 then r.count * r.newW else r.count
/-- Bytes that a rule reads. -/
def migReads (r : MigRule) : Nat := if r.op = 3 || r.op = 4 then r.count * r.oldW else r.count
/-- The range a rule writes. -/
def migDst (r : MigRule) : Nat × Nat := (r.newAddr, r.newAddr + migBytes r)

/-- The bytes of the initialised data, in the section's order. -/
def dataBytes (b : AppBody) : List Byte := b.data.flatMap (·.bytes)

/-- A rule keeps the encoding of 12 R319 and the ranges of R320, from an old to a new image. -/
def ruleOk (old new_ : AppBody) (r : MigRule) : Bool :=
  let ext := r.op = 3 || r.op = 4
  1 ≤ r.op && r.op ≤ 5 && r.rsvd = 0 &&
  (if ext then (r.oldW = 1 || r.oldW = 2 || r.oldW = 4) && (r.newW = 2 || r.newW = 4 || r.newW = 8) && r.oldW < r.newW
   else r.oldW = 0 && r.newW = 0) &&
  (r.op = 2 || r.pattern = 0) && (r.op ≠ 2 || r.oldAddr = 0) &&
  (!(r.op = 1 || ext) || within (dataRegions old) (r.oldAddr, r.oldAddr + migReads r) 40) &&
  (r.op ≠ 5 || r.oldAddr + r.count ≤ (dataBytes new_).length) &&
  within (dataRegions new_) (migDst r) 40 && inRam (migDst r) && !meets (migDst r) trackArea && !meets (migDst r) mirrorArea

/-- M of 12 R320, in ns. -/
def migNs (rs : List MigRule) : Nat := 3000 + 250 * ((rs.foldl (fun a r => a + migBytes r) 0 + 1023) / 1024)

/-- A rule table as a whole. -/
def State.rulesOk (s : State) (old new_ : AppBody) (rs : List MigRule) : Bool :=
  1 ≤ rs.length && rs.length ≤ 4096 && rs.all (ruleOk old new_) && apart (rs.map migDst) &&
  (match s.net.cfg with
   | some c => migNs rs + 10000 ≤ c.t - c.o + c.i
   | none => true)

/-- Every forced internal point that the change deletes or relocates stands in the release list (04 R119). -/
def State.varsKept (s : State) (b : AppBody) : Bool :=
  s.img.force.all fun f =>
    ptStn f.point ≠ internalCode || sameVar s.vars b.forceable (ptIdx f.point) || b.release.contains f.point

/-- The checks on a delta over the running image; `b` is the merged body. -/
def State.deltaOk (s : State) (d b : AppBody) (len : Nat) : Bool :=
  match s.chg.running with
  | some i => deltaPresent d len && s.contentOk b && s.rulesOk i.body b b.fwd && s.rulesOk b i.body b.back && s.varsKept b &&
      b.release.all (pointR97 s.pointCfg)
  | none => false

/-- The image as it will run: a delta's header over the body that the delta makes of the running image. -/
def State.merged (s : State) (d : AppImage) : AppImage :=
  match d.hdr.kind, s.chg.running with
  | 3, some i => { d with body := mergeBody i.body d.body }
  | _, _ => d

/-- BODY_DIGEST and RESULT_DIGEST are those of the plaintext, 12 R310. -/
def State.digestsOk (s : State) (i : AppImage) : Bool :=
  let h := i.hdr
  if h.kind = 1 then h.bodyDigest = Config.sha512 i.raw && h.resultDigest = Config.sha512 i.raw
  else h.bodyDigest = Config.bodyDigest i.body &&
    h.resultDigest = Config.bodyDigest (if h.kind = 3 then fullBody (s.merged i).body else i.body)

/-- The content of an image keeps every rule that binds it. -/
def State.imageOk (s : State) (i : AppImage) : Bool :=
  if i.hdr.kind = 1 then true
  else if i.hdr.kind = 3 then s.deltaOk i.body (s.merged i).body i.hdr.bodyLength
  else fullPresent i.body i.hdr.bodyLength && s.contentOk i.body

/-- What staging finds: none where the image passes, else status and DETAIL (12 R311, R314). -/
def State.staging (s : State) (i : AppImage) : Option (Nat × Nat) :=
  if !s.tagOk i then some (stDenied, dNone)
  else if s.digestsOk i && s.imageOk i then none else some (stInvalid, dContent)

end Sys2Proof.Machine
end

