-- ==== Sys2Proof/Machine/Recorder.lean ====
section
/-! DEFINITION. Reading, exporting and clearing records, the gust table, the archive and the hold buffer: 16 R429 to R442. -/

namespace Sys2Proof.Machine
open Sys2Proof

/-- The store that STORE names. -/
def Recd.store (d : Recd) (st : Nat) : List Rec := if st = 0 then d.ring else d.archive

/-- SEQ at which a reading begins, 16 R436: ORIGIN 0 cursor, 1 FROM_SEQ, 2 oldest, 3 newest. -/
def startSeq (l : List Rec) (next origin cursor from_ : Nat) : Nat :=
  match origin with
  | 0 => cursor
  | 1 => from_
  | 2 => (l.head?.map (·.seq)).getD next
  | _ => (l.getLast?.map (·.seq)).getD next

/-- The records that fit: whole records within `room` bytes and `max` records (0: no limit). -/
def fitRecs (room max : Nat) : List Rec → List Rec
  | [] => []
  | r :: l => if room < r.len then [] else if max = 1 then [r] else r :: fitRecs (room - r.len) (max - 1) l

/-- The outcome of a reading: records, NEXT_SEQ, OLDEST_SEQ, RFLAGS (16 R437). -/
def readLog (l : List Rec) (next start room max : Nat) : List Rec × Nat × Nat × Nat :=
  let oldest := (l.head?.map (·.seq)).getD next
  let over_ := !l.isEmpty && !serialGe start oldest
  let start := if over_ then oldest else start
  let av := l.filter fun r => serialGe r.seq start
  let got := fitRecs room max av
  let nxt := match got.getLast? with
    | some r => (r.seq + 1) % 2 ^ 32
    | none => start
  let short := got.length < av.length && (max = 0 || got.length < max)
  let fin := !got.isEmpty && got.length = av.length
  (got, nxt, oldest, bitIf over_ 0 + bitIf short 1 + bitIf fin 2)

/-- The INLINE of LOG_READ and LOG_EXPORT is in range, 16 R436. -/
def logInl (c : Cmd) : Bool := c.inf 0 1 ≤ 3 && c.inf 1 1 ≤ 1 && (c.inf 0 1 = 1 || c.inf 4 4 = 0)

/-- Its reserved bytes are zero. -/
def logRes (c : Cmd) : Bool := c.inf 2 2 = 0 && c.inlZero 12

/-- The cursor of a session on a store. -/
def State.cursor (s : State) (c : Cmd) (st : Nat) : Nat :=
  match s.sessOf c.session.toNat with
  | some x => if st = 0 then x.curRing else x.curArch
  | none => 0

/-- RESULT of a reading, 16 R436. -/
def logResult (bytes next oldest flags : Nat) : Word × Word :=
  (BitVec.ofNat 64 (bytes + next * 2 ^ 32), BitVec.ofNat 64 (oldest + flags * 2 ^ 32))

/-- LOG_READ, 16 R436, R437. -/
def execLogRead (c : Cmd) (s : State) : Host.Outcome State Fault Refusal :=
  .next (s.hostCmd 0x0040 c 2 (logRes c) fun s =>
    if !logInl c then s.final 0x0040 c stInvalid dContent
    else
      let st := c.inf 1 1
      if st = 0 && !s.recd.served then s.final 0x0040 c stBusy dNone
      else
        let l := s.recd.store st
        let r := readLog l s.recd.seq (startSeq l s.recd.seq (c.inf 0 1) (s.cursor c st) (c.inf 4 4)) c.length (c.inf 8 4)
        let s := if r.1.isEmpty && r.2.2.2 % 2 = 0 then s else
          s.onSess c.session.toNat fun x => if st = 0 then { x with curRing := r.2.1 } else { x with curArch := r.2.1 }
        let q := logResult (recBytes r.1) r.2.1 r.2.2.1 r.2.2.2
        s.finalData 0x0040 c (if r.1.isEmpty then stEmpty else stOk) q.1 q.2 (r.1.flatMap Rec.enc))

/-- LOG_EXPORT, 16 R438: a long operation with its end point fixed at acceptance. -/
def execLogExport (c : Cmd) (s : State) : Host.Outcome State Fault Refusal :=
  .next (s.hostCmd 0x0042 c 2 (logRes c) fun s =>
    if !logInl c then s.final 0x0042 c stInvalid dContent
    else
      let st := c.inf 1 1
      if st = 0 && !s.recd.served then s.final 0x0042 c stBusy dNone
      else
        let l := s.recd.store st
        let from_ := startSeq l s.recd.seq (c.inf 0 1) (s.cursor c st) (c.inf 4 4)
        let last := (l.getLast?.map (·.seq)).getD from_
        s.accept (mkRun 0x0042 c (s.partyOf c) true (recBytes l) (.logExport st from_ last (c.inf 8 4) false 0 [])) 0x0042 c)

/-- What a LOG_EXPORT has copied so far and what it can still copy: the work at `upto` bytes, the bytes that it adds, and RFLAGS (16 R437,
R438). -/
def State.exportTo (s : State) (length : Nat) (w : Work) (upto : Nat) : Work × List Byte × Nat :=
  match w with
  | .logExport st next last max over_ count data =>
    let held := s.recd.store st
    let oldest := (held.head?.map (·.seq)).getD next
    let lost := !held.isEmpty && !serialGe next oldest
    let start := if lost then oldest else next
    let av := held.filter fun x => serialGe last x.seq && serialGe x.seq start
    let room := min upto length - data.length
    let got := if 0 < max && max ≤ count then [] else fitRecs room (if max = 0 then 0 else max - count) av
    let nxt := match got.getLast? with
      | some x => (x.seq + 1) % 2 ^ 32
      | none => start
    let add := got.flatMap Rec.enc
    let all := count + got.length
    let short := got.length < av.length && (max = 0 || all < max)
    (.logExport st nxt last max (over_ || lost) all (data ++ add), add,
     bitIf (over_ || lost) 0 + bitIf short 1 + bitIf (0 < all && got.length = av.length) 2)
  | _ => (w, [], 0)

/-- A LOG_EXPORT copies whole records up to a number of bytes; the host's buffer takes them at once, a service connection with the FINAL
completion. -/
def State.exportCopy (s : State) (r : Run) (upto : Nat) : State × Run :=
  let x := s.exportTo r.length r.work upto
  let at_ := match r.work with
    | .logExport _ _ _ _ _ _ data => data.length
    | _ => 0
  let r' := { r with work := x.1 }
  let s := match r.src with
    | .queue _ => s.hostWrite (r.bufAddr.toNat + at_) x.2.1
    | _ => s
  (s.setRun r', r')

/-- The end of a LOG_EXPORT: the rest up to the end point or to what its buffer takes, and the RESULT of LOG_READ. -/
def State.exportEnd (s : State) (r : Run) (ok : Bool) : State :=
  if !ok then s.endRun r stFailed dDma
  else
    let flags := (s.exportTo r.length r.work r.length).2.2
    let x := s.exportCopy r r.length
    match x.2.work with
    | .logExport st next _ _ _ count data =>
      let oldest := ((x.1.recd.store st).head?.map (·.seq)).getD next
      let res := logResult data.length next oldest flags
      x.1.endRun x.2 (if count = 0 then stEmpty else stOk) dNone res.1 res.2 (match r.src with
        | .queue _ => []
        | _ => data)
    | _ => s

/-! ## Clearing and the gust table, 16 R439, R442 -/

/-- First and last SEQ cleared; of an empty ring they are free values (log entry 7). -/
def State.clearedSpan (s : State) : Nat × Nat × State :=
  match s.recd.ring with
  | r :: _ => (r.seq, (s.recd.ring.getLast?.map (·.seq)).getD 0, s)
  | [] => let (a, s) := s.drawNat; let (b, s) := s.drawNat; (a % 2 ^ 32, b % 2 ^ 32, s)

/-- Empty the ring and write LOG_CLEARED. -/
def clearOwn (c : Cmd) (action : Nat) (s : State) : State :=
  if c.inf 0 1 ≠ action then s.final 0x0041 c stInvalid dContent
  else if s.running 0x0042 then s.final 0x0041 c stBusy dNone
  else
    let (a, b, s) := s.clearedSpan
    let s : State := { s with recd := { s.recd with
      ring := [], archive := if action = 2 then [] else s.recd.archive, due := if action = 2 then [] else s.recd.due } }
    let q := s.recd.seq
    (s.recordBy 0x0006 (srcOf 16 0) (items [a, b]) (s.partyOf c) false).final 0x0041 c stOk dNone (BitVec.ofNat 64 q)

/-- LOG_CLEAR, ACTION 1. -/
def execLogClearRing (c : Cmd) (s : State) : Host.Outcome State Fault Refusal :=
  .next (s.hostCmd 0x0041 c 0 (c.inlZero 1) (clearOwn c 1))

/-- LOG_CLEAR, ACTION 2. -/
def execLogClearArchive (c : Cmd) (s : State) : Host.Outcome State Fault Refusal :=
  .next (s.hostCmd 0x0041 c 0 (c.inlZero 1) (clearOwn c 2))

/-- A gust entry keeps the rules of 16 R442. -/
def gustOk (e : Nat × Nat × Nat × Nat) : Bool :=
  limitable e.1 && ((e.2.1 = 0 && e.2.2.1 = 0) || (0 < e.2.1 && 0 < e.2.2.1)) && e.2.2.2 = 0

/-- No code appears twice. -/
def noTwice : List Nat → Bool
  | [] => true
  | x :: l => !l.contains x && noTwice l

/-- Install a gust entry; a changed one refills its bucket to BURST. -/
def Recd.setGust (d : Recd) (code rate burst now : Nat) : Recd :=
  let old := d.limit code
  let b := d.bucket code now
  let d := { d with gust := d.gust.filter (fun g => g.1 ≠ code) ++ [(code, rate, burst)] }
  if old = (rate, burst) then d else d.put { b with tokens := burst * 1000000000, at_ := now }

/-- LOG_CLEAR, ACTION 3. -/
def execGustTableReplace (c : Cmd) (s : State) : Host.Outcome State Fault Refusal :=
  .next (s.hostCmd 0x0041 c 1 (c.inlZero 1) fun s =>
    if c.inf 0 1 ≠ 3 then s.final 0x0041 c stInvalid dContent
    else if c.length % 8 ≠ 0 || c.length < 8 || 4096 < c.length then s.final 0x0041 c stInvalid dBuffer
    else
      let l := parseGust c.buf (c.length / 8)
      if !l.all gustOk || !noTwice (l.map (·.1)) || !s.fits 3 (c.buf.bytes 0 c.length) then s.final 0x0041 c stInvalid dContent
      else
        let d := l.foldl (fun d e => d.setGust e.1 e.2.1 e.2.2.1 s.clk.now) s.recd
        let s := ({ s with recd := d } : State).wroteBlock 3
        (s.recordBy 0x0009 (srcOf 16 0) (items [l.length]) (s.partyOf c) false).final 0x0041 c stOk dNone
          (BitVec.ofNat 64 l.length))

/-- LOG_CLEAR, ACTION 4. -/
def execGustTableDefault (c : Cmd) (s : State) : Host.Outcome State Fault Refusal :=
  .next (s.hostCmd 0x0041 c 0 (c.inlZero 1) fun s =>
    if c.inf 0 1 ≠ 4 || !s.fits 3 [] then s.final 0x0041 c stInvalid dContent
    else
      let d := s.recd.gust.foldl (fun d g => d.setGust g.1 100 1000 s.clk.now) s.recd
      let s := ({ s with recd := { d with gust := [] } } : State).wroteBlock 3
      (s.recordBy 0x0009 (srcOf 16 0) (items [0]) (s.partyOf c) false).final 0x0041 c stOk dNone)

/-! ## Happenings -/

/-- GUST_REFILL: the bucket of a code with suppressed records again holds a token; GUST takes none (16 R441). -/
def execGustRefill (code : Nat) (s : State) : Host.Outcome State Fault Refusal :=
  match s.recd.buckets.find? (·.code = code) with
  | some b =>
    if b.sup = 0 then .next s
    else
      let rate := (s.recd.limit code).1
      let wait := if rate = 0 then 0 else (1000000000 - b.tokens + rate - 1) / rate
      let s := s.reach (b.at_ + wait)
      let b := s.recd.fill b s.clk.now
      let d := s.recd.take (gustRec b s.stamp (s.keys.boot % 65536) (s.recFlags 5 false))
      .next { s with recd := d.put { b with sup := 0 } }
  | none => .next s

/-- Erase the oldest 1 MiB of the archive. -/
def eraseOldest (room : Nat) : List Rec → List Rec
  | [] => []
  | r :: l => if room = 0 then r :: l else eraseOldest (room - r.len) l

/-- Write one record to the archive; a full one loses its oldest 1 MiB, with ARCHIVE_WRAP (16 R429). -/
def State.archiveOne (s : State) (r : Rec) : State :=
  if recBytes s.recd.archive + r.len ≤ 0x10000000 then
    { s with recd := { s.recd with archive := s.recd.archive ++ [r] } }
  else
    ({ s with recd := { s.recd with archive := eraseOldest 0x100000 s.recd.archive ++ [r] } } : State).record 0x0008
      (srcOf 16 0) []

/-- ARCHIVE_COMMIT: the oldest critical record due goes to flash. -/
def execArchiveCommit (s : State) : Host.Outcome State Fault Refusal :=
  match s.recd.due with
  | r :: l => .next (({ s with recd := { s.recd with due := l } } : State).archiveOne r)
  | [] => .next s

/-- Write the held records into the ring with HELD set, then HOLD_LOST for those discarded (16 R430). -/
def State.flushHold (s : State) : State :=
  let lost := s.recd.holdLost
  let d := s.recd.hold.foldl (fun d r => d.write { r with flags := r.flags ||| 64 }) { s.recd with hold := [], holdLost := 0 }
  let s : State := { s with recd := d }
  if 0 < lost then s.record 0x0007 (srcOf 16 0) [lost] else s

/-- The ring is served once the DRAM wipe is complete and the management lane serves (18 R481, 16 R430). -/
def State.serveRing (s : State) : State :=
  if s.pwr.dramOk && s.serves then ({ s with recd := { s.recd with served := true } } : State).flushHold else s

/-- HOLD_BUFFER_FLUSH. -/
def execHoldBufferFlush (s : State) : Host.Outcome State Fault Refusal := .next s.serveRing

end Sys2Proof.Machine
end

