-- ==== Sys2Proof/Machine/LaneTasks.lean ====
section
/-! DEFINITION. Tasks on their lanes: dispatch, completion, traps (02 R42 to R51, R554, R555), and delivery at an agreed count
(03 R71 to R73). -/

namespace Sys2Proof.Machine
open Sys2Proof

/-! ## Which tasks stand on a lane copy -/

/-- The lane copy executes: not halted, not parked. -/
def State.laneGoes (s : State) (l : Nat) : Bool :=
  !(s.laneAt l).halted && !(s.laneAt l).parked && !(s.laneAt l).debugHalt

/-- A copy of the lane executes: its island runs, and it does not stand in a WAIT (01 R23, 03 R73). -/
def State.copyGoes (s : State) (l : Nat) (c : Side) : Bool :=
  s.laneGoes l && (s.laneAt l).wait.isNone && !((s.laneAt l).copy c).waiting && !((s.laneAt l).copy c).dead

/-- The release of a task still waits at the delivery unit. -/
def Lane.undelivered (l : Lane) (t : Nat) : Bool :=
  l.pending.any fun e => match e with
    | .release r => r.task = t
    | _ => false

/-- The task that runs on the lane copy now. -/
def State.runningOn (s : State) (l : Nat) (c : Side) : Option TaskCfg :=
  s.tasks.find? fun t => s.onCopyOf l c t && (s.taskAt t.num).st = .running && !(s.taskAt t.num).held

/-- Rank in dispatching: priority 0 first, the background task last (02 R38, R42). -/
def rankOf (t : TaskCfg) : Nat := if t.kind = .background then 32 else t.prio

/-- The ready task of highest priority on a lane copy, its release delivered. -/
def State.bestReady (s : State) (l : Nat) (c : Side) : Option TaskCfg :=
  (s.tasks.filter fun t => s.onCopyOf l c t && (s.taskAt t.num).st = .ready && !(s.laneAt l).undelivered t.num).foldl
    (fun b t => match b with
      | some x => if rankOf t < rankOf x then some t else b
      | none => some t) none

/-- Set LANE_CUR_TASK of the lane copy, of both copies of a compared lane. -/
def State.setCur (s : State) (l : Nat) (c : Side) (task : Nat) (idle : Bool) : State :=
  let f (x : LaneCopy) : LaneCopy := { x with curTask := task % 32, idle := idle }
  s.onLane l fun x => if x.split then x.onCopy c f else { x with a := f x.a, b := f x.b }

/-- The registers of a lane that a task context takes along: NET_ACT_PUSH_A and those of the tracking command window (08 R207, 09 R234). -/
def State.laneCtx (s : State) (l : Nat) : Word × Word × Word × Word × Word × Word × Word :=
  let w := s.trk.win.toList.getD l {}
  (s.act.pushA.toList.getD l 0, w.obj, w.seg, w.pos, w.tag, w.id, w.user)

/-- Restore them. -/
def State.setLaneCtx (s : State) (l : Nat) (c : Word × Word × Word × Word × Word × Word × Word) : State :=
  let w := s.trk.win.toList.getD l {}
  let (a, obj, seg, pos, tag, id, user) := c
  let w' := { w with obj := obj, seg := seg, pos := pos, tag := tag, id := id, user := user }
  { s with
    act := { s.act with pushA := s.act.pushA.setIfInBounds l a }
    trk := { s.trk with win := s.trk.win.setIfInBounds l w' } }

/-- Save the context of the running task: READY again (02 R50). -/
def State.preempt (s : State) (l : Nat) (c : Side) (t : TaskCfg) : State :=
  (s.charge l c t).onTask t.num fun x => { x with st := .ready, ctx := some (s.laneCtx l) }

/-- Dispatch a task; a preempted one has its context restored. -/
def State.dispatch (s : State) (l : Nat) (c : Side) (t : TaskCfg) : State :=
  let s := match (s.taskAt t.num).ctx with
    | some w => s.setLaneCtx l w
    | none => s
  let s := s.onTask t.num fun x => { x with st := .running, since := s.clk.now, ctx := none }
  (s.setCur l c t.num false).onLane l fun x => { x with l1Inval := false }

/-- The task that the runtime dispatches now on a lane copy: the ready one of highest priority, where nothing of higher priority runs
(02 R42). -/
def State.nextTask (s : State) (l : Nat) (c : Side) : Option TaskCfg :=
  match s.bestReady l c, s.runningOn l c with
  | some t, some r => if rankOf t < rankOf r then some t else none
  | t, _ => t

/-- Write of LANE_CUR_TASK (02 R554): the dispatch of the task that it names, which preempts a running one. -/
def State.curWrite (s : State) (l : Nat) (c : Side) (v : Word) : State :=
  let n := v.toNat % 32
  match s.nextTask l c with
  | some t =>
    if t.num = n && !v.getLsbD 5 then
      (match s.runningOn l c with
       | some r => s.preempt l c r
       | none => s).dispatch l c t
    else s.setCur l c n (v.getLsbD 5)
  | none => s.setCur l c n (v.getLsbD 5)

/-- Restart the background task with its input copy filled (02 R44, R50); the flags of its first run after APP_START stand. -/
def State.restart (s : State) (t : TaskCfg) : State :=
  s.onTask t.num fun x => { x with st := .ready, incopy := s.inputCopy t.inputs, ran := 0, since := s.clk.now, ctx := none }

/-- Completion of a running task, 02 R50, R51. -/
def State.complete (s : State) (l : Nat) (c : Side) (t : TaskCfg) : State :=
  let s := (s.charge l c t).setCur l c t.num true
  let s := s.onTask t.num fun x => { x with longest := max x.longest x.ran, firstRun := false, takeover := false, ctx := none }
  if t.kind = .background then s.restart t
  else
    let s := s.onTask t.num fun x => { x with st := .idle, incopy := [] }
    match (s.taskAt t.num).queue with
    | r :: q =>
      let s := s.onTask t.num fun x => { x with queue := q }
      s.deliver t { task := t.num, src := if t.kind = .event then 2 else 3, bytes := r }
    | [] => s

/-- Write of LANE_TASK_DONE; a task other than the one of LANE_CUR_TASK is ignored with a setup-error record (02 R554). -/
def State.taskDone (s : State) (l : Nat) (c : Side) (v : Word) : State :=
  let t := (v &&& 0x1F).toNat
  let x := (s.laneAt l).copy c
  if x.idle || x.curTask ≠ t then s.setupError 0x0100 v.toNat
  else match s.taskCfg t with
    | some cfg => if (s.taskAt t).st = .running && !(s.taskAt t).held then s.complete l c cfg else s
    | none => s

/-- The copy has taken the exception of an error response. -/
def LaneCopy.trapped (c : LaneCopy) : LaneCopy := { c with exc := none }

/-- TASK_TRAP: the task that runs is held at the faulting instruction (02 R555). An access that an error response has answered gives the
trap its cause (03 R70). -/
def execTaskTrap (lane : Fin 8) (copy : Side) (cause : Nat) (addr : Nat) (s : State) : Host.Outcome State Fault Refusal :=
  if !s.copyGoes lane.val copy then .next s
  else match s.runningOn lane.val copy with
    | some t =>
      let cause := ((s.laneAt lane.val).copy copy).exc.getD cause
      let s := s.onLane lane.val fun l => if l.split then l.onCopy copy LaneCopy.trapped else { l with a := l.a.trapped, b := l.b.trapped }
      let s := (s.charge lane.val copy t).onTask t.num fun x => { x with held := true, traps := satAdd 64 x.traps 1 }
      .next (s.record 0x0104 (srcOf 2 t.num) [t.num, lane.val, cause, if s.confidential then 0 else addr])
    | none => .next s

/-! ## Delivery, 03 R71, R72 -/

/-- Place of an event in the fixed order of 03 R71. -/
def State.devRank (s : State) (e : DEv) : Nat :=
  match e with
  | .halt => 0
  | .release r => 1 + ((s.taskCfg r.task).map rankOf).getD 32
  | .mark m _ => 100 + m
  | .timer => 200
  | .soft src => 300 + src

/-- Insert an event in the fixed order, behind equals. -/
def State.insDev (s : State) (e : DEv) : List DEv → List DEv
  | [] => [e]
  | f :: l => if s.devRank e < s.devRank f then e :: f :: l else f :: State.insDev s e l

/-- The pending events in the fixed order. -/
def State.sortDev (s : State) (l : List DEv) : List DEv := l.foldl (fun a e => s.insDev e a) []

/-- The agreed count D: the count of a copy that stands in WAIT, else the larger count plus 64. -/
def agreed (cA cB : Nat) (waitA waitB : Bool) : Nat := if waitA then cA else if waitB then cB else max cA cB + 64

/-- A retirement count that a copy can report: not below the last one, and within its checkpoints (03 R59, R71). -/
def LaneCopy.countOk (c : LaneCopy) (n : Nat) : Bool := c.ret ≤ n && 4096 * c.checks ≤ n && n < 4096 * (c.checks + 1)

/-- The WAIT items whose event is delivered while one copy has not yet reached them: that copy runs on through them (03 R71, R73). -/
def Lane.overWaits (l : Lane) : List Nat :=
  if l.split || l.a.waiting = l.b.waiting then l.waitOver
  else l.waitOver ++ [if l.a.waiting then l.a.items else l.b.items]

/-- DELIVERY_REQUEST: the copies report their counts and receive D; every event pending is delivered at it and ends a WAIT, also for the
copy that reaches it later. In Lull retention, in a debug halt and in a halt nothing is delivered. A split lane's copies take their events
without an agreed count. -/
def execDeliveryRequest (lane : Fin 9) (cA cB : Nat) (s : State) : Host.Outcome State Fault Refusal :=
  let l := s.laneAt lane.val
  if l.pending = [] || !s.laneGoes lane.val || !(l.a.countOk cA && l.b.countOk cB) then .next s
  else
    let d := if l.split then l.d else agreed cA cB l.a.waiting l.b.waiting
    let evs := s.sortDev l.pending
    .next (s.onLane lane.val fun l => { l with
      pending := [], delivered := evs, d := d, wait := none, waitOver := l.overWaits, debugHalt := l.debugHalt || evs.contains .halt
      stillAt := if evs.contains .halt then some s.clk.now else l.stillAt
      a := { l.a with ret := cA, waiting := false }, b := { l.b with ret := cB, waiting := false } })

/-- LANE_TIMER_EXPIRY. -/
def execLaneTimerExpiry (lane : Fin 9) (s : State) : Host.Outcome State Fault Refusal :=
  .next (if (s.laneAt lane.val).timerEn && !(s.laneAt lane.val).halted then s.atDelivery lane.val .timer else s)

/-- SOFTWARE_INTERRUPT from one lane to another. -/
def execSoftwareInterrupt (src dst : Fin 9) (s : State) : Host.Outcome State Fault Refusal :=
  .next (if s.laneGoes src.val && !(s.laneAt dst.val).halted then s.atDelivery dst.val (.soft src.val) else s)

/-! ## Counters, 03 R74 -/

/-- A counter CSR of a lane copy that has retired `ret` instructions: time is what the compared read of the lane timer returns, network
time; cycle and instret of a compared lane are the retirement count, the same in both copies at the same instruction, and its other
counters read zero; a split copy's clock cycles and events are free (log entry 3). No row of the table reads a CSR: its value reaches the
block in the items that the copies emit. -/
def State.counter (s : State) (l csr ret : Nat) : Nat :=
  let x := s.laneAt l
  if csr = 0xC01 then (if s.clk.netOn then s.netTime else 0)
  else if csr = 0xC02 || csr = 0xB02 then ret
  else if x.split then (Config.freeNat (s.free + csr)).toNat
  else if csr = 0xC00 || csr = 0xB00 then ret
  else 0

/-! ## After a lane fault, 03 R84 -/

/-- LANE_FAULT_FLASH_COMMIT: the record stands in the archive; a module that left pair duty asks its partner for a reset. -/
def execLaneFaultFlashCommit (s : State) : Host.Outcome State Fault Refusal :=
  let mine := s.recd.due.filter (·.code = 0x0200)
  let s : State := { s with recd := { s.recd with due := s.recd.due.filter (·.code ≠ 0x0200) } }
  let s := mine.foldl State.archiveOne s
  .next (if s.lanes.faulted && s.lanes.resetReq.isNone then
           ({ s with lanes := { s.lanes with resetReq := some s.clk.now } } : State).send .resetRequest
         else s)

/-- PAIR_RESET_REQUEST_TIMEOUT: no reset within 100 ms; the module stays halted with VANE released. -/
def execPairResetRequestTimeout (s : State) : Host.Outcome State Fault Refusal :=
  match s.lanes.resetReq with
  | some t =>
    let s := s.reach (t + 100000000)
    .next { s with lanes := { s.lanes with stranded := true, resetReq := none } }
  | none => .next s

end Sys2Proof.Machine
end

