-- ==== Sys2Proof/Machine/Reset.lean ====
section
/-! DEFINITION. Resets: what each kind keeps (18 R472 to R480). -/

namespace Sys2Proof.Machine
open Sys2Proof

/-- The firmware slot that the boot ROM starts: a TRIAL slot, else the ACTIVE one; a warm restart keeps the running one
(12 R327). -/
def Chg.bootSlot (c : Chg) (kind : Nat) : Nat :=
  if kind = 8 then c.fwRun
  else match c.fw.toList.findIdx? fun f => f.st = .trial with
    | some i => i
    | none => (c.fw.toList.findIdx? fun f => f.st = .active).getD c.fwRun

/-- The force table as restored from its store: every entry PENDING, with a change that brings it into effect in the first cycle of the
network that the module then runs; an accepted release takes effect at the same instant. A change whose command had completed writes no
further record (18 R480). -/
def restoreForces (x : List Force × List FChange) (ver : Nat) : Img → Img := fun i =>
  let waits := (x.2.filter fun c => !c.done || !c.told).map fun c => { c with ver := min c.ver ver, k := none, done := false }
  let own (f : Force) : FChange := { point := f.point, rel := false, value := f.value, party := f.party, ver := ver, told := true }
  { i with
    force := x.1.map fun f => { f with pending := true, effectN := none, now := none, suppressed := 0 }
    changes := (x.1.filter fun f => !(waits.any fun c => c.point = f.point)).map own ++ waits }

/-- The lines of the retained regions (18 R478). -/
def retained (img : Option AppImage) (a : Nat) : Bool :=
  match img with
  | some i => i.body.retained.any fun r => r.base ≤ a && a < r.base + 4096 * r.pages
  | none => false

/-- The GUST records of unreported suppression (16 R441). -/
def Recd.report (d : Recd) (time boot : Nat) (flags : BitVec 16) : Recd :=
  (d.buckets.filter fun b => 0 < b.sup).foldl
    (fun d b => d.toHold (gustRec b time boot flags) (d.hold.length + 2)) d

/-- The recorder after a reset of a kind: ring under its seal after a warm restart, hold buffer except at power-on, archive,
gust table; SEQ resumes at the next multiple above the last one committed (16 R430, R431, R441, 18 R479). -/
def Recd.restart (d : Recd) (kind : Nat) (time boot : Nat) (flags : BitVec 16) : Recd :=
  let d := if kind = 1 then { d with hold := [], holdLost := 0 } else d.report time boot flags
  { ring := if kind = 8 then d.ring else [], seq := (d.seqFlash + 65536) % 2 ^ 32, seqFlash := d.seqFlash, archive := d.archive,
    hold := d.hold, holdLost := d.holdLost, holdSaved := d.holdSaved, gust := d.gust, due := if kind = 8 then d.due else [] }

/-- The pair's registers and the observed lines after a reset; the own line is released (11 R280). -/
def Pair.restart (p : Pair) (kind now : Nat) : Pair :=
  { drive := false, own := p.stuck, other := p.other, driveAt := now, otherOffAt := p.otherOffAt, stuck := p.stuck,
    sent := p.sent, lanes := p.lanes, forceVer := p.forceVer, forceShipped := p.forceVer
    hotReg := p.stored.1, autostart := p.stored.2, stored := p.stored,
    noHolderAt := if p.other then none else some now,
    takeovers := if kind = 1 then 0 else p.takeovers, switches := if kind = 1 then 0 else p.switches }

/-- An Ethernet port after a reset: the stored values, staged and applied (21 R523). -/
def Eth.restart (e : Eth) (v : Option (Bool × BitVec 32 × Nat × BitVec 32)) : Eth :=
  match v with
  | some (sv, a, p, g) =>
    { service := sv, addr := a, pre := p, gw := g, inService := sv, inAddr := a, inPre := p, inGw := g, mac := e.mac,
      linkUp := e.linkUp }
  | none => { mac := e.mac, linkUp := e.linkUp }

/-- What settings block 0x0002 holds at a reset: a PAIR_CTRL write of the last 10 ms may or may not have survived, which a free value
decides (21 R521; log entry 3). -/
def State.settleCtrl (s : State) : State :=
  let p := s.pair.ctrlDue s.clk.now
  match p.ctrl with
  | [] => { s with pair := p }
  | l =>
    let (k, s) := s.drawNat
    let all := p.stored :: l.map (·.2)
    let v := all.getD (k % all.length) p.stored
    { s with pair := { p with stored := v, ctrl := [] }
             chg := { s.chg with area := s.chg.area.map fun x => if x.id = 2 then { x with val := .pair v.1 v.2 } else x } }

/-- A reset of a kind can be taken: AON has power, the power-on reset is over, no hold-up sequence runs (it always runs to its end, 18
R466), and Hold is left by a PAIR or a HOST reset alone (18 R487; log entry 89). -/
def State.resetOk (s : State) (kind : Nat) : Bool :=
  s.pwr.st ≠ .off && s.pwr.holdup = 0 && !s.pwr.waitGood && (s.pwr.st ≠ .hold || kind = 4 || kind = 5)

/-! ## What a state change wipes, 14 R397, R399 -/

/-- The archive is wiped. -/
def State.wipeArchive (s : State) : State := { s with recd := { s.recd with archive := [], due := [] } }

/-- Settings blocks 0x0001, 0x0002, 0x0003 and 0x0005 are wiped. -/
def State.wipeSettings (s : State) : State :=
  { s with
    net := { s.net with stored := none }, pair := { s.pair with stored := (false, false), ctrl := [] }
    recd := { s.recd with gust := [] }, host := { s.host with ethStored := [] }
    chg := { s.chg with area := s.chg.area.filter (·.id = 4) } }

/-- The margin plan block 0x0004 and the operating points in force are wiped. -/
def State.wipePlan (s : State) : State :=
  { s with
    mgn := { s.mgn with mhz := Vector.replicate 8 1600, tMin := 125000, plan := none }
    chg := { s.chg with area := s.chg.area.filter (·.id ≠ 4) } }

/-- Key list and key-wrapped store are wiped. -/
def State.wipeKeys (s : State) : State :=
  { s with keys := { s.keys with owner := none, integ := Vector.replicate 8 none, grant := Vector.replicate 8 none,
                                 listLost := false, store := [], prev := none } }

/-- Backup bytes are wiped. -/
def State.wipeBkp (s : State) : State := { s with rtc := { s.rtc with bkp := Vector.replicate 64 0 } }

/-- Application slots are erased. -/
def State.wipeApps (s : State) : State := { s with chg := { s.chg with app := Vector.replicate 2 {} } }

/-- What a change wipes beside SRAM and DRAM, 14 R399. -/
def State.wipeFor (s : State) (target : Nat) : State :=
  match s.keys.life, target with
  | 1, 2 => s.wipeArchive
  | 2, 3 => s.wipeKeys.wipeApps.wipeSettings.wipeBkp
  | 3, 1 => s.wipeArchive.wipeSettings
  | _, 4 =>
    let s := s.wipeKeys.wipeApps.wipeSettings.wipePlan.wipeBkp.wipeArchive
    { s with chg := { s.chg with fw := Vector.replicate 2 {} }, keys := { s.keys with drkOnes := true } }
  | _, _ => s

/-- The fuses after a change: copy 2, REFURB, the serial; the new Owner and the certificate are stored (14 R397, R399). -/
def State.fuse (s : State) (x : StateChange) : State :=
  let again : Bool := s.keys.life = 3 && x.target = 1
  { s with keys := { s.keys with
      life := x.target, half := none, lifeNew := true, serial := x.serial, owner := x.owner.orElse fun _ => s.keys.owner
      cert := x.cert.orElse fun _ => s.keys.cert
      refurb := if again then s.keys.refurb + 1 else s.keys.refurb
      tokVoid := if again then s.keys.boot + 1 else s.keys.tokVoid
      lullCount := 0, calmCount := 0 } }

/-- A change whose copy 1 alone is programmed is completed at the start that follows, whatever its reset: copy 2, then every wipe, SRAM and
DRAM with what a warm restart keeps there included (14 R397, R399). -/
def State.finishChange (s : State) : State :=
  match s.keys.half with
  | none => s
  | some x =>
    let s := (s.wipeFor x.target).fuse x
    { s with
      img := { s.img with store := Vector.replicate 2 (0, [], []), changes := [] }, calm := {}, mem := []
      recd := { s.recd with ring := [], due := [] } }

/-- The records of the forces that the wipe of a state change clears (04 R119). -/
def State.clearedForces (s : State) (gone : List Force) : State :=
  gone.foldl (fun s f => s.record 0x0302 (srcOf 3 0) [f.point.toNat, f.value.toNat, f.party, s.kNow, 4]) s

/-- A reset of a kind (18 R472 code) at the present instant: a state change that stands half programmed is completed, everything returns to
its default but what 18 R479 keeps; then the BOOT record goes to the hold buffer. An FW_HANDOVER lives through the pair-commanded reset that
is its own step 6 (12 R326; log entry 36). -/
def State.takeReset (s : State) (kind : Nat) : State :=
  let gone := if s.keys.half.isSome then s.img.force else []
  let s := s.settleCtrl.finishChange
  let boot := min (s.keys.boot + 1) 0xFFFFFFFF
  let c := s.chg
  let run := c.bootSlot kind
  let floor := match c.rollback, c.running with
    | some _, some i => max c.appFloor i.hdr.rollback
    | _, _ => c.appFloor
  let handed : Bool := kind = 4 && c.handover = 6
  let s' : State := {
    slot := s.slot
    clk := { now := s.clk.now }
    lanes := { faultRec := s.lanes.faultRec, lockout := s.lanes.lockout }
    calm := if s.calm.flash then { s.calm with image := true } else {}
    img := restoreForces s.img.saved s.pair.forceVer { store := s.img.store }
    net := { stored := s.net.stored, rank := (s.net.stored.map (·.rank)).getD 0,
             br := s.net.br.map fun b => { link := b.link } }
    stn := s.stn
    lio := { ch := Vector.ofFn fun i => { cfg := ((s.net.stored.map (·.lio)).getD []).getD i.val {} } }
    pair := s.pair.restart kind s.clk.now
    chg := { app := c.app, fw := c.fw, fwRun := run, fails := c.fails, fwFloor := c.fwFloor, appFloor := floor,
             area := c.area, handover := if handed then 6 else 0, handoverN := if handed then c.handoverN else 0 }
    host := { runs := if handed then s.host.runs.filter (·.work = .handover) else []
              eth := Vector.ofFn fun i => (s.host.eth[i]).restart (s.host.ethStored[i.val]?)
              ethStored := s.host.ethStored }
    keys := { s.keys with boot := boot, rngFail := false, dbgOpen := false, dbgScope := 7, dbgSeen := false, transition := none }
    recd := s.recd.restart kind s.stamp (s.keys.boot % 65536) (s.recFlags 5 false)
    rtc := s.rtc
    pwr := { sampled := s.pwr.sampled && kind ≠ 1, store := s.pwr.store, kind := kind, present := s.pwr.present
             fa := { s.pwr.fa with pathFault := false }, fb := { s.pwr.fb with pathFault := false }
             waitGood := kind = 1 || kind = 2, stage := if kind = 1 || kind = 2 then 1 else 2,
             on := if kind = 1 || kind = 2 then 3 else 0x4F, good := if kind = 1 then 0 else 3, wdt := s.clk.now, dramOk := kind = 8,
             sealRegions := kind = 8, sealRing := kind = 8, boots := [(kind, 1)] }
    mgn := { s.mgn with corrected := 0, memCorr := 0, poison := [] }
    mem := if kind = 8 then s.mem.filter fun x => retained c.running x.1 else []
    free := s.free
    pending := s.pending }
  (s'.record 0x0001 (srcOf 0 0) [boot, kind, s'.fwGen]).clearedForces gone

end Sys2Proof.Machine
end

