-- ==== Sys2Proof/Machine/HostRings.lean ====
section
/-! DEFINITION. Doorbells, queues, event ring, resets by the host, interrupts, BUSY and the service channel: 13 R336 to R343,
R354 to R359, R375 to R378, 18 R475, 21 R516 to R524. -/

namespace Sys2Proof.Machine
open Sys2Proof

/-! ## Errors and doorbells, 13 R342, R343 -/

/-- Entries from SQ_HEAD up to a tail: those posted before, then those that the host's ring holds from the last tail on. A tail that is moved
back leaves fewer (13 R342). -/
def postedBy (h : HQ) (v : Nat) (ents : List SqEnt) : List SqEnt := (h.posted ++ ents).take ((v + h.size - h.sqHead) % h.size)

/-- An entry whose read ends otherwise than well. -/
def readAs (e : SqEnt) (ring : Dma) : SqEnt := if ring = .ok then e else { e with ring := ring }

/-- An SQ tail is written, 13 R342: the latest value is kept, and the queue fetches; a bad value puts it in ERROR. -/
def State.sqTail (s : State) (q v : Nat) (ents : List SqEnt) : State :=
  let h := s.hq q
  if h.st ≠ .enabled then s
  else if v / 4096 ≠ 0 || h.size ≤ v then s.queueError q 1
  else
    let x := State.unknownEnts ((v + h.size - h.sqHead) % h.size - (h.posted ++ ents).length) s
    (x.2.onHq q fun h => { h with sqTail := v, posted := postedBy h v (ents ++ x.1) }).fetch q

/-- HQ_SQ_TAIL. The operands are the entries that the host's ring holds from the last tail on, and how their reads end. -/
def execHqSqTail (q : Fin 8) (v : BitVec 32) (descs : List SqEnt) (ring : Dma) (s : State) : Host.Outcome State Fault Refusal :=
  .next (s.sqTail q.val v.toNat (descs.map (readAs · ring)))

/-- Post held completions while entries of the CQ are free (13 R354). -/
def State.flushCq (s : State) (q : Nat) : State :=
  let h := s.hq q
  let k := h.size - h.used
  let go := h.waiting.take k
  let s := go.foldl (fun s c => s.putCpl q c) (s.onHq q fun h => { h with waiting := h.waiting.drop k })
  let s := if go.any (·.intr) then s.signal h.vector h.holdoff else s
  s.fetch q

/-- A CQ head is written, 13 R342: it may stand from the last one up to the posting position (log entry 6). -/
def State.cqHead (s : State) (q v : Nat) : State :=
  let h := s.hq q
  if h.st ≠ .enabled then s
  else
    let d := (v + h.size - h.cqHead) % h.size
    if h.size ≤ v || h.used < d then s.queueError q 2
    else (s.onHq q fun h => { h with cqHead := v, used := h.used - d, cq := h.cq.drop d }).flushCq q

/-- HQ_CQ_HEAD. -/
def execHqCqHead (q : Fin 8) (v : BitVec 32) (s : State) : Host.Outcome State Fault Refusal := .next (s.cqHead q.val v.toNat)

/-- The event ring enters ERROR. -/
def State.evError (s : State) (reason : Nat) : State :=
  { s with host := { s.host with ev := { s.host.ev with st := .error, err := reason } } }

/-- The event head is written, 13 R356, 21 R518: entries are freed; after dropped events, EVENTS_LOST is posted with their count. -/
def State.evHead (s : State) (v : Nat) : State :=
  let r := s.host.ev
  if r.st ≠ .enabled then s
  else
    let d := (v + r.size - r.head) % r.size
    if r.size ≤ v || r.used < d then s.evError 2
    else
      let lost := r.lostNow
      let r := { r with head := v, used := r.used - d, ents := r.ents.drop d }
      let go := 0 < lost && r.used < r.size
      let s : State := { s with host := { s.host with ev := { r with lostNow := if go then 0 else lost } } }
      if go then s.event 0x0007 (le 4 (min lost 0xFFFFFFFF) ++ List.replicate 8 0) else s

/-- HQ_EV_HEAD. -/
def execHqEvHead (v : BitVec 32) (s : State) : Host.Outcome State Fault Refusal := .next (s.evHead v.toNat)

/-- A 32-bit write into the doorbell page at an offset, 13 R341: the tail and the head of queue q at 0x10 × q, the event head at 0x100; other
offsets are ignored. What the host's ring holds is then not said. -/
def State.doorbell (s : State) (o v : Nat) : State :=
  if o = 0x100 then s.evHead v
  else if o < 0x80 && o % 0x10 = 0 then s.sqTail (o / 0x10) v []
  else if o < 0x80 && o % 0x10 = 4 then s.cqHead (o / 0x10) v
  else s

/-! ## Enabling and disabling, 13 R336 to R338, 21 R517, R518 -/

/-- QUEUE_ENABLE: HQ_CTRL.ENABLE written 1 for the queue that HQ_SEL names. -/
def State.queueEnable (s : State) : State :=
  let q := s.host.sel
  let h := s.hq q
  match h.st with
  | .disabled =>
    if h.size = 0 then s.setupError 0x0008 1
    else s.onHq q fun h => { h with st := .enabled, err := 0, sqHead := 0, sqTail := 0, cqHead := 0, cqPost := 0,
                                    phase := true, used := 0, posted := [], backlog := [], cq := [], waiting := [] }
  | .draining => s.setupError 0x0008 1
  | _ => s

/-- QUEUE_ENABLE. -/
def execQueueEnable (s : State) : Host.Outcome State Fault Refusal := .next s.queueEnable

/-- Stop a queue: DRAINING, sessions closed, completions of its commands discarded. -/
def State.stopQueue (s : State) (q : Fin 8) : State :=
  let h := s.hq q.val
  if h.st = .enabled || h.st = .error then
    let s := s.onHq q.val fun h => { h with st := .draining, posted := [], backlog := [], waiting := [] }
    (s.orphan (.queue q)).closeAll (fun x => x.src = .queue q) 1
  else s

/-- QUEUE_DISABLE: HQ_CTRL.ENABLE written 0 for the queue that HQ_SEL names. -/
def execQueueDisable (s : State) : Host.Outcome State Fault Refusal :=
  .next (s.stopQueue (Fin.ofNat 8 s.host.sel))

/-- A drained queue: DISABLED, positions zero and PHASE 1 (21 R517). -/
def HQ.drain (h : HQ) : HQ :=
  { st := .disabled, sqBase := h.sqBase, cqBase := h.cqBase, size := h.size, vector := h.vector, holdoff := h.holdoff }

/-- QUEUE_DRAINED: no write to either ring is under way. -/
def execQueueDrained (q : Fin 8) (s : State) : Host.Outcome State Fault Refusal :=
  .next (if (s.hq q.val).st = .draining then s.onHq q.val HQ.drain else s)

/-- The event ring disabled. -/
def EvRing.stop (r : EvRing) : EvRing := { base := r.base, size := r.size, vector := r.vector, holdoff := r.holdoff }

/-- The event ring as it stands now: DISABLED once its draining has ended (13 R338, 21 R518). -/
def EvRing.at_ (r : EvRing) (now : Nat) : EvRing := if r.st = .draining && r.drainEnd ≤ now then r.stop else r

/-- Take the end of the event ring's draining into account. -/
def State.evSettle (s : State) : State := { s with host := { s.host with ev := s.host.ev.at_ s.clk.now } }

/-- HQ_EV_CTRL.ENABLE is written 0: DRAINING, and DISABLED after at most 100 µs (13 R338, 21 R517, R518); the time within them is a free value
(log entry 3). -/
def State.evDisable (s : State) : State :=
  if s.host.ev.st = .enabled || s.host.ev.st = .error then
    let (d, s) := s.drawNat
    { s with host := { s.host with ev := { s.host.ev with st := .draining, drainEnd := s.clk.now + d % 100001 } } }
  else s

/-- EVENT_RING_ENABLE: HQ_EV_CTRL.ENABLE written 1. -/
def State.evEnable (s : State) : State :=
  let s := s.evSettle
  let r := s.host.ev
  match r.st with
  | .disabled =>
    if r.size = 0 then s.setupError 0x0100 1
    else { s with host := { s.host with ev :=
      { st := .enabled, base := r.base, size := r.size, vector := r.vector, holdoff := r.holdoff } } }
  | .draining => s.setupError 0x0100 1
  | _ => s

/-- EVENT_RING_ENABLE. -/
def execEventRingEnable (s : State) : Host.Outcome State Fault Refusal := .next s.evEnable

/-- EVENT_RING_DISABLE: HQ_EV_CTRL.ENABLE written 0. -/
def execEventRingDisable (s : State) : Host.Outcome State Fault Refusal := .next s.evDisable

/-! ## Interrupts and BUSY, 13 R358, R375 -/

/-- INTERRUPT_HOLDOFF_EXPIRY: the end of the holdoff is reached, and one message covers everything posted in the meantime. -/
def execInterruptHoldoffExpiry (vec : Fin 16) (s : State) : Host.Outcome State Fault Refusal :=
  let m := s.host.msi[vec]
  if m.due then
    let s := s.reach m.dueAt
    let m' := if m.masked then { m with due := false, pba := true }
              else { m with due := false, last := some s.clk.now, sent := m.sent + 1 }
    .next { s with host := { s.host with msi := s.host.msi.set vec.val m' } }
  else .next s

/-- BUSY_ENTER: the event BUSY with the backlog; fetching from queues 1 to 7 stops. -/
def execBusyEnter (s : State) : Host.Outcome State Fault Refusal :=
  .next (if s.host.busy then s
         else ({ s with host := { s.host with busy := true, lowSince := none } } : State).noteLow.event 0x0001
                (le 4 s.backlog ++ List.replicate 8 0))

/-- BUSY_END: the backlog has stayed at 16 or less for 1 ms; fetching resumes from the tails kept. -/
def execBusyEnd (s : State) : Host.Outcome State Fault Refusal :=
  .next (match s.host.lowSince with
    | some t =>
      if s.host.busy && s.backlog ≤ 16 then
        let s := s.reach (t + 1000000)
        (({ s with host := { s.host with busy := false, lowSince := none } } : State).event 0x0002 (List.replicate 12 0)).fetchAll
      else s
    | none => s)

/-! ## Resets by the host, 18 R475, R477, 21 R520 -/

/-- The effect of a HIF_RESET_REQ write of a reserved or unpaired value. -/
def State.resetWrite (s : State) (k : Nat) : State := { s with host := { s.host with resetReq := some (k, s.clk.now) } }

/-- The write is the second of a pair: the same value within 1 ms. -/
def State.secondWrite (s : State) (k : Nat) : Bool :=
  match s.host.resetReq with
  | some (v, t) => v = k && s.clk.now ≤ t + 1000000
  | none => false

/-- HIF_RESET_HOST: a write of KIND 1; the second of a pair takes a reset of kind HOST with a fault message (11 R284). -/
def State.hifHost (s : State) : State :=
  if !s.resetOk 5 then s
  else if s.secondWrite 1 then (s.faultMessage 3).takeReset 5
  else if s.host.resetReq.isSome then (s.setupError 0x0200 1).resetWrite 1 else s.resetWrite 1

/-- HIF_RESET_HOST. -/
def execHifResetHost (s : State) : Host.Outcome State Fault Refusal := .next s.hifHost

/-- HIF_RESET_WARM: a write of KIND 2; the second of a pair takes a warm restart (18 R477). -/
def State.hifWarm (s : State) : State :=
  if !s.resetOk 8 then s
  else if s.secondWrite 2 then (s.faultMessage 3).takeReset 8
  else if s.host.resetReq.isSome then (s.setupError 0x0200 2).resetWrite 2 else s.resetWrite 2

/-- HIF_RESET_WARM. -/
def execHifResetWarm (s : State) : Host.Outcome State Fault Refusal := .next s.hifWarm

/-- FIRMWARE_WARM_RESTART: the firmware requests the warm restart itself, 18 R477. -/
def execFirmwareWarmRestart (s : State) : Host.Outcome State Fault Refusal :=
  .next (if s.resetOk 8 then (s.faultMessage 3).takeReset 8 else s)

/-- Disable every queue and the event ring, and close the sessions bound to the queues. -/
def State.stopRings (s : State) : State :=
  let s := (List.finRange 8).foldl (fun s q => (s.stopQueue q).onHq q.val fun _ => {}) s
  { s with host := { s.host with ev := {}, sel := 0, msi := Vector.replicate 16 {}, heldLow := [], latchedHigh := none } }

/-- HIF_LINK_RESET: a PCIe Conventional Reset or link-down resets the endpoint only (18 R475, 21 R515). -/
def execHifLinkReset (s : State) : Host.Outcome State Fault Refusal := .next (s.stopRings.record 0x0F0B (srcOf 14 0) [])

/-! ## The service channel, 13 R376 to R378 -/

/-- The first free connection. -/
def State.freeConn (s : State) : Option (Fin 4) := (List.finRange 4).find? fun k => (s.host.conn[k]).isNone

/-- TLS_CONNECT: a handshake on a port that serves; a fifth connection is closed at once. -/
def execTlsConnect (port : Fin 2) (handshakeOk : Bool) (s : State) : Host.Outcome State Fault Refusal :=
  let e := s.host.eth[port]
  match s.freeConn with
  | some k =>
    if handshakeOk && e.inService && e.linkUp && s.serves then
      .next { s with host := { s.host with conn := s.host.conn.set k.val (some { port := port.val }) } }
    else .next s
  | none => .next s

/-- Close a connection: its sessions close, its long operations run on (13 R377). -/
def State.closeConn (s : State) (k : Fin 4) : State :=
  if (s.host.conn[k]).isSome then
    let s : State := { s with host := { s.host with conn := s.host.conn.set k.val none, gone := s.host.gone ++ (s.host.conn[k]).toList } }
    (s.orphan (.conn k)).closeAll (fun x => x.src = .conn k) 2
  else s

/-- TLS_CLOSE. -/
def execTlsClose (conn : Fin 4) (s : State) : Host.Outcome State Fault Refusal := .next (s.closeConn conn)

/-- A command with a host-to-module buffer, 13 R361; `act` is INLINE byte 0. -/
def toModule (op act : Nat) : Bool :=
  [0x0011, 0x0050, 0x0051, 0x0060, 0x0061, 0x0070, 0x0080, 0x00B0].contains op || (op = 0x0031 && act = 5) ||
    (op = 0x0041 && act = 3)

/-- The capsule keeps the rules of 13 R378. -/
def capsuleOk (c : Capsule) : Bool :=
  c.ctype = 1 && c.rsvd = 0 && c.desc.cmd.bufAddr = 0 &&
    c.dlen = (if toModule c.desc.opcode (c.desc.cmd.inf 0 1) then c.desc.cmd.length else 0)

/-- CAPSULE_RX: a command joins the connection's backlog; a capsule that breaks the rules is answered and the connection closed;
in BUSY no capsule is read (13 R375). -/
def execCapsuleRx (conn : Fin 4) (cap : Capsule) (s : State) : Host.Outcome State Fault Refusal :=
  if (s.host.conn[conn]).isNone || s.host.busy then .next s
  else
    let c := { cap.desc.cmd with src := .conn conn }
    if !capsuleOk cap then .next ((s.final cap.desc.opcode c stInvalid dReserved).closeConn conn)
    else if !knownOp cap.desc.opcode then .next (s.final cap.desc.opcode c stInvalid dOpcode)
    else
      let x := (s.host.conn[conn]).map fun x => { x with backlog := x.backlog ++ [{ cap.desc with cmd := c }] }
      .next { s with host := { s.host with conn := s.host.conn.set conn.val x } }

/-! ## PAIR_CTRL and Ethernet, 21 R519 to R524 -/

/-- PAIR_CTRL: both fields, stored in settings block 0x0002 within 10 ms; reserved bits are ignored (00 R11). HOT acts at the next still
point. A write that the older FORMAT cannot hold is refused as 00 R11 gives for a register (12 R334; log entry 86). -/
def State.pairCtrl (s : State) (v : Word) : State :=
  if !s.fits 2 (le 8 v.toNat) then s.setupError 0x0208 v.toNat
  else
    let p := s.pair.ctrlDue s.clk.now
    ({ s with pair := { p with
        hotReg := v.getLsbD 0, autostart := v.getLsbD 1, ctrl := p.ctrl ++ [(s.clk.now, v.getLsbD 0, v.getLsbD 1)] } } : State).wroteBlock 2

/-- PAIR_CTRL. -/
def execPairCtrl (v : Word) (s : State) : Host.Outcome State Fault Refusal := .next (s.pairCtrl v)

/-- The gateway lies in the port's prefix. -/
def inPrefix (addr gw : BitVec 32) (pre : Nat) : Bool := gw = 0 || addr.toNat / 2 ^ (32 - pre) = gw.toNat / 2 ^ (32 - pre)

/-- What settings block 0x0005 is to hold: the staged values of both ports (12 R332, 21 R524). -/
def ethBytes (s : State) : List Byte :=
  s.host.eth.toList.flatMap fun e => le 1 (bitIf e.service 0) ++ le 4 e.addr.toNat ++ le 1 e.pre ++ le 4 e.gw.toNat

/-- ETH_APPLY: check, store in settings block 0x0005 and apply; connections close when SERVICE or ADDRESS changes; a port that
carries IEEE 1588 over UDP loses its reference when ADDRESS changes. `v` is the value written to ETH_CTRL. -/
def State.ethApply (s : State) (port : Fin 2) (v : Nat) : State :=
  let e := s.host.eth[port]
  if (e.service && e.addr = 0) || !inPrefix e.addr e.gw e.pre || !s.fits 5 (ethBytes s) then s.setupError (0x0400 + 0x40 * port.val) v
  else
    let e' := { e with inService := e.service, inAddr := e.addr, inPre := e.pre, inGw := e.gw }
    let eth := s.host.eth.set port.val e'
    let stored := eth.toList.map fun e => (e.inService, e.inAddr, e.inPre, e.inGw)
    let s := ({ s with host := { s.host with eth := eth, ethStored := stored } } : State).wroteBlock 5
    let s := if e.inService ≠ e.service || e.inAddr ≠ e.addr then
        (List.finRange 4).foldl (fun s k =>
          if ((s.host.conn[k]).map (·.port)) = some port.val then s.closeConn k else s) s
      else s
    let ptp := match s.net.cfg with
      | some c => c.src.transport = 1 && c.src.ports.testBit port.val
      | none => false
    if e.inAddr ≠ e.addr && ptp && (s.act.master.map (·.1)) = some port.val then
      { s with act := { s.act with
          ref := .free, master := none, near := 0, far := 0, masters := s.act.masters.filter fun x => x.1 ≠ port.val } }
    else s

/-- ETH_APPLY: ETH_CTRL is written with APPLY set and SERVICE as staged. -/
def execEthApply (port : Fin 2) (s : State) : Host.Outcome State Fault Refusal :=
  .next (s.ethApply port (2 + bitIf (s.host.eth[port]).service 0))

end Sys2Proof.Machine
end

