-- ==== Sys2Proof/Machine/Regs.lean ====
section
/-! DEFINITION. What a read of each register and of memory gives: 02 R554, 08 R207, 09 R234, 10 R275, 15 R426, 17 R457,
21 R516 to R530. -/

namespace Sys2Proof.Machine
open Sys2Proof

/-- START of NET_STATUS, 21 R522. -/
def Start.code : Start → Nat
  | .none_ => 0
  | .listen => 1
  | .contend => 2
  | .lead => 3
  | .follow => 4
  | .failed => 5
  | .silent => 6

/-- NET_STATUS. -/
def State.netStatus (s : State) : Nat :=
  s.net.start.code + bitIf (s.net.leader = .b) 3 + s.act.ref.code * 2 ^ 4 +
  (match s.net.cfg with
   | some c => bitIf (c.profile = 1) 6 + c.sched * 2 ^ 8 + c.matrixExp * 2 ^ 24 + c.t * 2 ^ 32
   | none => 0) + bitIf s.cyc.lullCycle 7

/-- HQ_POS of a queue; zero in DISABLED with PHASE 1 (21 R517). -/
def HQ.pos (h : HQ) : Nat :=
  if h.st = .disabled then 2 ^ 60
  else h.sqHead + h.sqTail * 2 ^ 16 + h.cqHead * 2 ^ 32 + h.cqPost * 2 ^ 48 + bitIf h.phase 60

/-- HQ_EV_POS. -/
def EvRing.pos (r : EvRing) : Nat :=
  (if r.st = .disabled then 2 ^ 28 else r.post + r.head * 2 ^ 16 + bitIf r.phase 28) + min r.lost 0xFFFFFFFF * 2 ^ 32

/-- A plant port's registers, 21 R523. -/
def State.ethReg (s : State) (p o : Nat) : Nat :=
  let e := s.host.eth.toList.getD p {}
  match o with
  | 0x00 => bitIf e.service 0
  | 0x08 => e.addr.toNat + e.pre * 2 ^ 32
  | 0x10 => e.gw.toNat
  | 0x18 => e.mac.toNat
  | 0x20 => bitIf e.linkUp 0 + (s.host.conn.toList.countP fun c => (c.map (·.port)) = some p) * 2 ^ 8
  | _ => 0

/-- Slot 28. -/
def State.reg28 (s : State) (o : Nat) : Nat :=
  let h := s.hq s.host.sel
  let e := s.host.ev.at_ s.clk.now
  match o with
  | 0x0000 => s.host.sel
  | 0x0008 => bitIf (h.st = .enabled || h.st = .error) 0
  | 0x0010 => h.st.code + (if h.st = .error then h.err else 0) * 2 ^ 8
  | 0x0018 => h.sqBase.toNat
  | 0x0020 => h.cqBase.toNat
  | 0x0028 => h.size
  | 0x0030 => h.vector
  | 0x0038 => h.holdoff
  | 0x0040 => h.pos
  | 0x0100 => bitIf (e.st = .enabled || e.st = .error) 0
  | 0x0108 => e.st.code + (if e.st = .error then e.err else 0) * 2 ^ 8
  | 0x0110 => e.base.toNat
  | 0x0118 => e.size
  | 0x0120 => e.vector
  | 0x0128 => e.holdoff
  | 0x0130 => e.pos
  | 0x0208 => bitIf s.pair.hotReg 0 + bitIf s.pair.autostart 1
  | 0x0300 => s.netStatus
  | 0x0308 => if s.net.start = .none_ then 0 else s.cyc.n
  | 0x0310 => if s.timeHeld then s.netTime else 0
  | 0x0318 => s.cyc.still
  | _ =>
    if 0x0400 ≤ o && o < 0x0440 then s.ethReg 0 (o - 0x0400)
    else if 0x0440 ≤ o && o < 0x0480 then s.ethReg 1 (o - 0x0440)
    else if 0xA000 ≤ o && o < 0xA100 then
      let m := s.host.msi.toList.getD ((o - 0xA000) / 16) {}
      if o % 16 = 0 then m.addr.toNat else m.data.toNat + bitIf m.masked 32
    else if o = 0xB000 then (List.range 16).foldl (fun a i => a + bitIf (s.host.msi.toList.getD i {}).pba i) 0
    else 0

/-- Slot 0, 21 R525. -/
def State.reg0 (s : State) (o : Nat) : Nat :=
  match o with
  | 0x00 => 0x7240 + s.keys.hwRev % 256 * 2 ^ 16 + s.slot.num * 2 ^ 24 + s.fwGen % 2 ^ 16 * 2 ^ 32
  | 0x08 => s.keys.serial
  | 0x10 => s.keys.life + s.pair.role.code * 2 ^ 4 + bitIf s.pwr.full 8 + bitIf s.calm.on 9 +
      bitIf (!s.img.force.isEmpty) 10 + bitIf s.rtc.invalid 11 + bitIf (s.keys.dbgSeen || s.keys.life = 0) 12 + s.img.force.length * 2 ^ 16 +
      s.keys.boot * 2 ^ 32
  | 0x18 => (if s.pwr.full then 2 else 1) + bitIf s.faultLit 2 + bitIf (!s.img.force.isEmpty) 3 + s.pwr.ledSwap * 2 ^ 4
  | _ => 0

/-- Slot 1, 21 R526. -/
def State.reg1 (s : State) (o : Nat) : Nat :=
  match o with
  | 0x00 => min s.pwr.fa.mv 65535 + min s.pwr.fb.mv 65535 * 2 ^ 16 + bitIf s.pwr.fa.valid 32 + bitIf s.pwr.fb.valid 33 +
      bitIf s.pwr.fa.pathFault 34 + bitIf s.pwr.fb.pathFault 35 + s.pwr.st.code * 2 ^ 48 + min s.pwr.store 255 * 2 ^ 56
  | 0x08 => s.pwr.good.toNat + s.pwr.faulted.toNat * 2 ^ 16
  | 0x10 => s.pwr.kind
  | _ => 0

/-- Slot 3, 21 R527. -/
def State.reg3 (s : State) (o : Nat) : Nat :=
  let a := if s.slot = .a then s.pair.own else s.pair.other
  let b := if s.slot = .a then s.pair.other else s.pair.own
  match o with
  | 0x00 => bitIf a 0 + bitIf b 1 + bitIf s.pair.drive 2 + bitIf s.holder 3 + s.pair.role.code * 2 ^ 4 + bitIf s.currentShown 7 +
      bitIf s.lanes.lockout 8 + bitIf s.pair.hot 9 + bitIf s.pair.noHolder 10 + s.pair.lanes.toNat * 2 ^ 11 +
      bitIf s.pair.auth 13 + min s.lanes.faultLog.length 255 * 2 ^ 16 + s.pair.xferSeq % 2 ^ 32 * 2 ^ 32
  | 0x08 => match s.pair.hb with
    | some h => h.role % 8 + h.pflags.toNat % 256 * 2 ^ 8 + h.fwGen % 2 ^ 16 * 2 ^ 16 + h.cycle % 2 ^ 32 * 2 ^ 32
    | none => 0
  | _ => 0

/-- Slot 4, 17 R457. -/
def State.reg4 (s : State) (o : Nat) : Nat :=
  match o with
  | 0x00 => calPack (s.rtc.sec s.clk.now) (s.rtc.units s.clk.now % 32768)
  | 0x08 => s.rtcState
  | 0x10 => s.rtc.stampSec
  | 0x18 => s.rtc.alarm.toNat
  | _ => if 0x40 ≤ o && o < 0x80 then field s.rtc.bkp.toList (o - 0x40) 8 else 0

/-- PERM of a slot's fall-back, 15 R413. -/
def slotPerm (n : Nat) : Nat :=
  let f := fallback n
  (List.range 8).foldl (fun a c => a + bitIf (f.1.contains c) (3 * c) + bitIf (f.2.contains c) (3 * c + 1)) 0

/-- Slot 8, 15 R426. -/
def State.reg8 (s : State) (o : Nat) : Nat :=
  let w := s.wb
  match o with
  | 0x0000 => bitIf w.update 0 + bitIf w.load 1 + bitIf w.armed 2 + bitIf w.held 3 + bitIf w.aborted 4 + bitIf s.wbStandby 5
  | 0x0008 => w.precise + w.imprecise * 2 ^ 32
  | 0x0010 => w.updates + w.aborts * 2 ^ 16 + w.lastHold % 2 ^ 32 * 2 ^ 32
  | 0x0018 => w.last.toNat
  | _ =>
    if 0x1000 ≤ o && o < 0x1800 then
      let r := w.rgn.toList.getD ((o - 0x1000) / 0x20) {}
      match (o - 0x1000) % 0x20 with
      | 0x00 => r.addr.toNat
      | 0x08 => r.perm.toNat
      | 0x10 => r.scope.toNat
      | _ => 0
    else if 0x1800 ≤ o && o < 0x1980 then slotPerm ((o - 0x1800) / 8)
    else 0

/-- Slots 12 to 19 of lane `l`, 02 R554: what copy `c` reads. -/
def State.regLane (s : State) (l : Nat) (c : Side) (o : Nat) : Nat :=
  let x := (s.laneAt l).copy c
  let t := s.taskAt x.curTask
  match o with
  | 0x0000 => if s.clk.netOn then s.netTime else 0
  | 0x0108 => x.curTask + bitIf x.idle 5
  | 0x0110 => if x.idle then bitIf (s.laneAt l).split 2 else bitIf t.firstRun 0 + bitIf t.takeover 1 + bitIf (s.laneAt l).split 2
  | 0x0118 =>
    match s.taskCfg x.curTask with
    | some cfg => if x.idle || s.directTask cfg || cfg.inputs = [] then 0 else s.incopyAt x.curTask
    | none => 0
  | 0x0100 => 0
  | _ => (Config.laneCtlRead o (BitVec.ofNat 17 ((s.laneAt l).markEn.toNat + bitIf (s.laneAt l).timerEn 16))).toNat

/-- Slot 20: the tracking command windows, 09 R234. -/
def State.reg20 (s : State) (o : Nat) : Nat :=
  if 0x8000 ≤ o && o < 0x8800 then
    let w := s.trk.win.toList.getD ((o - 0x8000) / 0x100) {}
    match (o - 0x8000) % 0x100 with
    | 0x00 => w.obj.toNat
    | 0x08 => w.seg.toNat
    | 0x10 => w.pos.toNat
    | 0x18 => w.tag.toNat
    | 0x20 => w.id.toNat
    | 0x28 => w.user.toNat
    | 0x38 => w.code + w.robj * 2 ^ 32
    | 0x40 => s.trk.free
    | _ => 0
  else 0

/-- Slot 22: the actuation push windows, 08 R207. -/
def State.reg22 (s : State) (o : Nat) : Nat :=
  if 0x8000 ≤ o && o < 0x8800 then
    let l := (o - 0x8000) / 0x100
    match (o - 0x8000) % 0x100 with
    | 0x00 => (s.act.pushA.toList.getD l 0).toNat
    | 0x10 => s.act.result.toList.getD l 0
    | 0x18 => 8192 - s.act.pool.length
    | _ => 0
  else 0

/-- Slots 26 and 27: a group of local channels, 10 R275. -/
def State.regLio (s : State) (g : Side) (o : Nat) : Nat :=
  match o with
  | 0x00 => (s.lio.grp g).word g.num s.clk.now
  | 0x08 => (List.range 8).foldl (fun a c => a + bitIf (s.lch (8 * g.num + c)).trip.isSome c) 0
  | _ => if 0x20 ≤ o && o < 0x60 && o % 8 = 0 then (s.lch (8 * g.num + (o - 0x20) / 8)).word (8 * g.num + (o - 0x20) / 8) s.clk.now else 0

/-- The slots whose registers the manual describes. -/
def described (slot : Nat) : Bool := [0, 1, 3, 4, 8, 12, 13, 14, 15, 16, 17, 18, 19, 20, 22, 26, 27, 28].contains slot

/-- The 64-bit register at an offset of a slot; offsets not listed are reserved and read as zero (00 R11, 21 R514). -/
def State.regRead (s : State) (slot : Nat) (c : Side) (o : Nat) : Nat :=
  match slot with
  | 0 => s.reg0 o
  | 1 => s.reg1 o
  | 3 => s.reg3 o
  | 4 => s.reg4 o
  | 8 => s.reg8 o
  | 20 => s.reg20 o
  | 22 => s.reg22 o
  | 26 => s.regLio .a o
  | 27 => s.regLio .b o
  | 28 => s.reg28 o
  | _ => if 12 ≤ slot && slot < 20 then s.regLane (slot - 12) c o else 0

/-- The byte that memory holds at an address: the tracking tables, the force table and the tasks' input copies in their layouts (09
R219, 04 R111, 02 R44), every other address its cell. -/
def State.byteOf (s : State) (a : Nat) : Byte :=
  if 0x0160000000 ≤ a && a < 0x017C000000 then trkByte s.trk s.act.log (a - 0x0160000000)
  else if forceBlock ≤ a && a < forceBlock + 0x20000 then
    byteAt (((s.img.force[(a - forceBlock) / 32]?).map Force.enc).getD []) ((a - forceBlock) % 32)
  else if inSram a then
    match s.incopyOf a with
    | some t => byteAt (incopyBytes (s.taskAt t.num).incopy) (a - s.incopyAt t.num)
    | none => memGet s.mem a
  else memGet s.mem a

/-- Read a run of bytes as the targets hold them. -/
def State.readOf (s : State) (a k : Nat) : List Byte := (List.range k).map fun i => s.byteOf (a + i)

end Sys2Proof.Machine
end

