-- ==== Sys2Proof/Machine/Interconnect.lean ====
section
/-! DEFINITION. The interconnect: register writes, transactions at the Windbreak and at their targets (01 R21, 03 R89, 15 R419 to
R422, 20 R502), and the compared lanes in front of it (03 R59 to R92). -/

namespace Sys2Proof.Machine
open Sys2Proof

/-! ## Register writes, 00 R11, 21 R515 to R524 -/

/-- A setup register of a queue: written only while the queue is disabled (13 R336). -/
def State.hqWrite (s : State) (o : Nat) (v : Word) (f : HQ → HQ) : State :=
  if (s.hq s.host.sel).st = .disabled then s.onHq s.host.sel f else s.setupError o v.toNat

/-- A setup register of the event ring. -/
def State.evWrite (s : State) (o : Nat) (v : Word) (f : EvRing → EvRing) : State :=
  let s := s.evSettle
  if s.host.ev.st = .disabled then { s with host := { s.host with ev := f s.host.ev } } else s.setupError o v.toNat

/-- HQ_SIZE values: a power of two from 16 to 4,096 (13 R336). -/
def sizeOk (n : Nat) : Bool := [16, 32, 64, 128, 256, 512, 1024, 2048, 4096].contains n

/-- Staged values of a plant port. -/
def State.ethWrite (s : State) (p : Fin 2) (o : Nat) (v : Word) : State :=
  let stage (f : Eth → Eth) : State := { s with host := { s.host with eth := s.host.eth.set p.val (f s.host.eth[p]) } }
  match o with
  | 0x00 => let s' := stage fun e => { e with service := v.getLsbD 0 }
            if v.getLsbD 1 then s'.ethApply p v.toNat else s'
  | 0x08 => if 32 < (v >>> 32).toNat % 64 then s.setupError (0x0408 + 0x40 * p.val) v.toNat
            else stage fun e => { e with addr := v.setWidth 32, pre := (v >>> 32).toNat % 64 }
  | 0x10 => stage fun e => { e with gw := v.setWidth 32 }
  | _ => s

/-- The MSI-X table in BAR2: message address, message data and the mask bit; unmasking sends a pending message (13 R358, the PCI
Express Base Specification). -/
def State.msiWrite (s : State) (o : Nat) (v : Word) : State :=
  let k := (o - 0xA000) / 16
  let m := s.host.msi.toList.getD k {}
  let m := if o % 16 = 0 then { m with addr := v } else { m with data := v.setWidth 32, masked := v.getLsbD 32 }
  let m := if m.pba && !m.masked then { m with pba := false, sent := m.sent + 1, last := some s.clk.now } else m
  { s with host := { s.host with msi := s.host.msi.setIfInBounds k m } }

/-- Slot 28. The doorbells are written by `State.doorbell`. -/
def State.write28 (s : State) (o : Nat) (v : Word) : State :=
  match o with
  | 0x0000 => { s with host := { s.host with sel := (v &&& 7).toNat } }
  | 0x0008 => if v.getLsbD 0 then s.queueEnable else s.stopQueue (Fin.ofNat 8 s.host.sel)
  | 0x0018 => s.hqWrite o v fun h => { h with sqBase := v &&& 0xFFFFFFFFFFFFF000 }
  | 0x0020 => s.hqWrite o v fun h => { h with cqBase := v &&& 0xFFFFFFFFFFFFF000 }
  | 0x0028 => if sizeOk (v.toNat % 8192) then s.hqWrite o v fun h => { h with size := v.toNat % 8192 }
              else s.setupError o v.toNat
  | 0x0030 => s.hqWrite o v fun h => { h with vector := v.toNat % 16 }
  | 0x0038 => if 1000 < v.toNat % 1024 then s.setupError o v.toNat
              else s.hqWrite o v fun h => { h with holdoff := v.toNat % 1024 }
  | 0x0100 => if v.getLsbD 0 then s.evEnable else s.evDisable
  | 0x0110 => s.evWrite o v fun h => { h with base := v &&& 0xFFFFFFFFFFFFF000 }
  | 0x0118 => if sizeOk (v.toNat % 8192) then s.evWrite o v fun h => { h with size := v.toNat % 8192 }
              else s.setupError o v.toNat
  | 0x0120 => s.evWrite o v fun h => { h with vector := v.toNat % 16 }
  | 0x0128 => if 1000 < v.toNat % 1024 then s.setupError o v.toNat
              else s.evWrite o v fun h => { h with holdoff := v.toNat % 1024 }
  | 0x0200 => match v.toNat % 4 with
    | 1 => s.hifHost
    | 2 => s.hifWarm
    | k => (s.setupError o v.toNat).resetWrite k
  | 0x0208 => s.pairCtrl v
  | _ =>
    if 0x0400 ≤ o && o < 0x0440 then s.ethWrite 0 (o - 0x0400) v
    else if 0x0440 ≤ o && o < 0x0480 then s.ethWrite 1 (o - 0x0440) v
    else if 0xA000 ≤ o && o < 0xA100 then s.msiWrite o v
    else s

/-- Slot 4: MGT writes the clock registers in carrying out the commands of 17 (R457). -/
def State.write4 (s : State) (o : Nat) (v : Word) : State :=
  let r := s.rtc
  match o with
  | 0x08 =>
    let r := r.rebase s.clk.now
    { s with rtc := { r with
      invalid := v.getLsbD 0, battLow := v.getLsbD 1, dst := v.getLsbD 3, stampSet := v.getLsbD 4, stampLost := v.getLsbD 5
      armed := v.getLsbD 6, fired := v.getLsbD 7, skipped := v.getLsbD 8, batt := (v >>> 16).toNat % 256
      zone := int8 ((v >>> 24).toNat % 256), taiUtc := int16 ((v >>> 32).toNat % 65536), trim := int8 ((v >>> 48).toNat % 256) } }
  | 0x10 => { s with rtc := { r with stampSec := v.toNat % 2 ^ 34 } }
  | 0x18 => { s with rtc := { r with alarm := v } }
  | _ =>
    if 0x40 ≤ o && o < 0x80 then
      { s with rtc := { r with bkp := Vector.ofFn fun i : Fin 64 =>
          if o - 0x40 ≤ i.val ∧ i.val < o - 0x40 + 8 then (v >>> (8 * (i.val - (o - 0x40)))).setWidth 8 else r.bkp[i] } }
    else s

/-- Run an outcome's next state on, else keep the state. -/
def onNext (s : State) (o : Host.Outcome State Fault Refusal) : State :=
  match o with
  | .next t => t
  | _ => s

/-! ## The order of grants, 01 R16 -/

/-- A transaction with the lane that issues it, without a compared item. -/
def Held.of (t : Txn) : Held := { t := t, lane := t.lane.val }

/-- Place of a transaction's requester in the order of 01 R16: NET, compared lanes, TRK, the mirror engine, split lanes, MGT, HOST,
DBG. -/
def State.place16 (s : State) (t : Txn) : Nat :=
  match t.cls.val with
  | 6 => 0
  | 7 => if t.engine = 0 then 2 else 3
  | 3 => 5
  | 4 => 6
  | 5 => 7
  | _ => if (s.laneAt t.lane.val).split then 4 else 1

/-- The requester within its class: the lane, and in a split lane the copy. -/
def State.requester (s : State) (t : Txn) : Nat :=
  if 2 < t.cls.val then 0 else 2 * t.lane.val + (if (s.laneAt t.lane.val).split then t.copy.num else 0)

/-- The transaction that is granted of those that wait: of the highest class, the oldest of the requester whose turn it is after the
one granted last (01 R16). That the order holds across targets too is a DESIGN CHOICE (log entry 71). -/
def State.grant (s : State) (l : List Held) : Option Held :=
  let best := l.foldl (fun b h => min b (s.place16 h.t)) 8
  let of_ := l.filter fun h => s.place16 h.t = best
  let last := s.wb.turn.toList.getD best 0
  let next := of_.foldl (fun b h => let k := (s.requester h.t + 32 - last - 1) % 32; if k < b then k else b) 32
  of_.find? fun h => (s.requester h.t + 32 - last - 1) % 32 = next

/-- Grant waiting transactions one after the other; `k` runs one. -/
def State.grantAll (k : State → Held → State) : Nat → List Held → State → State
  | 0, _, s => s
  | n + 1, l, s =>
    match s.grant l with
    | none => s
    | some h =>
      let turn := s.wb.turn.setIfInBounds (s.place16 h.t) (s.requester h.t)
      State.grantAll k n (l.erase h) (k { s with wb := { s.wb with turn := turn } } h)

/-- The gate opens: the transactions that it held are granted. -/
def State.openGate (s : State) (k : State → Held → State) : State :=
  let l := s.wb.gate
  State.grantAll k l.length l { s with wb := { s.wb with gate := [], held := false, update := false } }

/-- UPDATE cleared by MGT: the new table applies to every held transaction and the gate opens (15 R419); the first completed update
arms the Windbreak (R414). -/
def State.updateClear (s : State) (k : State → Held → State) : State :=
  if s.wb.update then
    let w := { s.wb with armed := true, updates := min 65535 (s.wb.updates + 1), lastHold := s.clk.now - s.wb.since }
    ({ s with wb := w } : State).openGate k
  else s

/-- UPDATE still set 8 µs after it was set: shadow restored, UPDATE and LOAD cleared, ABORTED set, gate open, WB_ABORT; an abort at a
change instant abandons that boundary (15 R421). -/
def State.updateAbort (s : State) (k : State → Held → State) : State :=
  if s.wb.update then
    let s := s.reach (s.wb.since + 8000)
    let w := { s.wb with rgn := s.wb.shadow, load := false, aborted := true, aborts := min 65535 (s.wb.aborts + 1)
                         lastHold := s.clk.now - s.wb.since }
    let s : State := { s with
      wb := w
      chg := { s.chg with change := s.chg.change.map fun c => { c with abandoned := true } } }
    (s.openGate k).record 0x0D01 (srcOf 12 0) []
  else s

/-- Slot 8: Windbreak control, MGT only (15 R426). -/
def State.write8 (s : State) (o : Nat) (v : Word) (k : State → Held → State) : State :=
  if o = 0x0000 then
    let s := if v.getLsbD 4 then { s with wb := { s.wb with aborted := false } } else s
    let s := if v.getLsbD 0 then s.updateSet else s
    let s := if v.getLsbD 1 then (if s.wb.load then s else s.loadSet v.toNat) else { s with wb := { s.wb with load := false } }
    if !v.getLsbD 0 then s.updateClear k else s
  else if 0x1000 ≤ o && o < 0x1800 && (o - 0x1000) % 0x20 < 0x18 then
    s.rgnWrite (Fin.ofNat 64 ((o - 0x1000) / 0x20)) ((o - 0x1000) % 0x20 / 8) v
  else s

/-- Slots 12 to 19: the lane control registers that the manual gives, and the runtime's writes to its timer compare and interrupt
controller, whose layout is its own (02 R46, R554; log entry 3). -/
def State.writeLane (s : State) (l : Nat) (c : Side) (o : Nat) (v : Word) : State :=
  match o with
  | 0x0000 => s
  | 0x0100 => s.taskDone l c v
  | 0x0108 => s.curWrite l c v
  | 0x0110 => s
  | 0x0118 => s
  | _ =>
    let x := s.laneAt l
    let e := Config.laneCtl o v (BitVec.ofNat 17 (x.markEn.toNat + bitIf x.timerEn 16))
    s.onLane l fun x => { x with markEn := e.setWidth 16, timerEn := e.getLsbD 16 }

/-- A register of a tracking command window, 09 R234. -/
def State.trkWrite (s : State) (l reg : Nat) (v : Word) : State :=
  let put (f : CmdWin → CmdWin) : State :=
    s.onTrk fun t => { t with win := t.win.setIfInBounds l (f (t.win.toList.getD l {})) }
  match reg with
  | 0x00 => put fun w => { w with obj := v }
  | 0x08 => put fun w => { w with seg := v }
  | 0x10 => put fun w => { w with pos := v }
  | 0x18 => put fun w => { w with tag := v }
  | 0x20 => put fun w => { w with id := v }
  | 0x28 => put fun w => { w with user := v }
  | 0x30 => s.trkGo l (v.toNat % 16) (v >>> 4 ≠ 0)
  | _ => s

/-- Slot 20: the tracking command windows, 0x100 apart. -/
def State.write20 (s : State) (o : Nat) (v : Word) : State :=
  if 0x8000 ≤ o && o < 0x8800 then s.trkWrite ((o - 0x8000) / 0x100) ((o - 0x8000) % 0x100) v else s

/-- A register of a lane's actuation push window, 08 R207. -/
def State.actWrite (s : State) (l reg : Nat) (v : Word) : State :=
  match reg with
  | 0x00 => { s with act := { s.act with pushA := s.act.pushA.setIfInBounds l v } }
  | 0x08 => s.push l (s.act.pushA.toList.getD l 0) v
  | _ => s

/-- Slot 22: the actuation push windows. -/
def State.write22 (s : State) (o : Nat) (v : Word) : State :=
  if 0x8000 ≤ o && o < 0x8800 then s.actWrite ((o - 0x8000) / 0x100) ((o - 0x8000) % 0x100) v else s

/-- A write of a whole register that has passed the Windbreak. -/
def State.regWrite (s : State) (slot : Nat) (c : Side) (o : Nat) (v : Word) (k : State → Held → State) : State :=
  match slot with
  | 4 => s.write4 o v
  | 8 => s.write8 o v k
  | 20 => s.write20 o v
  | 22 => s.write22 o v
  | 26 => if o = 0x10 then s.tripMask .a v else s
  | 27 => if o = 0x10 then s.tripMask .b v else s
  | 28 => s.write28 o v
  | _ => if 12 ≤ slot && slot < 20 then s.writeLane (slot - 12) c o v else s

/-! ## Faults at the targets, 03 R81, R82, R89, 20 R502 -/

/-- ATTR of an item, 03 R60. -/
def attrOf (i : Item) : Nat :=
  i.kind.toNat + i.size.toNat * 2 ^ 3 + i.priv.toNat * 2 ^ 6 + bitIf i.fetch 8 + bitIf i.fill 9 + i.seq.toNat * 2 ^ 10

/-- Bytes of an item's block that are enabled, the others 0. -/
def enabled (i : Item) (from_ k : Nat) : List Byte :=
  (List.range k).map fun j => if i.be.getLsbD (from_ + j) then (i.data >>> (8 * (from_ + j))).setWidth 8 else 0

/-- The first enabled byte in which two items' DATA differ. -/
def dataDiff (a b : Item) : Option Nat :=
  (List.range 64).find? fun j =>
    (a.be.getLsbD j || b.be.getLsbD j) && ((a.data >>> (8 * j)).setWidth 8 : Byte) ≠ ((b.data >>> (8 * j)).setWidth 8 : Byte)

/-- FIELD: the fields in which two items differ (03 R82). -/
def fieldDiff (a b : Item) : Nat :=
  bitIf (a.addr ≠ b.addr) 0 + bitIf (attrOf a ≠ attrOf b) 1 + bitIf (a.be ≠ b.be) 2 + bitIf (dataDiff a b).isSome 3

/-- The payload of LANE_FAULT after the header (03 R82); the retirement counts at the latch are free values (log entry 3). -/
def State.faultPay (s : State) (lane kind : Nat) (lead : Nat) (item : Nat) (a b : Option Item) (injected : Bool) : List Byte × State :=
  let (ra, s) := s.drawNat
  let (rb, s) := s.drawNat
  let both := match a, b with
    | some x, some y => kind = 1 && (dataDiff x y).isSome
    | _, _ => false
  let ofs := match a, b with
    | some x, some y => if both then (dataDiff x y).getD 0xFF else 0xFF
    | _, _ => 0xFF
  let at_ := if ofs = 0xFF then 0 else ofs / 16 * 16
  let show_ := !s.confidential
  let dat (i : Option Item) : List Byte := match i with
    | some x => if show_ then enabled x at_ 16 else List.replicate 16 0
    | none => List.replicate 16 0
  let num (f : Item → Nat) (i : Option Item) : Nat := (i.map f).getD 0
  let l := s.laneAt lane
  let c := l.copy (if lead = 1 then .b else .a)
  (le 1 lane ++ le 1 kind ++ le 1 lead ++
    le 1 (match a, b with
      | some x, some y => if kind = 1 then fieldDiff x y else 0
      | _, _ => 0) ++
    le 4 (item % 2 ^ 32) ++ le 8 ra ++ le 8 rb ++ le 8 (num (fun i => i.addr.toNat) a) ++ le 8 (num (fun i => i.addr.toNat) b) ++
    le 4 (num attrOf a) ++ le 4 (num attrOf b) ++ le 8 (num (fun i => i.be.toNat) a) ++ le 8 (num (fun i => i.be.toNat) b) ++
    le 1 ofs ++ le 1 (if show_ then 16 else 0) ++ le 1 (if c.idle || lane = 8 then 0xFF else c.curTask) ++
    le 1 (if injected then 1 else 0) ++ dat a ++ dat b ++ le 4 0, s)

/-- The kind of lane fault that an injection expects (03 R92); 0 for KIND 5, which expects none. -/
def expected (kind : Nat) : Nat :=
  match kind with
  | 0 | 1 | 4 => 1
  | 2 => 3
  | 3 => 4
  | 6 => 5
  | _ => 0

/-- The fields that differ between two items are those that an injection of a kind alters: ADDR for KIND 0, DATA for KIND 1 and 4 (03
R92). -/
def injectedField (kind : Nat) (a b : Option Item) : Bool :=
  match kind, a, b with
  | 0, some x, some y => fieldDiff x y % 2 = 1
  | 1, some x, some y => 8 ≤ fieldDiff x y
  | 4, some x, some y => 8 ≤ fieldDiff x y
  | _, _, _ => true

/-- The injection that has fired in a lane. -/
def State.firedIn (s : State) (lane : Nat) : Option Inject :=
  match s.lanes.inject with
  | some i => if i.lane = lane && i.fired.isSome then some i else none
  | none => none

/-- The LANE_INJECT command ends, with OK where the expected result has come within 10 ms after the fault fired (03 R92); a management
lane that is halted completes nothing. -/
def State.endInject (s : State) (i : Inject) (ok : Bool) (r0 : Nat) : State :=
  let ok := ok && (i.fired.any fun f => s.clk.now ≤ f.1 + 10000000)
  let s : State := { s with lanes := { s.lanes with inject := none } }
  match s.runOf i.session (BitVec.ofNat 32 i.cmdId) with
  | some r => if (s.laneAt 8).halted then s
              else if ok then s.endRun r stOk dNone (BitVec.ofNat 64 r0) else s.endRun r stFailed dNone
  | none => s

/-- Latch a lane fault of a kind with the items concerned; an injected one with the expected result ends its command OK with the SEQ
of its record. -/
def State.latchFault (s : State) (lane kind lead item : Nat) (a b : Option Item) : State :=
  let inj := s.firedIn lane
  let hit := match inj with
    | some i => expected i.kind = kind && (i.fired.map (·.2)) = some item && injectedField i.kind a b
    | none => false
  let (pay, s) := s.faultPay lane kind lead item a b hit
  let seq := s.recd.seq
  let s := s.laneFault lane pay hit
  match inj with
  | some i => if hit then s.endInject i true seq else s
  | none => s

/-- The word is mirror content of the running image. -/
def State.isMirror (s : State) (a : Nat) : Bool := mirrored s.chg.running (a / 64 * 64)

/-- An uncorrectable memory error at a word, found by a requester class or by the scrubber (0xFF): MEMORY_FAULT, poison, and the
reactions of 20 R502. -/
def State.memFault (s : State) (addr cls : Nat) : State :=
  let w := addr / 8 * 8
  let mir := s.isMirror addr
  let s := s.record 0x0010 (srcOf 0 0) [addr, cls, if mir then 1 else 0]
  let s : State := { s with mgn := { s.mgn with poison := insLine w s.mgn.poison } }
  if mir && s.primary && s.partnerAble && !s.partnerFlag 1 then (s.countFault false).reactFault false 1
  else if mir && s.pair.role = .standby then
    ({ s with pair := { s.pair with auditLeft := insLine (addr / 64 * 64) s.pair.auditLeft } } : State).goStale
  else s

/-! ## Transactions -/

/-- The domain of the island that a transaction addresses, 01 R22, R25. -/
def domainOf (a : Nat) : Nat :=
  match slotOf a with
  | some n =>
    if n ≤ 3 || n = 31 then 1 else if n = 4 then 0 else if n ≤ 6 then 3 else if n = 7 then 2 else if n ≤ 10 then 6
    else if n = 11 then 7 else if n ≤ 19 then 4 else if n ≤ 21 then 9 else if n ≤ 27 then 10 else 11
  | none => if inRom a then 2 else if inDram a then 7 else 6

/-- Refuse a transaction: an error response. -/
def State.refuse (s : State) : State := { s with wb := { s.wb with reply := none } }

/-- Answer a transaction with bytes. -/
def State.answer (s : State) (d : List Byte) : State := { s with wb := { s.wb with reply := some d } }

/-- The return of an item is awaited: reads, AMO, LR, SC. -/
def awaits (i : Item) : Bool := i.kind = 0 || i.kind = 2 || i.kind = 3 || i.kind = 4

/-- The cause of the access fault that an error response raises, of the RISC-V privileged architecture: fetch, load or store (03 R70, 15
R422). -/
def accessCause (fetch : Bool) (kind : Nat) : Nat := if fetch then 1 else if kind = 0 || kind = 3 then 5 else 7

/-- The answer to a transaction: to a compared item it goes to its lane's return path, in the place of the item: data for an item that
waits for them, an error response for every item but a posted write of the management lane, which is dropped (03 R69, R70, 15 R422). An
error response raises an access fault in the split copy that has issued the transaction. -/
def State.done (s : State) (h : Held) : State :=
  match h.item with
  | none =>
    if s.wb.reply.isNone && h.t.cls.val < 3 then
      s.onLane h.lane fun l => l.onCopy h.t.copy fun c => { c with exc := some (accessCause (h.t.kind = 5) h.t.kind.val) }
    else s
  | some i => s.onLane h.lane fun l =>
    let mine (r : Ret) : Bool := r.num = h.num && r.reply.isNone
    if awaits i || (s.wb.reply.isNone && !h.t.posted) then
      { l with awaiting := l.awaiting.map fun r => if mine r then { r with reply := some s.wb.reply } else r }
    else { l with awaiting := l.awaiting.filter fun r => !mine r }

/-- The target refuses a transaction for its codes or its poison: an INTERCONNECT lane fault for a compared item, else a data-error
record with the requester (03 R89, 20 R502). -/
def State.codeRefuse (s : State) (h : Held) (mem : Bool) : State :=
  let s := if mem then s.memFault h.t.addr h.t.cls.val else s
  let s := s.refuse.done h
  match h.item with
  | some i => s.latchFault h.lane 6 h.lead h.num (some i) (some i)
  | none => if mem then s else s.record 0x0004 (srcOf 0 0) [h.t.cls.val]

/-- A completed write clears every reservation of another lane on the same 64-byte line (03 R70; DESIGN CHOICE, log entry 13). -/
def State.breakRes (s : State) (a : Nat) : State :=
  let f (c : LaneCopy) : LaneCopy := match c.reserve with
    | some r => if r / 64 = a / 64 then { c with reserve := none } else c
    | none => c
  { s with lanes := { s.lanes with lane := s.lanes.lane.map fun l => { l with a := f l.a, b := f l.b } } }

/-- The copy whose reservation a transaction uses: in a compared lane that of the interconnect, held with copy A (03 R70). -/
def State.resCopy (s : State) (h : Held) : Side := if (s.laneAt h.lane).split then h.t.copy else .a

/-- The bytes that a write stores: those that its byte enables name, over what stands there (03 R60, R68). -/
def blend (t : Txn) (old : List Byte) : List Byte :=
  (List.range t.size).map fun i => if t.mask.getD i true then t.data.getD i 0 else old.getD i 0

/-- Write bytes to a memory target: the tracking tables record by record, other addresses their cells. -/
def State.putBytes (s : State) (a : Nat) (d : List Byte) : State :=
  let s := s.breakRes a
  if 0x0160000000 ≤ a && a < 0x017C000000 then
    let r := trkOverlay s.trk s.act.log (a - 0x0160000000) d (d.length + 1)
    ({ s with trk := r.1, act := { s.act with log := r.2 } } : State).mark a d.length
  else s.store a d

/-- A memory access that its target accepts: read, write, AMO, LR, SC, fetch. An AMO's operation is no field of the item, so the value
it stores is a free value (log entry 3). -/
def State.memAccess (s : State) (h : Held) : State :=
  let t := h.t
  let old := s.readOf t.addr t.size
  let res (s : State) (r : Option Nat) : State := s.onLane h.lane fun l => l.onCopy (s.resCopy h) fun c => { c with reserve := r }
  match t.kind.val with
  | 1 => (s.putBytes t.addr (blend t old)).answer []
  | 2 =>
    let (w, s) := s.draw
    (s.putBytes t.addr (blend { t with data := le t.size w.toNat } old)).answer old
  | 3 => (res s (some t.addr)).answer old
  | 4 =>
    let ok := ((s.laneAt h.lane).copy (s.resCopy h)).reserve = some t.addr
    let s := res s none
    if ok then (s.putBytes t.addr (blend t old)).answer [0] else s.answer [1]
  | _ => if inRom t.addr then let (w, s) := s.draw; s.answer (le t.size w.toNat) else s.answer old

/-- The current value of a register with the low or high half replaced. -/
def halves (cur : Nat) (high : Bool) (v : Nat) : Nat :=
  if high then cur % 2 ^ 32 + v % 2 ^ 32 * 2 ^ 32 else v % 2 ^ 32 + cur / 2 ^ 32 * 2 ^ 32

/-- A register access. LIO_TRIP_CLR takes the writes of tasks alone (10 R275). Registers that the manual does not describe read as free
values (log entry 3) and keep no effect. -/
def State.slotAccess (s : State) (t : Txn) (slot : Nat) (k : State → Held → State) : State :=
  let o := t.addr % 0x10000
  let r := o / 8 * 8
  if !described slot then
    let (w, s) := s.draw
    s.answer (if txnWrites t then [] else le t.size w.toNat)
  else if txnWrites t && (slot = 26 || slot = 27) && !(t.cls.val = 1 || t.cls.val = 2) then s.answer []
  else if txnWrites t && slot = 28 && 0x8000 ≤ o && o < 0x9000 then
    (if t.size = 4 then s.doorbell (o - 0x8000) (unle (blend t (List.replicate 4 0))) else s).answer []
  else if txnWrites t then
    let v := unle (blend t (slice (le 8 (s.regRead slot t.copy r)) (o % 8) t.size))
    if t.size = 8 then (s.regWrite slot t.copy o (BitVec.ofNat 64 v) k).answer []
    else if t.cls.val = 4 && slot = 28 && o < 0x8000 then
      if o % 8 = 0 then
        let held := s.host.heldLow.filter fun h => h.1 ≠ o
        ({ s with host := { s.host with heldLow := held ++ [(o, BitVec.ofNat 32 v)] } } : State).answer []
      else
        let low := match s.host.heldLow.find? (·.1 = r) with
          | some h => h.2.toNat
          | none => s.regRead slot t.copy r % 2 ^ 32
        let s : State := { s with host := { s.host with heldLow := s.host.heldLow.filter fun h => h.1 ≠ r } }
        (s.regWrite slot t.copy r (BitVec.ofNat 64 (low + v % 2 ^ 32 * 2 ^ 32)) k).answer []
    else (s.regWrite slot t.copy r (BitVec.ofNat 64 (halves (s.regRead slot t.copy r) (o % 8 = 4) v)) k).answer []
  else
    let w := s.regRead slot t.copy r
    if t.cls.val = 4 && t.size = 4 then
      if o % 8 = 0 then
        ({ s with host := { s.host with latchedHigh := some (t.addr, BitVec.ofNat 32 (w / 2 ^ 32)) } } : State).answer
          (le 4 (w % 2 ^ 32))
      else match s.host.latchedHigh with
        | some (a, h) =>
          if a + 4 = t.addr then ({ s with host := { s.host with latchedHigh := none } } : State).answer (le 4 h.toNat)
          else s.answer (le 4 (w / 2 ^ 32))
        | none => s.answer (le 4 (w / 2 ^ 32))
    else s.answer (slice (le 8 w) (o % 8) t.size)

/-- A HOST access of a BAR0 window is naturally aligned and 4 or 8 bytes wide (21 R515); the doorbells, BAR2 and BAR4 are not
BAR0. -/
def barBad (t : Txn) : Bool :=
  t.cls.val = 4 && !((t.size = 4 || t.size = 8) && t.addr % t.size = 0) &&
  (match slotOf t.addr with
   | some n => n ≠ 28 || t.addr % 0x10000 < 0x8000
   | none => false)

/-- The island that an address lies in is powered: its domain is on, of NET in Hold the star and the guardian alone (01 R21, R22); DRAM
answers once its wipe is complete (18 R473). -/
def State.powered (s : State) (a : Nat) : Bool :=
  s.pwr.on.getLsbD (domainOf a) && !(s.pwr.st = .hold && domainOf a = 10 && slotOf a ≠ some 23) && !(inDram a && !s.pwr.dramOk)

/-- The address lies in a lane island whose clock is stopped (01 R21). -/
def State.atParked (s : State) (a : Nat) : Bool :=
  match slotOf a with
  | some n => 12 ≤ n && n ≤ 19 && (s.laneAt (n - 12)).parked
  | none => false

/-- The island of a domain that has one clock alone, by the numbers of 19 R490; none for AON, BKP, DRAM and the lanes. -/
def islandOf (domain : Nat) : Option Nat :=
  match domain with
  | 3 => some 23
  | 6 => some 16
  | 7 => some 17
  | 9 => some 18
  | 10 => some 19
  | 11 => some 20
  | _ => none

/-- A clock fault has stopped the interconnect or the island that the address lies in: the transaction waits at the crossing, as 01 R21 gives
for a stopped clock (DEDUCED, log entry 110). -/
def State.clockHeld (s : State) (a : Nat) : Bool :=
  s.unclocked 16 || ((islandOf (domainOf a)).map s.unclocked).getD false

/-- A transaction at its target: the codes, then the access. `k` runs the transactions that this one releases from the gate. -/
def State.atTarget (s : State) (k : State → Held → State) (h : Held) : State :=
  let t := h.t
  match t.err with
  | .double => s.codeRefuse h false
  | .parity => s.codeRefuse h false
  | e =>
    let s := if e = .single then { s with mgn := { s.mgn with memCorr := satAdd 64 s.mgn.memCorr 1 } } else s
    match slotOf t.addr with
    | some n => (s.slotAccess t n k).done h
    | none =>
      if s.mgn.poison.any fun w => w < t.addr + max t.size 1 && t.addr < w + 8 then s.codeRefuse h true
      else (s.memAccess h).done h

/-- A transaction past the gate: the Windbreak, the target's domain and clock, its codes, and its effect. -/
def State.passTxn (s : State) (k : State → Held → State) (h : Held) : State :=
  let t := h.t
  if barBad t then ((s.setupError (t.addr % 0x10000) (unle (t.data.take t.size))).violate t 10 0xFF t.addr false).refuse
  else match s.refusal t with
    | some (reason, region, a, straddle) => (s.violate t reason region a straddle).refuse.done h
    | none =>
      if !s.powered t.addr then (s.record 0x0003 (srcOf 0 0) [t.cls.val, domainOf t.addr]).refuse.done h
      else if s.atParked t.addr || s.clockHeld t.addr then { s with wb := { s.wb with crossing := s.wb.crossing ++ [h] } }
      else s.atTarget k h

/-- A transaction that another one released from the gate. -/
def State.heldTxn (s : State) (h : Held) : State := s.passTxn (fun s _ => s) h

/-- A transaction on its way: while an update holds the gate, every requester but MGT waits (15 R419). -/
def State.txn (s : State) (h : Held) : State :=
  if s.wb.held && h.t.cls.val ≠ 3 then { s with wb := { s.wb with gate := s.wb.gate ++ [h] } }
  else s.passTxn State.heldTxn h

/-- INTERCONNECT_TRANSACTION: a transaction of any requester but a compared lane, whose copies issue none that is not a compared item
(03 R59, R87). One of class 3 is the module side of a PCIe DMA transfer or KEY's transfer engine (15 R406, R407): the management lane's own
are compared items of lane 8. -/
def execInterconnectTransaction (t : Txn) (s : State) : Host.Outcome State Fault Refusal :=
  .next (if t.cls.val < 3 && !((s.laneAt t.lane.val).split && s.copyGoes t.lane.val t.copy) then s else s.txn (Held.of t))

/-- WB_UPDATE_CLEAR. -/
def execWbUpdateClear (s : State) : Host.Outcome State Fault Refusal := .next (s.updateClear State.heldTxn)

/-- WB_UPDATE_TIMEOUT. -/
def execWbUpdateTimeout (s : State) : Host.Outcome State Fault Refusal := .next (s.updateAbort State.heldTxn)

/-! ## Writes of registers -/

/-- The module address behind a BAR0 offset, 21 R513; none for a reserved range. -/
def barAddr (o : Nat) : Option Nat :=
  if o < 0x8000 then some (0x101C0000 + o)
  else if 0x10000 ≤ o && o < 0x20000 then some (0x10000000 + (o - 0x10000))
  else if 0x20000 ≤ o && o < 0x30000 then some (0x10010000 + (o - 0x20000))
  else if 0x30000 ≤ o && o < 0x40000 then some (0x10030000 + (o - 0x30000))
  else if 0x40000 ≤ o && o < 0x50000 then some (0x10080000 + (o - 0x40000))
  else none

/-! ## Compared items, 03 R59, R63 to R70, R91, R92 -/

/-- Class of an item: by PRIV, or MGT on the management lane. -/
def itemClass (lane : Nat) (i : Item) : Fin 8 :=
  if lane = 8 then 3 else if i.priv = 3 then 0 else if i.priv = 1 then 1 else 2

/-- The transaction that the comparator builds from copy A's entry, with the item's byte enables, which a write, an AMO and an SC obey (03
R60, R68). The management lane's writes are posted (15 R422, R423). -/
def itemTxn (lane : Nat) (i : Item) (e : CodeErr) : Txn :=
  let from_ := i.addr.toNat % 64
  { cls := itemClass lane i, kind := if i.fetch then 5 else Fin.ofNat 6 i.kind.toNat, addr := i.addr.toNat, size := 2 ^ i.size.toNat,
    data := (List.range (2 ^ i.size.toNat)).map fun j => (i.data >>> (8 * (from_ + j))).setWidth 8,
    mask := if i.kind = 1 || i.kind = 2 || i.kind = 4 then (List.range (2 ^ i.size.toNat)).map fun j => i.be.getLsbD (from_ + j) else [],
    lane := Fin.ofNat 8 lane, posted := decide (lane = 8) && decide (i.kind = 1), err := e }

/-- A matched item goes on: a checkpoint and a WAIT end at the comparator (03 R68). `lead` is its leading copy, `e` the state of its
codes at the target. The trailing copy runs on through a WAIT whose event has been delivered (R71); in a matched WAIT the lane takes a mode
that waits for it (R75). -/
def State.forward (s : State) (lane : Nat) (x : SkewEnt) (lead : Nat) (e : CodeErr) : State :=
  let i := x.item
  if i.kind = 5 then
    let n := (i.data.setWidth 64).toNat
    s.onLane lane fun l => { l with a := { l.a with ret := n }, b := { l.b with ret := n } }
  else if i.kind = 6 then s.onLane lane fun l =>
    if l.waitOver.contains x.num then
      ({ l with waitOver := l.waitOver.erase x.num } : Lane).onCopy (if lead = 0 then .b else .a) fun c => { c with waiting := false }
    else ({ l with wait := some l.a.ret } : Lane).takeMode
  else
    let s := s.onLane lane fun l => { l with awaiting := l.awaiting ++ [{ num := x.num, lead := lead, item := i }] }
    s.txn { t := itemTxn lane i e, item := some i, lane := lane, num := x.num, lead := lead }

/-- Two items are equal in every compared field. -/
def itemEq (a b : Item) : Bool := fieldDiff a b = 0

/-- The verdict of a comparator as its two rails (03 R77): no fault of it makes two differing items equal. -/
def verdict (eq : Bool) (f : CmpFault) : Bool × Bool :=
  match f with
  | .rails v1 v0 => if (v1, v0) = (true, false) then (eq, !eq) else (v1, v0)
  | _ => (eq, !eq)

/-- The comparator pairs the heads of the two buffers; the leading copy is the one whose item entered first (03 R63, R77, R78, R81). The
two outputs of the duplicated encoder are checked for an item that goes on (03 R68). -/
def State.pairUp (s : State) (lane lead : Nat) (f : CmpFault) : State :=
  let l := s.laneAt lane
  match l.a.skew, l.b.skew with
  | x :: xs, y :: ys =>
    let s := s.onLane lane fun l => { l with a := { l.a with skew := xs }, b := { l.b with skew := ys } }
    let forced : Bool := match s.firedIn lane with
      | some i => i.kind = 3 && (i.fired.map (·.2)) = some x.num
      | none => false
    match verdict (itemEq x.item y.item) (if forced then .rails true true else f) with
    | (true, false) =>
      if f = .encoder && x.item.kind.toNat < 5 then s.latchFault lane 4 lead x.num (some x.item) (some y.item)
      else s.forward lane x lead (match f with
        | .code e => e
        | _ => .none)
    | (false, true) => s.latchFault lane 1 lead x.num (some x.item) (some y.item)
    | _ => s.latchFault lane 4 lead x.num (some x.item) (some y.item)
  | _, _ => s

/-- Flip a DATA bit; where it is not enabled, the lowest enabled bit (03 R92). -/
def flipData (i : Item) (bit : Nat) : Item :=
  let b := if i.be.getLsbD (bit / 8) then bit
           else 8 * ((List.range 64).find? fun j => i.be.getLsbD j).getD 0
  { i with data := i.data ^^^ (1 <<< b) }

/-- The injection of a lane meets an item of its copy: it counts down and fires at the first item that its kind admits. -/
def State.injectAt (s : State) (lane : Nat) (copy : Side) (num : Nat) (i : Item) : Item × State :=
  match s.lanes.inject with
  | none => (i, s)
  | some j =>
    if j.lane ≠ lane || j.copy ≠ copy || j.fired.isSome then (i, s)
    else
      let fits := if j.kind = 1 || j.kind = 4 then i.be ≠ 0 else if j.kind = 5 || j.kind = 6 then i.kind = 0 else true
      if j.left ≤ 1 && fits then
        let s : State := { s with lanes := { s.lanes with inject := some { j with left := 0, fired := some (s.clk.now, num) } } }
        match j.kind with
        | 0 => ({ i with addr := i.addr ^^^ (1 <<< j.bit) }, s)
        | 1 => (flipData i j.bit, s)
        | 4 => (flipData i j.bit, s)
        | 2 => (i, s.onLane lane fun l => l.onCopy copy fun c => { c with muted := true })
        | _ => (i, s)
      else (i, { s with lanes := { s.lanes with inject := some { j with left := j.left - 1 } } })

/-- The data of a repair read: memory's 64-byte line under the copy's own unmatched writes to it, the newest on top (03 R67). -/
def State.repairData (s : State) (c : LaneCopy) (line : Nat) : List Byte :=
  (c.skew.filter fun e => e.item.kind = 1 && e.item.addr.toNat / 64 = line / 64).foldl
    (fun d e => (List.range 64).map fun j =>
      if e.item.be.getLsbD j then (e.item.data >>> (8 * j)).setWidth 8 else d.getD j 0)
    (s.readOf (line / 64 * 64) 64)

/-- A repair read of a copy: served, and counted; more than 16 within 1 s write L1_REPAIR_RATE (03 R67). -/
def State.repair (s : State) (lane : Nat) (copy : Side) (line : Nat) : State :=
  let c := (s.laneAt lane).copy copy
  let at_ := (c.repairAt.filter fun t => s.clk.now < t + 1000000000) ++ [s.clk.now]
  let data := s.repairData c line
  let s := s.onLane lane fun l => l.onCopy copy fun c =>
    { c with repairs := satAdd 64 c.repairs 1, repairAt := at_, repaired := data }
  if at_.length = 17 then s.record 0x0201 (srcOf 1 lane) [] else s

/-- The L1 caches of a lane may hold the line of an address (03 R62): in a compared task lane code of the running image, stacks of the
lane's tasks and task-private data; in the management lane memory other than image SRAM (DESIGN CHOICE, log entry 92). -/
def State.cacheable (s : State) (lane a : Nat) : Bool :=
  let line := a / 64 * 64
  let holds (r : Nat × Nat) : Bool := r.1 < line + 64 && line < r.2
  if lane = 8 then inRom a || inSram a || inDram a
  else match s.chg.running with
    | some i =>
      (i.body.code.map fun x => (x.addr, x.addr + x.bytes.length)).any holds || i.body.cacheable.any holds ||
        (i.body.tasks.filter (·.lane = lane)).any fun t => holds (t.stackAddr, t.stackAddr + t.stackSize)
    | none => false

/-- KIND 5: the line that holds the read's address is repaired, and the command ends with the copy's repair-read count; no line holds an
address that is not cacheable. -/
def State.injectRepair (s : State) (lane addr : Nat) : State :=
  match s.firedIn lane with
  | some j =>
    if j.kind = 5 && s.cacheable lane addr then
      let s := s.repair lane j.copy addr
      s.endInject j true ((s.laneAt lane).copy j.copy).repairs
    else s
  | none => s

/-- A compared lane that runs: the management lane, or a task lane that is not split. -/
def State.comparing (s : State) (lane : Nat) : Bool :=
  !(s.laneAt lane).halted && (lane = 8 || (!(s.laneAt lane).split && !(s.laneAt lane).parked && !(s.laneAt lane).debugHalt))

/-- An item as the hardware of the copy forms it: its SEQ, the retirement count of the next checkpoint, no data for reads and WAIT, FILL
for cacheable addresses alone (03 R59, R60, R62). -/
def formItem (i : Item) (num checks : Nat) (cacheable : Bool) : Item :=
  let i := { i with seq := BitVec.ofNat 9 num, fill := i.fill && cacheable }
  if i.kind = 5 then { i with size := 3, data := BitVec.ofNat 512 (4096 * (checks + 1)) }
  else if i.kind = 6 then { i with size := 0, data := 0 }
  else if i.kind = 0 || i.kind = 3 then { i with data := 0 }
  else i

/-- The oldest unmatched entry of a buffer that has waited longer than 2.0 µs (03 R65). -/
def State.overdue (s : State) (lane : Nat) : Option (Side × SkewEnt) :=
  let l := s.laneAt lane
  let late (l : List SkewEnt) : Option SkewEnt := match l with
    | x :: _ => if x.at_ + 2000 < s.clk.now then some x else none
    | [] => none
  match late l.a.skew, late l.b.skew with
  | some x, _ => some (.a, x)
  | none, some y => some (.b, y)
  | none, none => none

/-- Latch a fault on an entry of one copy that has no partner. -/
def State.latchOne (s : State) (lane kind : Nat) (c : Side) (num : Nat) (i : Item) : State :=
  match c with
  | .a => s.latchFault lane kind 0 num (some i) none
  | .b => s.latchFault lane kind 1 num none (some i)

/-- A copy writes an item into its skew buffer (03 R63, R64); a copy in a WAIT, stopped by a fault or stalled by its throttle emits
none, and KIND 7 and accesses beyond 64 bytes are no items (R60). -/
def State.emit (s : State) (lane : Nat) (copy : Side) (i : Item) (f : CmpFault) : State :=
  let c := (s.laneAt lane).copy copy
  if !s.comparing lane || (s.laneAt lane).wait.isSome || c.waiting || c.dead || i.kind = 7 || i.size = 7 ||
      (224 ≤ c.skew.length && f ≠ .throttle) then s
  else
    let num := c.items + 1
    let (i, s) := s.injectAt lane copy num (formItem i num c.checks (s.cacheable lane i.addr.toNat))
    if ((s.laneAt lane).copy copy).muted then s
    else
      let full := 256 ≤ c.skew.length
      let ent : SkewEnt := { num := num, item := i, at_ := s.clk.now }
      let s := s.onLane lane fun l => l.onCopy copy fun c =>
        { c with items := num, checks := if i.kind = 5 then c.checks + 1 else c.checks, waiting := decide (i.kind = 6), exc := none
                 skew := if full then c.skew else c.skew ++ [ent] }
      if full then s.latchOne lane 2 copy num i
      else match s.overdue lane with
        | some (k, x) => s.latchOne lane 3 k x.num x.item
        | none => (s.pairUp lane copy.other.num f).injectRepair lane i.addr.toNat

/-- COMPARED_ITEM. -/
def execComparedItem (lane : Fin 9) (copy : Side) (it : Item) (flt : CmpFault) (s : State) : Host.Outcome State Fault Refusal :=
  .next (s.emit lane.val copy it flt)

/-- WFI: the copy emits a WAIT item; in a split lane it waits on its own (02 R41), and with both copies waiting the lane takes a mode that
waits for it (03 R75). -/
def execWfi (lane : Fin 9) (copy : Side) (it : Item) (flt : CmpFault) (s : State) : Host.Outcome State Fault Refusal :=
  .next (if (s.laneAt lane.val).split then
    (if s.copyGoes lane.val copy then
       s.onLane lane.val fun l => (l.onCopy copy fun c => { c with waiting := true }).takeMode
     else s)
   else s.emit lane.val copy { it with kind := 6 } flt)

/-- SKEW_TIME: the oldest unmatched entry of either buffer has waited for the time of its timer, which expires at a free instant
between 1.8 and 2.0 µs (03 R65, R66). -/
def execSkewTime (lane : Fin 9) (s : State) : Host.Outcome State Fault Refusal :=
  let l := s.laneAt lane.val
  let (k, s') := s.drawNat
  if !s.comparing lane.val then .next s
  else match l.a.skew, l.b.skew with
    | x :: _, [] => .next ((s'.reach (x.at_ + 1800 + k % 201)).latchOne lane.val 3 .a x.num x.item)
    | [], y :: _ => .next ((s'.reach (y.at_ + 1800 + k % 201)).latchOne lane.val 3 .b y.num y.item)
    | _, _ => .next s

/-- A code error that a port cannot correct. -/
def uncorrectable (e : CodeErr) : Bool := e = .double || e = .parity

/-- What KIND 6 does to the return of the item at which it fired, at a copy's port: two flipped bits in one 8-byte code word cannot be
corrected; bits 63 and 64 of two neighbouring words are a single error in each (03 R89, R92; DEDUCED, log entry 72). -/
def State.injectedErr (s : State) (lane : Nat) (copy : Side) (num : Nat) : CodeErr :=
  match s.firedIn lane with
  | some j =>
    if j.kind = 6 && j.copy = copy && (j.fired.map (·.2)) = some num then (if j.bit % 64 = 63 then .single else .double) else .none
  | none => .none

/-- READ_RETURN: the answer to the oldest awaited item reaches both copies; a port that cannot correct it latches DELIVERY (03 R69); an
error response raises the same exception in both (R70). An item that waits at the gate or at a crossing has no answer yet. -/
def execReadReturn (lane : Fin 9) (errA errB : CodeErr) (s : State) : Host.Outcome State Fault Refusal :=
  match (s.laneAt lane.val).awaiting with
  | [] => .next s
  | r :: rest =>
    match r.reply with
    | none => .next s
    | some d =>
      if !s.comparing lane.val then .next s
      else
        let s := s.onLane lane.val fun l => { l with awaiting := rest }
        let bad (e : CodeErr) (c : Side) : Bool := uncorrectable e || uncorrectable (s.injectedErr lane.val c r.num)
        if bad errA .a || bad errB .b then .next (s.latchFault lane.val 5 r.lead r.num (some r.item) (some r.item))
        else .next (s.onLane lane.val fun l =>
          let e : Option Nat := if d.isNone then some (accessCause r.item.fetch r.item.kind.toNat) else none
          { l with returned := d, a := { l.a with exc := e }, b := { l.b with exc := e } })

/-- L1_PARITY_ERROR: the copy invalidates its line and repairs it (03 R67). -/
def execL1ParityError (lane : Fin 9) (copy : Side) (line : Nat) (s : State) : Host.Outcome State Fault Refusal :=
  .next (if s.comparing lane.val && !((s.laneAt lane.val).copy copy).dead && s.cacheable lane.val line then s.repair lane.val copy line
         else s)

/-! ## Waking and parking, 11 R298, 01 R21 -/

/-- Wake the task lanes out of Lull retention: caches invalidated, held transactions complete; the power state is Run (18 R471). -/
def State.wakeLanes (s : State) : State :=
  let f (i : Fin 9) : Lane := let l := s.lanes.lane[i]
    if i.val < 8 then { l with parked := false, l1Inval := l.l1Inval || l.parked } else l
  let held := s.wb.crossing
  let s : State := { s with
    lanes := { s.lanes with lane := Vector.ofFn f }, wb := { s.wb with crossing := [] }
    pwr := { s.pwr with st := if s.pwr.st = .lull then .run else s.pwr.st } }
  State.grantAll State.heldTxn held.length held s

/-- Park the task lanes in Lull retention: a lane enters it only when both copies stand in a matched WAIT, a split lane when each of its
copies waits (03 R66); the power state is Lull when every lane is parked. -/
def State.parkLanes (s : State) : State :=
  let f (i : Fin 9) : Lane := let l := s.lanes.lane[i]
    if i.val < 8 then { l with parked := l.parked || l.inWait } else l
  let lane := Vector.ofFn f
  let all := (lane.toList.take 8).all (·.parked)
  { s with lanes := { s.lanes with lane := lane }, pwr := { s.pwr with st := if s.pwr.st = .run && all then .lull else s.pwr.st } }

/-- A standby whose lanes are parked wakes them. -/
def State.standbyWake (s : State) : State :=
  if s.pair.role = .standby && s.pair.wokenAt.isNone then
    let s := if s.pair.hot then s else s.wakeLanes
    { s with pair := { s.pair with wokenAt := some s.clk.now } }
  else s

/-- LANE_WAKE. -/
def execLaneWake (s : State) : Host.Outcome State Fault Refusal := .next s.standbyWake

/-- LANE_PARK_TIMEOUT: no takeover within 1 ms. -/
def execLaneParkTimeout (s : State) : Host.Outcome State Fault Refusal :=
  match s.pair.wokenAt with
  | some t =>
    let s := s.reach (t + 1000000)
    let s : State := { s with pair := { s.pair with wokenAt := none } }
    .next (if s.pair.role = .standby && !s.pair.hot then s.parkLanes else s)
  | none => .next s

end Sys2Proof.Machine
end

