-- ==== Sys2Proof/Machine/Mirror.lean ====
section
/-! DEFINITION. The mirror: transfers of the primary, their blocks and closes in the standby, snapshot transfers, the audit (11 R288
to R297, 04 R117). -/

namespace Sys2Proof.Machine
open Sys2Proof

/-! ## The end of Lull service, 18 R483, R484 -/

/-- Lull service ends: full service, with LULL_END and the event SERVICE. -/
def State.endLull (s : State) : State :=
  if s.lull then
    (({ s with pwr := { s.pwr with full := true } } : State).record 0x0F09 (srcOf 14 0) [s.cyc.n]).event 0x0006
      (le 1 1 ++ List.replicate 11 0)
  else s

/-! ## The primary's side -/

/-- BUDGET in bytes, 11 R293. -/
def State.budget (s : State) : Nat :=
  2048 * 1024 * s.t / 1000000 / (if s.pair.lanes = 1 || s.pair.lanes = 2 then 2 else 1)

/-- The line belongs to the force table. -/
def forceLine (a : Nat) : Bool := forceBlock ≤ a && a < forceBlock + 0x20000

/-- The run reaches into the actuation log. -/
def inLog (a k : Nat) : Bool := a < 0x0171000000 && 0x0170C00000 < a + k

/-- A run of memory as the mirror engine ships it; beside lines of the actuation log goes the place of its next entry, without which the
standby could not tell the order of a ring (DESIGN CHOICE, log entry 105). -/
def State.spanAt (s : State) (a k : Nat) : Span :=
  { addr := a, bytes := s.readOf a k, logN := if inLog a k then some s.trk.logN else none }

/-- A mirror line as it stands. -/
def State.lineAt (s : State) (a : Nat) : Span := s.spanAt a 64

/-- Blocks of at most 1,024 lines (11 R292). -/
def blocksOf (lines : List Nat) : List (List Nat) :=
  (List.range ((lines.length + 1023) / 1024)).map fun i => (lines.drop (1024 * i)).take 1024

/-- The sequence of the open transfer: those of transfers that were given up are used up (11 R284, R292). -/
def State.openSeq (s : State) : Nat := (s.pair.xferSeq + 1 + s.pair.lost) % 2 ^ 32

/-- Ship the lines of a block as they stand. -/
def State.shipBlock (s : State) (xfer block : Nat) (lines : List Nat) : State :=
  s.send (.block xfer block (lines.map s.lineAt) (blockDigest xfer block (lines.map s.lineAt)))

/-- Ship lines in blocks of the open transfer. -/
def State.shipLines (s : State) (lines : List Nat) : State :=
  (blocksOf lines).foldl (fun s b =>
    let s := s.shipBlock s.openSeq s.pair.shipped.length b
    { s with pair := { s.pair with shipped := s.pair.shipped ++ [b] } }) s

/-- The standby becomes STALE for the primary. -/
def State.markStale (s : State) : State :=
  if s.pair.partnerCur then { s with pair := { s.pair with partnerCur := false, stales := satAdd 64 s.pair.stales 1 } } else s

/-- A transfer that cannot close: STALE, MIRROR_STALE, the mirror-stale error task with the volume in KiB (11 R293). -/
def State.cannotClose (s : State) (kib : Nat) : State :=
  (s.markStale.record 0x090A (srcOf 8 0) [kib]).errRelease 5 kib 0

/-- KiB of a number of lines, rounded up. -/
def kibOf (lines : Nat) : Nat := (lines * 64 + 1023) / 1024

/-- The volume of a transfer, in KiB, is known (11 R284, 13 R553). -/
def State.volume (s : State) (lines : Nat) : State :=
  { s with pair := { s.pair with lastKib := kibOf lines, maxKib := max s.pair.maxKib (kibOf lines) } }

/-- The partner receives transfers: it is STANDBY and the link stands. -/
def State.shipping (s : State) : Bool := s.primary && s.partnerStandby && s.pair.lanes ≠ 0 && s.pair.auth

/-- The audit slices of the fixed content, 64 KiB each: output image, substitute to force blocks, tracking area (11 R295). -/
def fixedSlices : Nat := 4 + 12 + 7168

/-- The DRAM ranges of full follow: between two edges of the image's regions nothing changes (01 R30). -/
def followedRanges (b : AppBody) : List (Nat × Nat) :=
  let es := (b.edges.filter fun a => 0x0080000000 ≤ a && a ≤ 0x0180000000).foldl (fun l a => insLine a l) [0x0080000000, 0x0180000000]
  (es.zip (es.drop 1)).filter fun r => b.follows r.1

/-- Ranges of the mirror scope of the running image. -/
def State.scopeRanges (s : State) : List (Nat × Nat) :=
  match s.chg.running with
  | some i =>
    if i.body.mirrorFull then [(0x01000000, 0x017C0000), (0x021C0000, 0x02200000)] ++ followedRanges i.body
    else i.body.mirror.map fun r => (r.base, r.base + 4096 * r.pages)
  | none => []

/-- Slice `k` of a list of ranges. -/
def sliceIn (k : Nat) : List (Nat × Nat) → Option (Nat × Nat)
  | [] => none
  | r :: l =>
    let n := (r.2 - r.1 + 0xFFFF) / 0x10000
    if k < n then some (r.1 + 0x10000 * k, min 0x10000 (r.2 - (r.1 + 0x10000 * k))) else sliceIn (k - n) l

/-- Address and length of an audit slice. -/
def State.sliceAt (s : State) (k : Nat) : Option (Nat × Nat) :=
  if k < 4 then some (outImage + 0x10000 * k, 0x10000)
  else if k < 16 then some (substBlock + 0x10000 * (k - 4), 0x10000)
  else if k < fixedSlices then some (0x0160000000 + 0x10000 * (k - 16), 0x10000)
  else sliceIn (k - fixedSlices) s.scopeRanges

/-- The slice after a slice; the last is followed by the first. -/
def State.nextSlice (s : State) : Nat := if (s.sliceAt (s.pair.slice + 1)).isSome then s.pair.slice + 1 else 0

/-- The audit digest of a slice as it stands: the close has shipped its dirty lines (11 R295). -/
def State.auditDigest (s : State) (k : Nat) : BitVec 128 :=
  match s.sliceAt k with
  | some r => sha16 (s.readOf r.1 r.2)
  | none => sha16 []

/-- Ship the force table changes since the previous close (11 R291, 04 R117): no part of the volume. -/
def State.shipForces (s : State) : State :=
  if s.pair.forceShipped = s.pair.forceVer && !(s.pair.dirty.any forceLine) then s
  else
    let s := s.send (.forces s.pair.forceVer s.img.force)
    { s with pair := { s.pair with forceShipped := s.pair.forceVer, dirty := s.pair.dirty.filter fun a => !forceLine a } }

/-- Close the open transfer: force changes, then the dirty lines, then the close block with COMMIT where it is due (11 R291, R293, 12 R321).
Lines that were written again while dirty may have been shipped before: how many of these shippings the volume counts is a free value (log
entry 19). Lines beyond BUDGET keep it from closing; those shipped count to this transfer and are applied with the next. -/
def State.closeTransfer (s : State) (final : Bool) : State :=
  if !s.shipping then s
  else if s.pair.unacked.isSome then s.shipForces
  else
    let (k, s) := s.shipForces.drawNat
    let again := s.pair.resent + k % (s.pair.again + 1)
    let lines := s.pair.dirty
    let room := s.budget / 64 - again
    let s : State := { s with pair := { s.pair with again := 0, resent := 0, closeN := some s.cyc.n, dirty := lines.drop room } }
    let s := s.shipLines (lines.take room)
    if room < lines.length then (s.volume (again + room)).cannotClose (kibOf (again + lines.length))
    else
      let blocks := s.pair.shipped.length
      let s := s.send (.close s.openSeq blocks s.chg.commitDue s.pair.slice (s.auditDigest s.pair.slice))
      let s : State := { s with pair := { s.pair with
        unacked := some (s.openSeq, again + lines.length, blocks, final), unackedCommit := s.chg.commitDue.isSome, slice := s.nextSlice } }
      s.volume (again + lines.length)

/-- TRK's event phase of the commit has ended, and every compared cyclic output owner released at it has written TASK_DONE (11 R291). -/
def State.ownersDone (s : State) : Bool :=
  s.cyc.commitN = some s.cyc.n &&
  match s.chg.running with
  | some i => i.body.tasks.all fun t =>
      !(t.kind = .cyclic && !t.split && i.body.owner t) || ((s.taskAt t.num).st ≠ .ready && (s.taskAt t.num).st ≠ .running)
  | none => true

/-- MIRROR_TRANSFER_CLOSE: once in a cycle, as soon as the owners are done, else at the output cut-off (11 R291). -/
def execMirrorTransferClose (s : State) : Host.Outcome State Fault Refusal :=
  .next (if s.cyc.running then
           if s.pair.closeN = some s.cyc.n then s
           else (if s.ownersDone then s else s.reachNet (s.cycleStart + (s.net.cfg.map (·.o)).getD 0)).closeTransfer false
         else s.closeTransfer false)

/-- The transfer that waits is given up: every line of it stays dirty, and its sequence is used up (11 R292, R293). -/
def State.giveUp (s : State) (kib : Nat) : State :=
  let d := s.pair.shipped.flatten.foldl (fun d a => insLine a d) s.pair.dirty
  ({ s with pair := { s.pair with
      dirty := d, shipped := [], unacked := none, unackedCommit := false, lost := s.pair.lost + 1 } } : State).cannotClose kib

/-- The FW_HANDOVER under way. -/
def State.handoverRun (s : State) : Option Run :=
  s.host.runs.find? fun r => match r.work with | .handover => true | _ => false

/-- The operation ends: each module stays on the firmware that it runs (12 R326, R331). -/
def State.handoverEnd (s : State) (status detail : Nat) (r0 : Word := 0) : State :=
  let s : State := { s with chg := { s.chg with handover := 0 } }
  match s.handoverRun with
  | some r => s.endRun r status detail r0
  | none => s

/-- A step fails. -/
def State.handoverFail (s : State) : State := s.handoverEnd stFailed dPartner

/-- A commanded switch fails: the primary keeps VANE and delivers the held releases at its next commit (11 R304); an FW_HANDOVER fails
with it (12 R326). -/
def State.switchFail (s : State) : State :=
  let swap := (s.pair.switch_.map (·.swap)).getD false
  let s := if s.chg.handover = 4 then s.handoverFail else s
  let s : State := { s with pair := { s.pair with switch_ := none }, cyc := { s.cyc with holdRel := false } }
  let s := s.record 0x0908 (srcOf 8 0) []
  let s := if swap then { s with pwr := { s.pwr with extract := false, ledSwap := 2 } } else s
  s.endRuns (fun r => match r.work with | .pairSwitch => true | _ => false) stFailed dTimeout

/-- The instant by which the acknowledgement of the transfer that waits must come: 30 µs before the still point of the next cycle, for
the final transfer of a switch 5 µs before the switch still point (11 R293, R305). -/
def State.ackLimit (s : State) (final : Bool) : Nat :=
  let next := (s.pair.closeN.map (· + 1)).getD s.cyc.n
  if final then s.stillOf ((s.pair.switch_.map (·.k)).getD next) - 5000 else s.stillOf next - 30000

/-- The acknowledgement has not come in time; that of a final transfer fails the switch. -/
def State.ackMissed (s : State) (lines : Nat) (final : Bool) : State :=
  let s := s.giveUp (kibOf lines)
  if final && s.pair.switch_.isSome then s.switchFail else s

/-- MIRROR_ACK_DEADLINE. -/
def execMirrorAckDeadline (s : State) : Host.Outcome State Fault Refusal :=
  match s.pair.unacked with
  | some (_, lines, _, final) =>
    .next ((if s.cyc.running then s.reachNet (s.ackLimit final) else s).ackMissed lines final)
  | none => .next s

/-- RESEND_REQUEST_RX: the block, of the transfer that waits or of the open one, is sent again and counts against the budget (11 R292). -/
def execResendRequestRx (block : Nat) (s : State) : Host.Outcome State Fault Refusal :=
  match s.pair.shipped[block]? with
  | none => .next s
  | some again =>
    let seq := (s.pair.unacked.map (·.1)).getD s.openSeq
    let s := s.shipBlock seq block again
    let s : State := { s with pair := { s.pair with resends := satAdd 64 s.pair.resends 1 } }
    let s := s.record 0x090C (srcOf 8 0) [block]
    match s.pair.unacked with
    | some (seq, lines, blocks, final) =>
      let n := lines + again.length
      let s : State := { s with pair := { s.pair with unacked := some (seq, n, blocks, final) } }
      let s := s.volume n
      .next (if s.budget < 64 * n then s.giveUp (kibOf n) else s)
    | none => .next { s with pair := { s.pair with resent := s.pair.resent + again.length } }

/-- TRANSFER_ACK_RX: the transfer closes; a STALE standby becomes CURRENT, with MIRROR_CURRENT, unless COMMIT is still to be
acknowledged (11 R293, 12 R321). One that comes too late closes nothing. -/
def execTransferAckRx (xfer : Nat) (s : State) : Host.Outcome State Fault Refusal :=
  match s.pair.unacked with
  | some (seq, lines, _, final) =>
    if seq ≠ xfer then .next s
    else if s.cyc.running && s.ackLimit final < s.netTime then .next (s.ackMissed lines final)
    else
      let commit := s.pair.unackedCommit
      let s : State := { s with
        pair := { s.pair with xferSeq := seq, unacked := none, shipped := [], unackedCommit := false, lost := 0
                              switch_ := if final then s.pair.switch_.map fun w => { w with phase := .acked } else s.pair.switch_ }
        chg := { s.chg with commitDue := if commit then none else s.chg.commitDue } }
      if s.pair.partnerCur || s.chg.commitDue.isSome then .next s
      else .next (({ s with pair := { s.pair with partnerCur := true } } : State).record 0x090B (srcOf 8 0) [])
  | none => .next s

/-! ## The standby's side -/

/-- Put a force entry, or its absence, at a place of the table. -/
def setEntry (l : List (Option Force)) (i : Nat) (f : Option Force) : List (Option Force) :=
  (l ++ List.replicate (i + 1 - l.length) none).set i f

/-- The force table after bytes at an offset, entry by entry (04 R111). -/
def overForces (l : List Force) (ofs : Nat) (b : List Byte) : List Force :=
  let n := b.length / 32
  ((List.range n).foldl (fun l i => setEntry l (ofs / 32 + i) (forceDec (slice b (32 * i) 32))) (l.map some)).filterMap id

/-- Write mirror lines into memory: tracking records, the force table, other addresses (11 R292). Poison under them ends (20 R502). -/
def State.writeLine (s : State) (x : Span) : State :=
  let p := s.mgn.poison.filter fun w => !(x.addr ≤ w && w < x.addr + x.bytes.length)
  let s : State := { s with mgn := { s.mgn with poison := p } }
  if forceLine x.addr then
    let l := overForces s.img.force (x.addr - forceBlock) x.bytes
    { s with img := ({ s.img with force := l, changes := [] } : Img).save }
  else if 0x0160000000 ≤ x.addr && x.addr < 0x017C000000 then
    let r := trkOverlay s.trk s.act.log (x.addr - 0x0160000000) x.bytes (x.bytes.length + 1)
    { s with trk := { r.1 with logN := x.logN.getD r.1.logN }, act := { s.act with log := r.2 } }
  else s.storeIn 7 1 x.addr x.bytes

/-- The end of a mirror engine's transfer: single errors are corrected and counted, and one that cannot be corrected is a data error of
class ENG (03 R89, R90). -/
def State.engChecked (s : State) (l : List Span) : State :=
  let k := l.countP (·.err = .single)
  let s : State := if 0 < k then { s with mgn := { s.mgn with memCorr := satAdd 64 s.mgn.memCorr k } } else s
  if l.any (uncorrectable ·.err) then s.record 0x0004 (srcOf 0 0) [7] else s

/-- Write a list of lines. -/
def State.writeLines (s : State) (l : List Span) : State := l.foldl State.writeLine s

/-- The module receives transfers: STANDBY. -/
def State.receiving (s : State) : Bool := s.pair.role = .standby

/-- The run is a rejoin. -/
def isRejoin (r : Run) : Bool := match r.work with | .rejoin => true | _ => false

/-- The rejoin of this module stands suspended (11 R307). -/
def State.rejoinStands (s : State) : Bool := s.host.runs.any fun r => isRejoin r && r.suspended

/-- A rejoin that is to be suspended stops, at a chunk boundary or at a transfer close (11 R307). -/
def State.rejoinPause (s : State) : State :=
  (s.host.runs.filter fun r => r.suspendDue && isRejoin r).foldl State.suspendRun s

/-- Times that a block has differed. -/
def State.timesDiffered (s : State) (block : Nat) : Nat := (alook block s.pair.differed).getD 0

/-- Every block of a transfer is held. -/
def State.complete_ (s : State) (xfer blocks : Nat) : Bool :=
  (List.range blocks).all fun k => s.pair.staging.any fun b => b.1 = xfer && b.2.1 = k

/-- The lines of a transfer, in block order. -/
def State.stagedLines (s : State) (xfer blocks : Nat) : List Span :=
  (List.range blocks).flatMap fun k => ((s.pair.staging.find? fun b => b.1 = xfer && b.2.1 = k).map (·.2.2)).getD []

/-- A lane's mode from an image (02 R41, 03 R75): a lane that neither stands in a matched WAIT nor is halted takes it as soon as it does
(log entry 74). -/
def Lane.setMode (l : Lane) (b : AppBody) (i : Nat) : Lane :=
  let split := b.laneSplit i
  let first (c : Side) : Option Nat := (b.tasks.find? fun t => split && t.split && t.lane = i && t.copy = c).map (·.num)
  ({ l with modeDue := if l.split = split then none else some (split, first .a, first .b) } : Lane).takeMode

/-- Lane modes of an image. -/
def State.laneModes (s : State) (b : AppBody) : State :=
  let f (i : Fin 9) : Lane := if i.val < 8 then (s.lanes.lane[i]).setMode b i.val else s.lanes.lane[i]
  { s with lanes := { s.lanes with lane := Vector.ofFn f } }

/-- The application slots after a change: the new image ACTIVE, its base PREVIOUS, or, after a rollback, the other slot EMPTY; a confidential one
stays as received (12 R314, R315, R323). -/
def State.slotsAfter (s : State) (new_ : AppImage) (back : Bool) : Vector AppSlot 2 :=
  let recvOf (st : Slot) : Option AppImage := (s.chg.app.toList.find? (·.st = st)).bind (·.recv)
  if back then #v[{ st := .active, img := some new_, recv := recvOf .previous }, {}]
  else #v[{ st := .active, img := some new_, recv := recvOf .staged }, match s.chg.running with
    | some o => { st := .previous, img := some o, recv := recvOf .active }
    | none => {}]

/-- The standby switches to the staged image by applying COMMIT (12 R318, R321): it runs no task, so the image, its lane modes and its
Windbreak table change; memory and tables come with the transfer. -/
def State.standbySwitch (s : State) : State :=
  match s.chg.staged with
  | some i =>
    let back : Bool := s.chg.change.any (·.back)
    let s : State := { s with chg := { s.chg with
      app := s.slotsAfter i back
      running := some i, staged := none, change := none
      rollback := if back then none else some (s.stamp + 60000000000) } }
    (s.laneModes i.body).loadTable (some i)
  | none => s

/-- The standby holds the force table of its primary, by the version of the last heartbeat (04 R117). -/
def State.forcesHeld (s : State) : Bool := (s.pair.hb.map (·.forceVer)).getD s.pair.forceVer ≤ s.pair.forceVer

/-- The change instant of an announced change has passed in a standby that has not applied COMMIT (12 R321). -/
def State.commitMissed (s : State) : Bool := s.chg.change.any fun c => c.nc ≤ s.cyc.n

/-- A standby that holds the force table becomes CURRENT after a transfer, past the change instant only with COMMIT (12 R321); the first time
ends its Lull service and its rejoin (11 R307, 18 R483), and with it the FW_HANDOVER whose last step it is (12 R326). -/
def State.becomeCurrent (s : State) : State :=
  if !s.forcesHeld || s.rejoinStands || s.commitMissed then s.goStale else
  let s := ({ s with pair := { s.pair with current := true } } : State).endLull
  if s.pair.rejoin.isSome then
    let s := ({ s with pair := { s.pair with rejoin := none } } : State).endRuns isRejoin stOk dNone
    if s.chg.handover = 7 then s.handoverEnd stOk dNone (BitVec.ofNat 64 s.chg.handoverN) else s
  else s

/-- What a final close brings for the switch (11 R305); an ordinary close ends the standby's part in one. -/
def State.takeFinal (s : State) (fin : Option FinalClose) : State :=
  match fin with
  | some f =>
    let kindOf (n : Nat) : Nat := match (s.taskCfg n).map (·.kind) with
      | some TaskKind.mark => 1
      | some TaskKind.event => 2
      | some TaskKind.error => 3
      | _ => 0
    { s with pair := { s.pair with
        switch_ := some { phase := .acked }
        swHeld := (f.held.map fun r => { task := r.1, src := kindOf r.1, bytes := r.2 }, f.pool.map actDec) } }
  | none => { s with pair := { s.pair with switch_ := none, swHeld := ([], []) } }

/-- What a standby still misses of slices whose audit differed once lines have come (11 R295). -/
def State.auditGot (s : State) (got : Nat → Bool) : State :=
  { s with pair := { s.pair with auditLeft := s.pair.auditLeft.filter fun a => !got a } }

/-- The audit of a slice (11 R295): one that differs makes the standby STALE until every line of it has been shipped. -/
def State.audited (s : State) (ok : Bool) (slice : Nat) : State :=
  if ok then (if s.pair.auditLeft = [] then s.becomeCurrent else s)
  else
    let r := (s.sliceAt slice).getD (0, 0)
    let l := (List.range ((r.2 + 63) / 64)).map fun i => r.1 + 64 * i
    let s : State := { s with pair := { s.pair with
      auditLeft := l.foldl (fun d a => insLine a d) s.pair.auditLeft, audits := satAdd 64 s.pair.audits 1 } }
    s.goStale.record 0x090D (srcOf 8 0) []

/-- The whole transfer of a close block is applied in one step, with COMMIT where it carries it; the audit; the acknowledgement
(11 R292, R295, 12 R318). -/
def State.applyClose (s : State) (c : CloseBlk) : State :=
  let l := s.stagedLines c.xfer c.blocks
  let s := (s.writeLines l).auditGot fun a => l.any (·.addr = a)
  let ok : Bool := c.audit = s.auditDigest c.slice
  let s : State := { s with pair := { s.pair with staging := [], differed := [], heldClose := none, xferSeq := c.xfer } }
  let s := if c.commit.isSome then s.standbySwitch else s
  (((s.send (.ack c.xfer)).takeFinal c.fin).takeSnapshots true).audited ok c.slice

/-- A close block whose blocks have all passed is applied; one that misses some waits for them (11 R292). A rejoin that is to be suspended
stops here: nothing is applied, and the lines stay dirty in the primary (R307). -/
def State.tryClose (s : State) : State :=
  match s.pair.heldClose with
  | some c =>
    if !s.complete_ c.xfer c.blocks then s
    else
      let s := s.rejoinPause
      if s.rejoinStands then { s with pair := { s.pair with staging := [], differed := [], heldClose := none } } else s.applyClose c
  | none => s

/-- CLOSE_BLOCK_RX. A transfer that has ended without a close stays unapplied (11 R292), and so does every one while the rejoin stands
suspended (R307). A block that has not come is requested; one that differed has been. -/
def execCloseBlockRx (xfer : Nat) (blocks : Nat) (commit : Option Nat) (slice : Nat) (audit : BitVec 128) (fin : Option FinalClose)
    (s : State) : Host.Outcome State Fault Refusal :=
  if !s.receiving || s.pair.voided = some xfer || s.rejoinStands then .next s
  else
    let s : State := { s with pair := { s.pair with
      heldClose := some { xfer := xfer, blocks := blocks, commit := commit, slice := slice, audit := audit, fin := fin } } }
    let miss := (List.range blocks).filter fun k =>
      !(s.pair.staging.any fun b => b.1 = xfer && b.2.1 = k) && s.timesDiffered k = 0
    .next (miss.foldl (fun s k => s.send (.resend k)) s).tryClose

/-- A block that passes: its force table lines are written at once (04 R117), the others go to the staging, which holds one transfer (11
R292). -/
def State.stageBlock (s : State) (xfer block : Nat) (lines : List Span) (forceVer : Option Nat) : State :=
  let s := (s.writeLines (lines.filter fun x => forceLine x.addr)).auditGot fun a => forceVer.isSome && forceLine a
  let s : State := { s with pair := { s.pair with forceVer := forceVer.getD s.pair.forceVer } }
  if s.pair.voided = some xfer || s.rejoinStands then s
  else
    let rest := s.pair.staging.filter fun b => b.1 = xfer && b.2.1 ≠ block
    ({ s with pair := { s.pair with staging := rest ++ [(xfer, block, lines.filter fun x => !forceLine x.addr)] } } : State).tryClose

/-- A block that differs is requested again; the third time it ends the transfer without a close (11 R292). -/
def State.blockDiffers (s : State) (xfer block : Nat) : State :=
  let k := s.timesDiffered block + 1
  if 3 ≤ k then
    ({ s with pair := { s.pair with
        staging := s.pair.staging.filter fun b => b.1 ≠ xfer, differed := [], heldClose := none, voided := some xfer } } : State).goStale
  else
    let s : State := { s with pair := { s.pair with differed := aset block k s.pair.differed, resends := satAdd 64 s.pair.resends 1 } }
    (s.record 0x090C (srcOf 8 0) [block]).send (.resend block)

/-- MIRROR_BLOCK_RX: a line whose write the staging has refused for its code makes the block differ (DEDUCED, log entry 93). `forceVer`: the
force table version that the block brings (log entry 78). -/
def execMirrorBlockRx (xfer : Nat) (block : Nat) (lines : List Span) (forceVer : Option Nat) (digest : BitVec 128) (s : State) :
    Host.Outcome State Fault Refusal :=
  if !s.receiving then .next s
  else
    let s := s.engChecked lines
    .next (if digest = blockDigest xfer block lines && !(lines.any (uncorrectable ·.err)) then s.stageBlock xfer block lines forceVer
           else if s.pair.voided = some xfer then s
           else s.blockDiffers xfer block)

/-- The snapshot of an output cut-off goes to the standby: header and lines that differ from the one before (11 R294). -/
def State.shipSnapshot (s : State) (old : List Host.Cell) : State :=
  if !s.shipping then s
  else
    let lines := (List.range (hdrOfs / 64)).map fun i => snapBlock + 64 * i
    let diff := (lines.filter fun a => memBytes old a 64 ≠ memBytes s.mem a 64) ++ [snapBlock + hdrOfs]
    let spans : List Span := diff.map fun a => { addr := a, bytes := memBytes s.mem a 64 }
    let s := s.send (.snapshot s.cyc.n spans (snapCheck s.cyc.n spans))
    { s with pair := { s.pair with snapSeq := s.cyc.n % 2 ^ 32 } }

/-- The values of the snapshot that a cycle sends to the stations it serves are kept for HOLD (07 R196). -/
def State.keepSent (s : State) (cycle : Nat) : State :=
  match s.net.cfg with
  | none => s
  | some c => { s with stnM := s.stnM.map fun x =>
      if x.st = .included && !x.withheld && c.servesStn x.code cycle then
        { x with lastOut := (outPts x.code (c.mapOf x.code)).map fun q => (q.1, ptGet s.mem snapBlock q.2.1 q.2.2) }
      else x }

/-- SNAPSHOT_TRANSFER_RX: a complete one, whose check block has come and agrees, is held, an incomplete one discarded. -/
def execSnapshotTransferRx (cycle : Nat) (lines : List Span) (check : Option (BitVec 128)) (s : State) :
    Host.Outcome State Fault Refusal :=
  if s.receiving && check = some (snapCheck cycle lines) then
    let s := lines.foldl (fun s x => s.storeIn 7 1 x.addr x.bytes) s
    .next (({ s with pair := { s.pair with snapSeq := cycle % 2 ^ 32 } } : State).keepSent cycle)
  else .next s

/-- A joining module writes a chunk straight into its memory; a progress completion follows each 64 MiB (11 R307). With the
force table it holds the version of the primary's last heartbeat (log entry 78). -/
def State.takeChunk (s : State) (chunk : Span) : State :=
  let s := s.engChecked [chunk]
  let s := if uncorrectable chunk.err then s else s.writeLine chunk
  let s : State := if forceLine chunk.addr then
    { s with pair := { s.pair with forceVer := (s.pair.hb.map (·.forceVer)).getD s.pair.forceVer } } else s
  let old := s.pair.baseDone
  let done := old + chunk.bytes.length
  let s : State := { s with
    pair := { s.pair with baseDone := done }
    host := { s.host with runs := s.host.runs.map fun r => if isRejoin r then { r with done := done } else r } }
  let s := if old / 0x4000000 < done / 0x4000000 then (s.host.runs.filter isRejoin).foldl (fun s r => s.progress r 1 done r.total) s else s
  s.rejoinPause

/-- BASE_CHUNK_RX: a chunk that comes while the rejoin stands suspended waits for its resumption (11 R307). -/
def execBaseChunkRx (chunk : Span) (s : State) : Host.Outcome State Fault Refusal :=
  if s.pair.role ≠ .joining then .next s
  else if s.rejoinStands then .next { s with pair := { s.pair with heldChunks := s.pair.heldChunks ++ [chunk] } }
  else .next (s.takeChunk chunk)

/-- A resumed rejoin goes on with the next chunk. -/
def State.rejoinOn (s : State) : State :=
  let l := s.pair.heldChunks
  l.foldl State.takeChunk { s with pair := { s.pair with heldChunks := [] } }

end Sys2Proof.Machine
end

