-- ==== Sys2Proof/Machine/App.lean ====
section
/-! DEFINITION. Applications: loading, changing, rolling back, starting and stopping (12 R315 to R324, 02 R50 to R58, 13 R365). -/

namespace Sys2Proof.Machine
open Sys2Proof

/-! ## Tables of an image in memory -/

/-- Clear the listed bytes of a block, marking their lines. -/
def State.clearBlock (s : State) (base : Nat) : State :=
  let cells := s.mem.filter fun c => base ≤ c.1 && c.1 < base + blockLen
  let s : State := { s with mem := memClear s.mem base blockLen }
  cells.foldl (fun s c => s.mark c.1 1) s

/-- Lay the modes and values of a table into its block (04 R93, R95, R102, 02 R53). -/
def State.layTable (s : State) (base : Nat) (l : List PtCfg) : State :=
  l.foldl (fun s e =>
    match posOf s.mapCfg e.point with
    | some pos =>
      let k := ptKind e.point
      let m := qualSet (ptSet s.mem base k pos e.value) base k pos e.mode
      (({ s with mem := m } : State).mark (if k < 2 then base + pos / 8 else base + 0x8000 + 2 * pos) 2).mark
        (qualAddr base k pos) 1
    | none => s) (s.clearBlock base)

/-- The substitute-value and the safe-value block follow an image. -/
def State.layTables (s : State) (b : AppBody) : State := (s.layTable substBlock b.subst).layTable safeBlock b.safe

/-- Stations whose safe values an image changes get them written (02 R53). -/
def State.safeChanged (s : State) (old new_ : List PtCfg) : State :=
  let of_ (l : List PtCfg) (code : Nat) : List PtCfg := l.filter fun e => ptStn e.point = code
  { s with stnM := s.stnM.map fun x => if of_ old x.code = of_ new_ x.code then x else { x with safeDue := true } }

/-! ## Loading, 12 R316, 09 R251, 04 R119 -/

/-- A verified image becomes the loaded one: lane modes, code and data, tables, Windbreak table, tracking configuration; its tasks are
STOPPED. -/
def State.install (s : State) (i : AppImage) : State :=
  let old := s.safeTab
  let s := (s.laneModes i.body).loadTable (some i)
  let s := (i.body.code ++ i.body.data).foldl (fun s x => s.storeIn 3 0 x.addr x.bytes) s
  let s := s.layTables i.body
  let before := s.trk
  let s := ((s.onTrk fun t => trkLoad t i.body).markTrkDiff before).mark 0x0170C00000 (16 * s.act.log.length)
  let s : State := { s with
    act := { s.act with log := [] }
    chg := { s.chg with running := some i }
    lanes := { s.lanes with task := Vector.replicate 32 {} } }
  s.safeChanged old i.body.safe

/-- APP_LOAD complete in this module: the image ACTIVE, the other slot EMPTY, internal forces released, no rollback, the application
floor raised (12 R312, R316, R323, 04 R119). -/
def State.loadDone (s : State) (i : AppImage) : State :=
  let s := (s.install i).keepSecret i
  let s : State := { s with chg := { s.chg with
    app := #v[{ st := .active, img := some i, recv := if secret i then some i else none }, {}], change := none, staged := none
    rollback := none
    appFloor := max s.chg.appFloor i.hdr.rollback } }
  if s.primary then (s.dropForces (fun f => ptStn f.point = internalCode) 1).orphans s.chg.running else s

/-- An APP_LOAD ends with OK. -/
def State.loadEnd (s : State) (r : Run) (i : AppImage) : State := (s.loadDone i).endRun r stOk dNone

/-- The command must find the module PRIMARY. -/
def ownPrimary (op : Nat) (c : Cmd) (k : State → State) (s : State) : State :=
  if !s.primary then s.final op c stInvalid dRole else k s

/-- The header checks of 12 R311 and the generation check of R330 on an application image; a confidential one for a partner needs fresh
randomness (14 R380, R393). -/
def State.appHdr (s : State) (img : AppImage) (kind length : Nat) : Option (Nat × Nat) :=
  match s.hdrCheck img kind length with
  | some e => some e
  | none =>
    if s.anyTrial && s.activeGen < img.hdr.gen then some (stInvalid, dContent)
    else if secret img && s.partnerDuty && s.keys.rngFail then some (stFailed, dState) else none

/-- APP_LOAD: BUSY while a task is READY or RUNNING; then the header checks; ACCEPTED, and staging begins. -/
def execAppLoad (c : Cmd) (img : AppImage) (s : State) : Host.Outcome State Fault Refusal :=
  .next (s.hostCmd 0x0060 c 1 (c.inlZero 0) (ownPrimary 0x0060 c fun s =>
    if s.busyTask then s.final 0x0060 c stBusy dNone
    else match s.appHdr img 2 c.length with
      | some (st, d) => s.final 0x0060 c st d
      | none => s.accept (mkRun 0x0060 c (s.partyOf c) true c.length (.appLoad img false)) 0x0060 c))

/-! ## Changing, 12 R317 to R324 -/

/-- The rollback period ends: the application floor rises to the ROLLBACK of the image that the change brought (12 R312, R323). -/
def State.endRollback (s : State) : State :=
  if s.chg.rollback.isSome then
    { s with chg := { s.chg with rollback := none
                                 appFloor := max s.chg.appFloor ((s.chg.running.map (·.hdr.rollback)).getD 0) } }
  else s

/-- ROLLBACK_PERIOD_END: 60 s after the change instant. -/
def execRollbackPeriodEnd (s : State) : Host.Outcome State Fault Refusal :=
  match s.chg.rollback with
  | some t => .next (s.reach ((t : Int) - ((s.stamp : Int) - (s.clk.now : Int))).toNat).endRollback
  | none => .next s

/-- A command that excludes APP_CHANGE and a rollback is under way, 12 R324: the partner's rejoin shows in its role until it is CURRENT. -/
def State.changeBusy (s : State) : Bool :=
  [0x0060, 0x0061, 0x0071, 0x0090, 0x0091].any s.running || s.pair.switch_.isSome || s.pair.partnerJoins ||
    (s.pair.hb.map (·.role)) = some 3

/-- The whole INLINE of APP_CHANGE is as 12 R317 gives it. -/
def cflagsOk (c : Cmd) : Bool := c.inf 0 4 < 2 && c.inlZero 4

/-- The APP_CHANGE under way. -/
def State.changeRun (s : State) : Option Run :=
  s.host.runs.find? fun r => match r.work with
    | .appChange _ => true
    | .rollback => true
    | _ => false

/-- A step of 12 R317 is done: PROGRESS with its number (12 R331). -/
def State.changeStep (s : State) (k : Nat) : State :=
  match s.changeRun with
  | some r => s.progress r k k 5
  | none => s

/-- APP_CHANGE with a delta: role, BUSY, header checks; the rollback period ends at its acceptance; the delta goes to the partner. -/
def execAppChange (c : Cmd) (img : AppImage) (s : State) : Host.Outcome State Fault Refusal :=
  .next (s.hostCmd 0x0061 c 1 (cflagsOk c) (ownPrimary 0x0061 c fun s =>
    if c.inf 0 4 ≠ 0 then s.final 0x0061 c stInvalid dContent
    else if s.changeBusy then s.final 0x0061 c stBusy dNone
    else match s.appHdr img 3 c.length with
      | some (st, d) => s.final 0x0061 c st d
      | none =>
        if 8 ≤ s.longOps then s.final 0x0061 c stBusy dNone
        else
          let s := s.endRollback
          let s := s.accept (mkRun 0x0061 c (s.partyOf c) true c.length (.appChange img)) 0x0061 c
          let s : State := { s with chg := { s.chg with
            ownOk := false, partnerWait := if s.partnerDuty then some .delta else none } }
          if s.partnerDuty then (s.passImage img).changeStep 1 else s))

/-- N_c: the first cycle with N mod L = 0 that begins at least 2 matrix cycles from now (12 R317). -/
def State.changeCycle (s : State) : Nat :=
  let l := (s.net.cfg.map (·.l)).getD 1
  let first := s.cyc.n + 2 * l + (if s.cycleStart < s.netTime then 1 else 0)
  (first + l - 1) / l * l

/-- Announce a change (12 R317, step 4). -/
def State.announce (s : State) (i : AppImage) (back : Bool) : State :=
  let nc := s.changeCycle
  (({ s with chg := { s.chg with change := some { img := i, back := back, nc := nc } } } : State).send (.announce nc)).changeStep 4

/-- APP_CHANGE with ROLLBACK: the base of the last change with the back rules, within its 60 s (12 R323). -/
def execAppRollback (c : Cmd) (s : State) : Host.Outcome State Fault Refusal :=
  .next (s.hostCmd 0x0061 c 0 (cflagsOk c) (ownPrimary 0x0061 c fun s =>
    if c.inf 0 4 ≠ 1 then s.final 0x0061 c stInvalid dBuffer
    else if s.changeBusy then s.final 0x0061 c stBusy dNone
    else match s.chg.rollback, s.chg.app.toList.find? (·.st = .previous) with
      | some t, some p =>
        match p.img with
        | some i =>
          if t < s.stamp then s.final 0x0061 c stInvalid dState
          else if 8 ≤ s.longOps then s.final 0x0061 c stBusy dNone
          else
            let s := s.endRollback
            (s.accept (mkRun 0x0061 c (s.partyOf c) true 0 .rollback) 0x0061 c).announce i true
        | none => s.final 0x0061 c stInvalid dState
      | _, _ => s.final 0x0061 c stInvalid dState))

/-- Discard a staged copy in this module: its slot is EMPTY again. -/
def State.discardStaged (s : State) : State :=
  { s with chg := { s.chg with
      app := s.chg.app.map fun x => if x.st = .staged then {} else x
      change := none, staged := none, ownOk := false, partnerWait := none, partnerSaid := none } }

/-- The RESULT_DIGEST of the target of an FW_HANDOVER: the STAGED image, or after FW_FALLBACK, while the module runs a slot that is FAILED, the
ACTIVE one (12 R326). -/
def State.fwTarget (s : State) : Option Digest :=
  let of_ (st : Slot) : Option Digest := ((s.chg.fw.toList.find? (·.st = st)).bind (·.hdr)).map (·.resultDigest)
  (of_ .staged).orElse fun _ => if s.fwSlot.st = .failed then of_ .active else none

/-- A target of FW_HANDOVER exists. -/
def State.hasTarget (s : State) : Bool := s.fwTarget.isSome

/-- The partner learns what firmware this module holds (log entry 86). -/
def State.tellFw (s : State) : State :=
  if s.linked then s.send (.report (.firmwareHeld s.ownTrial (s.fwSlot.hdr.map (·.resultDigest)) s.fwTarget) true) else s

/-- The firmware slots change. -/
def State.setFw (s : State) (v : Vector FwSlot 2) : State := ({ s with chg := { s.chg with fw := v } } : State).tellFw

/-- The slots of staged firmware are EMPTY again. -/
def State.discardFw (s : State) : State :=
  ({ s with chg := { s.chg with ownOk := false, partnerWait := none, partnerSaid := none } } : State).setFw
    (s.chg.fw.map fun x => if x.st = .staged then {} else x)

/-- What this module has staged for its partner is discarded (12 R311, R318, R331). -/
def State.discardHeld (s : State) : State := if s.pair.role = .standby then s.discardStaged.discardFw else s

/-- The partner discards its staged copies too. -/
def State.tellDiscard (s : State) : State := if s.partnerDuty then s.send (.report .discard true) else s

/-- Both modules have staged the delta: announce. -/
def State.bothStaged (s : State) : State :=
  if s.chg.ownOk && s.chg.partnerWait.isNone && s.chg.change.isNone then
    match s.chg.app.toList.find? (·.st = .staged) with
    | some x => match x.img with
      | some i => s.announce i false
      | none => s
    | none => s
  else s

/-- Put a staged image into the slot that is not ACTIVE; a confidential one is held as received (12 R314). -/
def State.stageApp (s : State) (recv i : AppImage) : State :=
  let k : Fin 2 := if (s.chg.app[0]).st = .active then 1 else 0
  let slot : AppSlot := { st := .staged, img := some i, recv := if secret recv then some recv else none }
  { s with chg := { s.chg with app := s.chg.app.set k.val slot } }

/-- Firmware staged by this module: the slot that is not ACTIVE holds it as STAGED. -/
def State.stageFw (s : State) (i : AppImage) : State :=
  let k : Fin 2 := if (s.chg.fw[0]).st = .active then 1 else 0
  s.setFw (s.chg.fw.set k.val { st := .staged, img := some i })

/-- Own staging has passed and no partner's report is awaited: FW_STAGE ends. -/
def State.fwStaged (s : State) (r : Run) : State :=
  if s.chg.ownOk && s.chg.partnerWait.isNone then s.endRun r stOk dNone else s

/-- A staging that fails: the staged copies are discarded in both modules, the running image is unchanged (12 R311, R318, R331). -/
def State.stagingFails (s : State) (r : Run) (status detail : Nat) : State :=
  let s := s.tellDiscard
  (match r.work with
    | .fwStage _ => s.discardFw
    | _ => s.discardStaged).endRun r status detail

/-- IMAGE_STAGING_DONE: the body has been checked; the operation goes on or ends (12 R311, R314, R316, R317, R325). -/
def execImageStagingDone (sess : BitVec 16) (cmdId : BitVec 32) (s : State) : Host.Outcome State Fault Refusal :=
  match s.runOf sess.toNat cmdId with
  | none => .next s
  | some r =>
    if r.suspended || !s.serves then .next s
    else match r.work with
      | .appLoad img false =>
        match s.staging img with
        | some (st, d) => .next (s.stagingFails r st d)
        | none =>
          if s.partnerDuty then
            let s := ((s.stageApp img img).keepSecret img).setRun { r with work := .appLoad img true }
            let s : State := { s with chg := { s.chg with ownOk := true, partnerWait := some .appImage } }
            .next (s.passImage img)
          else .next (s.loadEnd r img)
      | .appChange img =>
        if s.chg.ownOk then .next s
        else match s.staging img with
          | some (st, d) => .next (s.stagingFails r st d)
          | none =>
            let s := (s.stageApp img (s.merged img)).keepSecret img
            .next (({ s with chg := { s.chg with ownOk := true } } : State).changeStep 3).bothStaged
      | .fwStage img =>
        match s.staging img with
        | some (st, d) => .next (s.stagingFails r st d)
        | none =>
          let s := s.stageFw img
          .next (({ s with chg := { s.chg with ownOk := true } } : State).fwStaged r)
      | _ => .next s

/-- The operation that waits for a report on what it has passed. -/
def State.waitingRun (s : State) (kind : ReportKind) : Option Run :=
  s.host.runs.find? fun r => match kind, r.work with
    | .appImage, .appLoad _ true => true
    | .delta, .appChange _ => true
    | .firmware, .fwStage _ => true
    | _, _ => false

/-- The partner has checked and stored what was passed, or failed it: the operation goes on or ends (12 R311, R316, R317, R325). The order to make
a loaded image ACTIVE goes to the partner with the own step. -/
def State.partnerSays (s : State) (r : Run) (ok : Bool) (status : Nat) : State :=
  if !ok then s.stagingFails r status (if status = stInvalid then dContent else dNone)
  else match r.work with
    | .appLoad img _ => (if s.partnerDuty then s.send (.report .activate true) else s).loadEnd r img
    | .appChange _ => (s.changeStep 2).bothStaged
    | .fwStage img =>
      let p : FwHeld := { s.chg.partner.getD {} with target := some img.hdr.resultDigest }
      ({ s with chg := { s.chg with partner := some p } } : State).fwStaged r
    | _ => s

/-- The end of the partner's part of an operation that waits for it: its report, or its leaving pair duty (12 R316, R317, R325). While the
operation stands suspended the report is kept (R331). -/
def State.partnerDone (s : State) (kind : ReportKind) (ok : Bool) (status : Nat := stInvalid) : State :=
  if s.chg.partnerWait ≠ some kind then s
  else match s.waitingRun kind with
    | some r =>
      if r.suspended then { s with chg := { s.chg with partnerSaid := some (kind, ok, status) } }
      else ({ s with chg := { s.chg with partnerWait := none, partnerSaid := none } } : State).partnerSays r ok status
    | none => { s with chg := { s.chg with partnerWait := none, partnerSaid := none } }

/-- An operation that is resumed takes the report that has come meanwhile (12 R331). -/
def State.heardMeanwhile (s : State) : State :=
  match s.chg.partnerSaid with
  | some (k, ok, st) => s.partnerDone k ok st
  | none => s

/-- The partner leaves pair duty: what waits for its report goes on without it. -/
def State.partnerGone (s : State) : State :=
  match s.chg.partnerWait with
  | some .netConfig => s
  | some k => s.partnerDone k true
  | none => s

/-! ## The partner's images, 12 R316, R317, R324 -/

/-- PAIR_IMAGE_RX: an image passed over the link is checked and held; a report answers it. A joining module receives the primary's ACTIVE
and PREVIOUS images, told apart by APP_ID. -/
def execPairImageRx (img : AppImage) (s : State) : Host.Outcome State Fault Refusal :=
  if s.pair.role = .joining then
    let digest := img.hdr.resultDigest = Config.bodyDigest (fullBody img.body)
    if (s.hdrCheckAny img img.hdr.kind (img.hdr.bodyLength + 512)).isSome || !s.tagOk img || !digest || !s.contentOk img.body then .next s
    else if (s.pair.hb.map (·.appId)) = some (img.hdr.resultDigest.setWidth 128) then
      let prev := s.chg.app.toList.find? (·.st = .previous)
      let s := (s.install img).keepSecret img
      .next { s with chg := { s.chg with app := #v[{ st := .active, img := some img }, prev.getD {}] } }
    else
      let act := s.chg.app.toList.find? (·.st = .active)
      let s := s.keepSecret img
      .next { s with chg := { s.chg with app := #v[act.getD {}, { st := .previous, img := some img }] } }
  else if s.pair.role ≠ .standby then .next s
  else
    let kind : ReportKind := if img.hdr.kind = 1 then .firmware else if img.hdr.kind = 3 then .delta else .appImage
    let denied : ReportKind :=
      if img.hdr.kind = 1 then .firmwareDenied else if img.hdr.kind = 3 then .deltaDenied else .appImageDenied
    match (s.passedCheck img).orElse fun _ => s.staging img with
    | some (st, _) => .next (s.send (.report (if st = stDenied then denied else kind) false))
    | none =>
      if img.hdr.kind = 1 then .next ((s.stageFw img).send (.report kind true))
      else if img.hdr.kind = 3 then
        let i := s.merged img
        let s := (s.endRollback.stageApp img i).keepSecret img
        .next (({ s with chg := { s.chg with staged := some i, change := none } } : State).send (.report kind true))
      else .next (((s.stageApp img img).keepSecret img).send (.report kind true))

/-- A standby makes the loaded image that it has staged ACTIVE with its primary (12 R316; log entry 86). -/
def State.activateStaged (s : State) : State :=
  match s.chg.app.toList.find? (·.st = .staged) with
  | some x => match x.img with
    | some i => if s.pair.role = .standby && s.chg.staged.isNone then s.loadDone i else s
    | none => s
  | none => s

/-- CHANGE_ANNOUNCE_RX: N_c of the staged change, again after an abandoned boundary; a rollback is announced with nothing staged, and the PREVIOUS
image is meant: with it the rollback period ends (12 R317, R318, R323). -/
def execChangeAnnounceRx (n : Nat) (s : State) : Host.Outcome State Fault Refusal :=
  if s.pair.role ≠ .standby then .next s
  else match s.chg.change, s.chg.staged with
    | some c, _ => .next { s with chg := { s.chg with change := some { c with nc := n } } }
    | none, some i => .next { s with chg := { s.chg with change := some { img := i, nc := n } } }
    | none, none =>
      match (s.chg.app.toList.find? (·.st = .previous)).bind (·.img) with
      | some i =>
        let s := s.endRollback
        .next { s with chg := { s.chg with staged := some i, change := some { img := i, back := true, nc := n } } }
      | none => .next s

/-! ## Q and the change instant, 12 R318 to R322 -/

/-- Every compared task of the image is IDLE (12 R318, 11 R305); a task that stands STOPPED or HALTED runs nothing. -/
def State.comparedIdle (s : State) : Bool :=
  s.tasks.all fun t => t.split || t.kind = .background || ((s.taskAt t.num).st ≠ .ready && (s.taskAt t.num).st ≠ .running)

/-- Halt split tasks and the background task where they are READY or RUNNING, each counted as a skip; the time that one has run counts to
the load (02 R43). -/
def State.haltSplit (s : State) : State :=
  (s.tasks.filter fun t => (t.split || t.kind = .background) &&
      ((s.taskAt t.num).st = .ready || (s.taskAt t.num).st = .running)).foldl
    (fun s t =>
      let s := if (s.taskAt t.num).st = .running && !(s.taskAt t.num).held then s.charge t.lane t.copy t else s
      (s.onTask t.num fun x => { x with st := .idle, held := false }).skipRel t) s

/-- The bytes that a rule writes, from memory as it stood at Q (12 R319, R320). -/
def migOut (old : List Host.Cell) (data : List Byte) (r : MigRule) : List Byte :=
  match r.op with
  | 1 => memBytes old r.oldAddr r.count
  | 2 => (List.range r.count).map fun i => (r.pattern >>> (8 * (i % 8))).setWidth 8
  | 3 => (List.range r.count).flatMap fun i =>
      let x := memNum old (r.oldAddr + i * r.oldW) r.oldW
      le r.newW (if x < 2 ^ (8 * r.oldW - 1) then x else x + 2 ^ (8 * r.newW) - 2 ^ (8 * r.oldW))
  | 4 => (List.range r.count).flatMap fun i => le r.newW (memNum old (r.oldAddr + i * r.oldW) r.oldW)
  | _ => slice data r.oldAddr r.count

/-- Run migration rules in table order. -/
def State.migrate (s : State) (rs : List MigRule) (b : AppBody) : State :=
  let old := s.mem
  let data := dataBytes b
  rs.foldl (fun s r => s.store r.newAddr (migOut old data r)) s

/-- The rules that a change runs: the forward rules of the new image, or for a rollback the back rules of the running one. -/
def State.rulesOf (s : State) (c : Change) : List MigRule :=
  if c.back then (s.chg.running.map (·.body.back)).getD [] else c.img.body.fwd

/-- Abandon a boundary; the eighth time the operation fails with CHANGE_FAIL (12 R318). -/
def State.abandon (s : State) (c : Change) : State :=
  let l := (s.net.cfg.map (·.l)).getD 1
  if 8 ≤ c.tries + 1 then
    let s := s.record 0x0A00 (srcOf 9 0) []
    match s.changeRun with
    | some r => s.stagingFails r stFailed dTimeout
    | none => s.tellDiscard.discardStaged
  else
    let c' : Change := { c with tries := c.tries + 1, nc := c.nc + l, abandoned := false, done := false }
    ({ s with chg := { s.chg with change := some c' } } : State).send (.announce c'.nc)

/-- The tracking configuration of a new image (12 R318, 09 R251), with TRK_DELETED for the objects that it deletes. -/
def State.changeTracking (s : State) (b : AppBody) : State :=
  let (t, gone) := trkChange s.trk b
  let before := s.trk
  let s := (s.onTrk fun _ => t).markTrkDiff before
  if 0 < gone then s.record 0x0706 (srcOf 6 0) [gone] else s

/-- Forces at a change: internal ones that it deletes or relocates are released, NO_WRITER follows the new image (04 R118, R119, 12 R318). -/
def State.changeForces (s : State) (c : Change) : State :=
  (s.dropForces (fun f => ptStn f.point = internalCode && !sameVar s.vars c.img.body.forceable (ptIdx f.point))
    (if c.back then 3 else 2)).orphans (some c.img)

/-- CHANGE_Q: every compared task is IDLE and the event phase has ended, after the last snapshot of the old image: the usability check,
then steps 2 to 5 of 12 R318. -/
def execChangeQ (s : State) : Host.Outcome State Fault Refusal :=
  match s.chg.change with
  | none => .next s
  | some c =>
    if !s.primary || c.done || c.abandoned || s.cyc.n + 1 ≠ c.nc || s.cyc.snapN ≠ some s.cyc.n || !s.comparedIdle then .next s
    else
      let rules := s.rulesOf c
      let close := s.startOf c.nc + ((s.net.cfg.map (·.i)).getD 0)
      if close < s.netTime + 8000 + migNs rules + 2000 || s.wb.update then
        .next { s with chg := { s.chg with change := some { c with abandoned := true } } }
      else
        let s : State := { s with cyc := { s.cyc with holdRel := true } }
        let s := (s.haltSplit.loadTable (some c.img)).migrate rules c.img.body
        let s := (((s.layTables c.img.body).laneModes c.img.body).changeTracking c.img.body).changeForces c
        let s : State := { s with chg := { s.chg with
          change := some { c with done := true }
          commitDue := if s.partnerStandby then some c.nc else none } }
        .next (s.closeTransfer false)

/-- A task of the new image takes a release of the old one: same number, kind, and source or category (12 R322). -/
def takesOver (old new_ : List TaskCfg) (n : Nat) : Bool :=
  match old.find? (·.num = n), new_.find? (·.num = n) with
  | some a, some b => a.kind = b.kind && a.source = b.source && a.category = b.category
  | _, _ => false

/-- The first-run flag is set in a new task and where kind, lane, mode, period or phase changes. -/
def runsAnew (old new_ : List TaskCfg) (n : Nat) : Bool :=
  match old.find? (·.num = n), new_.find? (·.num = n) with
  | some a, some b => a.kind ≠ b.kind || a.lane ≠ b.lane || a.split ≠ b.split || a.e ≠ b.e || a.phase ≠ b.phase
  | none, some _ => true
  | _, none => false

/-- A queued or held release with no task in the new image: lost, with CHANGE_DROP. -/
def State.dropRel (s : State) (n : Nat) : State :=
  (s.onTask n fun x => { x with lost := satAdd 64 x.lost 1 }).record 0x0A02 (srcOf 9 0) [n]

/-- Task states at the change instant. In Calm, or before an APP_START, the new tasks stand as the old ones did. -/
def State.changeTasks (s : State) (old new_ : List TaskCfg) : State :=
  let live := old.any fun t => (s.taskAt t.num).st = .idle || (s.taskAt t.num).st = .ready || (s.taskAt t.num).st = .running
  let base : TState := if s.calm.on then .halted else if live then .idle else .stopped
  let lostQ := (old.filter fun t => !takesOver old new_ t.num).flatMap fun t => (s.taskAt t.num).queue.map fun _ => t.num
  let s := lostQ.foldl State.dropRel s
  let f (i : Fin 32) : Task :=
    let x := s.lanes.task[i]
    if new_.any (·.num = i.val) then
      { x with st := base, held := false, firstRun := x.firstRun || runsAnew old new_ i.val
               queue := if takesOver old new_ i.val then x.queue else [], incopy := [] }
    else { x with st := .stopped, held := false, queue := [] }
  { s with lanes := { s.lanes with task := Vector.ofFn f } }

/-- Deliver the oldest queued release of an IDLE task (02 R50). -/
def State.fromQueue (s : State) (t : TaskCfg) : State :=
  match (s.taskAt t.num).queue with
  | r :: q =>
    if (s.taskAt t.num).st = .idle then
      (s.onTask t.num fun x => { x with queue := q }).deliver t { task := t.num, src := if t.kind = .event then 2 else 3, bytes := r }
    else s
  | [] => s

/-- The background task is READY with its input copy filled (02 R44, R50). -/
def State.readyBackground (s : State) : State :=
  (s.tasks.filter (·.kind = .background)).foldl (fun s t => if (s.taskAt t.num).st = .idle then s.restart t else s) s

/-- Releases held before this commit are delivered at it (12 R318, R322, 11 R305). -/
def State.deliverHeld (s : State) : State :=
  let held := s.cyc.heldRel
  let s : State := { s with cyc := { s.cyc with holdRel := false, heldRel := [] } }
  held.foldl State.release s

/-- Internal forces are written into their variables before any release of the commit, as class NET through the Windbreak (04 R110). -/
def State.forceVars (s : State) : State :=
  (s.img.force.filter fun f => ptStn f.point = internalCode).foldl (fun s f => match f.now, s.vars[ptIdx f.point]? with
    | some v, some x =>
      let b := if x.width = 1 then le 1 (v.toNat % 2) else le 2 v.toNat
      let t : Txn := { cls := 6, kind := 1, addr := x.addr, size := b.length, data := b, posted := true }
      match s.refusal t with
      | some (reason, region, a, straddle) => s.violate t reason region a straddle
      | none => s.store x.addr b
    | _, _ => s) s

/-- The change instant, at the image commit of N_c: the new image runs, APP_CHANGE completes with N_c; an abandoned boundary moves on
(12 R318, R322, 09 R251). Internal forces are written under the image that then runs (04 R110); the commit's own releases follow. -/
def State.changeInstant (s : State) : State :=
  match s.chg.change with
  | none => s.forceVars
  | some c =>
    if s.cyc.n ≠ c.nc || !s.primary then s.forceVars
    else if !c.done then (s.forceVars.abandon c).deliverHeld.readyBackground
    else
      let old := s.tasks
      let running := s.chg.running
      let oldSafe := s.safeTab
      let drop := s.cyc.heldRel.filter fun r => !takesOver old c.img.body.tasks r.task
      let s : State := { s with
        chg := { s.chg with
          app := s.slotsAfter c.img c.back, running := some c.img, change := none, ownOk := false
          rollback := if c.back then none else some (s.stamp + 60000000000) }
        cyc := { s.cyc with heldRel := s.cyc.heldRel.filter fun r => takesOver old c.img.body.tasks r.task } }
      let s := drop.foldl (fun s r => s.dropRel r.task) s
      let s := s.changeTasks old c.img.body.tasks
      let s := s.safeChanged oldSafe c.img.body.safe
      let scope (x : Option AppImage) := x.map fun i => (i.body.mirrorFull, i.body.mirror)
      let moved : Bool := scope running ≠ scope (some c.img)
      let s : State := if s.partnerStandby && (s.chg.commitDue.isSome || moved) then s.markStale else s
      let s := s.forceVars.invalL1.deliverHeld
      let s := s.tasks.foldl State.fromQueue s
      let s := s.readyBackground
      match s.changeRun with
      | some r => s.endRun r stOk dNone (BitVec.ofNat 64 c.nc)
      | none => s

/-! ## Starting and stopping, 02 R50, R52, R58 -/

/-- N of the first releases: the first cycle with N mod 64 = 0 that begins at least 2 cycles from now (02 R52); cycle 0 where no cycle runs
yet, as far as it begins late enough. -/
def State.firstCycle (s : State) : Nat :=
  if !s.cyc.running then 0
  else
    let first := s.cyc.n + 2 + (if s.cycleStart < s.netTime then 1 else 0)
    (first + 63) / 64 * 64

/-- A task when APP_START takes effect: IDLE, queues cleared, first-run flag set, counts since APP_START begin again (02 R50, 13
R553). -/
def Task.begin_ (t : Task) : Task :=
  { t with st := .idle, held := false, firstRun := true, takeover := false, queue := [], record := [], incopy := [], releases := 0
           skips := 0, lost := 0, longest := 0, since := 0, ran := 0, ctx := none }

/-- APP_START takes effect: the Calm latch clears with the span of 02 R58 open, lanes run, trips clear (10 R270). Tasks that stand IDLE,
READY or RUNNING, for which the table of 02 R50 has no row, begin again like STOPPED ones (DESIGN CHOICE, log entry 91). -/
def State.appStart (s : State) : State :=
  let nums := s.tasks.map (·.num)
  let f (i : Fin 32) : Task := if nums.contains i.val then (s.lanes.task[i]).begin_ else s.lanes.task[i]
  let g (i : Fin 9) : Lane :=
    let l := s.lanes.lane[i]
    if i.val < 8 then ({ l with a := { l.a with loadMax := 0, busy := 0 }, b := { l.b with loadMax := 0, busy := 0 } } : Lane).start else l
  let s : State := { s with
    lanes := { s.lanes with task := Vector.ofFn f, lane := Vector.ofFn g, loadFrom := s.netTime }
    calm := { s.calm with on := false, cause := 0, follower := false, flash := false, image := s.calm.on || s.calm.image }
    pair := { s.pair with maxKib := 0 }
    cyc := { s.cyc with
      starting := true, startAt := s.clk.now, firstRel := if s.cyc.running then some s.firstCycle else none, heldRel := [], errDue := [] } }
  let s := (List.range 16).foldl State.clearTrip s
  s.readyBackground

/-- APP_START. -/
def execAppStart (c : Cmd) (s : State) : Host.Outcome State Fault Refusal :=
  .next (s.hostCmd 0x0062 c 0 (c.inlZero 0) (ownPrimary 0x0062 c fun s =>
    if s.chg.running.isNone then s.final 0x0062 c stInvalid dState
    else s.appStart.final 0x0062 c stOk dNone (BitVec.ofNat 64 s.firstCycle)))

/-- APP_STOP: Calm with cause COMMANDED (02 R50, R54). -/
def execAppStop (c : Cmd) (s : State) : Host.Outcome State Fault Refusal :=
  .next (s.hostCmd 0x0063 c 0 (c.inlZero 0) (ownPrimary 0x0063 c fun s =>
    (s.latchCalm 4 false [] (s.partyOf c)).final 0x0063 c stOk dNone (BitVec.ofNat 64 s.cyc.n)))

/-- The event tasks that a host release is bound to. -/
def State.hostTasks (s : State) (hrel : Nat) : List TaskCfg := s.tasks.filter fun t => t.kind = .event && t.source = .host hrel

/-- TASK_RELEASE, 13 R365. -/
def execTaskRelease (c : Cmd) (s : State) : Host.Outcome State Fault Refusal :=
  .next (s.hostCmd 0x0064 c 0 true (ownPrimary 0x0064 c fun s =>
    let ts := s.hostTasks (c.inf 0 1)
    let dead (t : TaskCfg) : Bool := (s.taskAt t.num).st = .stopped || (s.taskAt t.num).st = .halted
    if 15 < c.inf 0 1 || ts.isEmpty then s.final 0x0064 c stInvalid dContent
    else if s.calm.on then s.final 0x0064 c stFailed dCalm
    else if ts.all dead then s.final 0x0064 c stFailed dState
    else
      let lost (s : State) : Nat := ts.foldl (fun a t => a + (s.taskAt t.num).lost) 0
      let s' := ts.foldl (fun s t => s.release { task := t.num, src := 2, bytes := c.inl }) s
      let k := lost s' - lost s
      s'.final 0x0064 c stOk dNone (BitVec.ofNat 64 (ts.length - k)) (BitVec.ofNat 64 k)))

end Sys2Proof.Machine
end

