-- ==== Sys2Proof/Machine/Firmware.lean ====
section
/-! DEFINITION. Firmware: staging, handover, confirmation, fall-back, failed starts (12 R325 to R330). -/

namespace Sys2Proof.Machine
open Sys2Proof

/-- FW_STAGE: role, header checks, generation, no TRIAL slot in either module (12 R325). -/
def execFwStage (c : Cmd) (img : AppImage) (s : State) : Host.Outcome State Fault Refusal :=
  .next (s.hostCmd 0x0070 c 1 (c.inlZero 0) (ownPrimary 0x0070 c fun s =>
    match s.hdrCheck img 1 c.length with
    | some (st, d) => s.final 0x0070 c st d
    | none =>
      if img.hdr.gen ≠ s.fwGen && img.hdr.gen ≠ s.fwGen + 1 then s.final 0x0070 c stInvalid dContent
      else if s.anyTrial then s.final 0x0070 c stInvalid dState
      else if 8 ≤ s.longOps then s.final 0x0070 c stBusy dNone
      else
        let s := s.accept (mkRun 0x0070 c (s.partyOf c) true c.length (.fwStage img)) 0x0070 c
        let s : State := { s with chg := { s.chg with
          ownOk := false, partnerWait := if s.partnerDuty then some .firmware else none } }
        if s.partnerDuty then s.send (.firmware img) else s))

/-- A step of the handover is done: PROGRESS with its number (12 R326); a cancel or suspend that is due takes effect at this step
boundary (12 R331). -/
def State.handoverStep (s : State) (k : Nat) : State :=
  let s : State := { s with chg := { s.chg with handover := k } }
  match s.handoverRun with
  | some r =>
    let r := { r with step := k }
    let s := s.progress r k k 8
    if r.cancelDue then s.handoverEnd stCancelled dNone
    else if r.suspendDue then s.suspendRun r
    else s
  | none => s

/-- The partner holds a target with a different digest, as far as its report has said (12 R326). -/
def State.otherTarget (s : State) : Bool := s.chg.partner.any fun p => p.target.isSome && p.target ≠ s.fwTarget

/-- Mark the STAGED firmware TRIAL. -/
def State.markTrial (s : State) : State := s.setFw (s.chg.fw.map fun f => if f.st = .staged then { f with st := .trial } else f)

/-- Step 1 of 12 R326 in the standby: its target is marked, and it leaves with cause 3 for a pair-commanded reset. With no target it says
so. -/
def State.handoverOrder (s : State) : State :=
  if s.pair.role ≠ .standby then s
  else if !s.hasTarget then s.send (.report .handover false)
  else (s.markTrial.faultMessage 3).send .resetRequest

/-- FW_HANDOVER: the order goes to the standby; the steps follow with the partner's reset, rejoin and switch. -/
def execFwHandover (c : Cmd) (s : State) : Host.Outcome State Fault Refusal :=
  .next (s.hostCmd 0x0071 c 0 (c.inlZero 0) (ownPrimary 0x0071 c fun s =>
    if !s.hasTarget then s.final 0x0071 c stInvalid dState
    else if s.changeBusy then s.final 0x0071 c stBusy dNone
    else if !(s.partnerStandby && s.pair.partnerCur) || s.partnerFlag 3 || s.otherTarget then s.final 0x0071 c stFailed dPartner
    else if 8 ≤ s.longOps then s.final 0x0071 c stBusy dNone
    else
      let s := s.accept (mkRun 0x0071 c (s.partyOf c) true 8 .handover) 0x0071 c
      (s.send (.report .handover true)).handoverStep 1))

/-- The running slot is TRIAL. -/
def State.runsTrial (s : State) : Bool := s.fwSlot.st = .trial

/-- The former ACTIVE slot becomes EMPTY, the TRIAL slot ACTIVE. -/
def confirmSlot (f : FwSlot) : FwSlot :=
  match f.st with
  | .trial => { f with st := .active }
  | .active => {}
  | _ => f

/-- What FW_CONFIRM does in a module that runs TRIAL firmware: slots, floor, and the settings area in the older FORMAT is erased (12 R312,
R328). -/
def State.confirmFw (s : State) : State :=
  if !s.runsTrial then s
  else
    let roll := (s.fwSlot.hdr.map (·.rollback)).getD 0
    let s := s.eraseBlocks fun x => x.fmt ≠ s.fwFmt
    ({ s with chg := { s.chg with fwFloor := max s.chg.fwFloor roll, handover := 0 } } : State).setFw (s.chg.fw.map confirmSlot)

/-- FW_CONFIRM: this module runs TRIAL firmware, and a partner in pair duty runs the same; the partner does the same (12 R328; log entry
86). -/
def execFwConfirm (c : Cmd) (s : State) : Host.Outcome State Fault Refusal :=
  .next (s.hostCmd 0x0072 c 0 (c.inlZero 0) fun s =>
    let same := s.chg.partner.any fun p => p.runs = s.fwSlot.hdr.map (·.resultDigest)
    if !s.runsTrial || (s.partnerDuty && !same) then s.final 0x0072 c stInvalid dState
    else
      let s := if s.partnerDuty then s.send (.report .fwConfirm true) else s
      (s.confirmFw.recordBy 0x0A04 (srcOf 9 0) [] (s.partyOf c) false).final 0x0072 c stOk dNone)

/-- Mark every TRIAL slot FAILED. -/
def failTrials (v : Vector FwSlot 2) : Vector FwSlot 2 := v.map fun f => if f.st = .trial then { f with st := .failed } else f

/-- What FW_FALLBACK does in a module. -/
def State.fallbackFw (s : State) : State := s.setFw (failTrials s.chg.fw)

/-- FW_FALLBACK, in both modules (12 R329; log entry 86). -/
def execFwFallback (c : Cmd) (s : State) : Host.Outcome State Fault Refusal :=
  .next (s.hostCmd 0x0073 c 0 (c.inlZero 0) fun s =>
    if !s.anyTrial then s.final 0x0073 c stInvalid dState
    else
      let s := if s.linked then s.send (.report .fwFallback true) else s
      s.fallbackFw.final 0x0073 c stOk dNone)

/-- A failed start of a trial; the third in a row starts the ACTIVE slot and marks the trial FAILED, with FW_TRIAL_FAIL (12 R327). -/
def State.startFails (s : State) : State :=
  if !s.runsTrial then s
  else if s.chg.fails + 1 < 3 then { s with chg := { s.chg with fails := s.chg.fails + 1 } }
  else
    let k := (s.chg.fw.toList.findIdx? (·.st = .active)).getD s.chg.fwRun
    let s := (({ s with chg := { s.chg with fwRun := k, fails := 0 } } : State).setFw (failTrials s.chg.fw)).record 0x0A03 (srcOf 9 0) []
    if 6 ≤ s.chg.handover then s.handoverFail else s

/-- FW_START_TIMEOUT: Lull service is not reached within 2 s after the reset. -/
def execFwStartTimeout (s : State) : Host.Outcome State Fault Refusal := .next (if s.pwr.lullService then s else s.startFails)

end Sys2Proof.Machine
end

