-- ==== Sys2Proof/Machine/NetCfg.lean ====
section
/-! DEFINITION. The network configuration: the checks of 13 R368, holding, changing while the network runs, the start trigger, the
partner's copy (05 R129 to R142, 13 R366 to R369). -/

namespace Sys2Proof.Machine
open Sys2Proof

/-! ## Checks, 13 R366 to R368 -/

/-- A whole number of microseconds. -/
def wholeUs (n : Nat) : Bool := n % 1000 = 0

/-- Header and offsets: 13 R367, 05 R129, R131, R134, 02 R32. -/
def headerOk (b : Buf) (c : NetCfg) : Bool :=
  b.field 0 2 = 1 && b.zero 0x20 0x40 && b.zero 0x48 0x80 && 1 ≤ c.sched &&
  c.profile ≤ 1 && (if c.profile = 1 then 125000 else 500000) ≤ c.t && c.t ≤ 16000000 && c.t % 25000 = 0 && c.matrixExp ≤ 6 &&
  wholeUs c.s && wholeUs c.i && wholeUs c.o && wholeUs c.a &&
  c.s + 5000 ≤ c.i && c.i + 25000 ≤ c.o && c.o < c.t &&
  roundUp ((c.t + 9) / 10) 1000 ≤ c.a && c.a ≤ c.t - c.o && b.field 28 4 ≤ 16384

/-- Time source block, 08 R204. -/
def timeSrcOk (b : Buf) (x : TimeSrc) : Bool :=
  x.ports ≤ 3 && x.domain ≤ 127 && x.transport ≤ 1 && 6 ≤ x.maxClass && b.zero 0x46 0x48

/-- An entry of the local channel block, 10 R257. -/
def lioOk (x : LioCfg) : Bool :=
  x.mode ≤ 2 && x.lflags ≤ 3 && (!x.lflags.testBit 0 || x.mode = 1) && (!x.lflags.testBit 1 || x.mode = 2) &&
  (x.mode = 0 || 1 ≤ x.debounceUs) && (x.mode ≠ 2 || x.retryMs = 0 || (10 ≤ x.retryMs && x.retryMs ≤ 1000))

/-- MODE that a block gives a channel. -/
def modeIn (l : List LioCfg) (ch : Nat) : Nat := (l.getD ch {}).mode

/-- The block against forces and the running image, 10 R258. -/
def State.lioFits (s : State) (l : List LioCfg) : Bool :=
  (s.img.force.all fun f => ptStn f.point ≠ localCode || modeIn l (ptIdx f.point) = (s.lch (ptIdx f.point)).cfg.mode) &&
  (match s.chg.running with
   | some i =>
     (i.body.tasks.all fun t => t.kind ≠ .event || (match t.source with
       | .local ch _ => modeIn l ch = 1
       | _ => true)) &&
     (i.body.wins.all fun w => !(w.2.action = 2 || w.2.action = 3) || ptStn w.2.point ≠ localCode ||
       modeIn l (ptIdx w.2.point) = 2)
   | none => true)

/-- Ranges of a kind in a station map, for the codes that count points of it. -/
def kindRanges (c : NetCfg) (kind : Nat) : List (Nat × Nat) :=
  (c.map.filter fun e => 0 < e.2.countOf kind).map fun e => (e.2.baseOf kind, e.2.baseOf kind + e.2.countOf kind)

/-- The ranges of one kind: no overlap, within the image, digital ones from position 16 (04 R99). -/
def rangesOk (c : NetCfg) (kind : Nat) : Bool :=
  let l := kindRanges c kind
  apart l && l.all fun r => (2 ≤ kind || 16 ≤ r.1) && r.2 ≤ (if kind < 2 then 262144 else 16384)

/-- A station map entry by itself, 04 R99; an unconfigured station counts nothing (07 R186). -/
def mapOk (b : Buf) (c : NetCfg) (e : Nat × StnMap) : Bool :=
  let m := e.2
  let o := 0x200 + 32 * e.1
  b.zero (o + 24) (o + 32) &&
  m.diBase % 8 = 0 && m.doBase % 8 = 0 && m.diBase < 262144 && m.doBase < 262144 && m.aiBase < 16384 && m.aoBase < 16384 &&
  m.diN ≤ 65536 && m.doN ≤ 65536 && m.aiN ≤ 16384 && m.aoN ≤ 16384 &&
  ((c.parOf e.1).isSome || (m.diN = 0 && m.doN = 0 && m.aiN = 0 && m.aoN = 0))

/-- Reserved fields of the station parameter entry of a code, 07 R186. -/
def parZero (b : Buf) (code : Nat) : Bool :=
  let o := 0x8200 + 32 * code
  b.field o 2 ≤ 1 && b.zero (o + 21) (o + 32)

/-- A station parameter entry, 07 R186. -/
def parOk (c : NetCfg) (e : Nat × StnPar) : Bool :=
  let p := e.2
  1 ≤ p.lossCount && p.lossCount ≤ 15 && 4 ≤ p.holdCycles && 2 ^ ((c.servingOf e.1).1 + 1) + 1 ≤ p.holdCycles &&
  p.holdCycles ≤ 1024 && p.encN ≤ 8

/-- The owner is the branch: a broadcast address. -/
def WinEnt.toBranch (w : WinEnt) : Bool := w.owner = (bcast w.branch).toNat

/-- Part number, and number of the last part. -/
def winPart (w : WinEnt) : Nat := w.part % 16
def winLast (w : WinEnt) : Nat := w.part / 16

/-- Path delay of a station by which a window is checked: as measured on each channel, else PD_MAX of its position (05 R139). -/
def State.pathDelay (s : State) (code : Nat) (down : Bool) : Nat :=
  let m := pdMax (codePos code)
  match s.stnAt code with
  | some x =>
    let one (d : Delay) : Nat := (if down then d.down else d.up).getD m
    max (one x.da) (one x.db)
  | none => m

/-- The largest downstream delay on a branch. -/
def State.branchDelay (s : State) (c : NetCfg) (b : Nat) : Nat :=
  (c.par.filter fun e => codeBranch e.1 = b).foldl (fun m e => max m (s.pathDelay e.1 true)) 0

/-- A window entry by itself, 05 R131 to R139. -/
def State.winEntOk (s : State) (c : NetCfg) (w : WinEnt) : Bool :=
  let dn := w.ty ≠ 0x10
  w.start % 4 = 0 && w.len % 4 = 0 && w.len ≤ c.maxLen && (w.ty = 0x10 || w.ty = 0x20 || w.ty = 0x21) && w.path < 32 &&
  w.down = dn && w.rsvd = 0 &&
  ((w.owner < 1024 && codeBranch w.owner = w.branch && codePos w.owner ≤ (if c.profile = 1 then 15 else 63)) ||
    (w.ty = 0x21 && w.toBranch)) &&
  w.pexp ≤ c.matrixExp && w.phase < 2 ^ w.pexp && winPart w ≤ winLast w && w.fin + c.a + 500 ≤ c.t &&
  (if dn then
     1108 ≤ w.start && c.o + 5000 ≤ w.start && w.fin + 3000 + c.a ≤ c.t &&
       w.fin + 5000 + (if w.toBranch then s.branchDelay c w.branch else s.pathDelay w.owner true) ≤ c.t + c.s
   else c.s + 2000 + s.pathDelay w.owner false ≤ w.start && w.fin + 2000 ≤ c.i)

/-- Two windows of one branch and direction: apart by 500 ns, or shared under 05 R136. -/
def winPairOk (v w : WinEnt) : Bool :=
  v.path ≠ w.path || v.fin + 500 ≤ w.start || w.fin + 500 ≤ v.start ||
  (v.start = w.start && v.len = w.len && v.phase % 2 ^ min v.pexp w.pexp ≠ w.phase % 2 ^ min v.pexp w.pexp)

/-- Every pair of windows keeps a relation. -/
def allPairs (r : WinEnt → WinEnt → Bool) : List WinEnt → Bool
  | [] => true
  | w :: l => l.all (r w) && allPairs r l

/-- The windows of one station and type: one PERIOD_EXP and PHASE, parts from 0 to the last, room for the stream (05 R136, R139). -/
def partsOk (l : List WinEnt) (need : Nat) : Bool :=
  need ≤ (l.map (·.len)).foldl (· + ·) 0 &&
  (match l with
   | [] => true
   | w :: _ => l.all (fun v => winLast v = winLast w) && l.length = winLast w + 1 &&
      (List.range (winLast w + 1)).all fun k => l.any fun v => winPart v = k)

/-- The windows of one configured station. -/
def stnWinsOk (c : NetCfg) (e : Nat × StnPar) : Bool :=
  let m := c.mapOf e.1
  let out := outStreamLen m
  let mine := c.wins.filter fun w => w.owner = e.1
  codePos e.1 ≤ (if c.profile = 1 then 15 else 63) &&
  mine.all (fun w => (w.pexp, w.phase) = c.servingOf e.1) &&
  partsOk (c.winsOf e.1 0x10) (inStreamMax m e.2.encN) && partsOk (c.winsOf e.1 0x20) out && partsOk (c.winsOf e.1 0x21) 0 &&
  (out ≠ 0 || (c.winsOf e.1 0x20).isEmpty)

/-- The windows of an owner that the configuration does not configure: one PERIOD_EXP and PHASE, and parts from 0 to the last for each type
that it has windows of (05 R136, R139). -/
def strayOk (c : NetCfg) (code : Nat) : Bool :=
  let mine := c.wins.filter fun w => w.owner = code
  (match mine with
   | [] => true
   | w :: l => l.all fun v => (v.pexp, v.phase) = (w.pexp, w.phase)) &&
  [0x10, 0x20, 0x21].all fun ty => partsOk (c.winsOf code ty) (if ty = 0x10 && !(c.winsOf code ty).isEmpty then 8 else 0)

/-- Every owner that has no configured station. -/
def straysOk (c : NetCfg) : Bool :=
  c.wins.all fun w => 1024 ≤ w.owner || (c.parOf w.owner).isSome || strayOk c w.owner

/-- At most 512 entries for each branch and direction, 05 R135. -/
def winCountOk (c : NetCfg) : Bool := (List.range 32).all fun p => c.wins.countP (·.path = p) ≤ 512

/-- Every check of R368 on the content of a buffer. -/
def State.netOk (s : State) (b : Buf) (c : NetCfg) : Bool :=
  headerOk b c && timeSrcOk b c.src &&
  ((List.range 16).all fun i => b.zero (0x100 + 16 * i + 6) (0x100 + 16 * i + 16)) && c.lio.all lioOk && s.lioFits c.lio &&
  c.map.all (mapOk b c) && [0, 1, 2, 3].all (rangesOk c) &&
  (usedCodes b 0x8200).all (parZero b) && c.par.all (parOk c) && c.par.all (stnWinsOk c) &&
  c.wins.all (s.winEntOk c) && straysOk c && winCountOk c && allPairs winPairOk c.wins &&
  s.mgn.tMin ≤ c.t && (!s.partnerDuty || s.pair.partnerTmin ≤ c.t)

/-! ## A configuration in force -/

/-- The 32 bytes of a station map entry, 04 R99. -/
def StnMap.enc (m : StnMap) : List Byte :=
  le 4 m.diBase ++ le 4 m.doBase ++ le 2 m.aiBase ++ le 2 m.aoBase ++ le 4 m.diN ++ le 4 m.doN ++ le 2 m.aiN ++ le 2 m.aoN ++ le 8 0

/-- The station map stands in the force table block, the local entry behind it (04 R99). -/
def State.layMap (s : State) (c : NetCfg) : State :=
  let base := forceBlock + 0x20000
  let m := memClear s.mem base 0x8020
  let m := c.map.foldl (fun m e => memPut m (base + 32 * e.1) (StnMap.enc e.2)) m
  let m := memPut m (base + 0x8000) (StnMap.enc localMap)
  ({ s with mem := m } : State).mark base 0x8020

/-- The stations of a configuration: those held stay as they are, new ones begin ABSENT (07 R192). -/
def State.alignStns (s : State) (c : NetCfg) : State :=
  { s with stnM := c.par.map fun e => (s.stnAt e.1).getD { code := e.1, since := s.cyc.n } }

/-- A configuration comes into force; where the station map is not that of the configuration in force before, the tables of the running
image are laid by it (04 R95). -/
def State.setCfg (s : State) (c : NetCfg) : State :=
  let moved := (s.net.cfg.map (·.map)) ≠ some c.map
  let s := (({ s with net := { s.net with cfg := some c } } : State).layMap c).alignStns c
  match s.chg.running with
  | some i => if moved then s.layTables i.body else s
  | none => s

/-- An accepted configuration is stored in settings block 0x0001. -/
def State.storeCfg (s : State) (c : NetCfg) : State := ({ s with net := { s.net with stored := some c } } : State).wroteBlock 1

/-- The time source block takes effect at once (08 R204, R206). -/
def State.setSrc (s : State) (x : TimeSrc) : State :=
  let s : State := { s with net := { s.net with cfg := s.net.cfg.map fun c => { c with src := x } } }
  if x.ports = 0 then (if s.act.ref = .free then s else s.freeRef) else s.selectMaster

/-- A changed local channel block waits for the still point of the next cycle that begins. -/
def State.dueLio (s : State) (b : List LioCfg) : State :=
  { s with lio := { s.lio with due := some (s.cyc.n + 1, b) }
           net := { s.net with cfg := s.net.cfg.map fun c => { c with lio := b } } }

/-- Two configurations have the same schedule: station map, parameters, ACT_PLAIN and windows. -/
def sameSched (a b : NetCfg) : Bool :=
  a.map = b.map && a.par = b.par && a.wins = b.wins && a.plain.all b.plain.contains && b.plain.all a.plain.contains

/-- T, L, the profile, S, I, O and A are equal (05 R142). -/
def sameFrame (a b : NetCfg) : Bool :=
  a.t = b.t && a.matrixExp = b.matrixExp && a.profile = b.profile && a.s = b.s && a.i = b.i && a.o = b.o && a.a = b.a

/-! ## NET_CONFIGURE -/

/-- The NET_CONFIGURE under way ends once every part of it has taken effect. -/
def State.netDone (s : State) : State :=
  let ready (r : Run) : Bool := match r.work with
    | .netConfigure _ false true => s.net.switchCfg.isNone
    | _ => false
  (s.host.runs.filter ready).foldl (fun s r => match r.work with
    | .netConfigure sched _ _ => s.endRun r stOk dNone (BitVec.ofNat 64 sched) (BitVec.ofNat 64 s.cyc.n)
    | _ => s) s

/-- The local channel block of the NET_CONFIGURE under way has taken effect. -/
def State.lioTaken (s : State) : State :=
  let f (r : Run) : Run := match r.work with
    | .netConfigure sched false _ => { r with work := .netConfigure sched false true }
    | _ => r
  ({ s with host := { s.host with runs := s.host.runs.map f } } : State).netDone

/-- The partner holds a configuration, or refuses it, or has left pair duty. -/
def State.netReported (s : State) (ok : Bool) : State :=
  match s.host.runs.find? fun r => match r.work with | .netConfigure _ _ _ => true | _ => false with
  | some r => match r.work with
    | .netConfigure sched true _ =>
      if ok then s.endRun r stOk dNone (BitVec.ofNat 64 sched) 0 else s.endRun r stFailed dPartner
    | .netConfigure _ false lioDone =>
      if !ok then s.endRun r stFailed dPartner
      else if lioDone || s.lio.due.isSome then s
      else s.dueLio ((s.net.stored.map (·.lio)).getD [])
    | _ => s
  | none => s

/-- Hold a configuration as the next one: OK when every module in pair duty holds it. -/
def holdNext (c : Cmd) (cfg : NetCfg) (s : State) : State :=
  let s := ({ s with net := { s.net with next := some cfg } } : State).storeCfg cfg
  if s.partnerDuty then
    (s.send (.netConfig cfg true 0)).addRun (mkRun 0x0080 c (s.partyOf c) false 0 (.netConfigure cfg.sched true true))
  else s.final 0x0080 c stOk dNone (BitVec.ofNat 64 cfg.sched) 0

/-- SWITCH_N: the first cycle of a matrix cycle that begins at least 2 matrix cycles after the announcement, which begins with the SYNC of
cycle n (05 R142). -/
def State.switchN (s : State) (n : Nat) : Nat :=
  let l := (s.net.cfg.map (·.l)).getD 1
  (n + 2 * l + l - 1) / l * l

/-- A station's windows as it is to hold them: upstream ones of its own and every position behind it, its own downstream ones and the
broadcasts of its branch (06 R183). -/
def NetCfg.winsAt (c : NetCfg) (code : Nat) : List WinEnt :=
  c.wins.filter fun w => w.branch = codeBranch code &&
    (if w.down then w.owner = code || w.toBranch else codePos code ≤ codePos w.owner)

/-- CFG requests that write or read a run of bytes of an object, in pieces that the payload limit admits (07 R190). -/
def cfgPieces (why : CfgFor) (write : Bool) (code maxLen obj ofs : Nat) (bytes : List Byte) : List CfgReq :=
  let size := (maxLen - 12) / 4 * 4
  (List.range ((bytes.length + size - 1) / size)).map fun i =>
    { code := code, tag := 0, obj := obj, ofs := ofs + i * size, write := write, count := min size (bytes.length - i * size)
      data := if write then (bytes.drop (i * size)).take size else [], why := why }

/-- Offset of the pending schedule in object WINDOWS (DESIGN CHOICE, log entry 22). -/
def pendingWins : Nat := 0x8000

/-- The actuation mode of a station, 07 R189: 0 precise, 1 plain. -/
def NetCfg.actMode (c : NetCfg) (code : Nat) : Nat := if c.isPlain code then 1 else 0

/-- CFG writes of a schedule change to a station: its pending WINDOWS (05 R142). They wait for a place among the requests. -/
def windowWrites (new_ : NetCfg) (code maxLen : Nat) : List CfgReq :=
  cfgPieces .change true code maxLen 0x8002 pendingWins ((new_.winsAt code).flatMap WinEnt.enc)

/-- CFG writes of a schedule change to an included station whose mode ACT_PLAIN changes: the pending mode of ACT_MODE (05 R142, 07 R189). -/
def modeWrites (old new_ : NetCfg) (code maxLen : Nat) : List CfgReq :=
  if old.isPlain code = new_.isPlain code then []
  else cfgPieces .change true code maxLen 0x8006 0 (le 1 (old.actMode code) ++ le 1 (new_.actMode code) ++ le 2 0)

/-- The stations that hold a schedule: those to whose pending schedule a change is written (05 R142). -/
def SSt.holds (t : SSt) : Bool := t = .joining || t = .included || t = .returned || t = .lost

/-- Step 1 of 05 R142: each station's new windows wait to be written into its pending schedule, and the new mode of an included one. -/
def State.beginSched (s : State) (run cfg : NetCfg) : State :=
  let reqs := (s.stnM.filter fun x => x.st.holds).flatMap fun x =>
    windowWrites cfg x.code run.maxLen ++ (if x.st = .included then modeWrites run cfg x.code run.maxLen else [])
  { s with net := { s.net with switch_ := none, switchCfg := some cfg, reqs := s.net.reqs ++ reqs } }

/-- The announcement of the schedule change under way begins with the SYNC of cycle n: once every write has been sent, and not in a cycle
whose content has gone to the follower without it (06 R159). Where this module does not hold VANE it writes nothing, and nothing is waited
for (log entry 79). -/
def State.announceIn (s : State) (n : Nat) : Option (NetCfg × Nat) :=
  match s.net.switchCfg, s.net.switch_ with
  | some cfg, none =>
    if (s.holder && s.net.reqs.any fun r => r.why = .change && r.sentN.isNone) || s.net.plainN = some n then none
    else some (cfg, s.switchN n)
  | _, _ => none

/-- Steps 2 and 3 of 05 R142, with the cycle that begins next: the partner receives the change and the announcement begins. -/
def State.announceSched (s : State) (n : Nat) : State :=
  match s.announceIn n with
  | some (cfg, k) => ({ s with net := { s.net with switch_ := some (cfg.sched, k) } } : State).send (.netConfig cfg false k)
  | none => s

/-- NEXT clear while the network has started: the limits of 05 R142, then every part on its own time. -/
def netNow (c : Cmd) (run cfg : NetCfg) (s : State) : State :=
  let same := sameSched run cfg
  if !sameFrame run cfg || same ≠ decide (run.sched = cfg.sched) then s.final 0x0080 c stInvalid dContent
  else
    let newLio := decide (cfg.lio ≠ run.lio)
    let s := s.storeCfg cfg
    let s : State := { s with net := { s.net with rank := cfg.rank } }
    let s := s.setSrc cfg.src
    let s := if same then (if s.partnerDuty then s.send (.netConfig cfg false 0) else s) else s.beginSched run cfg
    let s := if newLio && !s.partnerDuty then s.dueLio cfg.lio else s
    (s.addRun (mkRun 0x0080 c (s.partyOf c) false 0 (.netConfigure cfg.sched false (!newLio)))).netDone

/-- The checks that both rows share. -/
def netCommon (c : Cmd) (k : NetCfg → State → State) (s : State) : State :=
  if s.running 0x0080 || s.running 0x0081 || s.net.switchCfg.isSome then s.final 0x0080 c stBusy dNone
  else if c.length ≠ 66048 + 16 * c.buf.field 28 4 then s.final 0x0080 c stInvalid dBuffer
  else if !s.netOk c.buf (parseNet c.buf) || !s.fits 1 (c.buf.bytes 0 c.length) then s.final 0x0080 c stInvalid dContent
  else k (parseNet c.buf) s

/-- NET_CONFIGURE with NEXT clear; before the network has first started it acts as with NEXT set. -/
def execNetConfigure (c : Cmd) (s : State) : Host.Outcome State Fault Refusal :=
  .next (s.hostCmd 0x0080 c 1 (c.inf 0 4 < 2 && c.inlZero 4) (ownPrimary 0x0080 c fun s =>
    if c.inf 0 4 ≠ 0 then s.final 0x0080 c stInvalid dContent
    else netCommon c (fun cfg s => match s.net.cfg with
      | some run => if s.cyc.started then netNow c run cfg s else holdNext c cfg s
      | none => holdNext c cfg s) s))

/-- NET_CONFIGURE with NEXT. -/
def execNetConfigureNext (c : Cmd) (s : State) : Host.Outcome State Fault Refusal :=
  .next (s.hostCmd 0x0080 c 1 (c.inf 0 4 < 2 && c.inlZero 4) (ownPrimary 0x0080 c fun s =>
    if c.inf 0 4 ≠ 1 then s.final 0x0080 c stInvalid dContent
    else netCommon c (holdNext c) s))

/-! ## The start trigger, 06 R160, R167, 13 R369 -/

/-- The listen time: 3 basic cycles in slot A, 5 in slot B. -/
def State.listenNs (s : State) : Nat := (if s.slot = .a then 3 else 5) * s.t

/-- No basic cycle begins any more: a change whose k is fixed and that has not taken effect waits for the first cycle of the next start
(04 R107). -/
def Img.unfix (i : Img) : Img :=
  { i with force := i.force.map fun f => if f.pending then { f with effectN := none } else f
           changes := i.changes.map fun c => if c.done then c else { c with k := none } }

/-- Silence the star and close every branch. -/
def State.silence (s : State) : State :=
  { s with
    img := s.img.unfix
    net := { s.net with sending := false, br := s.net.br.map fun b => { b with g := .closed, cuts := 0, dirtyM := false, clean := 0, inM := false }
                        tx := [], ready := [], proposal := none, joinAt := none, silenceDue := false, leadDue := none, plainN := none }
    cyc := { s.cyc with running := false, commitN := none, snapN := none, downBusy := false, firstRel := none }
    clk := { s.clk with netOn := false } }

/-- Begin to listen. -/
def State.listen (s : State) : State :=
  { s with net := { s.net with start := .listen, listenEnd := some (s.clk.now + s.listenNs), partnerRank := none, partnerSync := none
                               partnerRun := 0, leadDue := none, lockAt := none } }

/-- The start trigger under a configuration: N restarts, stations ABSENT, the pool and the local queues empty, counters from zero (05
R156). -/
def State.startTrigger (s : State) (c : NetCfg) : State :=
  let s := s.silence
  let s : State := { s with
    net := { s.net with
      round := 1, rank := c.rank, switch_ := none, switchCfg := none, reqs := [], deadTags := [], pollN := none
      br := s.net.br.map fun b => { b with ca := {}, cb := {} }, stnBecalm := [] }
    act := { s.act with pool := [], localQ := [] }
    stnM := []
    img := { s.img with lastField := [] }
    lio := { s.lio with due := if s.lio.ch.toList.map (·.cfg) = c.lio then none else some (0, c.lio) } }
  let s := s.endRuns (fun r => match r.work with | .netConfigure _ false _ => true | _ => false) stFailed dState
  ((s.setCfg c).setSrc c.src).listen

/-- NET_START. -/
def execNetStart (c : Cmd) (s : State) : Host.Outcome State Fault Refusal :=
  .next (s.hostCmd 0x0081 c 0 (c.inlZero 0) (ownPrimary 0x0081 c fun s =>
    if s.busyTask then s.final 0x0081 c stBusy dNone
    else match s.net.next.orElse fun _ => s.net.stored with
      | none => s.final 0x0081 c stInvalid dState
      | some cfg =>
        let s : State := { s with net := { s.net with next := none }, cyc := { s.cyc with lullCycle := false } }
        let s := s.addRun (mkRun 0x0081 c (s.partyOf c) false 0 .netStart)
        (s.startTrigger cfg).send .netStart))

/-! ## The partner's configuration, 05 R142, 06 R164, 10 R258, 13 R368 -/

/-- A configuration of the partner is for a module that is not primary, and for one that follows the partner's network (06 R164). -/
def State.adopts (s : State) : Bool := !s.primary || s.net.start = .follow

/-- PAIR_CONFIG_RX: a configuration from the partner, as the next one, as an announced change, or for use now: the local channel and
time source blocks, and the leader's schedule where it differs, with SCHED_ADOPTED. One that carries both the mark of a next configuration
and a cycle number is the partner's start trigger under it (06 R160, 13 R369; DESIGN CHOICE, log entry 27). -/
def execPairConfigRx (length : Nat) (buf : Buf) (next : Bool) (switchN : Nat) (s : State) : Host.Outcome State Fault Refusal :=
  if !s.adopts || length ≠ 66048 + 16 * buf.field 28 4 then .next s
  else
    let cfg := parseNet buf
    if cfg.t < s.mgn.tMin then .next (s.send (.report .netConfig false))
    else
      let s := s.storeCfg cfg
      let s : State :=
        if next then (if switchN = 0 then { s with net := { s.net with next := some cfg } }
                      else ({ s with net := { s.net with next := none } } : State).startTrigger cfg)
        else match s.net.cfg with
          | some run =>
            let s : State := { s with net := { s.net with rank := cfg.rank } }
            let s := if run.src = cfg.src then s else s.setSrc cfg.src
            let s := if run.lio = cfg.lio then s else s.dueLio cfg.lio
            if switchN ≠ 0 then { s with net := { s.net with switch_ := some (cfg.sched, switchN), switchCfg := some cfg } }
            else if run.sched = cfg.sched then s
            else (s.setCfg cfg).record 0x0401 (srcOf 4 32) [cfg.sched]
          | none => (s.setCfg cfg).dueLio cfg.lio
      .next (s.send (.report .netConfig true))

end Sys2Proof.Machine
end

