-- ==== Sys2Proof/Machine/Pair.lean ====
section
/-! DEFINITION. The pair: heartbeats, roles, line changes, takeover, commanded switch, rejoin (11 R278 to R307). -/

namespace Sys2Proof.Machine
open Sys2Proof

/-! ## The partner's presence, 11 R284 to R286 -/

/-- End the rejoin of this module without success: a JOINING module goes to OUT (11 R286, R306, R307). -/
def State.rejoinEnd (s : State) (status detail : Nat) : State :=
  if s.pair.rejoin.isNone then s
  else
    let s := ({ s with pair := { s.pair with rejoin := none } } : State)
    let s := if s.pair.role = .joining then s.setRole .out else s
    let s := if 6 ≤ s.chg.handover then s.handoverFail else s
    s.endRuns isRejoin status detail

/-- The partner leaves pair duty: a primary runs alone, nothing waits for the partner, a rejoin has failed (11 R286, R306). -/
def State.partnerAway (s : State) : State :=
  let s : State := { s with
    pair := { s.pair with partnerCur := false, unacked := none, shipped := [], unackedCommit := false, resent := 0
                          dirty := [], again := 0, basing := false, partnerJoins := false }
    chg := { s.chg with commitDue := none } }
  let s := s.partnerGone
  let s := if s.primary && s.pair.switch_.isSome then s.switchFail else s
  let s := if s.primary then s.forceIdle else s
  let s := if s.chg.handover = 3 || s.chg.handover = 4 then s.handoverFail else s
  (s.netReported true).rejoinEnd stFailed dPartner

/-- A module leaves pair duty for a cause to which 11 R284 gives no LEAVE_CAUSE: the code in the fault message is a free value. -/
def State.leaveMessage (s : State) : State :=
  let (k, s) := s.drawNat
  s.faultMessage (k % 256)

/-- Start a rejoin (11 R306, R307): JOINING, the base phase; a STANDBY leaves pair duty with it (R284). -/
def State.startRejoin (s : State) : State :=
  let duty : Bool := s.pair.role = .standby
  let s : State := { s with pair := { s.pair with
    rejoin := some 1, baseDone := 0, current := false, staging := [], differed := [], auditLeft := [], heldClose := none, voided := none
    heldChunks := [] } }
  let s := s.setRole .joining
  (if duty then s.leaveMessage else s).send .rejoin

/-- The chunks of 1 MiB of a range (11 R307). -/
def State.chunksOf (s : State) (r : Nat × Nat) : List Span :=
  (List.range ((r.2 - r.1 + 0xFFFFF) / 0x100000)).map fun i =>
    let a := r.1 + 0x100000 * i
    s.spanAt a (min 0x100000 (r.2 - a))

/-- Insert a range by its first address. -/
def insRange (r : Nat × Nat) : List (Nat × Nat) → List (Nat × Nat)
  | [] => [r]
  | b :: l => if r.1 ≤ b.1 then r :: b :: l else b :: insRange r l

/-- The mirror content in address order (11 R288, R307). -/
def State.mirrorRanges (s : State) : List (Nat × Nat) :=
  s.scopeRanges.foldl (fun l r => insRange r l)
    [(outImage, outImage + blockLen), (substBlock, 0x021C0000), (0x0160000000, 0x017C000000)]

/-- The partner learns the states and counts of stations (07 R193). -/
def State.tellStns (s : State) (p : StnM → Bool) : State :=
  (s.stnM.filter p).foldl (fun s x => s.send (.station x.code x.st.code x.wasLost x.miss x.good x.losses x.refusal)) s

/-- A partner that joins receives the stored configuration, the images where its APP_ID differs, the states and counts of every station as
they stand (DESIGN CHOICE, log entry 99), then the base copy: the force table first, then the mirror content (11 R307, 12 R324, 13 R368). -/
def State.shipBase (s : State) (h : Heartbeat) : State :=
  let s : State := { s with pair := { s.pair with basing := true, dirty := [], again := 0, forceShipped := s.pair.forceVer } }
  let s := match s.net.stored with
    | some c => s.send (.netConfig c false 0)
    | none => s
  let imgs := s.chg.app.toList.filter fun x => x.st = .active || x.st = .previous
  let s := if h.appId = s.appId then s else imgs.foldl (fun s x => match x.img with
    | some i => s.passImage i
    | none => s) s
  let s := (s.tellStns fun _ => true).send (.forces s.pair.forceVer s.img.force)
  (s.mirrorRanges.flatMap s.chunksOf).foldl (fun s c => s.send (.chunk c)) s

/-! ## Calm as a follower, 02 R55, R58 -/

/-- A standby follows its primary's Calm, in and out. -/
def State.followCalm (s : State) (h : Heartbeat) : State :=
  if s.pair.role ≠ .standby || h.role ≠ 1 then s
  else if h.pflags.getLsbD 1 then (if s.calm.on then s else s.latchCalm h.calmCause true [])
  else if s.calm.on && s.calm.follower then { s with calm := {} } else s

/-! ## Messages of the partner -/

/-- Slices of the mirror content, 11 R295. -/
def State.sliceCount (s : State) : Nat :=
  fixedSlices + (s.scopeRanges.map fun r => (r.2 - r.1 + 0xFFFF) / 0x10000).foldl (· + ·) 0

/-- The slice audited by the transfer closed last is marked dirty, whole (11 R295). -/
def State.dirtySlice (s : State) : State :=
  let k := if s.pair.slice = 0 then s.sliceCount - 1 else s.pair.slice - 1
  match s.sliceAt k with
  | some r => s.mark r.1 r.2
  | none => s

/-- The primary learns from a heartbeat that its standby is not CURRENT; when the standby has applied the transfer closed last, its
audit differed. -/
def State.standbyStale (s : State) (h : Heartbeat) : State :=
  let s := s.markStale
  if h.xferSeq = s.pair.xferSeq then
    let s : State := { s with pair := { s.pair with audits := satAdd 64 s.pair.audits 1 } }
    (s.record 0x090D (srcOf 8 0) []).dirtySlice
  else s

/-- The FW_HANDOVER follows the partner (12 R326): bring-up on the target, rejoin, then the switch. -/
def State.handoverBeat (s : State) (h : Heartbeat) : State :=
  let target := match s.chg.fw.toList.find? fun f => f.st = .staged with
    | some f => (f.hdr.map (·.gen)).getD 0
    | none => s.activeGen
  match s.chg.handover with
  | 2 =>
    if h.role = 4 then s.handoverFail
    else if h.role = 3 || h.role = 2 then (if h.fwGen = target then s.handoverStep 3 else s.handoverFail)
    else s
  | 3 =>
    if h.role = 4 then s.handoverFail
    else if h.role = 2 && h.pflags.getLsbD 0 && s.pair.partnerCur then
      let s := s.handoverStep 4
      if s.chg.handover = 4 then { s with pair := { s.pair with switch_ := some {} } } else s
    else s
  | _ => s

/-- The primary's part of a heartbeat. -/
def State.beatPrimary (s : State) (prev : Nat) (h : Heartbeat) : State :=
  let joins : Bool := h.role = 3 || (s.pair.partnerJoins && h.role = 2 && !h.pflags.getLsbD 0)
  let s : State := { s with pair := { s.pair with
    forceAcked := h.forceVer, basing := s.pair.basing && h.role = 3, partnerJoins := joins } }
  let s := s.forceIdle
  let s := if h.role = 3 && prev ≠ 3 then s.shipBase h else s
  let s := if h.role = 2 && s.pair.partnerCur && !h.pflags.getLsbD 0 then s.standbyStale h else s
  s.handoverBeat h

/-- FW_GEN of the partner differs by more than 1. -/
def State.genFar (s : State) : Bool :=
  match s.pair.hb with
  | some h => h.fwGen + 1 < s.fwGen || s.fwGen + 1 < h.fwGen
  | none => false

/-- What a heartbeat, or a fault message as an early one, says is held (11 R284). -/
def State.heldBeat (s : State) (hb : Heartbeat) (leave : Nat) : State :=
  { s with pair := { s.pair with
      hb := some hb, hbAt := s.clk.now, hbLost := false, leave := leave
      partnerPrim := hb.role = 1 || (s.pair.partnerPrim && s.pair.other) } }

/-- What a module does with the fields of a heartbeat whose predecessor showed the role `prev`. -/
def State.takeBeat (s : State) (prev : Nat) (hb : Heartbeat) : State :=
  let s := if s.pair.role = .joining && s.genFar then (s.record 0x0909 (srcOf 8 0) []).rejoinEnd stFailed dPartner else s
  let s := if s.primary then s.beatPrimary prev hb else s
  let s : State := if s.pair.role = .standby && hb.role = 1 && !s.forcesHeld then s.goStale else s
  s.followCalm hb

/-- HEARTBEAT_RX: a valid heartbeat over the link is adopted. The cause of a primary's fault message stands until its line has been
released. -/
def execHeartbeatRx (hb : Heartbeat) (s : State) : Host.Outcome State Fault Refusal :=
  if !s.linked || !hb.crcOk || hb.kind ≠ 1 then .next s
  else
    let was := s.pair.hbLost
    let duty := s.partnerDuty
    let prev := (s.pair.hb.map (·.role)).getD 0
    let old := s.pair.partnerPrim && (hb.role = 1 || hb.role = 4)
    let s := s.heldBeat hb (if old then s.pair.leave else 0)
    let s := (if duty && !s.partnerDuty then s.partnerAway else s).takeBeat prev hb
    .next (if was && s.pair.role = .standby then s.startRejoin else s)

/-- A standby whose primary has left goes through with its reset request once it is primary; a primary does so at once (03 R84, 11
R282). -/
def State.issueReset (s : State) : State :=
  if s.primary && s.pair.partnerReq then { s with pair := { s.pair with resetOut := true, partnerReq := false } } else s

/-- FAULT_MESSAGE_RX: an early heartbeat; the partner leaves pair duty; a standby wakes its lanes. `req`: the partner requests a
pair-commanded reset with it, which alone makes the module drive the reset line (11 R282). -/
def execFaultMessageRx (hb : Heartbeat) (req : Bool) (s : State) : Host.Outcome State Fault Refusal :=
  if !s.linked || !hb.crcOk || hb.kind ≠ 2 then .next s
  else
    let prev := (s.pair.hb.map (·.role)).getD 0
    let s := s.heldBeat hb hb.leaveCause
    let s : State := { s with pair := { s.pair with partnerReq := s.pair.partnerReq || req } }
    let s := (s.standbyWake.partnerAway.takeBeat prev hb).issueReset
    .next (if s.chg.handover = 1 then (if hb.leaveCause = 3 then s.handoverStep 2 else s.handoverFail) else s)

/-- HEARTBEAT_LOST: T + 10 µs after the instant at which the next one was expected (11 R285). -/
def execHeartbeatLost (s : State) : Host.Outcome State Fault Refusal :=
  if s.pair.hbLost || s.pair.hb.isNone then .next s
  else
    let s := if s.cyc.running then s.reach (s.pair.hbAt + 2 * s.t + 10000) else s
    let s : State := { s with pair := { s.pair with hbLost := true } }
    let s := s.standbyWake.partnerAway
    if s.pair.other then
      let s := if s.pair.role = .standby then s.goStale else s
      .next (s.record 0x0904 (srcOf 8 0) [])
    else .next s

/-! ## Becoming PRIMARY at bring-up, 11 R286, R287 -/

/-- Assert VANE and take the role PRIMARY, with PAIR_ROLE. -/
def State.firstPrimary (s : State) : State :=
  (s.assertVane.setRole .primary).record 0x0902 (srcOf 8 0) []

/-- The roles at Lull service: OUT in LANE_LOCKOUT, JOINING while the partner's line is asserted, PRIMARY where assertion is
allowed. Slot B with signal on the pair link waits 250 ms. -/
def State.takeRole (s : State) : State :=
  if s.pair.role ≠ .bringUp then s
  else if s.lanes.lockout then s.setRole .out
  else if s.pair.other then s.startRejoin
  else if s.slot = .a || s.pair.lanes = 0 then
    (if s.slot = .a then s else s.reach (s.pair.otherOffAt + 2000)).firstPrimary
  else s

/-- A module in Lull service that still waits in BRING_UP takes its role when the partner's line is asserted, or the link has lost its
signal (11 R286, R287). -/
def State.roleAgain (s : State) : State := if s.pwr.lullService then s.takeRole else s

/-! ## The link -/

/-- PAIR_LANE_FAIL: the link runs on the other lane, or is lost. -/
def execPairLaneFail (k : Fin 2) (s : State) : Host.Outcome State Fault Refusal :=
  if !s.pair.lanes.getLsbD k.val then .next s
  else
    let lanes := s.pair.lanes &&& ~~~(1#2 <<< k.val)
    .next ((({ s with pair := { s.pair with lanes := lanes, auth := s.pair.auth && lanes ≠ 0 } } : State).record 0x0903 (srcOf 8 0)
      []).roleAgain)

/-- Authentication succeeds, 14 R393; without randomness for the ephemeral key it does not (R380). -/
def State.authOk (s : State) (h : PairHello) : Bool :=
  h.certsOk && h.lifecycle = s.keys.life && (s.keys.life ≠ 2 || h.owner = s.keys.owner) && !s.keys.rngFail

/-- PAIR_AUTH: the link has signal; it counts as lost until authentication succeeds, which gives the partner's unit key and the pair key. -/
def execPairAuth (h : PairHello) (s : State) : Host.Outcome State Fault Refusal :=
  let ok := s.authOk h
  let s : State := if s.pair.lanes = 0 then { s with net := { s.net with xfer := [], xferTry := [], xferAt := none } } else s
  let s : State := { s with pair := { s.pair with lanes := if s.pair.lanes = 0 then 3 else s.pair.lanes, auth := ok } }
  if !ok then .next (s.record 0x0C06 (srcOf 8 0) [])
  else
    let (e, s) := s.draw
    let key := Config.pairKey (Config.x25519 (first32 e) h.eph)
    let other := h.unit ≠ s.pair.unit
    let s : State := { s with
      pair := { s.pair with unit := h.unit, key := key }
      chg := { s.chg with partner := if other then none else s.chg.partner } }
    .next (s.send .auth).tellFw

/-- HEARTBEAT_SEND: at T − A − 20 µs of the cycle. -/
def execHeartbeatSend (s : State) : Host.Outcome State Fault Refusal :=
  let a := (s.net.cfg.map (·.a)).getD 0
  let s := if s.cyc.running then s.reachNet (s.cycleStart + s.t - a - 20000) else s
  .next (s.send (.beat (s.beat 1 0)))

/-- PARTNER_REPORT_RX: a report on what this module has passed, the partner's part of FW_CONFIRM, FW_FALLBACK and FW_HANDOVER, what firmware it
holds, or what becomes of copies staged here (12 R316, R318, R325 to R331; log entry 86). -/
def execPartnerReportRx (kind : ReportKind) (ok : Bool) (s : State) : Host.Outcome State Fault Refusal :=
  .next (match kind with
    | .netConfig => s.netReported ok
    | .fwConfirm => s.confirmFw
    | .fwFallback => s.fallbackFw
    | .handover => if ok then s.handoverOrder else if s.primary then s.handoverFail else s
    | .firmwareHeld t r g => { s with chg := { s.chg with partner := some { trial := t, runs := r, target := g } } }
    | .activate => s.activateStaged
    | .discard => s.discardHeld
    | .appImageDenied => s.partnerDone .appImage false stDenied
    | .deltaDenied => s.partnerDone .delta false stDenied
    | .firmwareDenied => s.partnerDone .firmware false stDenied
    | _ => s.partnerDone kind ok)

/-! ## The wait of slot B, 11 R287 -/

/-- SLOT_B_ASSERT_WAIT: the partner's line has stayed released for 250 ms since slot B reached Lull service. -/
def execSlotBAssertWait (s : State) : Host.Outcome State Fault Refusal :=
  if s.pair.role = .bringUp && s.slot = .b && s.pwr.lullService && !s.lanes.lockout && !s.pair.other && !s.pair.stuck then
    .next (s.reach (max s.pair.lullAt s.pair.otherOffAt + 250000000)).firstPrimary
  else .next s

/-! ## Takeover and switch, 11 R299 to R305 -/

/-- Tasks of a new primary: IDLE with empty queues; the TAKEOVER flag after a takeover; the background task READY (11 R301). -/
def State.tasksAnew (s : State) (flag : Bool) : State :=
  let nums := s.tasks.map (·.num)
  let f (i : Fin 32) : Task :=
    let x := s.lanes.task[i]
    if nums.contains i.val then
      { x with st := .idle, held := false, queue := [], incopy := [], takeover := x.takeover || flag } else x
  ({ s with lanes := { s.lanes with task := Vector.ofFn f } } : State).startLanes.readyBackground

/-- Stations of a new primary: CHECKING and JOINING begin again; the count of 08 R209 waits for ACT_PENDING (11 R301). -/
def State.stationsAnew (s : State) : State :=
  { s with
    net := { s.net with reqs := [] }
    stnM := s.stnM.map fun x =>
      let x := { x with takeMode := true, takeCount := none, sent := [], sentNew := [] }
      if x.st = .checking || x.st = .joining then
        { x with st := .checking, since := s.cyc.n, checked := false, waited := 0, todo := [], ident := [] }
      else x }

/-- The partner learns which stations begin again (07 R193). -/
def State.tellAnew (s : State) : State := s.tellStns fun x => x.st = .checking

/-- A change that the old primary announced is void in the new one (12 R321, R324). -/
def State.voidChange (s : State) : State :=
  if s.chg.change.isSome then s.discardStaged.record 0x0A01 (srcOf 9 0) []
  else if s.chg.staged.isSome then s.discardStaged else s

/-- The PENDING entries that a new primary holds take effect from its first commit and snapshot (04 R117); while no network runs, in the
first cycle of its next start (R107). -/
def State.takenForces (s : State) : List FChange :=
  (s.img.force.filter (·.pending)).map fun f =>
    { point := f.point, rel := false, value := f.value, party := f.party, ver := s.pair.forceVer
      k := if s.cyc.running then some s.cyc.n else none }

/-- The standby becomes primary at a still point (11 R300, R301, R305). -/
def State.becomePrimary (s : State) (switch : Bool) : State :=
  let held := s.pair.swHeld
  let resumed := s.pair.xferSeq
  let s := (s.assertVane.setRole .primary).wakeLanes
  let s : State := { s with
    pair := { s.pair with
      current := false, takeFrom := none, wokenAt := none, switch_ := none, swHeld := ([], []), staging := [], differed := []
      auditLeft := [], heldClose := none, voided := none, dirty := [], again := 0, resent := 0, unacked := none, shipped := [], lost := 0
      closeN := none, partnerCur := false, partnerPrim := false
      forceShipped := s.pair.forceVer, basing := false, partnerJoins := false, rejoin := none
      hb := s.pair.hb.map fun h => { h with role := if switch then 2 else 4, pflags := h.pflags &&& 0xFFFE }
      takeovers := if switch then s.pair.takeovers else satAdd 64 s.pair.takeovers 1
      switches := if switch then satAdd 64 s.pair.switches 1 else s.pair.switches }
    act := { s.act with pool := held.2, localQ := [] }
    img := { s.img with changes := s.takenForces }
    cyc := { s.cyc with holdRel := switch, heldRel := held.1, noRel := false, starting := false, firstRel := none }
    trk := { s.trk with firstCommit := true }
    lio := { s.lio with ch := s.lio.ch.map fun c => { c with held := false } } }
  let s := (s.voidChange.stationsAnew.tellAnew.tasksAnew (!switch)).outSnapshot
  let s := if s.calm.on then ({ s with calm := { s.calm with on := false } } : State).latchCalm 3 false [] else s
  let s := if switch then s else s.record 0x0905 (srcOf 8 0) [s.cyc.n, s.pair.leave, resumed]
  s.issueReset

/-- TAKEOVER: the first still point at least 27 µs after the observation of the release, in a standby that is CURRENT, not locked out and
whose own line is sound (11 R299, R300). When the still point of the cycle has passed by then, that of the next cycle is the first; a
module whose network does not run has no still point to wait for (DEDUCED, log entry 85). -/
def execTakeover (s : State) : Host.Outcome State Fault Refusal :=
  match s.pair.takeFrom with
  | some t =>
    let s := s.reach (t + 27000)
    if !(s.pair.role = .standby && s.pair.current && !s.lanes.lockout && s.mayAssert) then .next s
    else if s.cyc.running && s.stillOf s.cyc.n < s.netTime then .next s
    else .next ((if s.cyc.running then s.reachNet (s.stillOf s.cyc.n) else s).becomePrimary false)
  | none => .next s

/-- The partner's line is observed released by a standby (11 R286, R298, R299, R305): the switch goes on, or a takeover is due, or a
STALE standby refuses it. Slot B observes for 2 µs. -/
def State.releaseSeen (s : State) : State :=
  if s.pair.role ≠ .standby then s
  else if s.pair.switch_.isSome then
    (if s.slot = .a then s else s.reach (s.pair.otherOffAt + 2000)).becomePrimary true
  else
    let prim := s.pair.partnerPrim
    let s := s.standbyWake
    let s : State := { s with pair := { s.pair with partnerPrim := false } }
    if !prim || s.lanes.lockout || s.pair.stuck then s
    else if !s.pair.current then s.record 0x0906 (srcOf 8 0) []
    else { s with pair := { s.pair with takeFrom := some (s.clk.now + (if s.slot = .a then 0 else 2000)) } }

/-- VANE_LINE_CHANGE: the levels at the pins, the gates that follow them, and the arbitration of 11 R278; the partner's assertion ends a
NO_HOLDER state (R303), and a module still in BRING_UP joins it (R286). -/
def execVaneLineChange (line : Side) (asserted : Bool) (s : State) : Host.Outcome State Fault Refusal :=
  let s : State := if line = s.slot then { s with pair := { s.pair with own := asserted } }
    else { s with pair := { s.pair with
      other := asserted
      otherOffAt := if s.pair.other && !asserted then s.clk.now else s.pair.otherOffAt
      takeFrom := if asserted then none else s.pair.takeFrom
      noHolder := s.pair.noHolder && !asserted } }
  let s := s.watchHolder.switches
  let s := if s.pair.drive && s.pair.own && s.pair.other && s.slot = .b && s.clk.now ≤ s.pair.driveAt + 100 then s.releaseVane else s
  .next (if line = s.slot then s else if asserted then s.roleAgain else s.releaseSeen)

/-- SENTINEL_CHECK: the findings of 11 R281, each declared once while it stands; the 1 ms pulse of pair-reset ends. -/
def execSentinelCheck (s : State) : Host.Outcome State Fault Refusal :=
  let s : State := { s with pair := { s.pair with resetOut := false } }
  if s.clk.now < s.pair.driveAt + 2000 then .next s
  else if s.pair.drive && !s.pair.own then
    let s := s.record 0x0900 (srcOf 8 0) []
    if s.primary then
      let s := s.haltLanes
      let s : State := { s with net := { s.net with ready := [] }, lanes := { s.lanes with faulted := true } }
      .next (s.leavePair 5)
    else .next s.releaseVane
  else
    let stuckNow := !s.pair.drive && s.pair.own
    let both := s.pair.own && s.pair.other
    let s := if stuckNow && !s.pair.stuck then s.record 0x0900 (srcOf 8 0) [] else s
    let s := if both && !s.pair.conflict then s.record 0x0901 (srcOf 8 0) [] else s
    let s : State := { s with pair := { s.pair with stuck := stuckNow, conflict := both } }
    .next (if both && s.slot = .b && s.pair.drive then s.releaseVane else s)

/-- NO_HOLDER: 1 ms without a holder. -/
def execNoHolder (s : State) : Host.Outcome State Fault Refusal :=
  match s.pair.noHolderAt with
  | some t =>
    if s.pair.noHolder || s.holder then .next s
    else
      let s := s.reach (t + 1000000)
      let s : State := { s with pair := { s.pair with noHolder := true } }
      .next (if s.pair.role = .out then s else s.record 0x0907 (srcOf 8 0) [])
  | none => .next s

/-- PAIR_RESET_IN. -/
def execPairResetIn (s : State) : Host.Outcome State Fault Refusal := .next (if s.resetOk 4 then s.takeReset 4 else s)

/-- The partner stands STANDBY and CURRENT, and is not locked out: a switch can move VANE to it. -/
def State.switchable (s : State) : Bool := s.partnerStandby && s.pair.partnerCur && !s.partnerFlag 3

/-- PAIR_SWITCH, 11 R304. -/
def execPairSwitch (c : Cmd) (s : State) : Host.Outcome State Fault Refusal :=
  .next (s.hostCmd 0x0090 c 0 (c.inlZero 0) (ownPrimary 0x0090 c fun s =>
    if s.pair.switch_.isSome || s.pair.rejoin.isSome || s.pair.partnerJoins || (s.pair.hb.map (·.role)) = some 3 then s.final 0x0090 c stBusy dNone
    else if !s.switchable then s.final 0x0090 c stFailed dPartner
    else
      let s : State := { s with pair := { s.pair with switch_ := some {} } }
      s.addRun (mkRun 0x0090 c (s.partyOf c) false 0 .pairSwitch)))

/-- The releases that faults of before will cause, for the new primary: all but those of lost stations, which it learns with their states (02
R48, 07 R193). -/
def State.dueRels (s : State) : List Rel :=
  (s.cyc.errDue.filter (·.1 ≠ 0)).flatMap fun e =>
    (s.tasks.filter fun t => t.kind = .error && t.category = e.1).map fun t => { task := t.num, src := 3, bytes := e.2 }

/-- SWITCH_FINAL_CLOSE: every compared task is IDLE in the switch cycle, by 25 µs before the still point (11 R305): split and background
tasks are halted, the final transfer closes with the held releases and the unsent pool entries. -/
def execSwitchFinalClose (s : State) : Host.Outcome State Fault Refusal :=
  match s.pair.switch_ with
  | some w =>
    let late := s.cyc.running && s.stillOf w.k < s.netTime + 25000
    if !s.primary || w.phase ≠ .cut || late || !s.comparedIdle || s.pair.unacked.isSome then .next s
    else
      let s := s.haltSplit.send (.held (s.cyc.heldRel ++ s.dueRels) s.act.pool)
      let s := s.closeTransfer true
      if s.pair.unacked.isSome then .next { s with pair := { s.pair with switch_ := some { w with phase := .closing } } }
      else .next s.switchFail
  | none => .next s

/-- The switch still point in the old primary: the line is released, STANDBY and STALE, the command completes with N (11 R304,
R305); an FW_HANDOVER goes on (12 R326). -/
def State.switchOut (s : State) : State :=
  let swap := (s.pair.switch_.map (·.swap)).getD false
  let s := s.releaseVane
  let s : State := { s with
    pair := { s.pair with
      current := false, switch_ := none, partnerCur := false, unacked := none, shipped := [], dirty := [], again := 0, resent := 0
      basing := false, partnerJoins := false
      partnerPrim := !swap, switches := satAdd 64 s.pair.switches 1
      hb := s.pair.hb.map fun h => { h with role := 1 } }
    calm := { s.calm with follower := s.calm.on }
    act := { s.act with pool := [], localQ := [] }
    cyc := { s.cyc with holdRel := false, heldRel := [], errDue := [] } }
  let s := (s.setRole .standby).haltLanes.restLanes
  let s := s.endRuns (fun r => match r.work with | .pairSwitch => true | _ => false) stOk dNone (BitVec.ofNat 64 s.cyc.n)
  let s : State := if s.chg.handover = 4 then ({ s with chg := { s.chg with handoverN := s.cyc.n } } : State).handoverStep 5 else s
  if s.chg.handover = 5 then ((s.markTrial.handoverStep 6).faultMessage 3).send .resetRequest
  else s

/-! ## Rejoin, 11 R306, R307 -/

/-- Bit 0 of RFLAGS: LOCKOUT_RELEASE, from the Owner alone (14 R390). -/
def rejoinAllowed (s : State) (c : Cmd) : Bool :=
  allowed s.keys.life (s.partyOf c) 0x0091 && (c.inf 0 4 % 2 = 0 || s.partyOf c = 2)

/-- The partner is PRIMARY, by its heartbeat. -/
def State.partnerPrimary (s : State) : Bool := s.partnerDuty && (s.pair.hb.map (·.role)) = some 1

/-- PAIR_REJOIN. A locked-out module without LOCKOUT_RELEASE does not rejoin (03 R85; log entry 20), nor
one whose self-test has failed (03 R79). -/
def execPairRejoin (c : Cmd) (s : State) : Host.Outcome State Fault Refusal :=
  .next (s.hostCmdBy 0x0091 c 0 (c.inf 0 4 < 2 && c.inlZero 4) (rejoinAllowed s c) fun s =>
    let s : State := if c.inf 0 4 = 1 && s.lanes.lockout then { s with lanes := { s.lanes.logFaults [] with lockout := false } } else s
    if s.primary then s.final 0x0091 c stInvalid dRole
    else if s.pair.rejoin.isSome then s.final 0x0091 c stBusy dNone
    else if s.lanes.lockout || s.pwr.selfFail then s.final 0x0091 c stInvalid dState
    else if !s.partnerPrimary then s.final 0x0091 c stFailed dPartner
    else if s.genFar then (s.record 0x0909 (srcOf 8 0) []).final 0x0091 c stFailed dPartner
    else if 8 ≤ s.longOps then s.final 0x0091 c stBusy dNone
    else
      let r := mkRun 0x0091 c (s.partyOf c) true 0 .rejoin
      (s.startRejoin.accept r 0x0091 c).progress r 1 0 0)

/-- BASE_COPY_DONE: STANDBY, STALE; the lanes park unless the mode is hot (11 R286, R298, R307). -/
def execBaseCopyDone (s : State) : Host.Outcome State Fault Refusal :=
  if s.pair.role ≠ .joining || s.pwr.selfFail || s.rejoinStands then .next s
  else
    let s : State := { s.restLanes with
      pair := { s.pair with current := false, rejoin := s.pair.rejoin.map fun _ => 2 }
      calm := { s.calm with follower := s.calm.on } }
    let s := if s.pair.hot then s.wakeLanes else s.parkLanes
    let s := s.setRole .standby
    .next ((s.host.runs.filter fun r => match r.work with | .rejoin => true | _ => false).foldl
      (fun s r => s.progress r 2 r.done 0) s)

/-- A rejoin is cancelled: OUT, the copy void (11 R307); a STANDBY leaves pair duty with it (R284). -/
def State.rejoinCancel (s : State) : State :=
  let s := s.rejoinEnd stCancelled dNone
  if s.pair.role = .standby then (({ s with pair := { s.pair with current := false } } : State).setRole .out).leaveMessage else s

end Sys2Proof.Machine
end

