-- ==== Sys2Proof/Machine/Extract.lean ====
section
/-! DEFINITION. The flash commit of the hold-up sequence, and the entry into Hold (18 R467, R487). -/

namespace Sys2Proof.Machine
open Sys2Proof

/-- Domains that are on: 18 R470 numbers, as a mask. -/
def domBit (d : Nat) : BitVec 12 := 1#12 <<< d

/-- A mask of domains. -/
def domMask (l : List Nat) : BitVec 12 := l.foldl (fun m d => m ||| domBit d) 0

/-- Switch domains off. -/
def State.domainsOff (s : State) (m : BitVec 12) : State :=
  { s with pwr := { s.pwr with on := s.pwr.on &&& ~~~m, good := s.pwr.good &&& ~~~m } }

/-- HIF goes off: queues, event ring and connections end with their sessions (13 R338, R340). -/
def State.hifOff (s : State) : State :=
  ((List.finRange 4).foldl State.closeConn s.stopRings).domainsOff (domBit 11)

/-- The flash commit of R467: critical records, the hold buffer, SEQ, force store, Calm latch; HOLDUP_COMMIT last. -/
def State.flashCommit (s : State) : State :=
  let n := s.recd.due.length + s.recd.hold.length
  let due := s.recd.due
  let s : State := { s with
    recd := { s.recd with due := [], holdSaved := s.recd.hold, seqFlash := max s.recd.seqFlash ((s.recd.seq - 1) / 65536 * 65536) }
    img := s.img.save
    calm := { s.calm with flash := s.calm.on } }
  let s := (due.foldl State.archiveOne s).record 0x0F01 (srcOf 14 0) [n]
  let last := s.recd.due
  last.foldl State.archiveOne { s with recd := { s.recd with due := [] } }

/-- Memory without its supplies: SRAM, DRAM and the recorder ring (18 R479, columns Hold and Off). -/
def State.memoryOff (s : State) : State :=
  { s with mem := [], recd := { s.recd with ring := [], served := false }, pwr := { s.pwr with dramOk := false }, trk := {} }

/-- Having given up VANE: the fault message with EXTRACT, the flash commit, Hold (18 R487). -/
def State.enterHold (s : State) : State :=
  let s : State := { s with pwr := { s.pwr with extract := true } }
  let s := (s.faultMessage 4).setRole .out
  let s := s.haltLanes.flashCommit.record 0x0F0A (srcOf 14 0) []
  let s := s.silence.memoryOff.hifOff.domainsOff (domMask [3, 4, 5, 6, 7, 8, 9, 11])
  { s with
    net := { s.net with start := .silent, listenEnd := none }
    pwr := { s.pwr with st := .hold, ledSwap := 3, lullService := false, full := false, ready := false } }

end Sys2Proof.Machine
end

