-- ==== Sys2Proof/Machine/Debug.lean ====
section
/-! DEFINITION. The debug port: 14 R403, R404, 18 R476. -/

namespace Sys2Proof.Machine
open Sys2Proof

/-- The debug port is open: always in BLANK, never in SCRAPPED, else by a token (14 R403). -/
def State.dbgIsOpen (s : State) : Bool := s.keys.life = 0 || (s.keys.dbgOpen && s.keys.life ≠ 4)

/-- TSCOPE in force: bit 0 READ, bit 1 WRITE, bit 2 HALT; everything in BLANK. -/
def State.dbgRight (s : State) (i : Nat) : Bool := s.keys.life = 0 || s.keys.dbgScope.getLsbD i

/-- The token is signed by a key that opens the port in the life-cycle state (14 R403). -/
def tokenSigned (life : Nat) (t : Token) : Bool :=
  if life = 1 || life = 3 then t.vendorSigned else if life = 2 then t.ownerSigned else false

/-- The token is valid for this unit now (14 R403). -/
def State.tokenOk (s : State) (t : Token) : Bool :=
  t.version = 1 && t.tscope.toNat < 8 && t.rsvd4 = 0 && t.rsvd24 = 0 && t.serial ≠ 0 && t.serial = s.keys.serial &&
    t.bootFirst ≤ s.keys.boot && s.keys.boot ≤ t.bootLast && t.bootLast ≤ t.bootFirst + 255 && s.keys.tokVoid ≤ t.bootFirst &&
    tokenSigned s.keys.life t

/-- DEBUG_TOKEN: a valid token opens the port with its TSCOPE, with DEBUG_OPEN; another leaves it as it is. -/
def execDebugToken (t : Token) (s : State) : Host.Outcome State Fault Refusal :=
  if s.tokenOk t then
    let s : State := { s with keys := { s.keys with dbgOpen := true, dbgScope := t.tscope, dbgSeen := true } }
    .next (s.record 0x0C02 (srcOf 11 0) [])
  else .next s

/-- DEBUG_REFUSED with the address or the lane (14 R404). -/
def State.dbgRefuse (s : State) (its : List Nat) : State := s.record 0x0C03 (srcOf 11 0) its

/-- Some task is neither STOPPED nor HALTED. -/
def State.liveTask (s : State) : Bool :=
  s.tasks.any fun t => (s.taskAt t.num).st ≠ .stopped && (s.taskAt t.num).st ≠ .halted

/-- DEBUG_HALT_REQUEST: refused without HALT, and by a VANE holder with live tasks; else delivered at an agreed count (03 R71). -/
def execDebugHaltRequest (lane : Fin 8) (s : State) : Host.Outcome State Fault Refusal :=
  if !s.dbgIsOpen then .next s
  else if !s.dbgRight 2 || (s.holder && s.liveTask) then .next (s.dbgRefuse [lane.val])
  else .next (s.atDelivery lane.val .halt)

/-- DEBUG_RESET_REQUEST, 18 R476: through a port that is open with HALT; refused to a VANE holder with live tasks. -/
def execDebugResetRequest (s : State) : Host.Outcome State Fault Refusal :=
  if !(s.dbgIsOpen && s.dbgRight 2) || !s.resetOk 6 then .next s
  else if s.holder && s.liveTask then .next (s.dbgRefuse [])
  else .next ((s.faultMessage 3).takeReset 6)

/-- DEBUG_ACCESS: an access of class DBG within TSCOPE; the Windbreak and the target decide the rest. -/
def execDebugAccess (t : Txn) (s : State) : Host.Outcome State Fault Refusal :=
  let t := { t with cls := 5 }
  if !s.dbgIsOpen then .next s
  else if !(s.dbgRight (if txnWrites t then 1 else 0)) then .next ((s.dbgRefuse [t.addr]).refuse)
  else .next (s.txn (Held.of t))

end Sys2Proof.Machine
end

