-- ==== Sys2Proof/Machine/Lifecycle.lean ====
section
/-! DEFINITION. Attestation, life-cycle and key-set changes: 14 R395 to R402. -/

namespace Sys2Proof.Machine
open Sys2Proof

/-! ## ATTEST, 14 R395, R396, 04 R114 -/

/-- AFLAGS; in BLANK the debug port is open without a token (14 R395, R403). -/
def State.aflags (s : State) : Nat :=
  bitIf (s.keys.dbgSeen || s.keys.life = 0) 0 + bitIf s.confidential 1 + bitIf (s.fwSlot.st = .trial) 2

/-- RESULT_DIGEST of a firmware slot, zero when it is EMPTY. -/
def FwSlot.digest (f : FwSlot) : Nat := if f.st = .empty then 0 else (f.hdr.map (·.resultDigest.toNat)).getD 0

/-- An entry of the force list of a report. -/
def Force.attest (f : Force) : List Byte := le 4 f.point.toNat ++ le 2 f.value.toNat ++ le 2 f.flags

/-- The report without its signature; FORCE_DIGEST covers the valid entries in FORCE_LIST order (04 R114). -/
def State.report (s : State) (nonce : List Byte) : List Byte :=
  le 2 1 ++ le 2 0x7240 ++ le 1 s.keys.hwRev ++ le 1 s.keys.life ++ le 1 s.pair.role.code ++ le 1 s.slot.num ++
    le 8 s.keys.serial ++ nonce ++ le 8 (if s.clk.netOn then s.netTime else 0) ++ le 8 (if s.cyc.started then s.cyc.n else 0) ++
    le 4 s.keys.boot ++ le 2 s.fwGen ++ le 2 s.summaryState ++ le 1 (if s.calm.on then s.calm.cause else 0) ++ le 1 s.aflags ++
    le 2 s.img.force.length ++ le 4 s.keys.lullCount ++ le 4 s.keys.calmCount ++ le 4 s.chg.fwFloor ++ le 4 s.chg.appFloor ++
    le 1 s.marginState ++ le 3 0 ++ le 8 s.marginDate ++ le 64 s.fwSlot.digest ++
    le 64 (s.chg.fw.toList.getD (1 - s.chg.fwRun) {}).digest ++ le 64 s.appDigest.toNat ++
    le 64 (Config.sha512 (s.img.force.flatMap Force.enc)).toNat ++
    keyBytes s.identityKey ++ le 32 (if s.keys.life = 2 then (s.keys.owner.map (·.toNat)).getD 0 else 0) ++
    List.replicate 40 0 ++ s.img.force.flatMap Force.attest

/-- ATTEST: the report, signed by the identity key over every byte before SIGNATURE. -/
def execAttest (c : Cmd) (s : State) : Host.Outcome State Fault Refusal :=
  .next (s.hostCmd 0x00A0 c 2 (c.inlZero 16) fun s =>
    let need := 512 + 8 * s.img.force.length
    if c.length < need then s.final 0x00A0 c stInvalid dBuffer
    else
      let b := s.report (slice c.inl 0 16)
      s.finalData 0x00A0 c stOk (BitVec.ofNat 64 need) 0 (b ++ le 64 (s.sign b).toNat))

/-! ## Permissions of LIFECYCLE_ADVANCE, 14 R390, R399 -/

/-- The command comes without a session on a queue other than queue 0. -/
def claimant (c : Cmd) : Bool :=
  c.session = 0 && (match c.src with
    | .queue q => q.val ≠ 0
    | _ => false)

/-- The issuer is one that the table of 14 R399 names for a change between two states. -/
def State.namedFor (s : State) (c : Cmd) (life target : Nat) : Bool :=
  let p := s.partyOf c
  match life, target with
  | 0, 1 => p = 1
  | 1, 2 => claimant c
  | 2, 3 => p = 2 || (p = 1 && s.keys.listLost)
  | 3, 1 => p = 1
  | 2, 4 => p = 2
  | 0, 4 => p = 1
  | 1, 4 => p = 1
  | 3, 4 => p = 1
  | _, _ => false

/-- The table gives a change between two states. -/
def changeGiven (life target : Nat) : Bool := [(0, 1), (1, 2), (2, 3), (3, 1), (2, 4), (0, 4), (1, 4), (3, 4)].contains (life, target)

/-- Check 5 for LIFECYCLE_ADVANCE. -/
def State.lifeAllowed (s : State) (c : Cmd) : Bool :=
  let t := c.inf 0 1
  if t = s.keys.life then s.keys.life = 2 && s.partyOf c = 2
  else if changeGiven s.keys.life t then s.namedFor c s.keys.life t
  else [1, 2, 3, 4].any fun u => s.namedFor c s.keys.life u

/-- Reserved bytes of INLINE, 14 R398. -/
def lifeRes (c : Cmd) : Bool := c.inf 3 1 = 0 && c.inlZero 8

/-- A command of code 0x00B0 after the common checks. -/
def State.lifeCmd (s : State) (c : Cmd) (dir : Nat) (k : State → State) : State :=
  s.hostCmdBy 0x00B0 c dir (lifeRes c) (s.lifeAllowed c) k

/-! ## State changes, 14 R399 to R401 -/

/-- Size of the buffer of a state change. -/
def lifeBuf (target life : Nat) : Nat := if life = 0 && target = 1 then 144 else if life = 1 && target = 2 then 96 else 0

/-- The condition of the row of R399; `proofOk` is the verdict over the keys or the key buffer. -/
def State.lifeCond (s : State) (target : Nat) : Bool :=
  match s.keys.life, target with
  | 1, 2 => (match s.keys.swapAt with
    | some t => s.clk.now ≤ t + 30000000000
    | none => false)
  | 3, 1 => s.keys.refurb < 3
  | _, _ => true

/-- 14 R400: not the VANE holder, or alone with every task STOPPED or HALTED. -/
def State.lifeFree (s : State) : Bool := !s.holder || (!s.partnerDuty && !s.liveTask)

/-- The content of the buffer, 14 R398, R399. -/
def State.lifeContent (s : State) (c : Cmd) (target : Nat) (proofOk : Bool) : Bool :=
  let life := s.keys.life
  c.inf 1 1 = 0 && c.inf 2 1 = 0 && c.inf 4 4 = 0 &&
  (if life = 0 && target = 1 then
     proofOk && c.buf.field 0 32 = s.identityKey.toNat && c.buf.field 32 32 = s.unitKey.toNat &&
       c.buf.field 64 8 ≠ 0 && c.buf.zero 72 80
   else if life = 1 && target = 2 then proofOk else true)

/-- The LIFECYCLE record before a change: old state, target, party (14 R401 step 1). -/
def State.lifeRecord (s : State) (target party : Nat) : State :=
  s.recordBy 0x0C00 (srcOf 11 0) (items [s.keys.life, target, party]) party false

/-- LIFECYCLE_ADVANCE: step 1 of 14 R401 at the command, with its PROGRESS; LONG_OPERATION_PROGRESS drives the steps after it. -/
def execLifecycleAdvance (c : Cmd) (proofOk : Bool) (s : State) : Host.Outcome State Fault Refusal :=
  let t := c.inf 0 1
  .next (s.lifeCmd c (if lifeBuf t s.keys.life = 0 then 0 else 1) fun s =>
    let life := s.keys.life
    if t = life then s.final 0x00B0 c stInvalid dContent
    else if !changeGiven life t then s.final 0x00B0 c stInvalid dState
    else if c.length ≠ lifeBuf t life then s.final 0x00B0 c stInvalid dBuffer
    else if !s.lifeContent c t proofOk then s.final 0x00B0 c stInvalid dContent
    else if !s.lifeCond t || !s.lifeFree then s.final 0x00B0 c stInvalid dState
    else if s.keys.rngFail then s.final 0x00B0 c stFailed dState
    else if s.running 0x00B0 || 8 ≤ s.longOps then s.final 0x00B0 c stBusy dNone
    else
      let owner : Option Key := if life = 1 && t = 2 then some (BitVec.ofNat 256 (c.buf.field 0 32)) else none
      let x : StateChange := {
        target := t, owner := owner,
        serial := if life = 0 then c.buf.field 64 8 else s.keys.serial,
        cert := if life = 0 && t = 1 then some (BitVec.ofNat 512 (c.buf.field 80 64)) else none }
      let r := mkRun 0x00B0 c (s.partyOf c) true 5 (.lifecycle x)
      let s := (s.accept r 0x00B0 c).lifeRecord t (s.partyOf c)
      ({ s with keys := { s.keys with transition := some 1 } } : State).progress r 1 1 5)

/-- Step 3 of 14 R401, the first irreversible one: every session is closed, copy 1 of the fuse field is programmed, STORE_EPOCH rises by 1. -/
def State.lifeBurn (s : State) (x : StateChange) : State :=
  let s := s.closeAll (fun _ => true) 3
  { s with keys := { s.keys with half := some x, epoch := s.keys.epoch + 1, transition := some 3 } }

/-- Step 4 of 14 R401: the fault message of a standby in pair duty, then the life-cycle reset, at whose start the boot ROM completes copy 2
and the wipes. -/
def State.lifeReset (s : State) : State := (if s.pair.role = .standby then s.faultMessage 3 else s).takeReset 7

/-- The next step of a state change under way. -/
def State.lifeStep (s : State) (r : Run) (x : StateChange) : State :=
  match s.keys.transition with
  | some 1 => ({ s with keys := { s.keys with transition := some 2 } } : State).progress r 2 2 5
  | some 2 => s.lifeBurn x
  | _ => s.lifeReset

/-! ## Key-set changes, 14 R402 -/

/-- A key-set change of an ACTION after the common checks: its TARGET is the state, its ACTION and slot in range, its buffer of the
right size. -/
def keySet (c : Cmd) (action : Nat) (proofOk : Bool) (k : State → State) (s : State) : State :=
  let withKey := action = 1 || action = 3 || action = 5
  if c.inf 0 1 ≠ s.keys.life || c.inf 1 1 ≠ action then s.final 0x00B0 c stInvalid dContent
  else if c.length ≠ (if withKey then 96 else 0) then s.final 0x00B0 c stInvalid dBuffer
  else if (if action = 5 then c.inf 2 1 ≠ 0 else 7 < c.inf 2 1) || (withKey && !proofOk) ||
      (if action = 3 then c.inf 4 4 < s.keys.boot else c.inf 4 4 ≠ 0) then s.final 0x00B0 c stInvalid dContent
  else k s

/-- The key list is written anew, into the older of its two copies (14 R383). -/
def Keys.rewritten (k : Keys) : Keys := { k with prev := some { owner := k.owner, integ := k.integ, grant := k.grant } }

/-- The new key of a key buffer. -/
def newKey (c : Cmd) : Key := BitVec.ofNat 256 (c.buf.field 0 32)

/-- The KEYSET record and FINAL OK. -/
def keySetDone (c : Cmd) (s : State) : State :=
  (s.recordBy 0x0C01 (srcOf 11 0) (items [c.inf 1 1, c.inf 2 1]) (s.partyOf c) false).final 0x00B0 c stOk dNone

/-- ENROL_INTEGRATOR. -/
def execEnrolIntegrator (c : Cmd) (proofOk : Bool) (s : State) : Host.Outcome State Fault Refusal :=
  .next (s.lifeCmd c 1 (keySet c 1 proofOk fun s =>
    let k := c.inf 2 1
    if (s.keys.integ.toList.getD k none).isSome then s.final 0x00B0 c stInvalid dState
    else keySetDone c { s with keys := { s.keys.rewritten with integ := s.keys.integ.setIfInBounds k (some (newKey c)) } }))

/-- A key signed an application image held ACTIVE, PREVIOUS or STAGED. -/
def State.signedHeld (s : State) (k : Option Key) : Bool :=
  s.chg.app.toList.any fun x => (x.st = .active || x.st = .previous || x.st = .staged) && (x.img.map (·.hdr.signer)) = k

/-- The party of a command is kept over the closing of sessions, for its record and completion. -/
def closeParty (c : Cmd) (p : Sess → Bool) (s : State) : State :=
  let party := s.partyOf c
  let s := s.recordBy 0x0C01 (srcOf 11 0) (items [c.inf 1 1, c.inf 2 1]) party false
  (s.closeAll p 3).final 0x00B0 c stOk dNone

/-- REVOKE_INTEGRATOR. -/
def execRevokeIntegrator (c : Cmd) (s : State) : Host.Outcome State Fault Refusal :=
  .next (s.lifeCmd c 0 (keySet c 2 true fun s =>
    let k := c.inf 2 1
    let key := s.keys.integ.toList.getD k none
    if key.isSome && s.signedHeld key then s.final 0x00B0 c stInvalid dState
    else
      let s : State := { s with keys := { s.keys.rewritten with
        integ := s.keys.integ.setIfInBounds k none, store := s.keys.store.filter fun x => some x ≠ key } }
      closeParty c (fun x => x.party = 3 && x.slot = k) s))

/-- GRANT_SERVICE. -/
def execGrantService (c : Cmd) (proofOk : Bool) (s : State) : Host.Outcome State Fault Refusal :=
  .next (s.lifeCmd c 1 (keySet c 3 proofOk fun s =>
    let k := c.inf 2 1
    if (s.keys.grant.toList.getD k none).isSome then s.final 0x00B0 c stInvalid dState
    else keySetDone c { s with keys := { s.keys.rewritten with
      grant := s.keys.grant.setIfInBounds k (some { key := newKey c, limit := c.inf 4 4 }) } }))

/-- REVOKE_SERVICE. -/
def execRevokeService (c : Cmd) (s : State) : Host.Outcome State Fault Refusal :=
  .next (s.lifeCmd c 0 (keySet c 4 true fun s =>
    let k := c.inf 2 1
    closeParty c (fun x => x.party = 4 && x.slot = k)
      { s with keys := { s.keys.rewritten with grant := s.keys.grant.setIfInBounds k none } }))

/-- REPLACE_OWNER. -/
def execReplaceOwner (c : Cmd) (proofOk : Bool) (s : State) : Host.Outcome State Fault Refusal :=
  .next (s.lifeCmd c 1 (keySet c 5 proofOk fun s =>
    let old := s.keys.owner
    let s : State := { s with keys := { s.keys.rewritten with
      owner := some (newKey c), grant := Vector.replicate 8 none, store := s.keys.store.filter fun x => some x ≠ old } }
    closeParty c (fun x => x.party = 2 || x.party = 4) s))

end Sys2Proof.Machine
end

