-- ==== Sys2Proof/Machine/LongOps.lean ====
section
/-! DEFINITION. Long operations: suspend, resume, cancel, progress (13 R372, R373, 12 R331), the self-tests (13 R371, 03 R91, R92) and
TRACK_SNAPSHOT (09 R252 to R254). -/

namespace Sys2Proof.Machine
open Sys2Proof

/-! ## OP_SUSPEND, OP_RESUME, OP_CANCEL -/

/-- The target of the three commands: a long operation without a FINAL completion. -/
def State.target (s : State) (c : Cmd) : Option Run :=
  s.host.runs.find? fun r => r.long && r.session = c.inf 4 2 && r.cmdId = BitVec.ofNat 32 (c.inf 0 4)

/-- The issuer is in the target's session, or is the Owner (14 R390). -/
def opAllowed (s : State) (c : Cmd) (op : Nat) : Bool :=
  allowed s.keys.life (s.partyOf c) op && (c.session.toNat = c.inf 4 2 || s.partyOf c = 2)

/-- No more suspend: a change that is announced, a transition past its first irreversible step, LANE_INJECT (13 R373, 12 R331). -/
def State.noSuspend (s : State) (r : Run) : Bool :=
  match r.work with
  | .appChange _ => s.chg.change.isSome
  | .rollback => true
  | .inject => true
  | .lifecycle _ => (s.keys.transition.getD 0) ≥ 3
  | _ => false

/-- No more cancel: likewise, LANE_INJECT once it has fired. -/
def State.noCancel (s : State) (r : Run) : Bool :=
  match r.work with
  | .inject => match s.lanes.inject with
    | some i => i.fired.isSome
    | none => true
  | _ => s.noSuspend r

/-- The operation stops at once when suspended: LIFECYCLE_ADVANCE; the others at their next suspend point. -/
def suspendsNow (r : Run) : Bool :=
  match r.work with
  | .lifecycle _ => true
  | _ => false

/-- OP_SUSPEND. -/
def execOpSuspend (c : Cmd) (s : State) : Host.Outcome State Fault Refusal :=
  .next (s.hostCmdBy 0x00E0 c 0 (c.inlZero 6) (opAllowed s c 0x00E0) fun s =>
    match s.target c with
    | none => s.final 0x00E0 c stInvalid dState
    | some r =>
      if r.suspended then s.final 0x00E0 c stOk dNone
      else if s.noSuspend r then s.final 0x00E0 c stBusy dNone
      else
        let s := s.addRun (mkRun 0x00E0 c (s.partyOf c) false 0 (.opSuspend r.session r.cmdId.toNat))
        if suspendsNow r then s.suspendRun r else s.setRun { r with suspendDue := true })

/-- OP_RESUME: the target posts PROGRESS with ACCEPTED. -/
def execOpResume (c : Cmd) (s : State) : Host.Outcome State Fault Refusal :=
  .next (s.hostCmdBy 0x00E1 c 0 (c.inlZero 6) (opAllowed s c 0x00E1) fun s =>
    match s.target c with
    | none => s.final 0x00E1 c stInvalid dState
    | some r =>
      let s := if r.suspended then
          let r := { r with suspended := false, suspendDue := false }
          let s := (s.setRun r).resumed r
          if isRejoin r then s.rejoinOn else s.heardMeanwhile
        else s
      s.final 0x00E1 c stOk dNone)

/-- What a cancelled operation leaves behind. -/
def State.cancelRun (s : State) (r : Run) : State :=
  match r.work with
  | .rejoin => s.rejoinCancel
  | .appLoad _ _ => s.stagingFails r stCancelled dNone
  | .appChange _ => s.stagingFails r stCancelled dNone
  | .fwStage _ => s.stagingFails r stCancelled dNone
  | .handover => s.handoverEnd stCancelled dNone
  | .inject => ({ s with lanes := { s.lanes with inject := none } } : State).endRun r stCancelled dNone
  | .lifecycle _ => ({ s with keys := { s.keys with transition := none } } : State).endRun r stCancelled dNone
  | _ => s.endRun r stCancelled dNone

/-- OP_CANCEL: an FW_HANDOVER outside the partner's rejoin is cancelled at its next step boundary (12 R331). -/
def execOpCancel (c : Cmd) (s : State) : Host.Outcome State Fault Refusal :=
  .next (s.hostCmdBy 0x00E2 c 0 (c.inlZero 6) (opAllowed s c 0x00E2) fun s =>
    match s.target c with
    | none => s.final 0x00E2 c stInvalid dState
    | some r =>
      if s.noCancel r then s.final 0x00E2 c stBusy dNone
      else
        let s := s.addRun (mkRun 0x00E2 c (s.partyOf c) false 0 (.opCancel r.session r.cmdId.toNat))
        if r.work = .handover && s.chg.handover ≠ 3 then s.setRun { r with cancelDue := true } else s.cancelRun r)

/-- SUSPEND_POINT_REACHED. -/
def execSuspendPointReached (sess : BitVec 16) (cmdId : BitVec 32) (s : State) : Host.Outcome State Fault Refusal :=
  match s.runOf sess.toNat cmdId with
  | some r => .next (if r.suspendDue && !r.suspended then s.suspendRun r else s)
  | none => .next s

/-! ## SELFTEST, 13 R371 -/

/-- A self-test of a set may be begun: TEST_SET is as the row names it, the rest of INLINE zero. -/
def testSet (c : Cmd) (set : Nat) (k : State → State) (s : State) : State :=
  if c.inf 0 1 ≠ set then s.final 0x00D0 c stInvalid dContent else k s

/-- SCRUB: one pass over 4 GiB. -/
def execScrub (c : Cmd) (s : State) : Host.Outcome State Fault Refusal :=
  .next (s.hostCmd 0x00D0 c 0 (c.inlZero 1) (testSet c 1 fun s =>
    s.accept (mkRun 0x00D0 c (s.partyOf c) true 0x100000000 (.scrub 0 0)) 0x00D0 c))

/-- Slots that are not EMPTY. -/
def State.slotsHeld (s : State) : Nat := s.chg.app.toList.countP (·.st ≠ .empty) + s.chg.fw.toList.countP (·.st ≠ .empty)

/-- FLASH_VERIFY. -/
def execFlashVerify (c : Cmd) (s : State) : Host.Outcome State Fault Refusal :=
  .next (s.hostCmd 0x00D0 c 0 (c.inlZero 1) (testSet c 2 fun s =>
    s.accept (mkRun 0x00D0 c (s.partyOf c) true s.slotsHeld (.flashVerify 0 0)) 0x00D0 c))

/-- BIT is in the range of the KIND, 03 R91. -/
def bitOk (kind bit : Nat) : Bool :=
  match kind with
  | 0 => bit ≤ 39
  | 1 | 4 => bit ≤ 511
  | 6 => bit ≤ 510
  | _ => bit = 0

/-- LANE_INJECT arms one fault (03 R91). A second one while one is armed is BUSY (DESIGN CHOICE, log entry 21). -/
def execLaneInject (c : Cmd) (s : State) : Host.Outcome State Fault Refusal :=
  .next (s.hostCmd 0x00D0 c 0 (c.inf 6 2 = 0 && c.inf 12 4 = 0) (testSet c 0x10 fun s =>
    let lane := c.inf 1 1
    if 8 < lane || (lane < 8 && (s.laneAt lane).split) || 1 < c.inf 2 1 || 6 < c.inf 3 1 || !bitOk (c.inf 3 1) (c.inf 4 2) ||
        c.inf 8 4 = 0 then s.final 0x00D0 c stInvalid dContent
    else if s.lanes.inject.isSome || 8 ≤ s.longOps then s.final 0x00D0 c stBusy dNone
    else
      let s := s.accept (mkRun 0x00D0 c (s.partyOf c) true 0 .inject) 0x00D0 c
      let i : Inject := { lane := lane, copy := if c.inf 2 1 = 0 then .a else .b, kind := c.inf 3 1, bit := c.inf 4 2,
                          left := c.inf 8 4, session := c.session.toNat, cmdId := c.cmdId.toNat }
      { s with lanes := { s.lanes with inject := some i } }))

/-- LANE_INJECT_TIMEOUT: 10 ms after the fault fired without its expected result. -/
def execLaneInjectTimeout (s : State) : Host.Outcome State Fault Refusal :=
  match s.lanes.inject with
  | some i =>
    match i.fired with
    | some (t, _) =>
      let s := s.reach (t + 10000000)
      .next ((s.onLane i.lane fun l => l.onCopy i.copy fun c => { c with muted := false }).endInject i false 0)
    | none => .next s
  | none => .next s

/-! ## TRACK_SNAPSHOT, 09 R252 to R254 -/

/-- TRACK_SNAPSHOT: accepted; the image is taken at the next commit, or in a standby at the next completed transfer. -/
def execTrackSnapshot (c : Cmd) (s : State) : Host.Outcome State Fault Refusal :=
  .next (s.hostCmd 0x00F0 c 2 (c.inf 0 4 < 128 && c.inf 12 4 = 0) fun s =>
    let scope := c.inf 0 4
    if scope = 0 then s.final 0x00F0 c stEmpty dNone
    else if objMax < c.inf 4 4 + c.inf 8 4 then s.final 0x00F0 c stInvalid dContent
    else if c.length < snapLen scope (c.inf 8 4) then s.final 0x00F0 c stInvalid dBuffer
    else if s.running 0x00F0 then s.final 0x00F0 c stBusy dNone
    else s.accept (mkRun 0x00F0 c (s.partyOf c) true (snapLen scope (c.inf 8 4))
      (.snapshot scope (c.inf 4 4) (c.inf 8 4) none 0 0 false)) 0x00F0 c)

/-! ## Progress of the long operations -/

/-- A FLASH_VERIFY has read a slot; the last one ends it. -/
def State.verified (s : State) (r : Run) (checked failed : Nat) (ok : Bool) : State :=
  let s := if ok then s else s.record 0x0A07 (srcOf 9 0) []
  let failed := if ok then failed else failed + 1
  if r.total ≤ checked + 1 then s.endRun r stOk dNone (BitVec.ofNat 64 (checked + 1)) (BitVec.ofNat 64 failed)
  else
    let r := { r with work := .flashVerify (checked + 1) failed }
    (s.setRun r).chunkDone r (checked + 1) r.total

/-- The bytes of a snapshot from where the copy stands to `done` go to the host's buffer; the header waits (09 R253, R254). -/
def State.snapCopy (s : State) (r : Run) (b : List Byte) (done : Nat) : State :=
  let from_ := max 64 r.done
  let d := (b.take done).drop from_
  match r.src with
  | .queue _ => s.hostWrite (r.bufAddr.toNat + from_) d
  | _ => s

/-- The snapshot is copied, header last, or ends without it: its staging has filled, or the host has refused an access (09 R253, R254, 13
R355); TOTAL is the RESULT. -/
def State.snapDone (s : State) (r : Run) (img : Option (List Byte)) (e : ChunkEnd) : State :=
  match img with
  | some b => match e with
    | .good =>
      let head : List Byte := match r.src with
        | .queue _ => b.take 64
        | _ => b
      (s.snapCopy r b b.length).endRun r stOk dNone (BitVec.ofNat 64 r.total) 0 head
    | .fails => (s.record 0x0707 (srcOf 6 0) []).endRun r stFailed dNone
    | .refused => s.endRun r stFailed dDma
  | none => s

/-- LONG_OPERATION_PROGRESS: a chunk is done, or with `done` at the total the operation. A snapshot that is suspended can still fill its
staging (09 R254). -/
def execLongOperationProgress (sess : BitVec 16) (cmdId : BitVec 32) (done total : Nat) (ok : ChunkEnd) (s : State) :
    Host.Outcome State Fault Refusal :=
  match s.runOf sess.toNat cmdId with
  | none => .next s
  | some r =>
    if !s.serves then .next s
    else if r.suspended then .next (match r.work with
      | .snapshot _ _ _ img _ _ _ => if ok = .fails then s.snapDone r img .fails else s
      | _ => s)
    else
      let step (s : State) (total : Nat) : State := s.chunkDone r done total
      match r.work with
      | .logExport _ _ _ _ _ _ _ =>
        .next (if ok ≠ .good || total ≤ done then s.exportEnd r (ok = .good) else
          let x := s.exportCopy r done
          x.1.chunkDone x.2 done total)
      | .scrub c u =>
        .next (if r.total ≤ done then s.endRun r stOk dNone (BitVec.ofNat 64 c) (BitVec.ofNat 64 u) else step s r.total)
      | .flashVerify c f => .next (s.verified r c f (ok = .good))
      | .snapshot _ _ _ img _ _ _ =>
        .next (match img with
          | none => s
          | some b => if ok ≠ .good || r.total ≤ done then s.snapDone r img ok else step (s.snapCopy r b done) r.total)
      | .lifecycle x => .next (s.lifeStep r x)
      | .appLoad _ _ => .next (step s r.total)
      | .appChange _ => .next (step s r.total)
      | .fwStage _ => .next (step s r.total)
      | _ => .next s

end Sys2Proof.Machine
end

