-- ==== Sys2Proof/Machine/StationMgr.lean ====
section
/-! DEFINITION. The module's station manager and the receivers of the star: CFG requests, inclusion, path delays, guardian, frames from
stations and from the partner (05 R147, R154 to R157, R556; 06 R174 to R185; 07 R186 to R200). -/

namespace Sys2Proof.Machine
open Sys2Proof

/-! ## CFG requests, 05 R155, R556 -/

/-- Requests outstanding on a branch. -/
def State.outstanding (s : State) (b : Nat) : Nat := s.net.reqs.countP fun r => codeBranch r.code = b && r.sentN.isSome

/-- A TAG is free on a branch: no outstanding request carries it and no abandonment bars it. TAG 0 is left to DELAY reports. -/
def State.tagFree (s : State) (b t : Nat) : Bool :=
  !(s.net.reqs.any fun r => codeBranch r.code = b && r.sentN.isSome && r.tag = t) &&
  !(s.net.deadTags.any fun d => d.1 = b && d.2.1 = t && s.cyc.n < d.2.2)

/-- The next free TAG of a branch. -/
def State.freeTag (s : State) (b : Nat) : Option Nat :=
  ((List.range 255).map fun i => (s.net.tag + i) % 255 + 1).find? (s.tagFree b)

/-- The payload of a request. -/
def CfgReq.payload (r : CfgReq) (tag : Nat) : List Byte :=
  le 1 (if r.write then 1 else 0) ++ le 1 tag ++ le 2 r.obj ++ le 4 r.ofs ++ le 2 r.count ++ le 2 0 ++ padTo 4 r.data

/-- Where the next CFG frame of a branch begins in the downstream arbitrating window of the cycle: not before T − A, 96 ns behind the frame
before, exclusive or CFG, not in the past (05 R121, R134, R141). -/
def State.cfgStart (s : State) (c : NetCfg) (b : Nat) : Nat :=
  let br := s.net.br.toList.getD b {}
  let last := max br.downEnd br.cfgEnd
  max (max (c.t - c.a) (if last = 0 then 0 else last + 96)) (s.netTime - s.cycleStart)

/-- Place a CFG frame of this star's channel in the downstream arbitrating window. -/
def State.placeCfg (s : State) (b at_ : Nat) (f : Frame) : State :=
  { s with net := { s.net with
      br := s.net.br.setIfInBounds b { (s.net.br.toList.getD b {}) with cfgEnd := at_ + frameNs f.length }
      tx := s.net.tx ++ [{ branch := some b, at_ := at_, f := f }] } }

/-- Send a waiting request when its branch has a place among its 16 and the frame ends 500 ns before T: the own star sends it, its content
goes to the partner. -/
def State.pumpOne (s : State) (i : Nat) : State :=
  match s.net.reqs[i]?, s.net.cfg with
  | some r, some c =>
    let b := codeBranch r.code
    if r.sentN.isSome || 16 ≤ s.outstanding b then s
    else match s.freeTag b with
      | none => s
      | some t =>
        let pay := r.payload t
        let f : Frame := { ftype := 0x40, sched := c.sched, addr := BitVec.ofNat 16 r.code, length := pay.length,
                           seq := s.cyc.n % 2 ^ 32, payload := pay }
        let at_ := s.cfgStart c b
        if c.t < at_ + frameNs pay.length + 500 then s
        else
          let s : State := { s with net := { s.net with reqs := s.net.reqs.set i { r with tag := t, sentN := some s.cyc.n }, tag := t } }
          (s.placeCfg b at_ f).send (.content c.wins.length f)
  | _, _ => s

/-- Send what can be sent; the VANE holder alone makes requests. -/
def State.pumpCfg (s : State) : State :=
  if s.holder && s.cyc.running then (List.range s.net.reqs.length).foldl State.pumpOne s else s

/-- Make requests. -/
def State.ask (s : State) (l : List CfgReq) : State := ({ s with net := { s.net with reqs := s.net.reqs ++ l } } : State).pumpCfg

/-- Drop the requests of a station that a condition selects: responses to those already sent are ignored. -/
def State.dropReqs (s : State) (p : CfgReq → Bool) : State :=
  let dead := (s.net.reqs.filter fun r => p r && r.sentN.isSome).map fun r => (codeBranch r.code, r.tag, s.cyc.n + 256)
  { s with net := { s.net with reqs := s.net.reqs.filter fun r => !p r, deadTags := s.net.deadTags ++ dead } }

/-! ## States and inclusion, 07 R187 to R193 -/

/-- Give a station's state and counts to the partner. -/
def State.tellStn (s : State) (code : Nat) : State :=
  match s.stnAt code with
  | some x => s.send (.station code x.st.code x.wasLost x.miss x.good x.losses x.refusal)
  | none => s

/-- A transition or a change of the counts. -/
def State.moveStn (s : State) (code : Nat) (f : StnM → StnM) : State := (s.onStnM code f).tellStn code

/-- Read IDENTITY: CHECKING. -/
def State.readIdentity (s : State) (code : Nat) : State :=
  let s := s.dropReqs fun r => r.code = code && (r.why = .identity || r.why = .inclWrite || r.why = .inclRead)
  (s.moveStn code fun x => { x with st := .checking, since := s.cyc.n, checked := false, waited := 0, ident := [], todo := [] }).ask
    [{ code := code, tag := 0, obj := 0x8000, ofs := 0, write := false, count := 40, why := .identity }]

/-- A check fails: REFUSED, with STATION_REFUSED. -/
def State.refuseStn (s : State) (code reason : Nat) : State :=
  match s.stnAt code with
  | some x =>
    if x.st = .checking || x.st = .joining then
      let s := s.dropReqs fun r => r.code = code && (r.why = .identity || r.why = .inclWrite || r.why = .inclRead)
      (s.moveStn code fun x => { x with st := .refused, refusal := reason, since := s.cyc.n, todo := [] }).record 0x0500
        (srcOf 5 code) [reason]
    else s
  | none => s

/-- The delays of a channel. -/
def StnM.delay (x : StnM) : Side → Delay
  | .a => x.da
  | .b => x.db

/-- Update the delays of a channel. -/
def StnM.onDelay (x : StnM) (ch : Side) (f : Delay → Delay) : StnM :=
  match ch with
  | .a => { x with da := f x.da }
  | .b => { x with db := f x.db }

/-- Both path delays of a channel are held. -/
def Delay.held (d : Delay) : Bool := d.down.isSome && d.up.isSome

/-- Check 10 on one channel. -/
def State.orderOk (s : State) (x : StnM) (ch : Side) : Bool :=
  match (x.delay ch).up with
  | none => true
  | some up => s.stnM.all fun y =>
      y.st ≠ .included || codeBranch y.code ≠ codeBranch x.code || y.code = x.code || (match (y.delay ch).up with
        | some v => if codePos y.code < codePos x.code then v < up else up < v
        | none => true)

/-- Checks 1 to 10 of R188 on an IDENTITY: the reason of the first that fails, 0 where all pass. -/
def State.identCheck (s : State) (c : NetCfg) (x : StnM) (p : StnPar) (d : List Byte) : Nat :=
  let m := c.mapOf x.code
  let caps := field d 18 2
  if field d 0 2 ≠ p.maker then 1
  else if field d 2 2 ≠ p.devType then 2
  else if field d 6 2 < p.minFw then 3
  else if p.serial ≠ 0 && field d 8 8 ≠ p.serial then 4
  else if field d 16 2 ≠ x.code then 5
  else if field d 20 4 ≠ m.diN || field d 24 4 ≠ m.doN || field d 28 2 ≠ m.aiN || field d 30 2 ≠ m.aoN then 6
  else if field d 32 1 < p.encN then 7
  else if !caps.testBit (if c.profile = 1 then 0 else 1) || (!c.isPlain x.code && !caps.testBit 2) then 8
  else if field d 36 2 ≠ 256 then 9
  else if !(s.orderOk x .a && s.orderOk x .b) then 10
  else 0

/-- The SAFE_VALUES object of a station, 07 R189. -/
def State.safeBytes (s : State) (c : NetCfg) (code : Nat) : List Byte :=
  let m := c.mapOf code
  let dos := (List.range m.doN).map fun i => modeOf s.safeTab (mkPoint code 1 i)
  let aos := (List.range m.aoN).map fun i => modeOf s.safeTab (mkPoint code 3 i)
  padTo 4 (packPairs (dos.map (·.1))) ++ padTo 4 (packBits (dos.map fun v => v.2.getLsbD 0)) ++
    padTo 4 (packPairs (aos.map (·.1))) ++ padTo 4 (aos.flatMap fun v => le 2 v.2.toNat)

/-- The objects that inclusion writes and reads back, 07 R190: HOLD, SAFE_VALUES, ACT_MODE, WINDOWS. -/
def State.inclusionObjs (s : State) (c : NetCfg) (code : Nat) (p : StnPar) : List (Nat × List Byte) :=
  [(0x8004, le 2 p.holdCycles ++ le 2 0), (0x8001, s.safeBytes c code),
   (0x8006, le 1 (c.actMode code) ++ le 1 0xFF ++ le 2 0), (0x8002, (c.winsAt code).flatMap WinEnt.enc)]

/-- The inclusion writes of a station, and what their read-back is to give. -/
def State.writeIncl (s : State) (c : NetCfg) (code : Nat) (p : StnPar) : State :=
  let reqs := (s.inclusionObjs c code p).flatMap fun o => cfgPieces .inclWrite true code c.maxLen o.1 0 o.2
  (s.onStnM code fun x => { x with todo := reqs.map fun r => (r.obj, r.ofs, r.data) }).ask reqs

/-- The checks pass: JOINING, the writes begin; the windows of a schedule change under way are written to its pending schedule too (05
R142). -/
def State.joinStn (s : State) (c : NetCfg) (code : Nat) (p : StnPar) : State :=
  let change := match s.net.switchCfg with
    | some new_ => windowWrites new_ code c.maxLen
    | none => []
  ((s.moveStn code fun x => { x with st := .joining, since := s.cyc.n }).writeIncl c code p).ask change

/-- A station becomes included while a schedule change is under way: its new mode is written as the pending one (05 R142, 07 R189). -/
def State.modeDue (s : State) (c : NetCfg) (code : Nat) : State :=
  match s.net.switchCfg with
  | some new_ => if s.holder then s.ask (modeWrites c new_ code c.maxLen) else s
  | none => s

/-- The reads back of what has been written. -/
def State.readBack (s : State) (code : Nat) : State :=
  match s.stnAt code with
  | some x => s.ask (x.todo.map fun o =>
      { code := code, tag := 0, obj := o.1, ofs := o.2.1, write := false, count := o.2.2.length, why := .inclRead })
  | none => s

/-- Add to a counter of a channel of a branch. -/
def Branch.onCount (b : Branch) (ch : Side) (f : BrCount → BrCount) : Branch :=
  match ch with
  | .a => { b with ca := f b.ca }
  | .b => { b with cb := f b.cb }

/-- Update a branch. -/
def State.onBr (s : State) (i : Nat) (f : Branch → Branch) : State :=
  { s with net := { s.net with br := s.net.br.setIfInBounds i (f (s.net.br.toList.getD i {})) } }

/-- The increase of ARB_DROP since the last reading; a lower reading counts from zero (05 R157). -/
def increase (old new_ : Nat) : Nat := if new_ < old then new_ else new_ - old

/-- A reading of COUNTERS. The first since the station came under this module's count stands against 0 (DESIGN CHOICE, log entry 80). -/
def State.countersRead (s : State) (code : Nat) (d : List Byte) : State :=
  match s.stnAt code with
  | some x =>
    let a := field d 16 4
    let b := field d 48 4
    let s := s.onBr (codeBranch code) fun br =>
      { br with ca := { br.ca with arbDrop := satAdd 32 br.ca.arbDrop (increase x.arbA a) }
                cb := { br.cb with arbDrop := satAdd 32 br.cb.arbDrop (increase x.arbB b) } }
    s.onStnM code fun x => { x with arbA := a, arbB := b }
  | none => s

/-- A response without an error. -/
def State.cfgOk (s : State) (c : NetCfg) (r : CfgReq) (d : List Byte) : State :=
  match s.stnAt r.code with
  | none => s
  | some x => match r.why with
    | .identity =>
      if x.st ≠ .checking then s
      else match c.parOf r.code with
        | none => s
        | some p =>
          let s := s.onStnM r.code fun x => { x with ident := d }
          let k := s.identCheck c x p d
          if k = 0 then s.joinStn c r.code p else s.refuseStn r.code k
    | .inclWrite => if s.net.reqs.any fun q => q.code = r.code && q.why = .inclWrite then s else s.readBack r.code
    | .inclRead =>
      if x.todo.any fun o => o.1 = r.obj && o.2.1 = r.ofs && o.2.2 = d then
        let rest := x.todo.filter fun o => !(o.1 = r.obj && o.2.1 = r.ofs)
        s.onStnM r.code fun x => { x with todo := rest, checked := rest.isEmpty, waited := 0 }
      else s.refuseStn r.code 11
    | .delays => if x.st = .absent then s.readIdentity r.code else s
    | .counters => s.countersRead r.code d
    | .change => s
    | .safe => s

/-- A request of the inclusion steps of R190. -/
def CfgFor.inclusion (w : CfgFor) : Bool := w = .identity || w = .inclWrite || w = .inclRead

/-- The response to an outstanding request. -/
def State.cfgAnswer (s : State) (c : NetCfg) (r : CfgReq) (p : List Byte) : State :=
  let cst := field p 10 2
  let s : State := { s with net := { s.net with reqs := s.net.reqs.filter fun q => q ≠ r } }
  if field p 0 1 = 4 || cst ≠ 0 then
    if cst = 4 then s.ask [{ r with sentN := none, tag := 0 }]
    else if r.why.inclusion then s.refuseStn r.code 11
    else s
  else s.cfgOk c r (slice p 12 (field p 8 2))

/-! ## Receiving, 05 R147 -/

/-- The reason for which a receiver of upstream frames discards a frame whose CRC is right: 0 VERSION, 1 TYPE, 2 LENGTH, 3 LENGTH beyond
the window's, 4 SCHED_ID, 5 SEQ, 6 ADDR. Where several hold, the first in the order of R147's list counts, and a failed CRC before all of
them (DESIGN CHOICE, log entry 96: R147 gives no precedence). -/
def State.discardOf (s : State) (c : NetCfg) (f : Frame) (room : Nat) : Option Nat :=
  if f.version ≠ 1 then some 0
  else if !(f.ftype = 0x10 || f.ftype = 0x30 || f.ftype = 0x40) then some 1
  else if f.length % 4 ≠ 0 || c.maxLen < f.length || f.length ≠ f.payload.length then some 2
  else if room < f.length then some 3
  else if f.sched ≠ c.sched then some 4
  else if f.seq ≠ s.cyc.n % 2 ^ 32 then some 5
  else if 1024 ≤ f.addr.toNat then some 6
  else none

/-- The branch of a frame's sender passes upstream frames: OPEN (06 R182). -/
def State.passes (s : State) (f : Frame) : Bool := (s.net.br.toList.getD (codeBranch f.addr.toNat) {}).g = .open_

/-- The frame is valid, of a type and from a configured station; on the own channel only through an OPEN branch, over the partner's channel
only while the link carries it. -/
def State.taken (s : State) (ch : Side) (f : Frame) (ty : Nat) : Bool :=
  s.cyc.running && (if ch = s.slot then s.passes f else s.linked) && f.ftype = ty && f.crcOk && (s.stnAt f.addr.toNat).isSome &&
  (match s.net.cfg with
   | some c => (s.discardOf c f c.maxLen).isNone
   | none => false)

/-- The branch of a station code, with its channel, as the instance of a record's source. -/
def netSrc (branch : Nat) (ch : Side) : Nat := srcOf 4 (2 * branch + ch.num)

/-- The first IN frame of a position on a channel after two matrix cycles behind a BECALMED station port: BECALM_END. -/
def State.becalmOver (s : State) (ch : Side) (code l : Nat) : State :=
  let p (e : Nat × Side × Nat) : Bool := e.1 = code && e.2.1 = ch && e.2.2 + 2 * l ≤ s.cyc.n
  if s.net.stnBecalm.any p then
    ({ s with net := { s.net with stnBecalm := s.net.stnBecalm.filter fun e => !p e } } : State).record 0x0407
      (netSrc (codeBranch code) ch) [codeBranch code, ch.num, codePos code]
  else s

/-- IN_FRAME_RX: the first valid copy of a part fills the hidden bank (05 R126), until input close. -/
def execInFrameRx (ch : Side) (f : Frame) (s : State) : Host.Outcome State Fault Refusal :=
  let code := f.addr.toNat
  match s.net.cfg with
  | none => .next s
  | some c =>
    if !s.taken ch f 0x10 then .next s
    else
      let s := s.becalmOver ch code c.l
      let fits := (c.winsOf code 0x10).any fun w =>
        w.serves s.cyc.n && winPart w = f.part && winLast w = f.last && f.length ≤ w.len
      if !fits || s.cyc.commitN = some s.cyc.n then .next s
      else .next (s.onStnM code fun x =>
        if x.parts.any (·.num = f.part) then x
        else { x with parts := x.parts ++ [{ num := f.part, last := f.last, bytes := f.payload, flags := f.flags }] })

/-! ## The guardian of the star, 06 R178 to R182 -/

/-- Distance of two instants. -/
def apartBy (a b : Nat) : Nat := (a - b) + (b - a)

/-- What becomes of an upstream frame: refused at its SFD, cut off later, or admitted with the room of its window. -/
inductive Admit where
  | refused | cut | admitted (room : Nat)
  deriving DecidableEq, Repr

/-- The admission of R178 with `g` as the bound at the SFD. -/
def NetCfg.judgeUp (c : NetCfg) (branch n g : Nat) (seen : Seen) (f : Frame) : Admit :=
  match c.wins.find? fun w => w.branch = branch && !w.down && w.serves n && apartBy seen.sfd w.start ≤ g with
  | some w => if f.addr.toNat = w.owner && seen.fin ≤ w.fin + guardNs then .admitted w.len else .cut
  | none =>
    if c.t ≤ seen.sfd + c.a + g then (if seen.fin + 500 ≤ c.t + guardNs then .admitted c.maxLen else .cut) else .refused

/-- The guardian's judgement; between G and G + 8 ns the outcome is not specified (06 R179), at an exclusive window and at the start of the
arbitrating window alike: a free value (log entry 3). -/
def State.judge (s : State) (c : NetCfg) (branch : Nat) (seen : Seen) (f : Frame) : Admit × State :=
  let strict := c.judgeUp branch s.cyc.n guardNs seen f
  let wide := c.judgeUp branch s.cyc.n (guardNs + 8) seen f
  if strict = wide then (strict, s)
  else
    let (k, s) := s.drawNat
    (if k % 2 = 0 then strict else wide, s)

/-- A cut-off on an OPEN branch; the third in a matrix cycle makes it BECALMED. -/
def State.cutOff (s : State) (branch : Nat) : State :=
  let s := s.onBr branch fun b =>
    { (b.onCount s.slot fun k => { k with cutoff := satAdd 32 k.cutoff 1 }) with cuts := b.cuts + 1, dirtyM := true }
  if (s.net.br.toList.getD branch {}).cuts < 3 then s
  else
    let s := s.onBr branch fun b =>
      { (b.onCount s.slot fun k => { k with becalmed := satAdd 32 k.becalmed 1 }) with g := .becalmed, clean := 0, inM := true }
    s.record 0x0406 (netSrc branch s.slot) [branch, s.slot.num, s.cyc.n]

/-- An admitted frame: counted, or discarded under R147 with its reason; a valid one goes to the partner. -/
def State.admitted (s : State) (c : NetCfg) (branch room : Nat) (f : Frame) : State :=
  if !f.crcOk then s.onBr branch fun b => b.onCount s.slot fun k => { k with crc := satAdd 32 k.crc 1 }
  else match s.discardOf c f room with
    | some i => s.onBr branch fun b => b.onCount s.slot fun k =>
        { k with disc := k.disc.setIfInBounds i (satAdd 32 (k.disc.toList.getD i 0) 1) }
    | none => (s.onBr branch fun b => b.onCount s.slot fun k => { k with frames := satAdd 32 k.frames 1 }).send (.upstream f)

/-- UPSTREAM_FRAME_AT_GUARDIAN. -/
def execUpstreamFrameAtGuardian (branch : Fin 16) (seen : Seen) (f : Frame) (s : State) : Host.Outcome State Fault Refusal :=
  match s.net.cfg with
  | none => .next s
  | some c =>
    if (s.net.br[branch]).g = .closed || !s.cyc.running then .next s
    else
      let (a, s) := s.judge c branch.val seen f
      match (s.net.br[branch]).g, a with
      | .open_, .admitted room => .next (s.admitted c branch.val room f)
      | .open_, _ => .next (s.cutOff branch.val)
      | _, .admitted _ => .next s
      | _, _ => .next (s.onBr branch.val fun b => { b with dirtyM := true })

/-! ## EVT, 05 R154, 06 R185 -/

/-- A GUARD_CUT with PARAM 3: the position behind the station's downstream port is BECALMED on the channel. -/
def State.guardCut (s : State) (ch : Side) (code pos param : Nat) : State :=
  if param ≠ 3 then s
  else
    let behind := codeBranch code * 64 + pos % 64
    ({ s with net := { s.net with
        stnBecalm := (s.net.stnBecalm.filter fun e => !(e.1 = behind && e.2.1 = ch)) ++ [(behind, ch, s.cyc.n)] } } : State).record 0x0406
      (netSrc (codeBranch code) ch) [codeBranch code, ch.num, pos]

/-- One entry of an EVT frame. -/
def State.evtEntry (s : State) (ch : Side) (code : Nat) (e : List Byte) : State :=
  let k := field e 0 2
  let param := field e 4 4
  let time := field e 8 8
  let src := srcOf 5 code
  let note (s : State) : State := s.recordBy 0x0506 src (le 8 code ++ e) 0 false
  if k < 0x8000 then note s
  else match k with
    | 0x8001 => (s.record 0x0601 src []).lateRelease (BitVec.ofNat 32 param) time 1
    | 0x8002 => (s.record 0x0602 src []).lateRelease (BitVec.ofNat 32 param) time 2
    | 0x8003 => note s
    | 0x8004 => s.guardCut ch code (field e 2 2) param
    | 0x8005 =>
      let p : Point := BitVec.ofNat 32 param
      note (s.onStnM code fun x => if x.outFault.contains p then x else { x with outFault := x.outFault ++ [p] })
    | _ => s.recordBy 0x0507 src (le 8 code ++ e) 0 false

/-- EVT_FRAME_RX. -/
def execEvtFrameRx (ch : Side) (f : Frame) (s : State) : Host.Outcome State Fault Refusal :=
  if !s.taken ch f 0x30 || f.length = 0 || f.length % 16 ≠ 0 then .next s
  else .next ((List.range (f.length / 16)).foldl
    (fun s i => s.evtEntry ch f.addr.toNat ((f.payload.drop (16 * i)).take 16)) s)

/-- CFG_RESPONSE_RX: the VANE holder takes the response to an outstanding request; one to an abandoned request is ignored. -/
def execCfgResponseRx (ch : Side) (f : Frame) (s : State) : Host.Outcome State Fault Refusal :=
  match s.net.cfg with
  | none => .next s
  | some c =>
    let code := f.addr.toNat
    let tag := (byteAt f.payload 1).toNat
    if !s.taken ch f 0x40 || !s.holder then .next s
    else match s.net.reqs.find? fun r => r.code = code && r.tag = tag && r.sentN.isSome with
      | some r => .next (s.cfgAnswer c r f.payload).pumpCfg
      | none => .next s

/-! ## Path delays, 06 R173 to R175 -/

/-- N of a DELAY report's SYNC_N. -/
def State.fullN (s : State) (n32 : Nat) : Nat := s.cyc.n - (s.cyc.n + 2 ^ 32 - n32) % 2 ^ 32

/-- The reports kept: a series whose SYNC_N are 1 or 64 apart, at most the last 8. -/
def series (l : List (Nat × Int)) (n : Nat) (rt : Int) : List (Nat × Int) :=
  let gap := match l.getLast? with
    | some e => n - e.1
    | none => 0
  let prev := match l.reverse with
    | a :: b :: _ => a.1 - b.1
    | _ => gap
  let l := if (gap = 1 || gap = 64) && gap = prev then l ++ [(n, rt)] else [(n, rt)]
  l.drop (l.length - 8)

/-- Span of the round trips. -/
def spanOf (l : List Int) : Int :=
  match l with
  | [] => 0
  | x :: l => l.foldl max x - l.foldl min x

/-- The stations upstream of a station on its branch. -/
def State.upstreamOf (s : State) (code : Nat) : List StnM :=
  s.stnM.filter fun y => codeBranch y.code = codeBranch code && codePos y.code < codePos code

/-- Write both values of a channel into the station's DELAY object; the module keeps them. -/
def State.writeDelays (s : State) (code : Nat) (ch : Side) (down up : Nat) : State :=
  (s.onStnM code fun x => x.onDelay ch fun d => { d with down := some down, up := some up, force_ := false }).ask
    [{ code := code, tag := 0, obj := 0x8003, ofs := 28 + 8 * ch.num, write := true, count := 8, data := le 4 down ++ le 4 up,
       why := .delays }]

/-- Two values differ by more than 8 ns. -/
def farBy8 (held : Option Nat) (v : Nat) : Bool :=
  match held with
  | some h => 8 < apartBy h v
  | none => true

/-- Eight reports of a channel: the path delays (06 R174, R175). -/
def State.measure (s : State) (x : StnM) (ch : Side) : State :=
  let d := x.delay ch
  let rts := d.rts.map (·.2)
  let above := s.upstreamOf x.code
  if d.rts.length < 8 || above.any fun y => (y.delay ch).fwdDown = 0xFFFF || (y.delay ch).fwdUp = 0xFFFF then s
  else
    let s := s.onStnM x.code fun x => x.onDelay ch fun d => { d with rts := [] }
    if 32 < spanOf rts then s
    else
      let sum := rts.foldl (· + ·) 0
      let delta := above.foldl (fun a y => a + (((y.delay ch).fwdDown : Int) - (y.delay ch).fwdUp)) 0
      let down := (((sum + 8 * delta + 8) / 16) % 2 ^ 32).toNat
      let up := (((sum - 8 * delta + 8) / 16) % 2 ^ 32).toNat
      if pdMax (codePos x.code) < down || pdMax (codePos x.code) < up then
        s.record 0x0405 (netSrc (codeBranch x.code) ch) [x.code]
      else if d.force_ || farBy8 d.down down || farBy8 d.up up then s.writeDelays x.code ch down up
      else s

/-- The station reports that it holds no delays on a channel whose values the module holds: it has restarted (07 R192). -/
def State.delaysLost (s : State) (code : Nat) (ch : Side) : State :=
  match s.stnAt code with
  | none => s
  | some x =>
    let d := x.delay ch
    let writing := s.net.reqs.any fun r => r.code = code && r.why = .delays && r.ofs = 28 + 8 * ch.num
    if !d.held then s
    else if x.st = .absent then
      if d.force_ || writing then s else s.onStnM code fun x => x.onDelay ch fun d => { d with force_ := true, rts := [] }
    else
      let s := s.onStnM code fun x => x.onDelay ch fun d => { d with force_ := true, rts := if d.force_ then d.rts else [] }
      (s.dropReqs fun r => r.code = code).moveStn code fun x =>
        { x with st := .absent, since := s.cyc.n, checked := false, waited := 0, todo := [], withheld := true }

/-- A DELAY report at the VANE holder. -/
def State.delayReport (s : State) (ch : Side) (t4 : Nat) (code : Nat) (d : List Byte) : State :=
  let lost (k : Nat) : Bool := field d (28 + 8 * k) 4 = 0xFFFFFFFF || field d (32 + 8 * k) 4 = 0xFFFFFFFF
  let s := if lost 0 then s.delaysLost code .a else s
  let s := if lost 1 then s.delaysLost code .b else s
  let n := s.fullN (field d 16 4)
  let rt : Int := ((t4 : Int) - s.startOf n) - ((field d 8 8 : Int) - field d 0 8)
  let s := s.onStnM code fun x => x.onDelay ch fun y =>
    { y with fwdDown := field d 20 2, fwdUp := field d 22 2, rts := series y.rts n rt }
  match s.stnAt code with
  | some x => s.measure x ch
  | none => s

/-- DELAY_REPORT_RX: the own star's time stamp, or the partner's over the link; the VANE holder computes. -/
def execDelayReportRx (ch : Side) (t4 : Nat) (f : Frame) (s : State) : Host.Outcome State Fault Refusal :=
  let p := f.payload
  if !s.taken ch f 0x40 || field p 0 1 ≠ 2 || field p 1 1 ≠ 0 || field p 2 2 ≠ 0x8003 || field p 8 2 ≠ 44 then .next s
  else if s.holder then .next (s.delayReport ch t4 f.addr.toNat (slice p 12 44))
  else if ch = s.slot then .next (s.send (.delay t4 f))
  else .next s

/-! ## Timers, 05 R157, R556, 07 R192 -/

/-- CFG_REQUEST_TIMEOUT: a request without a response 64 basic cycles after it was sent is abandoned. A write of changed safe values (02 R53),
which R556 does not list, is sent again like the others (DESIGN CHOICE, log entry 80). -/
def execCfgRequestTimeout (branch : Fin 16) (tag : Nat) (s : State) : Host.Outcome State Fault Refusal :=
  match s.net.reqs.find? fun r => codeBranch r.code = branch.val && r.tag = tag && (match r.sentN with
    | some k => k + 64 ≤ s.cyc.n
    | none => false) with
  | none => .next s
  | some r =>
    let s := s.dropReqs fun q => q = r
    let s := if !s.holder then s
      else if r.why.inclusion then s.refuseStn r.code 11
      else if r.why = .counters then s
      else s.ask [{ r with sentN := none, tag := 0 }]
    .next s.pumpCfg

/-- STATION_RETRY_TIMER: 256 basic cycles in REFUSED, or in ABSENT with path delays held. -/
def execStationRetryTimer (code : Nat) (s : State) : Host.Outcome State Fault Refusal :=
  match s.stnAt code with
  | some x =>
    if s.holder && x.since + 256 ≤ s.cyc.n && (x.st = .refused || (x.st = .absent && (x.da.held || x.db.held))) then
      .next (s.readIdentity code)
    else .next s
  | none => .next s

/-- JOINING_TIMEOUT: 16 serving cycles after check 11 without a complete IN frame. -/
def execJoiningTimeout (code : Nat) (s : State) : Host.Outcome State Fault Refusal :=
  match s.stnAt code with
  | some x =>
    if s.holder && x.st = .joining && x.checked && 16 ≤ x.waited then
      .next (s.moveStn code fun x => { x with st := .absent, since := s.cyc.n, checked := false, waited := 0 })
    else .next s
  | none => .next s

/-- 1,024 basic cycles have passed since the last reading, or none has taken place since the start trigger. -/
def State.pollDue (s : State) : Bool :=
  match s.net.pollN with
  | some k => k + 1024 ≤ s.cyc.n
  | none => true

/-- COUNTERS_POLL: once in every 1,024 basic cycles the holder reads the counters of each included station. -/
def execCountersPoll (s : State) : Host.Outcome State Fault Refusal :=
  if !s.holder || !s.cyc.running || !s.pollDue then .next s
  else
    let s : State := { s with net := { s.net with pollN := some s.cyc.n } }
    let busy (code : Nat) : Bool := s.net.reqs.any fun r => r.code = code && r.why = .counters
    .next (s.ask ((s.stnM.filter fun x => x.st = .included && !busy x.code).map fun x =>
      { code := x.code, tag := 0, obj := 0x8005, ofs := 0, write := false, count := 64, why := .counters }))

/-! ## From the partner, 05 R125, 07 R193 -/

/-- STATION_STATE_RX: a module that is not the holder adopts the holder's states and counts. Should it become primary before the next commit,
the station-lost release of a loss is its own (07 R195, 02 R48). -/
def execStationStateRx (code : Nat) (st : Nat) (wasLost : Bool) (miss good losses refusal : Nat) (s : State) :
    Host.Outcome State Fault Refusal :=
  if s.holder || !s.linked then .next s
  else
    let st := SSt.ofCode st
    let s : State := match s.stnAt code with
      | some x =>
        if st = .lost && x.st ≠ .lost && wasLost then
          { s with cyc := { s.cyc with errDue := s.cyc.errDue ++ [(0, le 8 code ++ le 8 x.lastGood)] } }
        else s
      | none => s
    .next (s.onStnM code fun x =>
      { x with st := st, wasLost := wasLost, miss := miss, good := good, losses := losses, refusal := refusal
               since := if x.st = st then x.since else s.cyc.n
               withheld := st ≠ .included })

/-- A frame whose content has not come within 3 µs of its window's start: left out, with a PAIR_LATE, once (05 R125). -/
def State.pairLate (s : State) (win : Nat) (w : WinEnt) : State :=
  if s.net.lateWin.contains win then s
  else
    let s := s.onBr w.branch fun b => b.onCount s.slot fun k => { k with pairLate := satAdd 32 k.pairLate 1 }
    { s with net := { s.net with lateWin := s.net.lateWin ++ [win] } }

/-- PARTNER_CONTENT_RX: frame content for this star's channel; a window's content later than 3 µs after its start is left out. CFG
frames carry no window number (log entry 23); one that cannot end 500 ns before T is not sent (05 R141). -/
def execPartnerContentRx (win : Nat) (late : Nat) (f : Frame) (s : State) : Host.Outcome State Fault Refusal :=
  match s.net.cfg with
  | none => .next s
  | some c =>
    if s.holder || !s.linked || !s.cyc.running then .next s
    else match c.wins[win]? with
      | some w =>
        if 3000 < late then .next (s.pairLate win w)
        else .next { s with net := { s.net with fromPair := s.net.fromPair ++ [(win, f)] } }
      | none =>
        let b := codeBranch f.addr.toNat
        let at_ := s.cfgStart c b
        .next (if c.t < at_ + frameNs f.length + 500 then s else s.placeCfg b at_ f)

/-! ## STATION_REINTEGRATE, 07 R200 -/

/-- STATION_REINTEGRATE. The VANE holder alone makes station transitions (11 R279): in a primary that is not holder the command ends FAILED with
STATE (DESIGN CHOICE, log entry 108). -/
def execStationReintegrate (c : Cmd) (s : State) : Host.Outcome State Fault Refusal :=
  .next (s.hostCmd 0x0082 c 0 (c.inlZero 2) (ownPrimary 0x0082 c fun s =>
    let code := c.inf 0 2
    let configured := match s.net.cfg with
      | some cfg => (cfg.parOf code).isSome
      | none => false
    if 1024 ≤ code || !configured then s.final 0x0082 c stInvalid dContent
    else if !s.holder then s.final 0x0082 c stFailed dState
    else match s.stnAt code with
      | none => s.final 0x0082 c stOk dNone
      | some x =>
        let s := s.onStnM code fun x => { x with wasLost := false }
        match x.st with
        | .returned =>
          let n := if s.cyc.snapN = some s.cyc.n then s.cyc.n + 1 else s.cyc.n
          let s := (s.moveStn code fun x => { x with st := .included, since := s.cyc.n, withheld := false }).recordBy 0x0503
            (srcOf 5 code) [] (s.partyOf c) false
          s.final 0x0082 c stOk dNone (BitVec.ofNat 64 n)
        | .refused => (s.readIdentity code).final 0x0082 c stOk dNone
        | _ => (s.tellStn code).final 0x0082 c stOk dNone))

end Sys2Proof.Machine
end

