-- ==== Sys2Proof/Machine/Cycle.lean ====
section
/-! DEFINITION. The basic cycle: its start with SYNC, still point, input close with the image commit and the releases, cycle marks,
output cut-off with the snapshot, downstream windows (02 R33 to R58, 04 R93 to R116, 05 R125 to R149, 06 R167 to R169, R182, 07 R192 to
R199, 08 R209, R210). -/

namespace Sys2Proof.Machine
open Sys2Proof

/-! ## SYNC and leadership, 05 R149, 06 R159, R167 to R169 -/

/-- A valid time transfer is held: the last one is not older than a basic cycle, or the 100 µs of the exchanges (06 R158, R167). -/
def State.xferValid (s : State) : Bool :=
  s.linked && !s.net.xfer.isEmpty && (match s.net.xferAt with
    | some t => s.clk.now ≤ t + max s.t 100000
    | none => false)

/-- SYNC content of a cycle that begins at an instant, as this star sends it under an announcement: a follower takes the leader's bits, TAI −
UTC and, for the cycle they name, the announcement from the transferred content (06 R159). -/
def State.syncWith (s : State) (c : NetCfg) (ann : Option (Nat × Nat)) (n start : Nat) : SyncContent :=
  let own := s.net.leader = s.slot
  let lead := s.net.leader.num + bitIf (if own then s.act.ref = .locked else (s.net.partnerSync.map fun p => p.leader.getLsbD 1).getD false) 1
  let ann := match (if own then none else s.net.partnerSync.filter fun p => p.cycle = n && p.sched = c.sched) with
    | some p => (p.nextSched, p.switchN)
    | none => ann.getD (0, 0)
  { cycle := n, startTime := start, tNs := c.t, stillNs := c.s, matrixExp := c.matrixExp, profile := c.profile
    leader := BitVec.ofNat 8 lead
    taiUtc := if own then s.rtc.taiUtc else (s.net.partnerSync.map (·.taiUtc)).getD s.rtc.taiUtc
    nextSched := ann.1, switchN := ann.2, arbNs := c.a, sched := c.sched }

/-- SYNC content under the announcement that stands. -/
def State.syncAt (s : State) (c : NetCfg) (n start : Nat) : SyncContent := s.syncWith c s.net.switch_ n start

/-- SYNC content of a cycle of the running network. -/
def State.syncOf (s : State) (c : NetCfg) (n : Nat) : SyncContent := s.syncAt c n (s.startOf n)

/-- The 48 bytes of a SYNC payload. -/
def syncEnc (x : SyncContent) : List Byte :=
  le 8 x.cycle ++ le 8 x.startTime ++ le 4 x.tNs ++ le 4 x.stillNs ++ le 1 x.matrixExp ++ le 1 x.profile ++ le 1 x.leader.toNat ++ le 1 0 ++
    le 2 (BitVec.ofInt 16 x.taiUtc).toNat ++ le 2 x.nextSched ++ le 8 x.switchN ++ le 4 x.arbNs ++ le 4 0

/-- SYNC on every branch. -/
def State.sendSync (s : State) (c : NetCfg) : State :=
  let x := s.syncOf c s.cyc.n
  let frame (b : Nat) : TxFrame :=
    { branch := some b
      f := { ftype := 0x01, sched := c.sched, addr := bcast b, length := 48, seq := s.cyc.n % 2 ^ 32
             flags := BitVec.ofNat 16 (s.frameFlags + bitIf (x.nextSched ≠ 0) 5), payload := syncEnc x } }
  { s with net := { s.net with tx := s.net.tx ++ (List.range 16).map frame } }

/-- SYNC content of the cycle after this one, with what its start does before: the schedule switches at SWITCH_N, an announcement begins. -/
def State.nextSync (s : State) (c : NetCfg) : SyncContent :=
  let n := s.cyc.n + 1
  let start := s.startOf n
  match s.net.switch_, s.net.switchCfg with
  | some (_, k), some new_ => if k = n then s.syncWith new_ none n start else s.syncWith c s.net.switch_ n start
  | _, _ => s.syncWith c ((s.announceIn n).map fun a => (a.1.sched, a.2)) n start

/-- The content of the next cycle's SYNC that the leader passes with a valid transfer, that of cycle 0 while its own proposal stands (06
R159). Once passed without an announcement, the cycle begins none. -/
def State.passSync (s : State) : State :=
  match s.net.cfg with
  | none => s
  | some c =>
    if s.cyc.running then
      if s.net.leader ≠ s.slot then s
      else
        let x := s.nextSync c
        let s := s.send (.sync x)
        if x.nextSched = 0 then { s with net := { s.net with plainN := some (s.cyc.n + 1) } } else s
    else match s.net.proposal with
      | some x => s.send (.sync { s.syncAt c 0 x.startTime with
          leader := BitVec.ofNat 8 (s.slot.num + bitIf (s.act.ref = .locked) 1), taiUtc := s.rtc.taiUtc })
      | none => s

/-- LEAD_CHANGE. -/
def State.leadTo (s : State) (side : Side) (st : Start) (n : Nat) : State :=
  ({ s with net := { s.net with leader := side, start := st, leadDue := none }, clk := { s.clk with rateAt := s.clk.now } } :
    State).record 0x0404 (srcOf 4 32) [side.num, n]

/-- Silence the star and listen, with PAIR_TIME_LOST. -/
def State.timeLost (s : State) : State := (s.silence.record 0x0403 (srcOf 4 32) []).listen

/-- Leadership at the start of cycle n; none where the star falls silent instead. -/
def State.leadStep (s : State) (n : Nat) : State × Bool :=
  if s.net.silenceDue then (s.silence.listen, false)
  else match s.net.start with
    | .lead =>
      if !s.pair.other then (s, true)
      else if s.xferValid then (s.leadTo s.slot.other .follow n, true)
      else (s.timeLost, false)
    | .follow => if s.holder || s.net.leadDue = some true then (s.leadTo s.slot .lead n, true) else (s, true)
    | _ => (s, true)

/-! ## The start of a cycle, 02 R33, 05 R142, 06 R182 -/

/-- A branch at the start of a matrix cycle, 06 R182; true where it leaves BECALMED. -/
def Branch.matrixStart (b : Branch) : Branch × Bool :=
  match b.g with
  | .closed => (b, false)
  | .open_ => ({ b with cuts := 0, dirtyM := false }, false)
  | .becalmed =>
    if b.inM then ({ b with inM := false, dirtyM := false, clean := 0 }, false)
    else
      let clean := if b.dirtyM then 0 else b.clean + 1
      if 2 ≤ clean then ({ b with g := .open_, cuts := 0, dirtyM := false, clean := 0 }, true)
      else ({ b with dirtyM := false, clean := clean }, false)

/-- Every branch at the start of a matrix cycle, with BECALM_END. -/
def State.guardMatrix (s : State) : State :=
  (List.range 16).foldl (fun s i =>
    let r := (s.net.br.toList.getD i {}).matrixStart
    let s := s.onBr i fun _ => r.1
    if r.2 then s.record 0x0407 (netSrc i s.slot) [i, s.slot.num, s.cyc.n] else s) s

/-- The load of a lane copy over the matrix cycle that ends, 02 R43. -/
def LaneCopy.measure (c : LaneCopy) (elapsed : Nat) : LaneCopy :=
  let load := if elapsed = 0 then 0 else c.busy * 10000 / elapsed
  { c with busy := 0, loadLast := load, loadMax := max c.loadMax load }

/-- Lane loads at the start of a matrix cycle. -/
def State.loadMatrix (s : State) : State :=
  let s := s.chargeAll
  let e := s.netTime - s.lanes.loadFrom
  { s with lanes := { s.lanes with
      lane := s.lanes.lane.map fun l => { l with a := l.a.measure e, b := l.b.measure e }, loadFrom := s.netTime } }

/-- The announced schedule takes effect at SWITCH_N; writes of it that are still due lapse (05 R142). -/
def State.schedSwitch (s : State) : State :=
  match s.net.switch_, s.net.switchCfg with
  | some (_, k), some c =>
    if k ≠ s.cyc.n then s
    else
      let s := s.dropReqs fun r => r.why = .change
      (({ s with net := { s.net with switch_ := none, switchCfg := none } } : State).setCfg c).netDone
  | _, _ => s

/-- A commanded switch counts the cycles that pass; 64 without a usable one fail it (11 R304). -/
def State.switchCycle (s : State) : State :=
  match s.pair.switch_ with
  | some w =>
    if !s.primary then s
    else if 64 ≤ w.cycles then s.switchFail
    else { s with pair := { s.pair with switch_ := some { w with cycles := w.cycles + 1 } } }
  | none => if s.primary && s.chg.handover = 4 then s.handoverFail else s

/-- Changed safe values go to the stations (02 R53); a station that is being written and read back begins its writes again (07 R190). -/
def State.sendSafe (s : State) (c : NetCfg) : State :=
  let due := s.stnM.filter fun x => x.safeDue
  let joins (x : StnM) : Bool := x.st = .joining && !x.checked
  let keep (x : StnM) : Bool := !(x.st = .absent || x.st = .checking || x.st = .refused || joins x)
  let reqs := (due.filter keep).flatMap fun x => cfgPieces .safe true x.code c.maxLen 0x8001 0 (s.safeBytes c x.code)
  let s := ({ s with stnM := s.stnM.map fun x => { x with safeDue := false } } : State).ask reqs
  (due.filter joins).foldl (fun s x => match c.parOf x.code with
    | some p => (s.dropReqs fun r => r.code = x.code && r.why.inclusion).writeIncl c x.code p
    | none => s) s

/-- Stations that stand in CHECKING without a request, as in a new primary: IDENTITY is read (11 R301). -/
def State.startChecks (s : State) : State :=
  let idle (x : StnM) : Bool := x.st = .checking && !(s.net.reqs.any fun r => r.code = x.code && r.why.inclusion)
  (s.stnM.filter idle).foldl (fun s x => s.readIdentity x.code) s

/-- What the VANE holder asks at the start of a cycle. -/
def State.holderAsks (s : State) (c : NetCfg) : State :=
  if s.holder then ((s.sendSafe c).startChecks).pumpCfg else s

/-- NET_START completes at the first SYNC that the star sends, with the start of cycle 0. -/
def State.startDone (s : State) : State :=
  s.endRuns (fun r => match r.work with | .netStart => true | _ => false) stOk dNone (BitVec.ofNat 64 s.cyc.c0)

/-- A cycle that begins is the first of the releases after APP_START where none has been fixed: N mod 64 is 0, and APP_START completed at
least 2 cycles before (02 R52). -/
def State.fixFirst (s : State) (c : NetCfg) : State :=
  if s.cyc.starting && s.cyc.firstRel.isNone && s.cyc.n % 64 = 0 && s.cyc.startAt + 2 * c.t ≤ s.clk.now then
    { s with cyc := { s.cyc with firstRel := some s.cyc.n } }
  else s

/-- The first releases after APP_START are due from this cycle on (02 R52); the lanes of a parked module run. -/
def State.firstReleases (s : State) : State :=
  if s.cyc.starting && s.cyc.firstRel = some s.cyc.n then
    ({ s with cyc := { s.cyc with starting := false, firstRel := none } } : State).wakeLanes
  else s

/-- Cycle n begins: N, the buffers of the cycle, the schedule, the guardian, forces, requests; SYNC goes out. -/
def State.beginCycle (s : State) (n : Nat) : State :=
  match s.net.cfg with
  | none => s
  | some c0 =>
    let s : State := { s with
      cyc := { s.cyc with running := true, started := true, n := n, downBusy := false }
      net := { s.net with sending := true, tx := [], ready := [], fromPair := [], lateWin := []
                          br := s.net.br.map fun b => { b with downEnd := 0, cfgEnd := 0 }
                          deadTags := s.net.deadTags.filter fun d => n < d.2.2 }
      pair := { s.pair with sent := [] }
      stnM := s.stnM.map fun x => { x with parts := [] } }
    let s := s.schedSwitch
    let c := s.net.cfg.getD c0
    let s := if n % c.l = 0 then s.guardMatrix.loadMatrix else s
    let s := if s.primary then s.fixForces n else s
    let s := (s.switchCycle.announceSched n).sendSync c
    (s.startDone.pullRate.fixFirst c).holderAsks c

/-- Open every branch to the schedule (06 R182). -/
def State.openBranches (s : State) : State :=
  { s with net := { s.net with br := s.net.br.map fun b => { b with g := .open_, cuts := 0, dirtyM := false, clean := 0, inM := false } } }

/-- The number of the cycle that begins at `t` in the network of a SYNC content. -/
def cycleAt (p : SyncContent) (t : Nat) : Nat :=
  if p.startTime ≤ t then p.cycle + (t - p.startTime) / p.tNs else p.cycle - (p.startTime - t) / p.tNs

/-- How far an instant lies behind the last cycle start of a network. -/
def phaseIn (p : SyncContent) (t : Nat) : Nat := (((t : Int) - p.startTime) % (p.tNs : Int)).toNat

/-- A cycle start as a follower joins the leader's network: its star begins at a cycle start of the leader, under the leader's schedule and T,
at least 1 µs after the first valid transfer to which it has locked (06 R159, R164); else it waits for the leader's next cycle start. -/
def State.joinCycle (s : State) (c : NetCfg) (t : Nat) : State :=
  let s := s.reachNet t
  let wait (d : Nat) : State := { s with net := { s.net with joinAt := some (t + d) } }
  match s.net.partnerSync, s.net.lockAt with
  | some p, some at_ =>
    if p.sched ≠ c.sched || p.tNs ≠ c.t || phaseIn p t ≠ 0 || s.clk.now < at_ + 1000 then wait (p.tNs - phaseIn p t)
    else
      let s : State := { s with cyc := { s.cyc with c0 := p.startTime - p.cycle * c.t }, net := { s.net with joinAt := none } }
      s.openBranches.beginCycle (cycleAt p t)
  | some p, none => wait (p.tNs - phaseIn p t)
  | none, _ => wait s.net.joinT

/-- A follower that takes leadership before its star has begun starts the network at the cycle start it waits for, under its own schedule
(06 R167). -/
def State.leadAlone (s : State) (c : NetCfg) (t : Nat) : State :=
  let s := s.reachNet t
  let n := match s.net.partnerSync with
    | some p => if p.tNs = c.t then cycleAt p t else 0
    | none => 0
  let s : State := { s with cyc := { s.cyc with c0 := t - n * c.t }, net := { s.net with joinAt := none } }
  ((s.leadTo s.slot .lead n).netEstablished s.clk.seeded).openBranches.beginCycle n

/-- CYCLE_START. -/
def execCycleStart (s : State) : Host.Outcome State Fault Refusal :=
  match s.net.cfg with
  | none => .next s
  | some c =>
    if s.cyc.running then
      let n := s.cyc.n + 1
      let r := (s.reachNet (s.startOf n)).leadStep n
      .next (if r.2 then r.1.beginCycle n else r.1)
    else if s.net.start = .follow then
      match s.net.joinAt with
      | some t => .next (if s.net.leadDue = some true then s.leadAlone c t else s.joinCycle c t)
      | none => .next s
    else .next s

/-- NET_STALL: the own star has not begun a scheduled SYNC (11 R280, R286). -/
def execNetStall (s : State) : Host.Outcome State Fault Refusal :=
  let duty := s.pair.role = .primary || s.pair.role = .standby
  .next (if s.cyc.running && duty then s.leavePair 6 else if s.pair.drive then s.releaseVane else s)

/-! ## The still point, 02 R34, 10 R258, R276, 11 R305 -/

/-- The local channel block that waits takes effect. -/
def State.lioAtStill (s : State) : State :=
  match s.lio.due with
  | some (k, b) =>
    if k ≤ s.cyc.n then (({ s with lio := { s.lio with due := none } } : State).installLio b).lioTaken else s
  | none => s

/-- A changed HOT takes effect (11 R298). -/
def State.hotAtStill (s : State) : State :=
  if s.pair.hot = s.pair.hotReg then s
  else
    let s : State := { s with pair := { s.pair with hot := s.pair.hotReg } }
    if s.pair.role ≠ .standby then s
    else if s.pair.hot then s.wakeLanes
    else if s.pair.wokenAt.isNone then s.parkLanes
    else s

/-- The switch still point in the primary: the switch happens when the final transfer has been acknowledged; a cycle in which a compared
task was not IDLE is not usable. -/
def State.switchStill (s : State) : State :=
  match s.pair.switch_ with
  | some w =>
    if !s.primary || w.k ≠ s.cyc.n then s
    else match w.phase with
      | .wait => s
      | .cut => { s with pair := { s.pair with switch_ := some { w with phase := .wait } } }
      | .closing => s.switchFail
      | .acked => if w.swap then s.switchOut.enterHold else s.switchOut
  | none => s

/-- STILL_POINT. -/
def execStillPoint (s : State) : Host.Outcome State Fault Refusal :=
  if !s.cyc.running then .next s
  else
    let s := s.reachNet (s.stillOf s.cyc.n)
    let s : State := { s with cyc := { s.cyc with still := s.stillOf s.cyc.n } }
    let s := if !s.lull && !s.calmOut then s.outSnapshot else s
    .next s.lioAtStill.latchLocal.hotAtStill.switchStill

/-! ## Stations at input close, 05 R126, 07 R192 to R199 -/

/-- How a commit carries a station's inputs: from this cycle's frame, as in its last serving cycle, UNCERTAIN, or substituted. -/
inductive Carry where
  | fresh | kept | uncertain | subst
  deriving DecidableEq, Repr

/-- Every part of the station's IN frame has arrived (05 R126). -/
def StnM.complete (c : NetCfg) (x : StnM) : Bool :=
  let l := c.winsOf x.code 0x10
  !l.isEmpty && l.all fun w => x.parts.any (·.num = winPart w)

/-- The stream of a complete frame. -/
def StnM.inStream (c : NetCfg) (x : StnM) : List Byte :=
  (List.range (c.winsOf x.code 0x10).length).flatMap fun k => ((x.parts.find? (·.num = k)).map (·.bytes)).getD []

/-- The station takes part with its inputs. -/
def SSt.in_ (t : SSt) : Bool := t = .included || t = .returned

/-- The RETURNED state whose good count has reached RETURN_GOOD. -/
def StnM.enough (p : StnPar) (x : StnM) : Bool := x.st = .returned && p.returnGood ≠ 0 && p.returnGood ≤ x.good

/-- A return: RETURNED, or INCLUDED where WAS_LOST is clear (07 R192). -/
def StnM.return_ (n : Nat) (x : StnM) : StnM :=
  { x with st := if x.wasLost then .returned else .included, good := if x.wasLost || x.st = .lost then 1 else x.good
           miss := 0, since := n, withheld := x.wasLost, outFault := [] }

/-- A missing IN frame of an INCLUDED or RETURNED station. -/
def StnM.missing (x : StnM) (p : StnPar) (n : Nat) : StnM × List Nat :=
  if x.miss + 1 < p.lossCount then ({ x with miss := x.miss + 1, good := 0 }, [])
  else
    ({ x with st := .lost, wasLost := true, miss := x.miss + 1, good := 0, losses := x.losses + 1, since := n, withheld := true }, [0x0504])

/-- The transition of a station at a serving cycle's input close, with the codes of its records (07 R192). -/
def StnM.serve (x : StnM) (p : StnPar) (n : Nat) (full : Bool) : StnM × List Nat :=
  let (y, recs) : StnM × List Nat := match x.st with
    | .joining =>
      if !x.checked then (x, [])
      else if full then (x.return_ n, [if x.wasLost then 0x0502 else 0x0501])
      else ({ x with waited := x.waited + 1 }, [])
    | .included => if full then ({ x with miss := 0 }, []) else x.missing p n
    | .returned => if full then ({ x with miss := 0, good := x.good + 1 }, []) else x.missing p n
    | .lost => if full then (x.return_ n, [0x0502]) else (x, [])
    | _ => (x, [])
  if y.enough p then ({ y with st := .included, since := n, withheld := false }, recs ++ [0x0503]) else (y, recs)

/-- What the frame of a station shows beside its inputs: SAFE (07 R199), and the count of pending actuations after a takeover (11
R301). -/
def StnM.takeFrame (x : StnM) (c : NetCfg) (n still : Nat) : StnM :=
  let fl := (x.parts.head?.map (·.flags)).getD 0
  let b := x.inStream c
  let pending := field b 2 2
  let own := x.sent.countP (still < ·)
  let x := { x with stream := b, unc := fl.getLsbD 3, safe := fl.getLsbD 4, lastGood := n, sentNew := [] }
  if !x.takeMode then x
  else if x.takeCount.isSome && pending ≤ own then { x with takeMode := false, takeCount := none }
  else { x with takeCount := some pending }

/-- A point of a station's stream, 05 R151: value and uncertainty. -/
def streamPoint (m : StnMap) (b : List Byte) (unc : Bool) (kind i : Nat) : BitVec 16 × BitVec 2 :=
  let di := 8 + 16 * field b 4 1
  let ai := di + roundUp ((m.diN + 7) / 8) 4
  let map := ai + roundUp (2 * m.aiN) 4
  let v : BitVec 16 := if kind = 0 then (if bitAt (b.drop di) i then 1 else 0) else BitVec.ofNat 16 (field b (ai + 2 * i) 2)
  (v, if unc && bitAt (b.drop map) (if kind = 0 then i else m.diN + i) then 3 else 0)

/-- An input point as a commit carries it: point, kind, position, value, quality. -/
structure InPt where
  point : Point
  kind : Nat
  pos : Nat
  value : BitVec 16
  qual : BitVec 2
  deriving DecidableEq, Repr

/-- The substitute value of a point (04 R102, R104). -/
def State.substVal (s : State) (p : Point) : BitVec 16 :=
  modeVal (modeOf s.substTab p) (((s.img.lastField.find? (·.1 = p)).map (·.2)).getD 0)

/-- The inputs of a station. -/
def State.stnInputs (s : State) (c : NetCfg) (x : StnM) (k : Carry) : List InPt :=
  let m := c.mapOf x.code
  (inPts x.code m).map fun q =>
    let v := streamPoint m x.stream x.unc q.2.1 (ptIdx q.1)
    let vq : BitVec 16 × BitVec 2 := match k with
      | .fresh => v
      | .kept => if x.miss = 0 then v else (v.1, 3)
      | .uncertain => (v.1, 3)
      | .subst => (s.substVal q.1, 1)
    { point := q.1, kind := q.2.1, pos := q.2.2, value := vq.1, qual := vq.2 }

/-- Keep field values for HOLD (04 R104). -/
def keepField (l : List (Point × BitVec 16)) (v : List (Point × BitVec 16)) : List (Point × BitVec 16) :=
  v ++ l.filter fun e => !(v.any fun f => f.1 = e.1)

/-- One station at input close: its transition (the VANE holder's alone, R193), its records, the error releases of this commit and of
the next, and the inputs that the commit carries. -/
def State.stnClose (s : State) (c : NetCfg) (x : StnM) : State × List InPt :=
  let n := s.cyc.n
  let served := c.servesStn x.code n
  let full := served && x.complete c
  let y := if full then x.takeFrame c n (s.stillOf n) else x
  let (y, recs) := match c.parOf x.code with
    | some p => if s.holder && served then StnM.serve y p n full else (y, [])
    | none => (y, [])
  let carry : Carry :=
    if full && y.st.in_ then .fresh
    else if x.st.in_ then (if served then .uncertain else .kept)
    else .subst
  let field : List (Point × BitVec 16) := if carry = .subst && !x.subst then
    (inPts x.code (c.mapOf x.code)).map fun q => (q.1, (streamPoint (c.mapOf x.code) x.stream x.unc q.2.1 (ptIdx q.1)).1) else []
  let tellSafe := s.holder && full && y.st = .included && y.safe && !y.safeRec
  let y := { y with subst := carry = .subst, safeRec := if !y.safe then false else y.safeRec || tellSafe }
  let s : State := { s with img := { s.img with lastField := keepField s.img.lastField field } }
  let s := s.onStnM x.code fun _ => y
  let s := recs.foldl (fun s k => s.record k (srcOf 5 x.code) []) s
  let s := if tellSafe then s.record 0x0505 (srcOf 5 x.code) [] else s
  let s := if y.st = .included && x.st ≠ .included then s.modeDue c x.code else s
  let s := if y.st ≠ x.st || y.miss ≠ x.miss || y.good ≠ x.good then (if s.holder then s.tellStn x.code else s) else s
  (s, s.stnInputs c y carry)

/-- Stations declared lost at this input close, and stations whose inputs are GOOD again: the error releases they cause, by code and
N (02 R48, 07 R195; the address at bytes 0 to 7 and N at 8 to 15: DESIGN CHOICE, log entry 75). -/
def stnErrors (n : Nat) (before after : List StnM) : List (Nat × List Byte) × List (Nat × List Byte) :=
  let was (x : StnM) : SSt := ((before.find? (·.code = x.code)).map (·.st)).getD .absent
  let lost := after.filter fun x => x.st = .lost && was x ≠ .lost
  let back := after.filter fun x => x.st.in_ && (was x = .lost || (was x = .joining && x.wasLost))
  (lost.map fun x => (0, le 8 x.code ++ le 8 x.lastGood), back.map fun x => (1, le 8 x.code ++ le 8 n))

/-! ## The image commit, 04 R94 to R110 -/

/-- The local inputs as latched at the still point (10 R264). -/
def State.localInputs (s : State) : List InPt :=
  (inPts localCode localMap).map fun q =>
    let c := s.lch (ptIdx q.1)
    let v : BitVec 16 := if c.latch then 1 else 0
    if c.cfg.mode ≠ 1 then { point := q.1, kind := 0, pos := q.2.2, value := 0, qual := 0 }
    else if c.latchQ = 1 then { point := q.1, kind := 0, pos := q.2.2, value := s.substVal q.1, qual := 1 }
    else { point := q.1, kind := 0, pos := q.2.2, value := v, qual := c.latchQ }

/-- The field values of the local inputs that are not substituted. -/
def State.keepLocal (s : State) (l : List InPt) : State :=
  let v := (l.filter fun q => q.qual ≠ 1 && (s.lch (ptIdx q.point)).cfg.mode = 1).map fun q => (q.point, q.value)
  { s with img := { s.img with lastField := keepField s.img.lastField v } }

/-- Lay the input forces over the inputs; the entries take the field values (04 R108). -/
def State.forceInputs (s : State) (l : List InPt) : State × List InPt :=
  let upd (f : Force) : Force := match l.find? (·.point = f.point) with
    | some q => { f with field := q.value, fieldQ := q.qual }
    | none => f
  let forces := s.img.force.map upd
  let lay (q : InPt) : InPt := match s.forced q.point with
    | some v => { q with value := v, qual := 2 }
    | none => q
  (if forces = s.img.force then s else s.setForces forces, l.map lay)

/-- A block of inputs written into memory at a base, with its header. -/
def layInputs (m : List Host.Cell) (base : Nat) (l : List InPt) (hdr : List Byte) : List Host.Cell :=
  memPut (l.foldl (fun m q => qualSet (ptSet m base q.kind q.pos q.value) base q.kind q.pos q.qual) m) (base + hdrOfs) hdr

/-- An 8-byte word of the bank being filled whose write the target has refused keeps what it held: the bank of the commit before last;
which word it is is free (03 R89, R90; log entry 93). -/
def State.keepWord (s : State) (m : List Host.Cell) : List Host.Cell × State :=
  let (k, s) := s.drawNat
  let o := k % (blockLen / 8) * 8
  (memPut m (inView + o) (memBytes s.mem (hidden + o) 8), s)

/-- The end of the image copy engine's transfer: a single error is corrected and counted; one that cannot be corrected is a data error of
class NET (03 R89, R90). -/
def State.copyChecked (s : State) (e : CodeErr) : State :=
  match e with
  | .none => s
  | .single => { s with mgn := { s.mgn with memCorr := satAdd 64 s.mgn.memCorr 1 } }
  | _ => s.record 0x0004 (srcOf 0 0) [6]

/-- The banks are exchanged: the block just filled is the input view, the block read before is hidden (04 R94). -/
def State.commitBank (s : State) (l : List InPt) (e : CodeErr) : State :=
  let subst := l.countP (·.qual = 1)
  let hdr := imageHeader s.cyc.n (s.stillOf s.cyc.n) s.netTime s.img.force.length s.imageFlags subst
  let m := memClear (memCopy s.mem inView hidden blockLen) inView blockLen
  let (m, s) := if uncorrectable e then s.keepWord (layInputs m inView l hdr) else (layInputs m inView l hdr, s)
  ({ s with mem := m, img := { s.img with substIn := subst }, cyc := { s.cyc with commitN := some s.cyc.n } } : State).copyChecked e

/-- The inputs of every station and of the local channels, committed. -/
def State.commitInputs (s : State) (c : NetCfg) (e : CodeErr) : State :=
  let r := s.stnM.foldl (fun (r : State × List InPt) x =>
    let q := r.1.stnClose c x
    (q.1, r.2 ++ q.2)) (s, [])
  let loc := r.1.localInputs
  let s := r.1.keepLocal loc
  let r := s.forceInputs (r.2 ++ loc)
  r.1.commitBank r.2 e

/-! ## Releases of a commit, 02 R44 to R52 -/

/-- The cyclic releases of the commit. -/
def State.cyclicReleases (s : State) : State :=
  (s.tasks.filter fun t => t.kind = .cyclic && s.cyc.n % 2 ^ t.e = t.phase).foldl
    (fun s t => s.release { task := t.num, src := 0, bytes := [] }) s

/-- The error releases of the commit. -/
def State.errorReleases (s : State) (l : List (Nat × List Byte)) : State :=
  l.foldl (fun s e => (s.tasks.filter fun t => t.kind = .error && t.category = e.1).foldl
    (fun s t => s.release { task := t.num, src := 3, bytes := e.2 }) s) s

/-- The primary's part of input close after the commit of its inputs. `due`: faults of before; `lost`: stations lost at this commit,
whose releases follow at the next. -/
def State.commitPrimary (s : State) (due lost back : List (Nat × List Byte)) (w : TrkWork) : State :=
  let s : State := { s with cyc := { s.cyc with errDue := [] } }
  let s := s.supplyFaults
  let due := due ++ back ++ s.cyc.errDue
  let s : State := { s with cyc := { s.cyc with errDue := [] } }
  let s := s.changeInstant.deliverHeld
  let s := s.firstReleases.cyclicReleases
  let s := s.trackCommit s.cyc.n w
  let s := (s.errorReleases due).takeSnapshots false
  if s.cyc.starting then s.errorReleases lost else { s with cyc := { s.cyc with errDue := lost ++ s.cyc.errDue } }

/-- The input publication block, 21 R530. -/
def State.publish (s : State) : State :=
  let due := s.lull || (match s.host.pubAt with
    | some t => t + 10000000 ≤ s.clk.now
    | none => true)
  if s.host.busy || !due then s
  else
    let k := (s.host.pubSeq + 2) % 2 ^ 64
    { s with
      mem := memPut (memCopy s.mem inView 0x017C0000 blockLen) (0x017C0000 + 0x21040) (le 8 k)
      host := { s.host with pubSeq := k, pubAt := some s.clk.now } }

/-- A standby whose lanes run without need parks them (11 R298, R305). -/
def State.parkIdle (s : State) : State :=
  if s.pair.role = .standby && !s.pair.hot && s.pair.wokenAt.isNone && s.pwr.st = .run then s.parkLanes else s

/-- Input close of the cycle: the commit, and the primary's releases; once in a cycle. -/
def State.inputClose (s : State) (c : NetCfg) (w : TrkWork) : State :=
  if !s.cyc.running || s.cyc.commitN = some s.cyc.n then s
  else
    let s := s.reachNet (s.cycleStart + c.i)
    let s := if s.primary then s.effectForces false else s
    let before := s.stnM
    let due := s.cyc.errDue
    let s := s.commitInputs c w.copyErr
    let e := stnErrors s.cyc.n before s.stnM
    let s := if s.primary then s.commitPrimary due e.1 e.2 w
      else ({ (if s.commitMissed then s.goStale else s) with cyc := { s.cyc with errDue := [] } } : State).supplyFaults
    s.publish.parkIdle

/-- INPUT_CLOSE. -/
def execInputClose (w : TrkWork) (s : State) : Host.Outcome State Fault Refusal :=
  match s.net.cfg with
  | none => .next s
  | some c => .next (s.inputClose c w)

/-- CYCLE_MARK: the mark's interrupt at every lane that enables it, and its mark tasks (02 R46), whose first release after APP_START may
come before the commit of its cycle (R52); behind the commit where it has the offset of input close (02 R37). -/
def execCycleMark (m : Fin 16) (s : State) : Host.Outcome State Fault Refusal :=
  match (s.chg.running.map (·.body.marks)).bind (alook m.val) with
  | none => .next s
  | some ofs =>
    if !s.cyc.running || !s.primary then .next s
    else
      let s := match s.net.cfg with
        | some c => if ofs = c.i then s.inputClose c {} else s
        | none => s
      let s := s.reachNet (s.cycleStart + ofs)
      let s := (List.range 8).foldl (fun s l =>
        if (s.laneAt l).markEn.getLsbD m.val && !(s.laneAt l).halted then s.atDelivery l (.mark m.val s.cyc.n) else s) s
      let due := s.tasks.filter fun t => t.kind = .mark && t.mark = m.val && s.cyc.n % 2 ^ t.e = t.phase
      .next (due.foldl (fun s t => s.release { task := t.num, src := 1, bytes := [] }) (if due.isEmpty then s else s.firstReleases))

/-! ## The output cut-off, 02 R36, R55, 04 R100, R109, R115, 07 R196, 08 R209 -/

/-- An output point of the snapshot. -/
structure OutPt where
  point : Point
  kind : Nat
  pos : Nat
  value : BitVec 16
  qual : BitVec 2
  /-- the quality without a force -/
  plain : BitVec 2
  /-- the point stands at a safe value: no force reaches it -/
  safe : Bool
  deriving DecidableEq, Repr

/-- The outputs of a station that the snapshot carries; a withheld station stands at its safe values (07 R196, R199). -/
def State.stnOutputs (s : State) (code : Nat) (m : StnMap) : List OutPt :=
  let x := (s.stnAt code).getD { code := code }
  let calm := s.calmOut
  (outPts code m).map fun q =>
    let task := ptGet s.mem outImage q.2.1 q.2.2
    let held := ((x.lastOut.find? (·.1 = q.1)).map (·.2)).getD 0
    let safe := calm || x.withheld
    let qual : BitVec 2 := if safe || x.safe then 1 else if x.outFault.contains q.1 then 3 else 0
    { point := q.1, kind := q.2.1, pos := q.2.2, value := if calm || !x.withheld then task else modeVal (modeOf s.safeTab q.1) held
      qual := qual, plain := qual, safe := safe }

/-- The local outputs (10 R273, R274). -/
def State.localOutputs (s : State) : List OutPt :=
  (outPts localCode localMap).map fun q =>
    let i := ptIdx q.1
    let c := s.lch i
    let g := s.supplyOf i
    let doubt := c.cfg.mode = 2 && (c.trip.isSome || c.fault ≠ 0 || g ≠ .valid)
    let qual : BitVec 2 := if s.calmOut then 1 else if doubt then 3 else 0
    { point := q.1, kind := 1, pos := q.2.2, value := ptGet s.mem outImage 1 q.2.2, qual := qual, plain := qual, safe := s.calmOut }

/-- Every output point before forces. -/
def State.outputs (s : State) (c : NetCfg) : List OutPt :=
  (c.map.flatMap fun e => s.stnOutputs e.1 e.2) ++ s.localOutputs

/-- Lay the output forces; the entries take the value of the output image (04 R109). -/
def State.forceOutputs (s : State) (l : List OutPt) : State × List OutPt :=
  let upd (f : Force) : Force := match l.find? (·.point = f.point) with
    | some q => { f with field := ptGet s.mem outImage q.kind q.pos, fieldQ := q.plain }
    | none => f
  let forces := s.img.force.map upd
  let lay (q : OutPt) : OutPt := match s.forced q.point with
    | some v => if q.safe then q else { q with value := v, qual := 2 }
    | none => q
  (if forces = s.img.force then s else s.setForces forces, l.map lay)

/-- Mark the lines of a range that differ from an older memory. -/
def State.markDiff (s : State) (old : List Host.Cell) (a k : Nat) : State :=
  (List.range (k / 64)).foldl (fun s i =>
    if memBytes old (a + 64 * i) 64 = memBytes s.mem (a + 64 * i) 64 then s else s.mark (a + 64 * i) 64) s

/-- The snapshot: the output image with qualities, the values that stand in it laid over, its header (04 R96, R101). -/
def State.takeOutputs (s : State) (l : List OutPt) : State :=
  let old := s.mem
  let m := l.foldl (fun m q => qualSet m outImage q.kind q.pos q.qual) s.mem
  let m := memCopy m outImage snapBlock hdrOfs
  let m := l.foldl (fun m q => ptSet m snapBlock q.kind q.pos q.value) m
  let n := s.cyc.n
  let hdr := imageHeader n (s.stillOf (n + 1)) s.netTime s.img.force.length s.imageFlags (l.countP (·.qual = 1))
  let s : State := { s with mem := memPut m (snapBlock + hdrOfs) hdr, cyc := { s.cyc with snapN := some n, downBusy := true } }
  s.markDiff old (outImage + 0x10000) 0x11000

/-- A downstream exclusive frame for a window. -/
def State.frameFor (s : State) (c : NetCfg) (w : WinEnt) (pay : List Byte) : Frame :=
  { ftype := w.ty, part := winPart w, last := winLast w, sched := c.sched, addr := BitVec.ofNat 16 w.owner, length := pay.length
    seq := s.cyc.n % 2 ^ 32, flags := BitVec.ofNat 16 s.frameFlags, payload := pay }

/-- The windows with their numbers. -/
def NetCfg.winIdx (c : NetCfg) : List (Nat × WinEnt) := (List.range c.wins.length).zip c.wins

/-- A frame is ready for its window, in this star and in the partner's (05 R125). -/
def State.readyFrame (s : State) (i : Nat) (f : Frame) : State :=
  ({ s with net := { s.net with ready := s.net.ready ++ [(i, f)] } } : State).send (.content i f)

/-- A station's OUT stream from the snapshot, 05 R152. -/
def State.outStream (s : State) (m : StnMap) : List Byte :=
  padTo 4 (packBits ((List.range m.doN).map fun i => (ptGet s.mem snapBlock 1 (m.doBase + i)).getLsbD 0)) ++
    padTo 4 ((List.range m.aoN).flatMap fun i => le 2 (ptGet s.mem snapBlock 3 (m.aoBase + i)).toNat)

/-- The part of a stream that a window carries (05 R148). -/
def partBytes (l : List WinEnt) (w : WinEnt) (b : List Byte) : List Byte :=
  let before := (l.filter fun v => winPart v < winPart w).foldl (fun a v => a + v.len) 0
  (b.drop before).take w.len

/-- The OUT frames of a station in a serving cycle. -/
def State.sendOut (s : State) (c : NetCfg) (x : StnM) : State :=
  let outs := c.winsOf x.code 0x20
  if x.st ≠ .included || x.withheld || outs.isEmpty || !c.servesStn x.code s.cyc.n then s
  else
    let m := c.mapOf x.code
    let b := s.outStream m
    let vals := (outPts x.code m).map fun q => (q.1, ptGet s.mem snapBlock q.2.1 q.2.2)
    let s := s.onStnM x.code fun x => { x with lastOut := vals }
    (c.winIdx.filter fun iw => iw.2.owner = x.code && iw.2.ty = 0x20).foldl
      (fun s iw => s.readyFrame iw.1 (s.frameFor c iw.2 (partBytes outs iw.2 b))) s

/-! ## Actuation entries to the cycle's ACT frames, 08 R209 -/

/-- An ACT window of the cycle with the entries placed in it. -/
structure Place where
  idx : Nat
  win : WinEnt
  ents : List ActEnt := []
  deriving DecidableEq, Repr

/-- The ACT windows that serve the cycle. -/
def NetCfg.places (c : NetCfg) (n : Nat) : List Place :=
  (c.winIdx.filter fun iw => iw.2.ty = 0x21 && iw.2.serves n).map fun iw => { idx := iw.1, win := iw.2 }

/-- The place has room for an entry. -/
def Place.room (p : Place) : Bool := 16 * (p.ents.length + 1) ≤ p.win.len && p.ents.length < 64

/-- Put an entry into the first place with room: the station's own windows, then the broadcast windows of its branch (08 R209), each in the
order of the window entries; a broadcast window is used in its own serving cycles alone (DESIGN CHOICE, log entry 82). -/
def putEntry (l : List Place) (e : ActEnt) : Option (List Place) :=
  let code := ptStn e.point
  let own (p : Place) : Bool := p.win.owner = code && p.room
  let all_ (p : Place) : Bool := p.win.toBranch && p.win.branch = codeBranch code && p.room
  let i := (l.findIdx? own).orElse fun _ => l.findIdx? all_
  i.map fun i => l.modify i fun p => { p with ents := p.ents ++ [e] }

/-- Insert by ascending TIME, behind equals. -/
def insTime (e : ActEnt) : List ActEnt → List ActEnt
  | [] => [e]
  | f :: l => if e.time < f.time then e :: f :: l else f :: insTime e l

/-- The entries of a station that its count holds: those sent whose TIME has not passed; after a takeover ACT_PENDING and what has been
sent since (11 R301). None while no IN frame has shown ACT_PENDING. -/
def StnM.actCount (x : StnM) (now : Nat) : Option Nat :=
  if x.takeMode then x.takeCount.map fun k => k + x.sentNew.countP (now ≤ ·) else some (x.sent.countP (now ≤ ·))

/-- One entry at the cut-off: discarded, suppressed where a force stands on the point and this cycle would send it (04 R115), placed, or
kept in the pool. -/
def State.placeEntry (s : State) (places : List Place) (e : ActEnt) : State × List Place × Bool :=
  let code := ptStn e.point
  match s.stnAt code with
  | none => (s, places, false)
  | some x =>
    if x.withheld then
      ((s.onStnM code fun x => { x with actLost := x.actLost + 1 }).record 0x0603 (srcOf 5 code) [], places, false)
    else
      let ok := e.cancel || (match x.actCount s.netTime with
        | some k => k < 256
        | none => false)
      match (if ok then putEntry places e else none) with
      | none => (s, places, true)
      | some l =>
        if (s.forced e.point).isSome then (s.suppress e.point, places, false)
        else
          let s := if e.cancel then s else s.onStnM code fun x =>
            { x with sent := x.sent.filter (s.netTime ≤ ·) ++ [e.time], sentNew := x.sentNew ++ [e.time] }
          (s, l, false)

/-- Outputs of a station are sent. -/
def State.stnSends (s : State) (code : Nat) : Bool := ((s.stnAt code).map fun x => !x.withheld).getD false

/-- The cancels of output forces go first, outside the pool: those whose forced value a snapshot has carried, to stations whose outputs
are not withheld (04 R115, 07 R196). -/
def State.placeCancels (s : State) (places : List Place) : State × List Place :=
  let r := s.img.cancels.foldl (fun (r : List Place × List (Point × Option Nat)) k =>
    match (if s.stnSends (ptStn k.1) then k.2 else none) with
    | none => (r.1, r.2 ++ [k])
    | some t => match putEntry r.1 { point := k.1, cancel := true, time := t } with
      | some l => (l, r.2)
      | none => (r.1, r.2 ++ [k])) (places, [])
  ({ s with img := { s.img with cancels := r.2 } }, r.1)

/-- The ACT frames of the cycle; none in Calm, none in Lull service. A window without an entry carries no frame (log entry 24). -/
def State.sendAct (s : State) (c : NetCfg) : State :=
  if s.calmOut || s.lull then s
  else
    let r := s.placeCancels (c.places s.cyc.n)
    let q := (s.act.pool.foldl (fun l e => insTime e l) []).foldl (fun (q : State × List Place × List ActEnt) e =>
      let z := q.1.placeEntry q.2.1 e
      (z.1, z.2.1, if z.2.2 then q.2.2 else e :: q.2.2)) (r.1, r.2, [])
    let left := q.2.2.foldl List.erase s.act.pool
    let s : State := { q.1 with act := { q.1.act with pool := left } }
    (q.2.1.filter fun p => !p.ents.isEmpty).foldl
      (fun s p => s.readyFrame p.idx (s.frameFor c p.win (p.ents.flatMap ActEnt.enc))) s

/-- The points of output forces whose change takes effect at the cut-off of this cycle (04 R107). -/
def State.comingForces (s : State) : List Point :=
  (s.img.changes.filter fun c => !c.done && !c.rel && ptStn c.point ≠ internalCode && ptOutput c.point &&
    c.k.any (· ≤ s.cyc.n)).map (·.point)

/-- Output forces that take effect at this cut-off, also where a newer change of the point already waits, wait for the snapshot that
carries their value (04 R115, R116). -/
def State.forceCame (s : State) (coming : List Point) : State :=
  let came := s.img.force.filter fun f => coming.contains f.point && f.now.isSome
  let old := s.img.cancels.filter fun k => !(came.any fun f => f.point = k.1)
  if came.isEmpty then s else { s with img := { s.img with cancels := old ++ came.map fun f => (f.point, none) } }

/-- The snapshot of the cut-off carries the value of an output force: in Calm and for a withheld station none does (04 R109, R116). -/
def State.carries (s : State) (p : Point) : Bool := !s.calmOut && (ptStn p = localCode || s.stnSends (ptStn p))

/-- Cancels after the snapshot: TIME is the cut-off whose snapshot first carries the forced value; a local channel discards its later
actuations at once; a force that ended before any snapshot carried it leaves nothing to cancel (04 R115). -/
def State.forceCancels (s : State) (cut : Nat) : State :=
  let fresh := s.img.cancels.filter fun k => k.2.isNone && (s.forced k.1).isSome && s.carries k.1
  let loc := fresh.filter fun k => ptStn k.1 = localCode
  let keep := s.img.cancels.filter fun k => (k.2.isSome || (s.forced k.1).isSome) && !loc.contains k
  let s : State := { s with img := { s.img with cancels := keep.map fun k => if fresh.contains k then (k.1, some cut) else k } }
  loc.foldl (fun s k =>
    ({ s with act := { s.act with localQ := s.act.localQ.filter fun e => !(e.point = k.1 && cut ≤ e.time) } } : State).onLch
      (ptIdx k.1) fun c => { c with held := false }) s

/-- Lull service ends at the first snapshot after the first releases that follow APP_START (18 R483). -/
def State.lullOver (s : State) : State :=
  let run := s.tasks.any fun t => !((s.taskAt t.num).st = .stopped || (s.taskAt t.num).st = .halted)
  if s.lull && run && !s.cyc.starting && !s.calm.on then s.endLull else s

/-- A commanded switch uses this cycle: releases are held from here on (11 R305). -/
def State.switchCut (s : State) : State :=
  match s.pair.switch_ with
  | some w =>
    if w.phase = .wait then
      { s with pair := { s.pair with switch_ := some { w with phase := .cut, k := s.cyc.n + 1 } }, cyc := { s.cyc with holdRel := true } }
    else s
  | none => s

/-- The primary's outputs before the snapshot: the span of 02 R58 ends, or the safe-value image stands. -/
def State.readyOutputs (s : State) : State :=
  if s.calm.on || s.cyc.starting then
    if s.calmOut then s.laySafe else s
  else { s with calm := { s.calm with image := false } }

/-- OUTPUT_CUTOFF: the snapshot, the OUT frames, the ACT entries, the snapshot transfer. -/
def execOutputCutoff (s : State) : Host.Outcome State Fault Refusal :=
  match s.net.cfg with
  | none => .next s
  | some c =>
    if !s.cyc.running || !s.primary || s.cyc.snapN = some s.cyc.n then .next s
    else
      let cut := s.cycleStart + c.o
      let s := s.reachNet cut
      let coming := s.comingForces
      let old := s.mem
      let s := (((s.effectForces true).forceCame coming).lullOver.readyOutputs).forceCancels cut
      let r := s.forceOutputs (s.outputs c)
      let s := r.1.takeOutputs r.2
      let s := s.stnM.foldl (fun s x => if s.holder then s.sendOut c x else s) s
      let s := if s.holder then s.sendAct c else s
      .next ((s.shipSnapshot old).switchCut)

/-- A star that is not the holder's expects a frame in the window: in an OUT window that serves a station with outputs, also while the link
is down. Whether the holder sends a frame in an ACT window shows only over the link (log entry 24): while it is down that is a free value. -/
def State.expects (s : State) (w : WinEnt) : Bool × State :=
  if !w.serves s.cyc.n then (false, s)
  else if w.ty = 0x21 then
    if s.linked then (false, s)
    else
      let (k, s) := s.drawNat
      (decide (k % 2 = 1), s)
  else if w.ty = 0x20 then
    ((match s.stnAt w.owner with
      | some x => x.st = .included && !x.withheld
      | none => false), s)
  else (false, s)

/-- DOWNSTREAM_WINDOW: the star begins the frame whose content is ready, within 3 µs of the window's start and after the gap of 96 ns
behind the frame before; else DOWN_DROP (05 R138). The partner's star counts a PAIR_LATE where the content has not come (05 R125). -/
def execDownstreamWindow (win : Nat) (late : Nat) (s : State) : Host.Outcome State Fault Refusal :=
  match s.net.cfg.bind fun c => c.wins[win]? with
  | none => .next s
  | some w =>
    let content := if s.holder then s.net.ready else s.net.fromPair
    match content.find? (·.1 = win) with
    | none =>
      if !s.cyc.running || s.holder || late < 3000 then .next s
      else
        let (due, s) := s.expects w
        .next (if due then s.pairLate win w else s)
    | some e =>
      if !s.cyc.running || !w.down then .next s
      else
        let drop (l : List (Nat × Frame)) : List (Nat × Frame) := l.filter (·.1 ≠ win)
        let s : State := { s with net := { s.net with ready := drop s.net.ready, fromPair := drop s.net.fromPair } }
        let last := (s.net.br.toList.getD w.branch {}).downEnd
        let begin_ := max (w.start + late) (if last = 0 then 0 else last + 96)
        if w.start + 3000 < begin_ then
          .next (s.onBr w.branch fun b => b.onCount s.slot fun k => { k with downDrop := satAdd 32 k.downDrop 1 })
        else
          let s := s.onBr w.branch fun b => { b with downEnd := begin_ + frameNs e.2.length }
          .next { s with net := { s.net with tx := s.net.tx ++ [{ branch := some w.branch, at_ := begin_, f := e.2 }] } }

end Sys2Proof.Machine
end

