-- ==== Sys2Proof/Machine/ColdStart.lean ====
section
/-! DEFINITION. Time transfer, cold start and leadership without transfer (05 R150, 06 R158 to R167). -/

namespace Sys2Proof.Machine
open Sys2Proof

/-! ## Time transfer, 06 R158, R159 -/

/-- Span of link delays. -/
def delaySpan (l : List Nat) : Nat := l.foldl max 0 - l.foldl min (l.headD 0)

/-- The link delay lies within 20 ns of the mean of the valid transfers held. -/
def nearMean (l : List Nat) (d : Nat) : Bool :=
  let sum := l.foldl (· + ·) 0
  (d * l.length - sum) + (sum - d * l.length) ≤ 20 * l.length

/-- Hold a completed exchange; true where it is a valid transfer. -/
def State.transfer (s : State) (d : Nat) : State × Bool :=
  if s.net.xfer.isEmpty then
    let l := s.net.xferTry ++ [d]
    let l := l.drop (l.length - 8)
    if l.length = 8 && delaySpan l ≤ 20 then
      ({ s with net := { s.net with xfer := l, xferTry := [], xferAt := some s.clk.now } }, true)
    else ({ s with net := { s.net with xferTry := l } }, false)
  else if nearMean s.net.xfer d then
    let l := s.net.xfer ++ [d]
    ({ s with net := { s.net with xfer := l.drop (l.length - 64), xferAt := some s.clk.now } }, true)
  else (s, false)

/-- Two SYNC contents are consistent, 06 R159. -/
def syncNext (a b : SyncContent) : Bool :=
  b.cycle = a.cycle + 1 && b.startTime = a.startTime + a.tNs && a.tNs = b.tNs && a.stillNs = b.stillNs && a.arbNs = b.arbNs &&
    a.matrixExp = b.matrixExp && a.profile = b.profile && a.sched = b.sched

/-- The rank in force, 06 R162. -/
def rankIn (rank : Nat) (slot : Side) : Nat := if rank = 0 then slot.num + 1 else rank

/-- The partner's rank: as heard in its CSTART, else its slot default (log entry 25). -/
def State.otherRank (s : State) : Nat := rankIn (s.net.partnerRank.getD 0) s.slot.other

/-- FOLLOW, with the cycle start at which the own star begins and the T of the partner's network. -/
def State.follow (s : State) (joinAt t : Nat) : State :=
  { s with net := { s.net with
      start := .follow, leader := s.slot.other, listenEnd := none, joinAt := some joinAt, joinT := t, lockAt := none
      followAt := s.clk.now, leadDue := none } }

/-- The first cycle start of a partner's network at least 1 µs from now (06 R164). -/
def State.joinTime (s : State) (p : SyncContent) : Nat :=
  let e := s.netTime + 1000
  if e ≤ p.startTime then p.startTime else p.startTime + (e - p.startTime + p.tNs - 1) / p.tNs * p.tNs

/-- Contention with a partner of a rank, 06 R163, R165: withdraw, keep the proposal, or an unresolved round. -/
def State.contend (s : State) (other : Nat) (joinAt t : Nat) : State :=
  let own := rankIn s.net.rank s.slot
  if other < own then s.silence.follow joinAt t
  else if own < other then s
  else if s.net.round < 3 then
    let s := (s.silence.record 0x0400 (srcOf 4 32) []).listen
    { s with net := { s.net with round := s.net.round + 1 } }
  else
    let s := s.silence.record 0x0402 (srcOf 4 32) []
    let s : State := { s with net := { s.net with start := .failed, listenEnd := none } }
    s.endRuns (fun r => match r.work with | .netStart => true | _ => false) stFailed dState

/-- A partner's SYNC content is consistent with the own network or proposal (06 R159, R163). -/
def State.agrees (s : State) (p : SyncContent) (base : Nat) : Bool :=
  match s.net.cfg with
  | some c => p.tNs = c.t && p.startTime = base + p.cycle * p.tNs && p.stillNs = c.s && p.arbNs = c.a && p.matrixExp = c.matrixExp &&
      p.profile = c.profile && p.sched = c.sched
  | none => false

/-- SYNC content of the partner. -/
def State.partnerContent (s : State) (p : SyncContent) : State :=
  let run := match s.net.partnerSync with
    | some q => if syncNext q p then s.net.partnerRun + 1 else 1
    | none => 1
  let s : State := { s with net := { s.net with partnerSync := some p, partnerRun := run } }
  match s.net.start with
  | .listen => if 2 ≤ run then s.follow (s.joinTime p) p.tNs else s
  | .contend => match s.net.proposal with
    | some o => if s.agrees p o.startTime then s else s.contend s.otherRank (s.joinTime p) p.tNs
    | none => s
  | .lead =>
    if s.agrees p s.cyc.c0 || s.holder || s.pair.other || rankIn s.net.rank s.slot ≤ s.otherRank then s
    else { s with net := { s.net with silenceDue := true } }
  | _ => s

/-- The rate correction of a follower, kept within the 500 ppm of 01 R19 (log entry 26). -/
def rateIn (r : Int) : Int := max (-500000) (min 500000 r)

/-- A follower corrects rate and offset by what the leader's network time is ahead: the rate by what the offset has grown since the last valid
transfer (06 R158; DEDUCED, log entry 26). -/
def State.lockTo (s : State) (last : Option Nat) (offset : Int) : State :=
  let rate := match last with
    | some t => if t < s.clk.now then rateIn (s.clk.rate + offset * 1000000000 / ((s.clk.now : Int) - t)) else s.clk.rate
    | none => s.clk.rate
  { s with clk := { s.clk with netOfs := s.clk.netOfs + offset, rate := rate, seeded := false } }

/-- TIME_TRANSFER: an exchange over the pair link with its measured delay, the time it took, and the leader's network time minus this
module's. A module that listens or follows, or withdraws on the content, corrects its time (log entry 26); the leader passes the next SYNC
content with it. -/
def execTimeTransfer (linkDelay : Nat) (took : Nat) (offset : Int) (content : Option SyncContent) (s : State) :
    Host.Outcome State Fault Refusal :=
  let bound := if s.cyc.running && 8 ≤ s.net.xfer.length then s.t else 100000
  if !s.linked || bound < took then .next s
  else
    let last := if s.net.start = .follow then s.net.xferAt else none
    let (s, ok) := s.transfer linkDelay
    if !ok then .next s
    else
      let s := if s.net.start = .follow || s.net.start = .listen then s.lockTo last offset else s
      let s := if s.net.start = .follow then s.netEstablished false else s
      let contends : Bool := s.net.start = .contend
      let s := match content with
        | some p => s.partnerContent p
        | none => s
      let s := if contends && s.net.start = .follow then s.lockTo none offset else s
      .next ((if s.net.start = .follow && s.net.lockAt.isNone then { s with net := { s.net with lockAt := some s.clk.now } }
              else s : State).passSync)

/-! ## Cold start, 06 R160 to R167 -/

/-- Before the first valid transfer, network time comes from the locked reference, else from the calendar (06 R161). -/
def State.seedTime (s : State) : State :=
  if !s.net.xfer.isEmpty then s
  else if s.act.ref = .locked then { s with clk := { s.clk with netOfs := s.clk.netOfs + s.act.theta, seeded := false } }
  else { s with clk := { s.clk with
    netOfs := (calToNet (s.rtc.units s.clk.now) s.rtc.taiUtc : Int) - s.clk.now, seeded := true } }

/-- The 32 bytes of a CSTART payload, 05 R150. -/
def cstartEnc (x : CStart) : List Byte :=
  le 8 x.cycle ++ le 8 x.startTime ++ le 4 x.tNs ++ le 2 x.rank ++ le 1 x.round ++ le 1 x.slot.num ++ le 8 0

/-- Propose a network: CSTART on every branch and over the pair link. -/
def State.proposeNet (s : State) (c : NetCfg) : State :=
  let s := s.seedTime
  let x : CStart := { cycle := 0, startTime := roundUp (s.netTime + 2 * c.t) 1000, tNs := c.t, rank := rankIn s.net.rank s.slot
                      round := s.net.round, slot := s.slot }
  let frame (b : Nat) : TxFrame :=
    { branch := some b, f := { ftype := 0x02, sched := c.sched, addr := bcast b, length := 32, payload := cstartEnc x } }
  let s : State := { s with net := { s.net with
    start := .contend, listenEnd := none, proposal := some x, tx := (List.range 16).map frame } }
  s.send (.cstart x)

/-- LISTEN_TIMER_EXPIRY. -/
def execListenTimerExpiry (s : State) : Host.Outcome State Fault Refusal :=
  match s.net.cfg, s.net.listenEnd with
  | some c, some e =>
    if s.net.start ≠ .listen then .next s
    else
      let s := s.reach e
      .next (if !s.xferValid && s.pair.other then (s.record 0x0403 (srcOf 4 32) []).listen else s.proposeNet c)
  | _, _ => .next s

/-- PARTNER_CSTART_RX: the rows of 06 R167 for LISTEN and CONTEND; in any other state only the rank is kept. -/
def execPartnerCstartRx (cs : CStart) (s : State) : Host.Outcome State Fault Refusal :=
  if !s.linked then .next s
  else
    let s : State := { s with net := { s.net with partnerRank := some cs.rank } }
    match s.net.start with
    | .listen => .next (s.follow cs.startTime cs.tNs)
    | .contend => .next (s.contend cs.rank cs.startTime cs.tNs)
    | _ => .next s

/-- CSTART_START_TIME: SYNC of cycle 0, the branches open. -/
def execCstartStartTime (s : State) : Host.Outcome State Fault Refusal :=
  match s.net.start, s.net.proposal with
  | .contend, some x =>
    if s.cyc.running then .next s
    else
      let s := s.reachNet x.startTime
      let s : State := { s with cyc := { s.cyc with c0 := x.startTime }, net := { s.net with leader := s.slot } }
      .next ((s.netEstablished s.clk.seeded).openBranches.beginCycle 0)
  | _, _ => .next s

/-- CONTENTION_END: START_TIME + 2 × T. -/
def execContentionEnd (s : State) : Host.Outcome State Fault Refusal :=
  match s.net.start, s.net.proposal with
  | .contend, some x =>
    if !s.cyc.running then .next s
    else
      let s := s.reachNet (x.startTime + 2 * x.tNs)
      .next { s with net := { s.net with start := .lead, proposal := none } }
  | _, _ => .next s

/-- TRANSFER_LOSS_TIMER: a follower without a valid transfer for one basic cycle takes leadership while the partner's line is released;
else it falls silent after 8 basic cycles or 50 ms. The time runs from the last valid transfer, or from FOLLOW where none has come since. -/
def execTransferLossTimer (s : State) : Host.Outcome State Fault Refusal :=
  if s.net.start ≠ .follow then .next s
  else
    let from_ := max (s.net.xferAt.getD 0) s.net.followAt
    if !s.pair.other then
      let s := s.reach (from_ + s.t)
      .next { s with net := { s.net with leadDue := some true } }
    else .next (s.reach (from_ + min (8 * s.t) 50000000)).timeLost

end Sys2Proof.Machine
end

