-- ==== Sys2Proof/Machine/LaneIssue.lean ====
section
/-! DEFINITION. The commands that are accesses of lane code: register writes, dispatch and completion of tasks, tracking commands,
actuation entries. In a compared lane each is a compared item of a copy (03 R59); all of them pass the Windbreak and its gate (01 R15,
15 R419). -/

namespace Sys2Proof.Machine
open Sys2Proof

/-- Privilege of the code that a lane copy runs: the task that it executes, else the runtime (15 R406). -/
def State.lanePriv (s : State) (l : Nat) (c : Side) : BitVec 2 :=
  let x := (s.laneAt l).copy c
  match s.taskCfg x.curTask with
  | some t => if x.idle then 3 else if t.cls = 1 then 1 else 0
  | none => 3

/-- SIZE of an access of 1 to 64 bytes (03 R60). -/
def sizeCode (size : Nat) : BitVec 3 :=
  if size ≤ 1 then 0 else if size ≤ 2 then 1 else if size ≤ 4 then 2 else if size ≤ 8 then 3 else if size ≤ 16 then 4
  else if size ≤ 32 then 5 else 6

/-- The write item of a store of `size` bytes, all enabled. -/
def writeItem (priv : BitVec 2) (addr size : Nat) (v : Word) : Item :=
  let at_ := addr % 64
  { addr := BitVec.ofNat 40 addr, kind := 1, size := sizeCode size, priv := priv
    be := BitVec.ofNat 64 ((2 ^ size - 1) * 2 ^ at_), data := BitVec.ofNat 512 (v.toNat % 2 ^ (8 * size) * 2 ^ (8 * at_)) }

/-- Class of an item's privilege. -/
def privClass (priv : BitVec 2) : Fin 8 := itemClass 0 { addr := 0, kind := 0, priv := priv }

/-- The write transaction of a split copy. -/
def writeTxn (l : Fin 8) (c : Side) (priv : BitVec 2) (addr size : Nat) (v : Word) : Txn :=
  { cls := privClass priv, kind := 1, addr := addr, size := size, data := le size v.toNat, lane := l, copy := c }

/-- A write that a lane copy executes: a compared item, or a split copy's transaction. -/
def State.laneWrite (s : State) (l : Fin 8) (c : Side) (priv : BitVec 2) (addr size : Nat) (v : Word) : State :=
  if !s.copyGoes l.val c then s
  else if (s.laneAt l.val).split then s.txn (Held.of (writeTxn l c priv addr size v))
  else s.emit l.val c (writeItem priv addr size v) .none

/-- A write that the code of a lane executes: on both copies of a compared lane, one after the other; in a split lane on the copy
that runs a task, copy A where both or none do (DESIGN CHOICE, log entry 73). -/
def State.laneWrites (s : State) (l : Fin 8) (addr : Nat) (v : Word) : State :=
  let x := s.laneAt l.val
  if x.split then
    let c : Side := if x.a.idle && !x.b.idle then .b else .a
    s.laneWrite l c (s.lanePriv l.val c) addr 8 v
  else
    let p := s.lanePriv l.val .a
    (s.laneWrite l .a p addr 8 v).laneWrite l .b p addr 8 v

/-- First address of a lane's control slot. -/
def laneSlot (l : Nat) : Nat := 0x100C0000 + 0x10000 * l
/-- First address of a lane's tracking command window, 09 R234. -/
def trkWindow (l : Nat) : Nat := 0x10148000 + 0x100 * l
/-- First address of a lane's actuation push window, 08 R207. -/
def actWindow (l : Nat) : Nat := 0x10168000 + 0x100 * l

/-! ## Register writes -/

/-- REGISTER_WRITE: through BAR0 (the operand is the BAR0 offset), by a copy of a lane, or by the management lane, each of whose copies
emits the item (03 R87). -/
def execRegisterWrite (by_ : RegBy) (addr : Nat) (size : Nat) (v : Word) (s : State) : Host.Outcome State Fault Refusal :=
  let data := le 8 v.toNat
  match by_ with
  | .host =>
    match barAddr addr with
    | some a => .next (s.txn (Held.of { cls := 4, kind := 1, addr := a, size := size, data := data, posted := true }))
    | none => .next (s.violate { cls := 4, kind := 1, addr := addr, size := size, posted := true } 1 0xFF addr false)
  | .lane l c => .next (s.laneWrite l c (if slotOf addr = some (12 + l.val) then 3 else s.lanePriv l.val c) addr size v)
  | .mgt =>
    let it := writeItem 3 addr size v
    .next ((s.emit 8 .a it .none).emit 8 .b it .none)

/-! ## Dispatch and completion, 02 R42, R51 -/

/-- TASK_DISPATCH: the runtime of a copy writes LANE_CUR_TASK with the task that it dispatches. -/
def execTaskDispatch (lane : Fin 8) (copy : Side) (s : State) : Host.Outcome State Fault Refusal :=
  match s.nextTask lane.val copy with
  | some t => .next (s.laneWrite lane copy 3 (laneSlot lane.val + 0x108) 8 (BitVec.ofNat 64 t.num))
  | none => .next s

/-- TASK_DONE: the runtime of a copy writes LANE_TASK_DONE. -/
def execTaskDone (lane : Fin 8) (copy : Side) (v : Word) (s : State) : Host.Outcome State Fault Refusal :=
  .next (s.laneWrite lane copy 3 (laneSlot lane.val + 0x100) 8 v)

/-! ## Tracking commands, 09 R234 to R237 -/

/-- Write of TRK_CMD_GO by a lane's code. -/
def State.trkCmd (s : State) (lane : Fin 8) (op : Nat) : State := s.laneWrites lane (trkWindow lane.val + 0x30) (BitVec.ofNat 64 op)

/-- A command during whose execution a residue check fails, where `residue` says so (09 R235). -/
def State.trkCmdFlt (s : State) (lane : Fin 8) (op : Nat) (residue : Bool) : State :=
  (((s.onTrk fun t => { t with cmdFlt := residue }).trkCmd lane op).onTrk fun t => { t with cmdFlt := false })

/-- CREATE. -/
def execCreate (lane : Fin 8) (residue : Bool) (s : State) : Host.Outcome State Fault Refusal := .next (s.trkCmdFlt lane 1 residue)
/-- DELETE. -/
def execDelete (lane : Fin 8) (s : State) : Host.Outcome State Fault Refusal := .next (s.trkCmd lane 2)
/-- SET_TAG. -/
def execSetTag (lane : Fin 8) (s : State) : Host.Outcome State Fault Refusal := .next (s.trkCmd lane 3)
/-- MOVE. -/
def execMove (lane : Fin 8) (residue : Bool) (s : State) : Host.Outcome State Fault Refusal := .next (s.trkCmdFlt lane 4 residue)
/-- UNFREEZE. -/
def execUnfreeze (lane : Fin 8) (s : State) : Host.Outcome State Fault Refusal := .next (s.trkCmd lane 5)

/-! ## Actuation entries, 08 R207, R210 -/

/-- NET_ACT_PUSH_T: the write that commits the entry. -/
def execNetActPushT (lane : Fin 8) (time : Word) (s : State) : Host.Outcome State Fault Refusal :=
  .next (s.laneWrites lane (actWindow lane.val + 8) time)

/-- ACT_CANCEL: CANCEL is set in NET_ACT_PUSH_A, then the commit follows. -/
def execActCancel (lane : Fin 8) (time : Word) (s : State) : Host.Outcome State Fault Refusal :=
  .next ((s.laneWrites lane (actWindow lane.val) (s.act.pushA[lane] ||| (1 <<< 48))).laneWrites lane (actWindow lane.val + 8) time)

end Sys2Proof.Machine
end

