-- ==== Sys2Proof/Machine/Power.lean ====
section
/-! DEFINITION. Feeds, hold-up, domains, bring-up, services, extraction, watchdog, clock faults, scrubber, random numbers (18, 20 R501 to
R503, 22 R539, R540, 14 R380). -/

namespace Sys2Proof.Machine
open Sys2Proof

/-! ## Watchdog, 18 R474 -/

/-- WATCHDOG_RESTART. -/
def execWatchdogRestart (s : State) : Host.Outcome State Fault Refusal :=
  .next { s with pwr := { s.pwr with wdt := s.clk.now } }

/-- WATCHDOG_EXPIRY: 250 ms without a restart: VANE released, WDT_EXPIRY in the hold buffer, a reset of kind WATCHDOG. -/
def execWatchdogExpiry (s : State) : Host.Outcome State Fault Refusal :=
  if !s.resetOk 3 then .next s
  else
    let s := s.reach (s.pwr.wdt + 250000000)
    let s := if s.pair.drive then s.releaseVane else s
    let s := s.faultMessage 3
    let s : State := { s with recd := { s.recd with served := false } }
    .next ((s.record 0x0F06 (srcOf 14 0) []).takeReset 3)

/-! ## Feeds, 18 R462 to R464, 11 R308, R309 -/

/-- A feed by its side. -/
def Pwr.feed (p : Pwr) : Side → Feed
  | .a => p.fa
  | .b => p.fb

/-- Update a feed. -/
def State.onFeed (s : State) (k : Side) (f : Feed → Feed) : State :=
  match k with
  | .a => { s with pwr := { s.pwr with fa := f s.pwr.fa } }
  | .b => { s with pwr := { s.pwr with fb := f s.pwr.fb } }

/-- At least one feed is VALID. -/
def Pwr.fed (p : Pwr) : Bool := p.fa.valid || p.fb.valid

/-- Network time at which a primary that has lost both feeds releases its line: the end of the downstream traffic under way, or of the
traffic behind the next cut-off when that ends within 1 ms; else now (11 R309). -/
def State.releaseTime (s : State) : Nat :=
  match s.net.cfg with
  | none => s.netTime
  | some c =>
    if !s.cyc.running then s.netTime
    else
      let fin := s.cycleStart + c.downEnd
      let next := if s.cyc.downBusy then fin + c.t else fin
      if s.cyc.downBusy && s.netTime < fin then fin
      else if next ≤ s.netTime + 1000000 then max next s.netTime
      else s.netTime

/-- The second feed is declared LOST: the hold-up sequence begins (18 R466). -/
def State.holdupStart (s : State) : State :=
  let s : State := { s with pwr := { s.pwr with holdup := 1, td := s.clk.now }, cyc := { s.cyc with noRel := true } }
  let s := (s.faultMessage 2).record 0x0F00 (srcOf 14 0) [s.pwr.fa.mv, s.pwr.fb.mv]
  if s.primary then { s with pair := { s.pair with releaseAt := some s.releaseTime } }
  else if s.pair.role = .standby then s.setRole .out
  else s

/-- A VALID feed is declared LOST with a fault code: FEED_LOST, and the supply-fault error task (18 R462, R463). -/
def State.feedLost (s : State) (k : Side) (code : Nat) : State :=
  if !(s.pwr.feed k).valid then s
  else
    let s := s.onFeed k fun f => { f with valid := false }
    let s := (s.recordFor 0x090E (srcOf 14 0) k.num (items [k.num, code]) 0 false).errRelease 3 k.num code
    if !s.pwr.fed && s.pwr.holdup = 0 && s.pwr.st ≠ .off then s.holdupStart else s

/-- FEED_LOSS: below 16.0 V for 30 µs. -/
def execFeedLoss (feed : Side) (mv : Nat) (s : State) : Host.Outcome State Fault Refusal :=
  .next ((s.onFeed feed fun f => { f with mv := mv }).feedLost feed 1)

/-- FEED_OVERVOLTAGE: above 33.0 V for 10 µs. -/
def execFeedOvervoltage (feed : Side) (mv : Nat) (s : State) : Host.Outcome State Fault Refusal :=
  .next ((s.onFeed feed fun f => { f with mv := mv }).feedLost feed 3)

/-- FEED_PATH: the path fault stands until the next reset; a VALID feed is lost with it. -/
def execFeedPath (feed : Side) (cause : Nat) (s : State) : Host.Outcome State Fault Refusal :=
  if (s.pwr.feed feed).pathFault then .next s
  else
    let s := s.onFeed feed fun f => { f with pathFault := true }
    let s := s.recordFor 0x0F02 (srcOf 14 0) feed.num (items [feed.num, cause]) 0 false
    .next (s.feedLost feed 2)

/-- FEED_RETURNED: in range for 10 ms with no path fault. AON comes up from Off with a POWER_ON reset; after the hold-up sequence the
reset is of kind FEED (18 R468, R472). -/
def execFeedReturned (feed : Side) (mv : Nat) (s : State) : Host.Outcome State Fault Refusal :=
  let f := s.pwr.feed feed
  if f.valid || f.pathFault then .next s
  else
    let s := s.onFeed feed fun f => { f with valid := true, mv := mv }
    let s := if s.pwr.st = .off then s.takeReset 1 else if s.pwr.holdup = 6 then s.takeReset 2 else s
    .next (s.recordFor 0x0F03 (srcOf 14 0) feed.num (items [feed.num]) 0 false)

/-! ## Hold-up, 18 R466 to R468 -/

/-- HOLDUP_VANE_RELEASE: steps 2 and 3; a standby takes them without the release. -/
def execHoldupVaneRelease (s : State) : Host.Outcome State Fault Refusal :=
  if s.pwr.holdup ≠ 1 then .next s
  else
    let s := match s.pair.releaseAt with
      | some t => s.reachNet t
      | none => s
    let s := if s.pair.drive then s.releaseVane else s
    let s := if s.primary then s.setRole .out else s
    let s := s.reach (s.clk.now + 10000)
    let s := (s.haltLanes.hifOff).domainsOff (domMask [4, 5, 9, 11])
    .next { s with pwr := { s.pwr with holdup := 3 } }

/-- HOLDUP_COMMIT: step 4. -/
def execHoldupCommit (s : State) : Host.Outcome State Fault Refusal :=
  if s.pwr.holdup ≠ 3 then .next s
  else
    let s := s.flashCommit
    .next { s with pwr := { s.pwr with holdup := 4 } }

/-- HOLDUP_DOMAINS_OFF: step 5. -/
def execHoldupDomainsOff (s : State) : Host.Outcome State Fault Refusal :=
  if s.pwr.holdup ≠ 4 then .next s
  else
    let s := (s.reach (s.pwr.td + 8000000)).silence.memoryOff.domainsOff (domMask [2, 3, 6, 7, 8, 10])
    .next { s with net := { s.net with start := .silent, listenEnd := none }
                   pwr := { s.pwr with holdup := 5, lullService := false, full := false, ready := false } }

/-- HOLDUP_END: a feed that is VALID brings a reset of kind FEED; else AON waits on the store, whose charge then is not stated (log
entry 3). -/
def execHoldupEnd (s : State) : Host.Outcome State Fault Refusal :=
  if s.pwr.holdup ≠ 5 then .next s
  else
    let (k, s) := (s.reach (s.pwr.td + 10000000)).drawNat
    let s : State := { s with pwr := { s.pwr with holdup := 6, store := k % 101 } }
    .next (if s.pwr.fed then s.takeReset 2 else s)

/-- AON_POWER_LOSS: VANE is released at once; Off. -/
def execAonPowerLoss (s : State) : Host.Outcome State Fault Refusal :=
  let s := (if s.pair.drive then s.releaseVane else s).haltLanes
  let s := s.silence.memoryOff.hifOff
  .next { s with
    pair := { s.pair with role := .bringUp }
    net := { s.net with start := .none_, listenEnd := none }
    recd := { s.recd with hold := [], holdLost := 0 }
    pwr := { s.pwr with
      fa := {}, fb := {}, store := 0, st := .off, on := domBit 0, good := domBit 0, stage := 1, holdup := 0, waitGood := true
      lullService := false, full := false, ready := false } }

/-! ## Bring-up, 18 R469, R471, R481 to R485, 17 R458, R460 -/

/-- The domains of each step of R469. -/
def stepDomains : Nat → BitVec 12
  | 1 => domMask [0, 1]
  | 2 => domMask [2, 3, 6]
  | 3 => domMask [10, 11]
  | 4 => domMask [4, 5]
  | 5 => domMask [7, 8, 9]
  | _ => 0

/-- The next step begins when every domain of the present one is good; step 2 waits for power-good. -/
def State.nextStage (s : State) : State :=
  let d := stepDomains s.pwr.stage
  if s.pwr.failed || s.pwr.stage = 0 || 6 ≤ s.pwr.stage || (s.pwr.good &&& d) ≠ d || (s.pwr.stage = 1 && s.pwr.waitGood) then s
  else { s with pwr := { s.pwr with stage := s.pwr.stage + 1, on := s.pwr.on ||| stepDomains (s.pwr.stage + 1) } }

/-- BKP at a start: a retention doubt or a failed copy puts it at its defaults, with TIME_INVALID (17 R458). -/
def State.bkpStart (s : State) (ok : Bool) : State :=
  if ok && !s.rtc.doubt then s
  else
    let r : Rtc := { calAt := s.clk.now, stampSet := true, stampLost := true, switched := s.rtc.switched, crystal := s.rtc.crystal }
    ({ s with rtc := r } : State).record 0x0E00 (srcOf 13 0) [1]

/-- The power-on reset is released: power-good and PRESENT_n settled (18 R485). -/
def State.releaseReset (s : State) : State :=
  if s.pwr.waitGood && s.pwr.present && s.pwr.fed && s.pwr.store = 100 then
    ({ s with pwr := { s.pwr with waitGood := false, good := s.pwr.good ||| domMask [0, 1], on := s.pwr.on ||| domMask [0, 1], hiZ := false } } :
      State).nextStage
  else s

/-- POWER_GOOD: a feed is VALID and the store is charged. The slot is sampled once at a power-on reset (01 R14). -/
def execPowerGood (slotHigh bkpOk : Bool) (s : State) : Host.Outcome State Fault Refusal :=
  if !s.pwr.fed || !s.pwr.waitGood then .next s
  else
    let s : State := if s.pwr.kind = 1 && !s.pwr.sampled then
      { s with slot := if slotHigh then .b else .a, pwr := { s.pwr with sampled := true } } else s
    let s := s.bkpStart bkpOk
    .next ({ s with pwr := { s.pwr with store := 100 } } : State).releaseReset

/-- PRESENT_SETTLED: PRESENT_n asserted for 100 ms. -/
def execPresentSettled (s : State) : Host.Outcome State Fault Refusal :=
  .next ({ s with pwr := { s.pwr with present := true } } : State).releaseReset

/-- DOMAIN_SUPPLY_GOOD. -/
def execDomainSupplyGood (d : Fin 12) (s : State) : Host.Outcome State Fault Refusal :=
  if s.pwr.failed || !s.pwr.on.getLsbD d.val then .next s
  else .next ({ s with pwr := { s.pwr with good := s.pwr.good ||| domBit d.val } } : State).nextStage

/-- DOMAIN_GOOD_TIMEOUT: bring-up stops with DOMAIN_FAIL until the next reset. -/
def execDomainGoodTimeout (d : Fin 12) (s : State) : Host.Outcome State Fault Refusal :=
  if s.pwr.failed || 6 ≤ s.pwr.stage || !s.pwr.on.getLsbD d.val || s.pwr.good.getLsbD d.val then .next s
  else
    let s : State := { s with pwr := { s.pwr with failed := true } }
    .next ((if s.pair.drive then s.releaseVane else s).recordFor 0x0F05 (srcOf 14 0) d.val (items [d.val]) 0 false)

/-- DRAM_WIPE_DONE. -/
def execDramWipeDone (s : State) : Host.Outcome State Fault Refusal :=
  if !s.pwr.on.getLsbD 8 then .next s
  else .next ({ s with pwr := { s.pwr with dramOk := true } } : State).serveRing

/-- The seals of a warm restart; content whose seal fails is wiped, with RETAIN_LOST (18 R477). -/
def State.checkSeals (s : State) (regions ring : Bool) : State :=
  if s.pwr.kind ≠ 8 then s
  else
    let s := if regions then s else ({ s with mem := [] } : State).record 0x0F07 (srcOf 14 0) [0]
    if ring then s else ({ s with recd := { s.recd with ring := [] } } : State).record 0x0F07 (srcOf 14 0) [1]

/-- The configuration of Lull service, 18 R482. -/
def lullCfg (c : NetCfg) : NetCfg := if c.t ≤ 10000000 then { c with t := 10000000, a := 1000000 } else c

/-- The network at Lull service: the start trigger under the Lull configuration, or under the stored one where the partner runs the
network. -/
def State.lullNetwork (s : State) : State :=
  match s.net.stored with
  | none => s
  | some c =>
    let follows := s.pair.other
    let s : State := { s with cyc := { s.cyc with lullCycle := !follows } }
    s.startTrigger (if follows then c else lullCfg c)

/-- The records of a start. -/
def State.startRecords (s : State) : State :=
  let s := s.record 0x0F08 (srcOf 14 0) [s.pwr.kind]
  let s := if s.keys.lifeNew then ({ s with keys := { s.keys with lifeNew := false } } : State).record 0x0C00 (srcOf 11 0) [s.keys.life] else s
  if s.rtc.switched then
    ({ s with rtc := { s.rtc with switched := false } } : State).record 0x0E05 (srcOf 13 0) [s.rtc.stampSec]
  else s

/-! ## Settings at a start, 12 R332 to R334, 14 R383 -/

/-- The settings follow what a block holds. -/
def State.putSetting (s : State) (v : SetVal) : State :=
  match v with
  | .net c => { s with net := { s.net with stored := c, rank := (c.map (·.rank)).getD 0 }
                       lio := { s.lio with ch := Vector.ofFn fun i : Fin 16 =>
                         { s.lio.ch[i] with cfg := ((c.map (·.lio)).getD []).getD i.val {} } } }
  | .pair h a => { s with pair := { s.pair with stored := (h, a), hotReg := h, autostart := a } }
  | .gust l => { s with recd := { s.recd with gust := l } }
  | .margin m t => { s with mgn := { s.mgn with mhz := m, tMin := t } }
  | .eth l => { s with host := { s.host with
      ethStored := l, eth := Vector.ofFn fun i : Fin 2 => (s.host.eth[i]).restart (l[i.val]?) } }

/-- What a block that has never been written gives. -/
def unwritten (id : Nat) : SetVal :=
  match id with
  | 1 => .net none
  | 2 => .pair false false
  | 3 => .gust []
  | 4 => .margin (Vector.replicate 8 1600) 125000
  | _ => .eth []

/-- The FORMAT of the generation before the running firmware: that of the other slot's firmware where it is of that generation. -/
def State.fmtBefore (s : State) : Nat :=
  match (s.chg.fw.toList.filterMap (·.hdr)).find? fun h => h.gen + 1 = s.fwGen with
  | some h => h.settingsFmt
  | none => Config.fmtBefore s.fwGen

/-- A block is read at a start: the copy with a valid CRC and the higher SERIAL; when every copy fails the block is lost, with SETTINGS_LOST;
copies of a FORMAT that the firmware does not read leave it as never written (12 R332, R333). -/
def State.readBlock (s : State) (id : Nat) : State :=
  let held := s.chg.area.filter (·.id = id)
  let own := held.filter (·.fmt = s.fwFmt)
  match newest own with
  | some x => s.putSetting x.val
  | none =>
    if !own.isEmpty then ((s.eraseBlocks fun x => x.id = id).putSetting (unwritten id)).record 0x0A05 (srcOf 9 0) [id]
    else if !held.isEmpty then s.putSetting (unwritten id)
    else s

/-- The settings at a start: a newer FORMAT, which a trial has left, is erased; blocks of the FORMAT of the generation before are converted
into a new area where there is none, with SETTINGS_MIGRATED; then each block is read (12 R332 to R334). -/
def State.readSettings (s : State) (bad : List (Nat × Nat × Nat)) : State :=
  let own := s.fwFmt
  let area := s.chg.area.map fun x => if bad.contains (x.id, x.fmt, x.serial) then { x with crcErr := x.crcErr ||| 1 } else x
  let s := ({ s with chg := { s.chg with area := area } } : State).eraseBlocks fun x => own < x.fmt
  let older := s.chg.area.filter fun x => x.fmt = s.fmtBefore && x.fmt ≠ own
  let s := if older.isEmpty || s.chg.area.any (·.fmt = own) then s
    else
      let one (l : List SetHead) (id : Nat) : List SetHead :=
        let of_ := older.filter (·.id = id)
        match newest of_ with
        | some x => saveCopy id own x.val l
        | none => l ++ of_.map fun x => { x with fmt := own }
      let area := [1, 2, 3, 4, 5].foldl one s.chg.area
      ({ s with chg := { s.chg with area := area } } : State).record 0x0A06 (srcOf 9 0) []
  [1, 2, 3, 4, 5].foldl State.readBlock s

/-- The key list at a start: the newer copy whose seal verifies; where both fail no enrolled key, with KEYLIST_LOST (14 R383). -/
def State.readKeys (s : State) (newer older : Bool) : State :=
  if newer || s.keys.life ≠ 2 then s
  else match if older then s.keys.prev else none with
  | some l => { s with keys := { s.keys with owner := l.owner, integ := l.integ, grant := l.grant, prev := none } }
  | none => ({ s with keys := { s.keys with
      owner := none, integ := Vector.replicate 8 none, grant := Vector.replicate 8 none, prev := none, listLost := true } } : State).record 0x0C05
    (srcOf 11 0) []

/-- LULL_SERVICE_REACHED: bring-up reaches Lull service, the role is taken, the network is started or followed. -/
def execLullServiceReached (f : StartFind) (s : State) : Host.Outcome State Fault Refusal :=
  if s.pwr.lullService || s.pwr.failed || s.pwr.waitGood || s.pwr.stage < 5 || s.pwr.st = .hold || s.pwr.st = .off || s.pwr.holdup ≠ 0 then
    .next s
  else
    let s := if s.wb.armed then s else s.loadTable none
    let s := ((s.checkSeals f.sealRegions f.sealRing).readKeys f.keyList f.keyOlder).readSettings f.bad
    let s : State := { s with
      pwr := { s.pwr with lullService := true, st := .lull, starting := false }
      pair := { s.pair with lullAt := s.clk.now }
      chg := { s.chg with failsWas := s.chg.fails, fails := 0 }
      keys := { s.keys with lullCount := satAdd 32 s.keys.lullCount 1 }
      lanes := { s.lanes with lockout := s.lanes.lockout || 3 ≤ s.faultsIn24h } }
    let s := s.onLane 8 fun l => { l with halted := false, parked := false }
    let s := s.serveRing.startRecords.event 0x0006 (List.replicate 12 0)
    .next (if s.chg.handover = 6 then s.handoverStep 7 else s).takeRole.lullNetwork

/-- The ACTIVE application image is loaded. A module that joins keeps the memory that the base copy brings. -/
def State.loadActive (s : State) : State :=
  match (s.chg.app.toList.find? (·.st = .active)).bind (·.img), s.chg.running with
  | some i, none =>
    if s.primary then s.install i
    else { (s.laneModes i.body).loadTable (some i) with chg := { s.chg with running := some i } }
  | _, _ => s

/-- The verdicts that a sound comparator gives in the self-test of 03 R79, as rails (V1, V0): an equal pair; a pair that differs in each
of the four fields; both non-codewords; V1 held at 0 and at 1, V0 held at 0 and at 1 (in this order: DESIGN CHOICE, log entry 76). -/
def soundVerdicts : List (Bool × Bool) :=
  [(true, false), (false, true), (false, true), (false, true), (false, true), (false, false), (true, true), (false, false), (true, true),
   (false, false), (true, true)]

/-- The self-test has failed: a trial start has failed, though it has reached Lull service (12 R327), and a module that is not PRIMARY does not
join the pair (03 R79). -/
def State.selfTestFails (s : State) : State :=
  let s := ({ s with pwr := { s.pwr with selfFail := true }, chg := { s.chg with fails := s.chg.failsWas } } : State).startFails
  let s := if 6 ≤ s.chg.handover then s.handoverFail else s
  if s.primary then s else (s.rejoinEnd stFailed dNone).setRole .out

/-- FULL_SERVICE_READY: the self-test has ended with the verdicts of the nine comparators; a primary starts the stored configuration, and
its tasks with AUTOSTART. -/
def execFullServiceReady (verdicts : List (List (Bool × Bool))) (s : State) : Host.Outcome State Fault Refusal :=
  if !s.pwr.lullService || s.pwr.ready || !s.pwr.dramOk || s.pair.role = .bringUp then .next s
  else if verdicts ≠ List.replicate 9 soundVerdicts then .next s.selfTestFails
  else
    let s := ({ s with pwr := { s.pwr with ready := true } } : State).loadActive
    if !s.primary then .next s
    else
      let s := match s.net.stored with
        | some c =>
          let s : State := { s with cyc := { s.cyc with lullCycle := false }, net := { s.net with next := none } }
          (s.startTrigger c).send .netStart
        | none => s
      .next (if s.pair.autostart && !s.calm.on && s.chg.running.isSome then s.appStart else s)

/-! ## Supply and clock faults while running, 18 R470, 20 R503 -/

/-- A supply fault of EXA or EXB, or a stopped clock, stops the copies in the domain: what their cores would emit next is found missing
by the comparator (01 R23). -/
def State.stopCopies (s : State) (c : Side) : State :=
  (List.range 8).foldl (fun s l => s.onLane l fun x => x.onCopy c fun y => { y with dead := true }) s

/-- The star has stopped, or a release row of 11 R280 applies. -/
def State.leaveDuty (s : State) (leave : Nat) : State :=
  if s.pair.role = .primary || s.pair.role = .standby then s.leavePair leave
  else if s.pair.drive then s.releaseVane else s

/-- DOMAIN_FAULT. -/
def execDomainFault (d : Fin 12) (s : State) : Host.Outcome State Fault Refusal :=
  if !s.pwr.lullService || !s.pwr.on.getLsbD d.val then .next s
  else
    let s : State := { s with pwr := { s.pwr with good := s.pwr.good &&& ~~~domBit d.val, faulted := s.pwr.faulted ||| domBit d.val } }
    let s := s.recordFor 0x0F04 (srcOf 14 0) d.val (items [d.val]) 0 false
    .next (match d.val with
      | 0 => s
      | 1 => if s.pair.drive then s.releaseVane else s
      | 4 => s.stopCopies .a
      | 5 => s.stopCopies .b
      | 10 => (s.leaveDuty 6).silence
      | 11 => s.hifOff
      | _ => s.reactFault (d.val = 2) 3)

/-- The clock that a fault names is out of its limits: stopped, out of lock, or off frequency by more than 500 ppm (01 R19). -/
def clockBad : ClockSrc → Bool
  | .reference _ stopped ppm => stopped || 500 < ppm
  | .pll _ => true
  | .aon ppm => 500 < ppm

/-- The items of CLOCK_FAULT (20 R511): 1 and 2 the references, 3 the oscillator of AON, 16 + island (19 R490) for a PLL; the deviation in
ppm. A PLL out of lock shows the deviation 0 (DESIGN CHOICE, log entry 12). -/
def clockItems : ClockSrc → List Nat
  | .reference r _ ppm => [1 + r.val, ppm]
  | .pll i => [16 + i.val, 0]
  | .aon ppm => [3, ppm]

/-- What stops with an island's clock: a lane's copy, the star, HIF; FAB, MEMC, TRK and KEY answer and work no more (`State.clockHeld`,
`State.trackCommit`, `State.keyStopped`). -/
def State.islandStops (s : State) (i : Nat) : State :=
  if i < 8 then s.onLane i fun x => { x with a := { x.a with dead := true } }
  else if i < 16 then s.onLane (i - 8) fun x => { x with b := { x.b with dead := true } }
  else if i = 19 then s.silence
  else if i = 20 then s.hifOff
  else s

/-- What stops with a clock: the islands of a stopped reference, the island of a PLL out of lock (01 R19, 20 R503). -/
def State.clockStops (s : State) : ClockSrc → State
  | .reference r stopped _ =>
    let s : State := { s with pwr := { s.pwr with refBad := s.pwr.refBad ||| (1#2 <<< r.val) } }
    if !stopped then s
    else
      let s : State := { s with pwr := { s.pwr with refStop := s.pwr.refStop ||| (1#2 <<< r.val) } }
      ((List.range 24).filter fun i => refOf i = some r.val).foldl State.islandStops s
  | .pll i => ({ s with pwr := { s.pwr with pllBad := s.pwr.pllBad ||| (1#24 <<< i.val) } } : State).islandStops i.val
  | .aon _ => s

/-- The management lane loses a copy: its PLL, or a stopped reference (01 R19, 03 R87). -/
def clockMgt : ClockSrc → Bool
  | .reference _ stopped _ => stopped
  | .pll i => i.val = 21 || i.val = 22
  | .aon _ => false

/-- CLOCK_FAULT: a clock out of its limits: the record, and the reaction of R470, which does not count. -/
def execClockFault (src : ClockSrc) (s : State) : Host.Outcome State Fault Refusal :=
  .next (if clockBad src then ((s.record 0x0011 (srcOf 0 0) (clockItems src)).reactFault (clockMgt src) 3).clockStops src else s)

/-! ## Extraction, 18 R485 to R487, 22 R540 -/

/-- PRESENT_LOST: PRESENT_n high for 50 µs, whatever the role. The hold-up sequence goes before it. -/
def execPresentLost (s : State) : Host.Outcome State Fault Refusal :=
  let s : State := { s with pwr := { s.pwr with present := false } }
  if s.pwr.holdup ≠ 0 || s.pwr.st = .hold || s.pwr.st = .off then .next s
  else
    let s := if s.pair.drive then s.releaseVane else s
    let s := s.enterHold
    .next { s with pwr := { s.pwr with hiZ := true } }

/-- SWAP_PRESS: a press of at least 1 s requests extraction; none counts before Lull service or in Hold (22 R546). -/
def execSwapPress (ms : Nat) (s : State) : Host.Outcome State Fault Refusal :=
  if !s.pwr.lullService || s.pwr.st = .hold || s.pwr.st = .off || s.pwr.holdup ≠ 0 then .next s
  else
    let s : State := { s with keys := { s.keys with swapAt := some s.clk.now } }
    if ms < 1000 || s.pwr.extract then .next s
    else if !s.primary then .next (if s.pair.drive then s.releaseVane else s).enterHold
    else if s.switchable then
      if s.pair.switch_.isSome then .next s
      else .next { s with
        pwr := { s.pwr with extract := true, ledSwap := 1 }
        pair := { s.pair with switch_ := some { swap := true } } }
    else if ms < 5000 then .next s
    else .next s.releaseVane.enterHold

/-! ## Scrubber and random numbers, 20 R502, 14 R380 -/

/-- A SCRUB under way counts what the patrol finds. -/
def State.scrubCounts (s : State) (bad : Bool) : State :=
  let f (r : Run) : Run := match r.work with
    | .scrub c u => { r with work := .scrub (if bad then c else c + 1) (if bad then u + 1 else u) }
    | _ => r
  { s with host := { s.host with runs := s.host.runs.map f } }

/-- SCRUB_PATROL: a corrected error is counted; an uncorrectable one is poisoned. -/
def execScrubPatrol (addr : Nat) (uncorrectable : Bool) (s : State) : Host.Outcome State Fault Refusal :=
  let s := s.scrubCounts uncorrectable
  if uncorrectable then .next (s.memFault addr 0xFF)
  else .next { s with mgn := { s.mgn with corrected := s.mgn.corrected + 1, memCorr := satAdd 64 s.mgn.memCorr 1 } }

/-- A health test fails. -/
def State.rngFails (s : State) : State :=
  ({ s with keys := { s.keys with rngFail := true } } : State).record 0x0C04 (srcOf 11 0) []

/-- RNG_FAIL. -/
def execRngFail (s : State) : Host.Outcome State Fault Refusal := .next s.rngFails

/-- RNG_RETEST: the tests are retried every 1 s. -/
def execRngRetest (ok : Bool) (s : State) : Host.Outcome State Fault Refusal :=
  .next (if ok then { s with keys := { s.keys with rngFail := false } } else s.rngFails)

/-! ## PHY links, 05 R120, 22 R543 -/

/-- PHY_LINK_CHANGE: the PHY of a branch port, or of a station's port, reports link up or down. -/
def execPhyLinkChange (port : PhyPort) (up : Bool) (s : State) : Host.Outcome State Fault Refusal :=
  match port with
  | .branch b => .next (s.onBr b.val fun x => { x with link := up })
  | .station code ch upstream =>
    let f (c : StnCh) : StnCh := if upstream then { c with linkUp := up } else { c with linkDown := up }
    .next (s.onStn code fun x => match ch with
      | .a => { x with a := f x.a }
      | .b => { x with b := f x.b })

end Sys2Proof.Machine
end

