-- ==== Sys2Proof/Machine/Session.lean ====
section
/-! DEFINITION. NOP and the session commands: 13 R362, 14 R386 to R389. -/

namespace Sys2Proof.Machine
open Sys2Proof

/-- NOP, 13 R362. -/
def execNop (c : Cmd) (s : State) : Host.Outcome State Fault Refusal :=
  .next (s.hostCmd 0x0001 c 0 (c.inlZero 0) fun s => s.final 0x0001 c stOk dNone)

/-- The key that a party's slot names, with BOOT_LIMIT for Service (14 R386): none where the slot is empty. -/
def State.keyAt (s : State) (party slot : Nat) : Option (Key × Nat) :=
  match party with
  | 1 => if slot < 2 then (s.keys.vendor[slot]?).map (·, 0) else none
  | 2 => if slot = 0 then s.keys.owner.map (·, 0) else none
  | 3 => (s.keys.integ.toList[slot]?).bind fun k => k.map (·, 0)
  | 4 => (s.keys.grant.toList[slot]?).bind fun g => g.map fun g => (g.key, g.limit)
  | _ => none

/-- SEQ at which a cursor on a store begins: the oldest record held, else the next one (16 R437). -/
def oldestSeq (l : List Rec) (next : Nat) : Nat :=
  match l with
  | r :: _ => r.seq
  | [] => next

/-- The response of SESSION_OPEN, 14 R386. -/
def openResponse (s : State) (req : Nat) (eph : Key) : List Byte :=
  let b := keyBytes (Config.x25519Base eph) ++ le 8 s.keys.serial ++ le 4 s.keys.boot ++ le 2 req ++ le 2 0 ++
    keyBytes s.identityKey ++ keyBytes s.unitKey ++ le 64 (s.keys.cert.getD Config.certSig).toNat
  b ++ le 64 (s.sign b).toNat

/-- SESSION_OPEN after the common checks, 14 R386. -/
def openOwn (c : Cmd) (s : State) : State :=
  let party := c.inf 0 1
  let slot := c.inf 1 1
  let req := c.inf 2 2
  if c.length ≠ 240 then s.final 0x0010 c stInvalid dBuffer
  else match s.keyAt party slot with
    | none => s.final 0x0010 c stInvalid dContent
    | some k =>
      if req = 0 || (s.sessOf req).isSome then s.final 0x0010 c stInvalid dContent
      else if 32 ≤ s.host.sess.length then s.final 0x0010 c stBusy dNone
      else if s.keys.rngFail then s.final 0x0010 c stFailed dState
      else
        let (e, s) := s.draw
        let eph := first32 e
        let x : Sess := { num := req, party := party, slot := slot, src := c.src, openedAt := s.clk.now,
                          bootLimit := k.2, key := some k.1, eph := eph, curRing := oldestSeq s.recd.ring s.recd.seq,
                          curArch := oldestSeq s.recd.archive s.recd.seq }
        ({ s with host := { s.host with sess := s.host.sess ++ [x] } } : State).finalData 0x0010 c stOk
          (BitVec.ofNat 64 req) 0 (openResponse s req eph)

/-- SESSION_OPEN. -/
def execSessionOpen (c : Cmd) (s : State) : Host.Outcome State Fault Refusal :=
  .next (s.hostCmd 0x0010 c 2 (c.inlZero 4) (openOwn c))

/-- SESSION_PROVE after the common checks, 14 R387, R388, 13 R339. `sigOk`: SIG verifies over `proveMsg` under the key named at
SESSION_OPEN; `shared` is the X25519 result. -/
def proveOwn (c : Cmd) (sigOk : Bool) (shared : Key) (s : State) : State :=
  match s.sessOf c.session.toNat with
  | none => s.final 0x0011 c stBadSession dNone
  | some x =>
    let hostEph : Key := BitVec.ofNat 256 (c.buf.field 0 32)
    let vendorOk := x.party ≠ 1 || x.key = some (BitVec.ofNat 256 (c.buf.field 96 32))
    if c.length ≠ (if x.party = 1 then 128 else 96) then s.final 0x0011 c stInvalid dBuffer
    else if !sigOk || shared = 0 || !vendorOk || (x.party = 4 && x.bootLimit < s.keys.boot) ||
        (onQueue0 c && x.party ≠ 2 && x.party ≠ 4) then
      (s.dropSess x.num).final 0x0011 c stDenied dNone
    else
      let ck := commandKey shared (Config.x25519Base x.eph) hostEph s.keys.serial x.num
      (s.onSess x.num fun x => { x with proven := true, eph := 0, ck := ck }).final 0x0011 c stOk dNone
        (BitVec.ofNat 64 (x.party + 256 * x.slot)) (BitVec.ofNat 64 (if x.party = 4 then x.bootLimit else 0))

/-- SESSION_PROVE. -/
def execSessionProve (c : Cmd) (sigOk : Bool) (shared : Key) (s : State) : Host.Outcome State Fault Refusal :=
  .next (s.hostCmd 0x0011 c 1 (c.inlZero 0) (proveOwn c sigOk shared))

/-- SESSION_CLOSE, 14 R389. -/
def execSessionClose (c : Cmd) (s : State) : Host.Outcome State Fault Refusal :=
  .next (s.hostCmd 0x0012 c 0 (c.inlZero 0) fun s => (s.dropSess c.session.toNat).final 0x0012 c stOk dNone)

/-- SESSION_TIMEOUT: a session still OPENED 10 s after SESSION_OPEN is closed (14 R389). -/
def execSessionTimeout (sess : BitVec 16) (s : State) : Host.Outcome State Fault Refusal :=
  match s.sessOf sess.toNat with
  | some x => .next (if !x.proven then (s.reach (x.openedAt + 10000000000)).closeSess x.num 3 else s)
  | none => .next s

end Sys2Proof.Machine
end

