-- ==== Sys2Proof/Machine/Stations.lean ====
section
/-! DEFINITION. The stations themselves (00 R4 binds compatible stations): time and integration, frames taken, objects, outputs, timed
entries, watchdog, pass-through guardian and the frames they send (05 R137 to R157, 06 R171 to R185, 07 R187 to R198, 08 R211 to R218). -/

namespace Sys2Proof.Machine
open Sys2Proof

/-! ## A station and its attachments -/

/-- A station of the network; one that no command has named yet stands as from power-up. -/
def State.station (s : State) (code : Nat) : Stn := (s.stnOf code).getD { code := code }

/-- Store a station. -/
def State.setStn (s : State) (x : Stn) : State := s.onStn x.code fun _ => x

/-- An attachment. -/
def Stn.ch (x : Stn) : Side → StnCh
  | .a => x.a
  | .b => x.b

/-- Update an attachment. -/
def Stn.onCh (x : Stn) (ch : Side) (f : StnCh → StnCh) : Stn :=
  match ch with
  | .a => { x with a := f x.a }
  | .b => { x with b := f x.b }

/-- Update both attachments. -/
def Stn.onBoth (x : Stn) (f : StnCh → StnCh) : Stn := { x with a := f x.a, b := f x.b }

/-- The attachment holds both path delays of its channel. -/
def StnCh.held (c : StnCh) : Bool := c.pdDown.isSome && c.pdUp.isSome

/-- IDENTITY as the station's maker fixes it, 07 R187; what the manual leaves to the maker is free (log entry 3). -/
def stnIdent (code : Nat) : List Byte :=
  let b := le 40 (Config.stnIdentity code).toNat
  let serial := field b 8 8
  slice b 0 8 ++ le 8 (if serial = 0 then 1 else serial) ++ le 2 code ++ le 2 (field b 18 2 % 8) ++ slice b 20 12 ++
    le 1 (field b 32 1 % 9) ++ le 3 0 ++ le 2 256 ++ le 2 0

/-- IDENTITY of a station. -/
def Stn.ident (x : Stn) : List Byte := (alook 0x8000 x.objs).getD (stnIdent x.code)

/-- DO_COUNT and AO_COUNT. -/
def Stn.doN (x : Stn) : Nat := field x.ident 24 4
def Stn.aoN (x : Stn) : Nat := field x.ident 30 2

/-- The output points of a station. -/
def Stn.outPoints (x : Stn) : List Point :=
  ((List.range x.doN).map fun i => mkPoint x.code 1 i) ++ (List.range x.aoN).map fun i => mkPoint x.code 3 i

/-- HELD, ACT_N, CHG_N and the values of a point, 08 R218. -/
def Stn.pt (x : Stn) (p : Point) : PtOut := (x.pts.find? (·.point = p)).getD { point := p }

/-- Update a point. -/
def Stn.onPt (x : Stn) (p : Point) (f : PtOut → PtOut) : Stn :=
  { x with pts := (x.pts.filter (·.point ≠ p)) ++ [f (x.pt p)] }

/-- The basic cycle, the arbitrating window, the matrix cycle and the profile's payload limit that the station's SYNC gives. -/
def Stn.t (x : Stn) : Nat := (x.cur.map (·.tNs)).getD 0
def Stn.arb (x : Stn) : Nat := (x.cur.map (·.arbNs)).getD 0
def Stn.l (x : Stn) : Nat := 2 ^ (x.cur.map (·.matrixExp)).getD 0
def Stn.maxLen (x : Stn) : Nat := if (x.cur.map (·.profile)).getD 0 = 1 then 256 else 1024

/-- C(N) on the station's schedule. -/
def Stn.cycleStart (x : Stn) : Nat :=
  match x.cur with
  | some p => p.startTime + (x.n - p.cycle) * p.tNs
  | none => 0

/-- The entries of a WINDOWS object, 05 R135. -/
def parseWins (b : List Byte) : List WinEnt :=
  (List.range (b.length / 16)).map fun i =>
    let o := 16 * i
    { start := field b o 4, len := field b (o + 4) 2, ty := field b (o + 6) 1, path := field b (o + 7) 1
      owner := field b (o + 8) 2, pexp := field b (o + 10) 1, phase := field b (o + 11) 1, part := field b (o + 12) 1
      rsvd := field b (o + 13) 3 }

/-- The windows of the current schedule that the station holds. -/
def Stn.wins (x : Stn) : List WinEnt := parseWins ((alook 0x8002 x.objs).getD [])

/-- Remove an object. -/
def dropObj (k : Nat) (l : List (Nat × List Byte)) : List (Nat × List Byte) := l.filter fun e => e.1 ≠ k

/-- An EVT entry, 05 R154. -/
def evtBytes (code index param time : Nat) : List Byte := le 2 code ++ le 2 index ++ le 4 param ++ le 8 time

/-- An EVT entry to send, on the attachment where the rule names one. -/
def Stn.evt (x : Stn) (ch : Option Side) (code index param time : Nat) : Stn :=
  { x with evts := x.evts ++ [(ch, evtBytes code index param time)] }

/-! ## Outputs: safe values, OUT and timed entries -/

/-- Mode and value of an output point in SAFE_VALUES, 07 R189; ZERO everywhere where the station holds none. -/
def Stn.safeMode (x : Stn) (p : Point) : BitVec 2 × BitVec 16 :=
  let b := (alook 0x8001 x.objs).getD []
  let i := ptIdx p
  let pair (o : Nat) : BitVec 2 := ((byteAt b (o + i / 4)) >>> (2 * (i % 4))).setWidth 2
  let m1 := roundUp ((x.doN + 3) / 4) 4
  let m2 := m1 + roundUp ((x.doN + 7) / 8) 4
  let m3 := m2 + roundUp ((x.aoN + 3) / 4) 4
  if ptKind p = 1 then (pair 0, if bitAt (b.drop m1) i then 1 else 0) else (pair m2, BitVec.ofNat 16 (field b (m3 + 2 * i) 2))

/-- Safe values at every output; HOLD gives the last applied value, or 0 where a restarted station does not retain it (07 R197, R198). They
clear HELD (08 R218). -/
def Stn.toSafe (x : Stn) (retains : Bool) : Stn :=
  { x with
    pts := x.outPoints.map fun p =>
      let o := x.pt p
      { o with held := false, term := modeVal (x.safeMode p) (if retains then o.term else 0) }
    safe := true }

/-- What FLAGS of a frame taken do: the first frame with CALM discards the pending entries (08 R214) and clears HELD; with LULL the outputs
stand at their safe values (05 R146). -/
def Stn.seeFlags (x : Stn) (f : Frame) : Stn :=
  let calm := f.flags.getLsbD 1
  let x := if calm && !x.calm then { x with queue := [], pts := x.pts.map fun o => { o with held := false } } else x
  let x := { x with calm := calm }
  if f.flags.getLsbD 2 && !x.safe then x.toSafe true else x

/-- The actuation mode in force: plain, 07 R189. -/
def Stn.plain (x : Stn) : Bool :=
  match alook 0x8006 x.objs with
  | some b => byteAt b 0 = 1
  | none => !(field x.ident 18 2).testBit 2

/-- A maker's delay of at most 20 µs (08 R212, R213). -/
def within20 (k : Nat) : Nat := k % 20001

/-- Output-stage latency of a point, at most 20 µs (08 R213). -/
def latencyOf (p : Point) : Nat := within20 (Config.stageLatency p)

/-- The lead of a point in plain mode: 0 where the latency lies within ±10 µs, else one of at most 20 µs with which the terminal meets ±10 µs
(08 R212, R216). -/
def leadOf20 (p : Point) : Nat :=
  if latencyOf p ≤ 10000 then 0 else latencyOf p - 10000 + Config.plainLead p % (20000 - (latencyOf p - 10000) + 1)

/-- The start instant of an entry taken now, 08 R212. -/
def Stn.startOf (x : Stn) (p : Point) (time : Nat) : Nat := time - (if x.plain then leadOf20 p else latencyOf p)

/-- An entry is applied: the terminal takes its value, HELD is set and ACT_N recorded (08 R218). A station in its safe state leaves it only
with OUT (07 R198): there the terminal stays (log entry 29). -/
def Stn.applyEnt (x : Stn) (e : ActEnt) : Stn :=
  if x.safe then x else x.onPt e.point fun o => { o with held := true, actN := e.seq, actAt := e.time, term := e.value }

/-- Lateness of an entry applied at once, in µs rounded up and saturated (08 R212). -/
def lateness (now : Nat) (e : ActEnt) : Nat :=
  min 65535 ((now + latencyOf e.point - e.time + 999) / 1000)

/-- An entry of an accepted ACT frame, in the order of the table of 08 R212. -/
def Stn.takeEnt (x : Stn) (now : Nat) (e : ActEnt) : Stn :=
  if !x.outPoints.contains e.point then x
  else if e.cancel then
    { (x.onPt e.point fun o => { o with held := false }) with
      queue := x.queue.filter fun q => q.point ≠ e.point || q.time < e.time }
  else if x.queue.any fun q => q.point = e.point && q.time = e.time then
    { x with queue := x.queue.map fun q =>
        if q.point = e.point && q.time = e.time then { q with value := e.value, seq := e.seq } else q }
  else
    let start := x.startOf e.point e.time
    if start < now then (x.applyEnt e).evt none 0x8001 (lateness now e) e.point.toNat e.time
    else if 256 ≤ x.queue.length then ({ x with overflow := true } : Stn).evt none 0x8002 0 e.point.toNat e.time
    else { x with queue := x.queue ++ [{ e with start := start }] }

/-- An entry of an ACT payload, 05 R153. -/
def actEntAt (b : List Byte) (seq i : Nat) : ActEnt :=
  let o := 16 * i
  { point := BitVec.ofNat 32 (field b o 4), value := BitVec.ofNat 16 (field b (o + 4) 2)
    cancel := (field b (o + 6) 2).testBit 0, time := field b (o + 8) 8, seq := seq }

/-- The entry of a point that is applied next: entries of one point go in TIME order. -/
def nextEnt (p : Point) (l : List ActEnt) : Option ActEnt :=
  (l.filter (·.point = p)).foldl (fun m e => match m with
    | some b => if e.time < b.time then some e else m
    | none => some e) none

/-- The bytes of a complete OUT stream with its FLAGS. -/
def Stn.outStream (x : Stn) : Option (List Byte × BitVec 16) :=
  match x.parts with
  | [] => none
  | p :: _ =>
    let got := (List.range (p.last + 1)).filterMap fun i => x.parts.find? (·.num = i)
    if x.partsN + 1 = x.n && got.length = p.last + 1 then some (got.flatMap (·.bytes), p.flags) else none

/-- The value of an output point in an OUT stream, 05 R152. -/
def Stn.outVal (x : Stn) (b : List Byte) (p : Point) : BitVec 16 :=
  if ptKind p = 1 then (if bitAt b (ptIdx p) then 1 else 0)
  else BitVec.ofNat 16 (field b (roundUp ((x.doN + 7) / 8) 4 + 2 * ptIdx p) 2)

/-- A point at the still point `still` at which an OUT stream is applied, 08 R218. An entry whose TIME is not before it comes after the stream
(08 R212). -/
def PtOut.outApply (o : PtOut) (v : BitVec 16) (seq still : Nat) : PtOut :=
  let chg := if v = o.out then o.chgN else seq
  let o := { o with out := v, chgN := chg }
  if !o.held || (serialGe chg o.actN && o.actAt < still) then { o with term := v, held := false } else o

/-! ## Time and integration, 06 R171, R176, R177 -/

/-- A downstream port at the start of a matrix cycle, 06 R182, R185. -/
def StnCh.matrixStart (c : StnCh) : StnCh :=
  match c.g with
  | .closed => c
  | .open_ => { c with cuts := 0, dirtyM := false }
  | .becalmed =>
    if c.inM then { c with inM := false, dirtyM := false, clean := 0 }
    else
      let clean := if c.dirtyM then 0 else c.clean + 1
      if 2 ≤ clean then { c with g := .open_, cuts := 0, dirtyM := false, clean := 0 }
      else { c with dirtyM := false, clean := clean }

/-- The still point of the station's cycle in network time. -/
def Stn.stillAt (x : Stn) : Nat := x.cycleStart + (x.cur.map (·.stillNs)).getD 0

/-- The station holds the whole announced schedule: its pending WINDOWS are all those that a configuration of the announced SCHED_ID gives
it. Where this module holds no such configuration, the partner has written them, and they count as whole (log entry 80). -/
def State.wholeSched (s : State) (x : Stn) : Bool :=
  let known := ([s.net.cfg, s.net.switchCfg, s.net.next, s.net.stored].filterMap id).filter fun c =>
    (x.announced.map (·.1)) = some c.sched
  known.isEmpty || known.any fun c => x.pendWin = (c.winsAt x.code).flatMap WinEnt.enc

/-- The schedule changes at SWITCH_N, and a pending mode comes into force (05 R142, 07 R189). A station that does not hold the whole
announced schedule holds no windows. -/
def Stn.switch (x : Stn) (whole : Bool) : Stn :=
  match x.announced with
  | none => x
  | some (id, sn) =>
    if x.n < sn then x
    else
      let objs := if x.pendWin.isEmpty || !whole then dropObj 0x8002 x.objs else aset 0x8002 x.pendWin x.objs
      let objs := match alook 0x8006 objs with
        | some b => if byteAt b 1 = 0xFF then objs else aset 0x8006 [byteAt b 1, 0xFF, 0, 0] objs
        | none => objs
      { x with sched := id, announced := none, pendWin := [], objs := objs }

/-- A basic cycle begins at the station; `whole`: it holds the whole announced schedule. -/
def Stn.newCycle (x : Stn) (n : Nat) (whole : Bool) : Stn :=
  let matrix : Bool := n / x.l ≠ x.n / x.l
  let x := { x with n := n, wdt := x.wdt + (n - x.n), missDone := false, acts := [], up := [], down := [] }
  let x := x.onBoth fun c => { c with got := false, good := false, arbSent := false, arbEnd := 0, heard := none }
  let x := if matrix then x.onBoth StnCh.matrixStart else x
  x.switch whole

/-- A SYNC whose CYCLE and START_TIME lie on the station's schedule begins its cycle. -/
def Stn.advance (x : Stn) (c : SyncContent) (whole : Bool) : Stn :=
  match x.cur with
  | some p =>
    if x.nst ≠ .listen && x.n < c.cycle && p.cycle ≤ c.cycle && c.startTime = p.startTime + (c.cycle - p.cycle) * p.tNs then
      x.newCycle c.cycle whole
    else x
  | none => x

/-- Drop time: LISTEN, pending entries discarded (08 R214). -/
def Stn.dropTime (x : Stn) : Stn :=
  let x := x.onBoth fun c => { c with near := 0, fine := false, off := 0, integrated := false }
  { x with nst := .listen, timeOk := false, quiet := false, queue := [], dark := 0, lost := 0 }

/-- A downstream port where the station enters a matrix cycle in its midst: its count begins at 0, and the cycle is none of the whole ones
that end BECALMED (06 R182, R185). -/
def StnCh.midMatrix (c : StnCh) : StnCh :=
  match c.g with
  | .becalmed => { c with inM := true, dirtyM := false, clean := 0 }
  | _ => { c with cuts := 0, dirtyM := false }

/-- The cycle of a SYNC lies in the matrix cycle that the station's own count shows, in the same network. -/
def Stn.sameMatrix (x : Stn) (c : SyncContent) : Bool :=
  match x.cur with
  | some p => p.matrixExp = c.matrixExp && x.n / x.l = c.cycle / x.l && p.tNs = c.tNs &&
      (c.startTime : Int) - p.startTime = ((c.cycle : Int) - p.cycle) * p.tNs
  | none => false

/-- Time taken from a SYNC, channel and schedule with it: COARSE. Windows of another schedule are not held. -/
def Stn.takeTime (x : Stn) (ch : Side) (c : SyncContent) : Stn :=
  let same : Bool := x.sched = c.sched
  let x := if x.sameMatrix c then x else x.onBoth StnCh.midMatrix
  let x := x.onBoth fun k =>
    { k with near := 0, fine := false, off := 0, integrated := false, got := false, good := false, arbSent := false, arbEnd := 0
             heard := none, repN := none, missed := 0 }
  let x := x.onCh ch fun k => { k with sync := some c, got := true, good := true, syncRx := c.startTime + k.pdDown.getD 0 }
  { x with nst := .coarse, ref := ch, timeOk := false, quiet := false, sched := c.sched, n := c.cycle, cur := some c, dark := 0
           lost := 0, missDone := false, wdt := x.wdt + 1, acts := [], up := [], down := [], parts := [], announced := none
           pendWin := if same then x.pendWin else []
           objs := if same then x.objs else dropObj 0x8002 x.objs }

/-- The attachment after a valid SYNC in COARSE or SYNCED, whose SFD, corrected by PD_DOWN, lies `ofs` ns from the station's time.
`cons`: it is consistent with the SYNC before. -/
def StnCh.synced (k : StnCh) (c : SyncContent) (cons coarseRef isRef : Bool) (ofs : Int) : StnCh :=
  let within : Bool := ofs.natAbs ≤ 100
  let good := within || coarseRef
  let near := if within then min 2 (k.near + 1) else 0
  let rx : Int := (c.startTime : Int) + k.pdDown.getD 0 + (if isRef && good then 0 else ofs)
  { k with sync := some c, got := true, good := good, near := near, integrated := k.held && decide (2 ≤ near)
           off := if within then 0 else if cons && 0 < k.off then k.off + 1 else 1
           fine := k.held && decide (ofs.natAbs ≤ 15), missed := if good then 0 else k.missed, syncRx := rx.toNat }

/-- A valid SYNC in COARSE or SYNCED: the rows of 06 R177. -/
def Stn.keepTime (x : Stn) (ch : Side) (c : SyncContent) (cons : Bool) (ofs : Int) : Stn :=
  let old := x.ch ch
  let isRef : Bool := x.ref = ch
  let x := x.onCh ch fun k => k.synced c cons (isRef && decide (x.nst = .coarse)) isRef ofs
  let k := x.ch ch
  let x := { x with dark := 0, cur := if isRef && k.good then some c else x.cur }
  if isRef && 2 ≤ k.off && !(x.ch ch.other).integrated then x.dropTime
  else if x.nst = .coarse then
    if isRef && k.fine && old.fine then { x with nst := .synced, timeOk := true, quiet := false, lost := 0 } else x
  else if k.good then { x with lost := if k.integrated then 0 else x.lost, quiet := false, timeOk := x.timeOk || x.quiet } else x

/-- A valid SYNC. -/
def Stn.onSync (x : Stn) (ch : Side) (f : Frame) (c : SyncContent) (spacingOk : Bool) (ofs : Int) : Stn :=
  let cons := spacingOk && (match (x.ch ch).sync with
    | some p => syncNext p c
    | none => false)
  let x :=
    if x.nst = .listen then
      if cons then x.takeTime ch c else x.onCh ch fun k => { k with sync := some c }
    else x.keepTime ch c cons ofs
  if x.nst ≠ .listen && f.flags.getLsbD 5 && x.n < c.switchN && c.nextSched ≠ x.sched then
    { x with announced := some (c.nextSched, c.switchN) }
  else x

/-! ## Receiving downstream frames, 05 R147 -/

/-- SYNC content of a payload, 05 R149. -/
def syncDec (b : List Byte) (sched : Nat) : SyncContent :=
  { cycle := field b 0 8, startTime := field b 8 8, tNs := field b 16 4, stillNs := field b 20 4, matrixExp := field b 24 1
    profile := field b 25 1, leader := byteAt b 26, taiUtc := int16 (field b 28 2), nextSched := field b 30 2
    switchN := field b 32 8, arbNs := field b 40 4, sched := sched }

/-- What a station does with a downstream frame. -/
inductive Rx where
  | badCrc | discard | pass | take
  deriving DecidableEq, Repr

/-- ADDR meets 05 R145 for a downstream frame of the type. -/
def downAddrOk (f : Frame) : Bool :=
  let one : Bool := f.addr.toNat < 1024
  let all : Bool := f.addr &&& 0xFC3F = 0x8000
  if f.ftype = 0x01 || f.ftype = 0x02 then all else if f.ftype = 0x21 then one || all else one

/-- The cases of 05 R147 but the CRC, for a frame of one of the types with the room of its window: VERSION, TYPE, LENGTH, SCHED_ID, SEQ, ADDR. A
station in LISTEN has no schedule and no N. -/
def Stn.breaks (x : Stn) (f : Frame) (types : List Nat) (room : Nat) (addrOk : Bool) : Bool :=
  let time : Bool := x.nst ≠ .listen
  let free : Bool := f.ftype = 0x01 || f.ftype = 0x02
  f.version ≠ 1 || !types.contains f.ftype || f.length % 4 ≠ 0 || x.maxLen < f.length || f.length ≠ f.payload.length || room < f.length ||
    (f.ftype = 0x01 && f.length ≠ 48) || (f.ftype = 0x02 && f.length ≠ 32) || (f.ftype ≠ 0x02 && time && f.sched ≠ x.sched) ||
    (!free && time && f.seq ≠ x.n % 2 ^ 32) || !addrOk

/-- The judgement of 05 R147 with the room of the window in which the frame arrives. A station in LISTEN takes SYNC and CSTART alone. -/
def Stn.judge (x : Stn) (f : Frame) (room : Nat) : Rx :=
  let time : Bool := x.nst ≠ .listen
  let free : Bool := f.ftype = 0x01 || f.ftype = 0x02
  if !f.crcOk then .badCrc
  else if x.breaks f [0x01, 0x02, 0x20, 0x21, 0x40] room (downAddrOk f) then .discard
  else if (f.addr.toNat = x.code || f.addr = bcast (codeBranch x.code)) && (time || free) then .take
  else .pass

/-- Counters of a downstream frame: every frame with a good CRC is forwarded, taken or not (05 R147, R157). -/
def Stn.countDown (x : Stn) (ch : Side) (r : Rx) : Stn :=
  x.onCh ch fun k => match r with
    | .badCrc => { k with crc := satAdd 32 k.crc 1 }
    | .discard => { k with discard := satAdd 32 k.discard 1, downFwd := satAdd 32 k.downFwd 1 }
    | _ => { k with downFwd := satAdd 32 k.downFwd 1 }

/-- The forwarding delay of a frame: at most 400 ns, within 16 ns of the others of its direction (05 R122); a free value within these bounds
(log entry 3). -/
def State.drawFwd (s : State) (code : Nat) (ch : Side) (up : Bool) : Nat × State :=
  let (w, s) := s.drawNat
  (Config.fwdDelay code ch up % 385 + w % 17, s)

/-- The last 1,024 forwarding delays of a direction, with one more. -/
def StnCh.noteFwd (k : StnCh) (up : Bool) (d : Nat) : StnCh :=
  if up then { k with upD := (d :: k.upD).take 1024 } else { k with downD := (d :: k.downD).take 1024 }

/-- A frame is forwarded downstream, its forwarding delay behind its arrival. -/
def State.forwarded (s : State) (code : Nat) (ch : Side) (f : Frame) : State :=
  let (d, s) := s.drawFwd code ch false
  s.onStn code fun x => { (x.onCh ch fun k => k.noteFwd false d) with down := x.down ++ [{ ch := ch, delay := d, f := f }] }

/-- Mean of forwarding delays, rounded down to whole ns (DESIGN CHOICE, log entry 97: the rounding is open); 0xFFFF before the first frame
(06 R173). -/
def meanOf (l : List Nat) : Nat := if l.isEmpty then 0xFFFF else l.foldl (· + ·) 0 / l.length

/-- FWD_DOWN and FWD_UP of an attachment. -/
def StnCh.fwdDown (k : StnCh) : Nat := meanOf k.downD
def StnCh.fwdUp (k : StnCh) : Nat := meanOf k.upD

/-- FWD_SPREAD: the largest minus the smallest delay, either direction. -/
def StnCh.fwdSpread (k : StnCh) : Nat :=
  match k.downD ++ k.upD with
  | [] => 0
  | d :: l => l.foldl max d - l.foldl min d

/-- Take a downstream frame: counters, then what the station does with one it takes. -/
def State.stnTake (s : State) (code : Nat) (ch : Side) (f : Frame) (room : Nat) (x : Stn) (act : Stn → Stn) : State :=
  let r := x.judge f room
  let x := x.countDown ch r
  let s := s.setStn (if r = .take then act x else x)
  if r = .badCrc then s else s.forwarded code ch f

/-- STATION_SYNC_RX: `spacingOk`, the SFDs of this SYNC and the one before lie T_NS apart within 200 ppm on the station's clock; `ofs`, the
SFD corrected by PD_DOWN against the station's time. -/
def execStationSyncRx (code : Nat) (ch : Side) (f : Frame) (spacingOk : Bool) (ofs : Int) (s : State) :
    Host.Outcome State Fault Refusal :=
  let x := s.station code
  let c := syncDec f.payload f.sched
  let isSync : Bool := f.ftype = 0x01
  let x := if isSync && f.crcOk && f.length = 48 then x.advance c (s.wholeSched x) else x
  .next (s.stnTake code ch f 48 x fun x => if isSync then (x.seeFlags f).onSync ch f c spacingOk ofs else x)

/-- A CSTART on a channel, 06 R177: it ends integration there, or drops time. -/
def Stn.onCstart (x : Stn) (ch : Side) : Stn :=
  let clear (x : Stn) : Stn := x.onCh ch fun k =>
    { k with pdDown := none, pdUp := none, near := 0, fine := false, integrated := false }
  if x.nst = .listen then x
  else if (x.ch ch.other).integrated then clear x
  else clear x.dropTime

/-- STATION_CSTART_RX: a CSTART that 05 R147 does not discard. -/
def execStationCstartRx (code : Nat) (ch : Side) (f : Frame) (s : State) : Host.Outcome State Fault Refusal :=
  .next (s.stnTake code ch f 32 (s.station code) fun x => if f.ftype = 0x02 then x.onCstart ch else x)

/-- The cycle whose missing SYNCs the command reports is the current one, in which the reference channel or an integrated one has had no SYNC
that counts; else the next has begun on the station's own clock. -/
def Stn.missesNow (x : Stn) : Bool :=
  !x.missDone && (!(x.ch x.ref).good || (x.a.integrated && !x.a.good) || (x.b.integrated && !x.b.good))

/-- The rows of 06 R177 for a cycle without a valid SYNC. -/
def Stn.missed (x : Stn) : Stn :=
  let heard := (x.a.integrated && x.a.good) || (x.b.integrated && x.b.good)
  let x := x.onBoth fun k => { k with missed := if k.good then 0 else k.missed + 1 }
  let x := { x with missDone := true, dark := if x.a.got || x.b.got then 0 else x.dark + 1, lost := if heard then 0 else x.lost + 1 }
  if 4 ≤ x.dark then x.dropTime
  else if x.nst ≠ .synced then x
  else
    let x := if x.lost = 2 then { x with quiet := true, timeOk := false } else x
    if 2 ≤ (x.ch x.ref).missed && (x.ch x.ref.other).integrated then { x with ref := x.ref.other } else x

/-- STATION_SYNC_MISSED: a cycle passes with no valid SYNC on an integrated channel. In LISTEN the cycle only passes on the station's own
clock. -/
def execStationSyncMissed (code : Nat) (s : State) : Host.Outcome State Fault Refusal :=
  let x := s.station code
  .next (s.setStn (
    if x.nst = .listen then x.newCycle (x.n + 1) (s.wholeSched x)
    else if x.missesNow then x.missed
    else (x.newCycle (x.n + 1) (s.wholeSched x)).missed))

/-! ## OUT and ACT -/

/-- STATION_OUT_RX: a part of the OUT stream, from the first valid copy, in a window that serves the station in the cycle (05 R130, R152). The
window of another station's frame that passes is not held here; the profile's limit alone bounds its LENGTH. -/
def execStationOutRx (code : Nat) (ch : Side) (f : Frame) (s : State) : Host.Outcome State Fault Refusal :=
  let x := s.station code
  let win := x.wins.find? fun w => w.down && w.owner = code && w.ty = 0x20 && w.serves x.n && winPart w = f.part
  let own : Bool := f.ftype = 0x20 && f.addr.toNat = code
  .next (s.stnTake code ch f (if own then (win.map (·.len)).getD x.maxLen else x.maxLen) x fun x =>
    if f.ftype ≠ 0x20 || win.isNone then x
    else
      let x := x.seeFlags f
      let x := if x.partsN = x.n then x else { x with parts := [], partsN := x.n }
      if x.parts.any (·.num = f.part) then x
      else { x with parts := x.parts ++ [{ num := f.part, last := f.last, bytes := f.payload, flags := f.flags }] })

/-- STATION_OUT_APPLY: the still point of the station's cycle. A complete OUT stream of the cycle before, without LULL, is applied subject to
HELD, restarts the watchdog and ends the safe state (07 R197, R198, 08 R218). -/
def execStationOutApply (code : Nat) (s : State) : Host.Outcome State Fault Refusal :=
  let x := s.station code
  let x := { x with still := some (x.n, x.queue.length) }
  .next (s.setStn (match x.outStream with
    | none => x
    | some (b, fl) =>
      let x := { x with parts := [] }
      if fl.getLsbD 2 then x
      else { x with
        pts := x.outPoints.map fun p => (x.pt p).outApply (x.outVal b p) (x.partsN % 2 ^ 32) x.stillAt
        wdt := 0, wdOn := decide (0 < x.doN + x.aoN), safe := false }))

/-- STATION_ACT_RX: a part of an ACT frame that arrives in window `win` of the station's WINDOWS, from the first valid copy (08 R211). -/
def execStationActRx (code : Nat) (ch : Side) (win : Nat) (f : Frame) (s : State) : Host.Outcome State Fault Refusal :=
  let x := s.station code
  match x.wins[win]? with
  | none => .next (s.stnTake code ch f x.maxLen x fun x => x)
  | some w =>
    .next (s.stnTake code ch f (if w.down then w.len else x.maxLen) x fun x =>
      if f.ftype ≠ 0x21 || w.ty ≠ 0x21 || !w.down || !w.serves x.n || x.acts.contains (win, f.part) then x
      else
        let x := x.seeFlags f
        let x := { x with acts := x.acts ++ [(win, f.part)] }
        (List.range (f.length / 16)).foldl (fun x i => x.takeEnt s.netTime (actEntAt f.payload f.seq i)) x)

/-- STATION_ACT_INSTANT: the start instant of the point's next entry arrives. -/
def execStationActInstant (code : Nat) (point : Point) (s : State) : Host.Outcome State Fault Refusal :=
  let x := s.station code
  match nextEnt point x.queue with
  | none => .next s
  | some e =>
    let s := s.reachNet e.start
    .next (s.setStn (({ x with queue := x.queue.filter fun q => q.point ≠ e.point || q.time ≠ e.time } : Stn).applyEnt e))

/-! ## Watchdog and restart, 07 R197, R198 -/

/-- STATION_WATCHDOG_EXPIRY: the still point at which HOLD_CYCLES basic cycles have passed since the last restart of the watchdog. -/
def execStationWatchdogExpiry (code : Nat) (s : State) : Host.Outcome State Fault Refusal :=
  let x := s.station code
  match alook 0x8004 x.objs with
  | none => .next s
  | some h =>
    if !x.wdOn || x.wdt < field h 0 2 then .next s
    else .next (s.setStn (({ x.toSafe true with queue := [], wdOn := false } : Stn).evt none 0x8003 0 0 s.netTime))

/-- STATION_RESTART: a restart of the control function or a start from power-up; HOLD, SAFE_VALUES, ACT_MODE and the maker's objects are
kept, path delays and windows are not (07 R189, R192, R198). -/
def execStationRestart (code : Nat) (retains : Bool) (s : State) : Host.Outcome State Fault Refusal :=
  let x := s.station code
  let fresh (c : StnCh) : StnCh := { linkUp := c.linkUp, linkDown := c.linkDown }
  let pts := (x.toSafe retains).pts.map fun o => ({ point := o.point, term := o.term } : PtOut)
  .next (s.setStn { code := code, a := fresh x.a, b := fresh x.b, objs := dropObj 0x8002 x.objs, pts := pts })

/-! ## Objects, 05 R155, 06 R173, 07 R187, R189 -/

/-- A path delay, 0xFFFF_FFFF when not measured. -/
def pdField (o : Option Nat) : Nat := o.getD 0xFFFFFFFF

/-- The DELAY object of an attachment; TX is written as the frame leaves. -/
def Stn.delayObj (x : Stn) (ch : Side) : List Byte :=
  let k := x.ch ch
  le 8 k.syncRx ++ le 8 0 ++ le 4 ((k.sync.map (·.cycle)).getD 0) ++ le 2 k.fwdDown ++ le 2 k.fwdUp ++ le 2 k.fwdSpread ++ le 2 0 ++
    le 4 (pdField x.a.pdDown) ++ le 4 (pdField x.a.pdUp) ++ le 4 (pdField x.b.pdDown) ++ le 4 (pdField x.b.pdUp)

/-- The counters of an attachment, 05 R157. -/
def StnCh.counters (k : StnCh) : List Byte :=
  le 4 k.upFwd ++ le 4 k.downFwd ++ le 4 k.crc ++ le 4 k.discard ++ le 4 k.arbDrop ++ le 4 k.cutoff ++ le 4 k.becalmed ++ le 4 0

/-- The bytes of an object that the station holds; the pending schedule stands apart (log entry 22). -/
def Stn.object (x : Stn) (ch : Side) (obj : Nat) : Option (List Byte) :=
  match obj with
  | 0x8000 => some x.ident
  | 0x8003 => some (x.delayObj ch)
  | 0x8005 => some (x.a.counters ++ x.b.counters)
  | k => alook k x.objs

/-- Write bytes into a run of bytes. -/
def patch (b : List Byte) (ofs : Nat) (d : List Byte) : List Byte := b.take ofs ++ d ++ b.drop (ofs + d.length)

/-- Size of SAFE_VALUES, 07 R189. -/
def Stn.safeLen (x : Stn) : Nat :=
  roundUp ((x.doN + 3) / 4) 4 + roundUp ((x.doN + 7) / 8) 4 + roundUp ((x.aoN + 3) / 4) 4 + roundUp (2 * x.aoN) 4

/-- A path delay is written. Offsets before it was held count for nothing (06 R177). -/
def StnCh.setPd (k : StnCh) (down up : Nat) : StnCh :=
  let v (n : Nat) : Option Nat := if n = 0xFFFFFFFF then none else some n
  let was := k.held
  let k := { k with pdDown := v down, pdUp := v up }
  if was && k.held then k else { k with near := 0, fine := false, integrated := false }

/-- A write within an object of fixed size; what has not been written yet is zero. -/
def Stn.writeFixed (x : Stn) (obj size : Nat) (base : List Byte) (ofs : Nat) (d : List Byte) : Nat × Stn :=
  if size < ofs + d.length then (2, x)
  else (0, { x with objs := aset obj (patch ((alook obj x.objs).getD base) ofs d) x.objs })

/-- A write to WINDOWS: one at the start of a schedule replaces it, a later one continues it (log entry 22). -/
def Stn.writeWins (x : Stn) (ofs : Nat) (d : List Byte) : Nat × Stn :=
  let pend : Bool := pendingWins ≤ ofs
  let ofs := if pend then ofs - pendingWins else ofs
  let old := if pend then x.pendWin else (alook 0x8002 x.objs).getD []
  if pendingWins < ofs + d.length || old.length < ofs then (2, x)
  else
    let b := if ofs = 0 then d else patch old ofs d
    (0, if pend then { x with pendWin := b } else { x with objs := aset 0x8002 b x.objs })

/-- A write request: its CSTATUS and the station after it. -/
def Stn.write (x : Stn) (ch : Side) (obj ofs : Nat) (d : List Byte) : Nat × Stn :=
  match obj with
  | 0x8000 => (3, x)
  | 0x8005 => (3, x)
  | 0x8001 => x.writeFixed obj x.safeLen (List.replicate x.safeLen 0) ofs d
  | 0x8002 => x.writeWins ofs d
  | 0x8003 =>
    if ofs < 28 then (3, x)
    else if 44 < ofs + d.length then (2, x)
    else
      let b := patch (x.delayObj ch) ofs d
      let x := x.onCh .a fun k => k.setPd (field b 28 4) (field b 32 4)
      (0, x.onCh .b fun k => k.setPd (field b 36 4) (field b 40 4))
  | 0x8004 => x.writeFixed obj 4 (le 4 0) ofs d
  | 0x8006 => x.writeFixed obj 4 [if x.plain then 1 else 0, 0xFF, 0, 0] ofs d
  | _ => match alook obj x.objs with
    | some b => x.writeFixed obj b.length b ofs d
    | none => (1, x)

/-- The payload of a response, 05 R155. -/
def cfgBytes (op tag obj ofs cst : Nat) (d : List Byte) : List Byte :=
  le 1 op ++ le 1 tag ++ le 2 obj ++ le 4 ofs ++ le 2 d.length ++ le 2 cst ++ padTo 4 d

/-- The answer to a request. -/
def Stn.answer (x : Stn) (ch : Side) (p : List Byte) : Stn :=
  let op := field p 0 1
  let tag := field p 1 1
  let obj := field p 2 2
  let ofs := field p 4 4
  let count := field p 8 2
  let err (x : Stn) (k : Nat) : Stn := { x with resps := x.resps ++ [(ch, x.n, cfgBytes 4 tag obj ofs k [])] }
  let dup := x.resps.any fun r => r.2.1 = x.n && field r.2.2 1 1 = tag && field r.2.2 2 2 = obj && field r.2.2 4 4 = ofs
  if dup || 1 < op then x
  else if op = 0 then
    let pend : Bool := obj = 0x8002 && pendingWins ≤ ofs
    match (if pend then some x.pendWin else x.object ch obj) with
    | none => err x 1
    | some b =>
      let o := if pend then ofs - pendingWins else ofs
      if x.maxLen < 12 + count || b.length < o + count then err x 2
      else { x with resps := x.resps ++ [(ch, x.n, cfgBytes 2 tag obj ofs 0 (slice b o count))] }
  else if p.length < 12 + count then err x 2
  else
    let (k, x) := x.write ch obj ofs (slice p 12 count)
    if k = 0 then { x with resps := x.resps ++ [(ch, x.n, cfgBytes 3 tag obj ofs 0 [])] } else err x k

/-- STATION_CFG_REQUEST: a station takes a request, once where both channels carry it; its response waits for an arbitrating window of a
later basic cycle. -/
def execStationCfgRequest (code : Nat) (ch : Side) (f : Frame) (s : State) : Host.Outcome State Fault Refusal :=
  let x := s.station code
  .next (s.stnTake code ch f x.maxLen x fun x => if f.ftype = 0x40 && 12 ≤ f.length then x.answer ch f.payload else x)

/-! ## Frames that a station sends, 05 R137, R140, R151, 06 R172 -/

/-- Draw truth values. -/
def State.drawBits : Nat → State → List Bool × State
  | 0, s => ([], s)
  | k + 1, s =>
    let (d, s) := s.drawNat
    let (l, s) := s.drawBits k
    (decide (d % 2 = 1) :: l, s)

/-- Draw bytes. -/
def State.drawBytes : Nat → State → List Byte × State
  | 0, s => ([], s)
  | k + 1, s =>
    let (d, s) := s.drawNat
    let (l, s) := s.drawBytes k
    (BitVec.ofNat 8 d :: l, s)

/-- Encoder records, 05 R151: what the inputs have counted comes from the plant (free values, log entry 3). -/
def State.drawEnc : Nat → Nat → State → List Byte × State
  | 0, _, s => ([], s)
  | k + 1, i, s =>
    let (fl, s) := s.drawNat
    let (c, s) := s.drawNat
    let (e, s) := s.drawNat
    let (l, s) := s.drawEnc k (i + 1)
    (le 2 i ++ le 2 (fl % 4) ++ le 4 (c % 2 ^ 32) ++ le 8 e ++ l, s)

/-- EVT entries of the attachment go into one frame of at most `k`: those that go and those that stay. -/
def takeEvts (ch : Side) : Nat → List (Option Side × List Byte) → List (List Byte) × List (Option Side × List Byte)
  | _, [] => ([], [])
  | 0, l => ([], l)
  | k + 1, e :: l =>
    if e.1 = none || e.1 = some ch then
      let r := takeEvts ch k l
      (e.2 :: r.1, r.2)
    else
      let r := takeEvts ch (k + 1) l
      (r.1, e :: r.2)

/-- Entries that one EVT frame holds, 05 R154. -/
def Stn.evtRoom (x : Stn) : Nat := min 64 (x.maxLen / 16)

/-- An EVT entry by which the station reports a fault of its own: OUTPUT_FAULT, or a code of its maker. -/
def evtFault (e : List Byte) : Bool := field e 0 2 = 0x8005 || field e 0 2 < 0x8000

/-- Own EVT frames that the waiting entries make on the two attachments: entries that no attachment bars fill the last frame of each (05 R151
EVT_PENDING; how entries are grouped into frames is the station's choice: log entry 28). -/
def Stn.evtFrames (x : Stn) : Nat :=
  let r := x.evtRoom
  let up (k : Nat) : Nat := (k + r - 1) / r
  let a := x.evts.countP fun e => e.1 = some .a
  let b := x.evts.countP fun e => e.1 = some .b
  let n := x.evts.length - a - b
  up a + up b + up (n - (up a * r - a) - (up b * r - b))

/-- A fault that the station detects on itself and reports by EVT: none, OUTPUT_FAULT at one of its points, or a code of its maker. What the
plant and the maker make of it is free (log entry 3). -/
def State.drawFault (s : State) (x : Stn) : Stn × State :=
  let (k, s) := s.drawNat
  let (i, s) := s.drawNat
  let (v, s) := s.drawNat
  let p := x.outPoints.getD (i % max 1 x.outPoints.length) 0
  if k % 3 = 1 && !x.outPoints.isEmpty then (x.evt none 0x8005 (ptIdx p) p.toNat s.netTime, s)
  else if k % 3 = 2 then (x.evt none (i % 0x8000) (v % 0x10000) (v / 0x10000) s.netTime, s)
  else (x, s)

/-- The status block of an IN stream, 05 R151. -/
def Stn.statusBlock (x : Stn) (encN : Nat) (latchDev : Int) : List Byte :=
  let st := bitIf x.overflow 0 + bitIf (x.evts.any fun e => evtFault e.2) 1 +
    bitIf (x.a.integrated && x.a.got) 2 + bitIf (x.b.integrated && x.b.got) 3 + bitIf x.timeOk 4
  let pend := match x.still with
    | some (n, k) => if n = x.n then k else x.queue.length
    | none => x.queue.length
  le 2 st ++ le 2 pend ++ le 1 encN ++ le 1 (min 255 x.evtFrames) ++
    le 2 (BitVec.ofInt 16 latchDev).toNat

/-- The IN stream formed for the station's cycle, with the encoder records that its configuration asks for (07 R186). Input
values come from the plant (free values, log entry 3). -/
def State.formIn (s : State) (x : Stn) (latchDev : Int) : (List Byte × Nat) × State :=
  let encN := match s.net.cfg.bind fun c => c.parOf x.code with
    | some p => min p.encN (field x.ident 32 1)
    | none => field x.ident 32 1
  let diN := field x.ident 20 4
  let aiN := field x.ident 28 2
  let (x, s) := s.drawFault x
  let (enc, s) := s.drawEnc encN 0
  let (di, s) := s.drawBits diN
  let (ai, s) := s.drawBytes (2 * aiN)
  let (unc, s) := s.drawBits (diN + aiN)
  let any := unc.any id
  let b := x.statusBlock encN latchDev ++ enc ++ padTo 4 (packBits di) ++ padTo 4 ai ++ (if any then padTo 4 (packBits unc) else [])
  let fl := bitIf any 3 + bitIf x.safe 4
  ((b, fl), s.setStn { x with inS := some (x.n, b, fl), overflow := false })

/-- The IN stream of the station's cycle and its FLAGS: formed once, sent on both channels. -/
def State.inStream (s : State) (x : Stn) (latchDev : Int) : (List Byte × Nat) × State :=
  match x.inS with
  | some (n, b, fl) => if n = x.n then ((b, fl), s) else s.formIn x latchDev
  | none => s.formIn x latchDev

/-- A frame of the station's own. -/
def Stn.frame (x : Stn) (ty part last fl : Nat) (pay : List Byte) : Frame :=
  { ftype := ty, part := part, last := last, sched := x.sched, addr := BitVec.ofNat 16 x.code, length := pay.length
    seq := x.n % 2 ^ 32, flags := BitVec.ofNat 16 fl, payload := pay }

/-- The parts of an IN stream on an attachment, each up to its window's LENGTH, each at START − PD_UP (05 R137, R148). -/
def Stn.inParts (x : Stn) (ch : Side) (fl : Nat) : List WinEnt → List Byte → List UpFrame
  | [], _ => []
  | w :: l, b =>
    { ch := ch, at_ := w.start - (x.ch ch).pdUp.getD 0, f := x.frame 0x10 (winPart w) (winLast w) fl (b.take w.len) } ::
      x.inParts ch fl l (b.drop w.len)

/-- The IN windows that serve the station in its cycle, by part. -/
def Stn.inWins (x : Stn) : List WinEnt :=
  (List.range 16).filterMap fun i =>
    x.wins.find? fun w => !w.down && w.owner = x.code && w.ty = 0x10 && w.serves x.n && winPart w = i

/-- STATION_IN_SEND: the IN frames of a serving cycle on an attachment, at START minus PD_UP; only in SYNCED, on an integrated channel,
with WINDOWS and while exclusive frames are not suspended (06 R176, R177, 07 R191). -/
def execStationInSend (code : Nat) (ch : Side) (latchDev : Int) (s : State) : Host.Outcome State Fault Refusal :=
  let x := s.station code
  let sent := x.up.any fun u => u.ch = ch && u.f.ftype = 0x10 && u.f.addr.toNat = code
  if x.nst ≠ .synced || x.quiet || !(x.ch ch).integrated || x.inWins.isEmpty || sent then .next s
  else
    let ((b, fl), s) := s.inStream x latchDev
    .next (s.onStn code fun x => { x with up := x.up ++ x.inParts ch fl x.inWins b })

/-- TX goes into a DELAY object as its frame leaves (06 R173). -/
def patchTx (p : List Byte) (tx : Nat) : List Byte :=
  if field p 0 1 ≠ 2 || field p 2 2 ≠ 0x8003 then p
  else
    let o := field p 4 4
    let b := le 8 tx
    p.take 12 ++ (List.range (p.length - 12)).map fun i => if 8 ≤ o + i && o + i < 16 then byteAt b (o + i - 8) else byteAt p (12 + i)

/-- A DELAY report is due on an attachment, 06 R172. -/
def Stn.reportDue (x : Stn) (ch : Side) : Bool :=
  let k := x.ch ch
  if x.nst = .synced && k.held then (match k.repN with
    | some n => n + 64 ≤ x.n
    | none => true)
  else x.nst ≠ .listen && k.repN ≠ some x.n

/-- A frame of its own in an arbitrating window. -/
def Stn.arbOut (x : Stn) (ch : Side) (ty startAt : Nat) (pay : List Byte) : Stn :=
  let x := x.onCh ch fun k => { k with arbSent := true, arbEnd := startAt + frameNs pay.length }
  { x with up := x.up ++ [{ ch := ch, at_ := startAt, f := x.frame ty 0 0 0 pay }] }

/-- Nothing has arrived at the downstream port for 1 µs, and the forwarding buffer is empty with the line free (05 R140). -/
def StnCh.idleAt (k : StnCh) (startAt : Nat) : Bool :=
  (match k.heard with
   | some e => e + 1000 ≤ startAt
   | none => true) && (k.arbEnd = 0 || k.arbEnd + 96 ≤ startAt)

/-- What an attachment leaves before T for the way of an own frame to the star: PD_UP where it holds its path delays, else 2 × PD_MAX (06
R172; in SYNCED too: DESIGN CHOICE, log entry 62). -/
def Stn.margin (x : Stn) (ch : Side) : Nat :=
  if x.nst = .synced && (x.ch ch).held then (x.ch ch).pdUp.getD 0 else 2 * pdMax (codePos x.code)

/-- STATION_ARB_SEND: the station starts a frame of its own at `startAt` from C(N) on its clock, under the conditions of 05 R140: a waiting
response, else a DELAY report that is due, else EVT (log entry 28). -/
def execStationArbSend (code : Nat) (ch : Side) (startAt : Nat) (s : State) : Host.Outcome State Fault Refusal :=
  let x := s.station code
  let k := x.ch ch
  let pd := if x.nst = .synced && k.held then k.pdUp.getD 0 else 0
  let fits (len : Nat) : Bool := startAt + x.margin ch + frameNs len + 500 ≤ x.t
  if x.nst = .listen || k.arbSent || !k.linkUp || !k.idleAt startAt || startAt + pd + x.arb < x.t then .next s
  else
    let tx := x.cycleStart + startAt
    let evts := takeEvts ch x.evtRoom x.evts
    match x.resps.find? fun r => r.1 = ch && r.2.1 < x.n && fits r.2.2.length with
    | some r => .next (s.setStn (({ x with resps := x.resps.filter (· ≠ r) } : Stn).arbOut ch 0x40 startAt (patchTx r.2.2 tx)))
    | none =>
      if x.reportDue ch && fits 56 then
        let x := x.onCh ch fun k => { k with repN := some x.n }
        .next (s.setStn (x.arbOut ch 0x40 startAt (patchTx (cfgBytes 2 0 0x8003 0 0 (x.delayObj ch)) tx)))
      else if !evts.1.isEmpty && fits (16 * evts.1.length) then
        .next (s.setStn (({ x with evts := evts.2 } : Stn).arbOut ch 0x30 startAt evts.1.flatten))
      else .next s

/-! ## The pass-through guardian, 06 R183 to R185 -/

/-- The verdict of a station's guardian: refused at the SFD, cut off later, or forwarded, through the arbitrating window or not. -/
inductive Pass where
  | refused | cut | go (arb : Bool) (room : Nat)
  deriving DecidableEq, Repr

/-- R178 with the instants of R183: earlier by PD_UP and FWD_UP, with `g` as the bound at the SFD. -/
def Stn.judgeUp (x : Stn) (shift g : Nat) (seen : Seen) (f : Frame) : Pass :=
  match x.wins.find? fun w => !w.down && codePos x.code < codePos w.owner && w.serves x.n && apartBy (seen.sfd + shift) w.start ≤ g with
  | some w => if f.addr.toNat = w.owner && seen.fin + shift ≤ w.fin + guardNs then .go false w.len else .cut
  | none =>
    if x.t ≤ seen.sfd + shift + x.arb + g then (if seen.fin + shift + 500 ≤ x.t + guardNs then .go true x.maxLen else .cut) else .refused

/-- The arbitrating window widened by 2 × PD_MAX(63) at each end, of this cycle or the end of the one before (06 R184). -/
def Stn.inWide (x : Stn) (sfd : Nat) : Bool :=
  let w := 2 * pdMax 63
  (x.t ≤ sfd + x.arb + w && sfd ≤ x.t + w) || sfd ≤ w

/-- Counters of an upstream frame: one with a bad CRC goes no further, one that 05 R147 discards otherwise is forwarded all the same. -/
def Stn.countUp (x : Stn) (ch : Side) (room : Nat) (f : Frame) : Stn :=
  x.onCh ch fun k =>
    if !f.crcOk then { k with crc := satAdd 32 k.crc 1 }
    else if x.breaks f [0x10, 0x30, 0x40] room (f.addr.toNat < 1024) then { k with discard := satAdd 32 k.discard 1 }
    else k

/-- Forward a frame upstream. In the arbitrating window it waits behind the frame that leaves before it, and is dropped where it would end
at the star after T − 500 ns (05 R140). A frame that the guardian cuts is ended with an error: its CRC is wrong at the next receiver (06
R183). -/
def State.passUp (s : State) (x : Stn) (ch : Side) (arb : Bool) (room : Nat) (seen : Seen) (f : Frame) (cut : Bool) : State :=
  let x := if cut then x else x.countUp ch room f
  if !f.crcOk then s.setStn x
  else
    let k := x.ch ch
    let (d, s) := s.drawFwd x.code ch true
    let at_ := if arb && k.arbEnd ≠ 0 then max (seen.sfd + d) (k.arbEnd + 96) else seen.sfd + d
    let way := if k.held then k.pdUp.getD 0 else 2 * pdMax (codePos x.code)
    if arb && !cut && x.t < at_ + frameNs f.length + way + 500 then
      s.setStn (x.onCh ch fun k => { k with arbDrop := satAdd 32 k.arbDrop 1 })
    else
      let x := x.onCh ch fun k =>
        { (k.noteFwd true d) with
          upFwd := if cut then k.upFwd else satAdd 32 k.upFwd 1
          arbEnd := if arb then at_ + frameNs f.length else k.arbEnd }
      s.setStn { x with up := x.up ++ [{ ch := ch, at_ := at_, f := if cut then { f with crcErr := 1 } else f }] }

/-- A cut-off on an OPEN downstream port: counted, reported by GUARD_CUT; the third in a matrix cycle makes the port BECALMED. -/
def Stn.cutOff (x : Stn) (ch : Side) (seen : Seen) : Stn :=
  let x := x.onCh ch fun k => { k with cuts := k.cuts + 1, cutoff := satAdd 32 k.cutoff 1, dirtyM := true }
  let n := (x.ch ch).cuts
  let x := x.evt (some ch) 0x8004 (codePos x.code + 1) n (x.cycleStart + seen.sfd)
  if n < 3 then x
  else x.onCh ch fun k => { k with g := .becalmed, becalmed := satAdd 32 k.becalmed 1, clean := 0, inM := true }

/-- The frame has been heard at the downstream port: the 1 µs of 05 R140 runs from its end. -/
def Stn.hear (x : Stn) (ch : Side) (fin : Nat) : Stn := x.onCh ch fun k => { k with heard := some (max fin (k.heard.getD 0)) }

/-- What a guardian's verdict does on an attachment: an OPEN port forwards, refuses or cuts off, a BECALMED one passes nothing and counts a
violation (06 R182, R183, R185). -/
def State.guarded (s : State) (x : Stn) (ch : Side) (seen : Seen) (f : Frame) (v : Pass) : State :=
  match v, (x.ch ch).g with
  | .go arb room, .open_ => s.passUp x ch arb room seen f false
  | .refused, .open_ => s.setStn (x.cutOff ch seen)
  | .cut, .open_ =>
    let late : Bool := x.t ≤ seen.sfd + (x.ch ch).pdUp.getD 0 + x.arb
    s.passUp (x.cutOff ch seen) ch late x.maxLen seen f true
  | .go _ _, _ => s.setStn x
  | _, _ => s.setStn (x.onCh ch fun k => { k with dirtyM := true })

/-- STATION_GUARD_FRAME: a frame from downstream at the station's port, with its instants from C(N) on the station's clock. Before the first
frame forwarded upstream FWD_UP shows 0xFFFF, and the delay of the shift is a free value of at most 400 ns (DESIGN CHOICE, log entry 98). -/
def execStationGuardFrame (code : Nat) (ch : Side) (seen : Seen) (f : Frame) (s : State) : Host.Outcome State Fault Refusal :=
  let x := (s.station code).hear ch seen.fin
  let k := x.ch ch
  if x.nst = .listen then .next (s.setStn x)
  else if x.nst = .coarse || !k.held then
    .next (if x.inWide seen.sfd && k.g = .open_ then s.passUp x ch (x.t ≤ seen.sfd + x.arb + 2 * pdMax 63) x.maxLen seen f false
           else s.setStn x)
  else
    let (d, s) := if k.upD.isEmpty then s.drawNat else (0, s)
    let shift := k.pdUp.getD 0 + (if k.upD.isEmpty then d % 401 else k.fwdUp)
    let strict := x.judgeUp shift guardNs seen f
    let wide := x.judgeUp shift (guardNs + 8) seen f
    let (e, s) := if strict = wide then (0, s) else s.drawNat
    .next (s.guarded x ch seen f (if e % 2 = 0 then strict else wide))

end Sys2Proof.Machine
end

