-- ==== Sys2Proof/Machine/StatusCmd.lean ====
section
/-! DEFINITION. STATUS_GET and its sections: 13 R363, R364, R553, 16 R444, 18 R489. -/

namespace Sys2Proof.Machine
open Sys2Proof

/-- A status item: ITEM, INSTANCE, VALUE (13 R363). -/
abbrev StItem := Nat × Nat × Nat

/-- The 16 bytes of an item. -/
def stEnc (i : StItem) : List Byte := le 2 i.1 ++ le 2 i.2.1 ++ le 4 0 ++ le 8 i.2.2

/-- An item for each instance of a list. -/
def stEach {α : Type} (item : Nat) (l : List α) (inst val : α → Nat) : List StItem := l.map fun x => (item, inst x, val x)

/-- Count of the happenings of a code at an instance. -/
def Recd.happened (r : Recd) (code inst : Nat) : Nat :=
  ((r.happen.find? fun h => h.1 = code && h.2.1 = inst).map (·.2.2)).getD 0

/-- Section 1, LANES. -/
def State.sec1 (s : State) : List StItem :=
  let copies : List (Nat × Side) := (List.range 8).flatMap fun l => [(l, .a), (l, .b)]
  let copy (x : Nat × Side) : LaneCopy := (s.laneAt x.1).copy x.2
  let inst (x : Nat × Side) : Nat := 2 * x.1 + x.2.num
  stEach 0xF100 copies inst (fun x => (copy x).loadLast) ++ stEach 0xF101 copies inst (fun x => (copy x).loadMax) ++
    stEach 0xF102 (copies ++ [(8, .a), (8, .b)]) inst fun x => (copy x).repairs

/-- Insert a number into an ascending list. -/
def insNat (n : Nat) : List Nat → List Nat
  | [] => [n]
  | m :: l => if n ≤ m then n :: m :: l else m :: insNat n l

/-- Section 2, TASKS. -/
def State.sec2 (s : State) : List StItem :=
  let ts := (s.tasks.map (·.num)).foldl (fun l n => insNat n l) []
  let it (item : Nat) (f : Task → Nat) : List StItem := stEach item ts id fun t => f (s.taskAt t)
  let of_ (k : TaskKind) (t : Nat) : Bool := (s.taskCfg t).any (·.kind = k)
  it 0xF200 (·.releases) ++ it 0x0101 (·.skips) ++
    stEach 0x0102 ts id (fun t => if of_ .event t then (s.taskAt t).lost else 0) ++
    stEach 0x0103 ts id (fun t => if of_ .error t then (s.taskAt t).lost else 0) ++
    it 0xF201 (·.longest) ++ it 0xF202 (·.calmDisc) ++ it 0x0600 (·.rejected) ++ [(0x0600, 32, s.act.trkRejected)] ++
    it 0x0104 (·.traps)

/-- Section 3, NETWORK. -/
def State.sec3 (s : State) : List StItem :=
  let ports : List (Nat × Side) := (List.range 16).flatMap fun b => [(b, .a), (b, .b)]
  let cnt (x : Nat × Side) : BrCount :=
    let b := s.net.br.toList.getD x.1 {}
    match x.2 with
    | .a => b.ca
    | .b => b.cb
  let it (item : Nat) (f : BrCount → Nat) : List StItem := stEach item ports (fun x => 2 * x.1 + x.2.num) fun x => f (cnt x)
  it 0xF300 (·.frames) ++ it 0xF301 (·.crc) ++
    ((List.range 7).flatMap fun k => it (0xF302 + k) fun c => c.disc.toList.getD k 0) ++
    it 0xF309 (·.downDrop) ++ it 0xF30A (·.pairLate) ++ it 0xF30B (·.arbDrop) ++ it 0xF30C (·.cutoff) ++ it 0x0406 (·.becalmed) ++
    [(0xF30D, 32, s.act.ref.code), (0xF30E, 32, s64 s.act.theta)]

/-- Section 4, STATIONS. -/
def State.sec4 (s : State) : List StItem :=
  let it (item : Nat) (f : StnM → Nat) : List StItem := stEach item s.stnM (·.code) f
  it 0xF400 (·.st.code) ++ it 0xF401 (·.miss) ++ it 0xF402 (·.good) ++ it 0x0504 (·.losses) ++ it 0xF403 (·.refusal) ++
    it 0x0603 (·.actLost) ++
    stEach 0x0304 (s.stnM.map (·.code) ++ [localCode]) id fun c => (alook c s.img.actForced).getD 0

/-- Section 5, PAIR. -/
def State.sec5 (s : State) : List StItem :=
  [(0xF500, 0, s.pair.role.code), (0xF501, 0, bitIf s.currentShown 0), (0xF502, 0, s.pair.lastKib), (0xF503, 0, s.pair.maxKib),
   (0x090A, 0, s.pair.stales), (0x090C, 0, s.pair.resends), (0x090D, 0, s.pair.audits), (0x0905, 0, s.pair.takeovers),
   (0xF504, 0, s.pair.switches)]

/-- Section 6, LOCAL_IO. -/
def State.sec6 (s : State) : List StItem :=
  let it (item : Nat) (f : LioCh → Nat) : List StItem := stEach item (List.range 16) id fun c => f (s.lch c)
  it 0xF600 (·.trips) ++ it 0x0800 (·.faults) ++ stEach 0xF601 (List.range 16) id (fun c => (s.lch c).word c s.clk.now) ++
    [(0xF602, 16, s.lio.g1.word 0 s.clk.now), (0xF602, 17, s.lio.g2.word 1 s.clk.now)]

/-- Section 7, TRACKING. -/
def State.sec7 (s : State) : List StItem :=
  let segs := s.trk.segs.filter (·.cfg.enabled)
  let it (item : Nat) (f : Cross → Nat) : List StItem := stEach item segs (·.num) fun g => f ((alook g.num s.trk.cross).getD {})
  it 0xF700 (·.frozen) ++ it 0xF701 (·.source) ++ it 0xF702 (·.calm) ++ [(0x0704, 0, s.trk.backlog)]

/-- Section 8, POWER; INSTANCE is the feed, the domain or the reset kind (18 R489). -/
def State.sec8 (s : State) : List StItem :=
  let one (code : Nat) (l : List Nat) : List StItem := stEach code l id fun i => s.recd.happened code i
  one 0x0F00 [0] ++ one 0x0F01 [0] ++ one 0x0F02 [0, 1] ++ one 0x0F03 [0, 1] ++ one 0x0F04 (List.range 12) ++
    one 0x0F05 (List.range 12) ++ one 0x0F06 [0] ++ one 0x0F07 [0] ++ one 0x0F08 [0] ++ one 0x0F09 [0] ++ one 0x0F0A [0] ++
    one 0x0F0B [0] ++ one 0x090E [0, 1] ++
    stEach 0x0001 [1, 2, 3, 4, 5, 6, 7, 8] id (fun k => (alook k s.pwr.boots).getD 0) ++
    [(0xF800, 0, s.pwr.st.code), (0xF801, 0, s.pwr.fa.mv), (0xF801, 1, s.pwr.fb.mv), (0xF802, 0, s.pwr.store),
     (0xF803, 0, s.marginState)]

/-- SEQ of the oldest and the newest record of a store; of an empty one they are free values (log entry 7). -/
def State.spanOf (s : State) (l : List Rec) : Nat × Nat × State :=
  match l.head?, l.getLast? with
  | some a, some b => (a.seq, b.seq, s)
  | _, _ =>
    let (a, s) := s.drawNat
    let (b, s) := s.drawNat
    (a % 2 ^ 32, b % 2 ^ 32, s)

/-- Section 9, RECORDER, 16 R444. -/
def State.sec9 (s : State) : List StItem × State :=
  let (r0, r1, s) := s.spanOf s.recd.ring
  let (a0, _, s) := s.spanOf s.recd.archive
  let codes := (s.recd.supp.foldl (fun l x => aset x.1 () l) (s.recd.wrote.map fun x => (x.1, ()))).map (·.1)
  let one (c i : Nat) (l : List (Nat × Nat)) : List StItem :=
    match alook c l with
    | some n => if 0 < n then [(c, i, n)] else []
    | none => []
  ((codes.flatMap fun c => one c 0 s.recd.wrote ++ one c 1 s.recd.supp) ++
    [(0xF900, 0, recBytes s.recd.ring), (0xF901, 0, r0), (0xF902, 0, r1), (0xF903, 0, recBytes s.recd.archive), (0xF904, 0, a0),
     (0xF905, 0, recBytes s.recd.hold)], s)

/-- The items of a section from 1 to 9. -/
def State.section_ (s : State) (k : Nat) : List StItem × State :=
  match k with
  | 1 => (s.sec1, s)
  | 2 => (s.sec2, s)
  | 3 => (s.sec3, s)
  | 4 => (s.sec4, s)
  | 5 => (s.sec5, s)
  | 6 => (s.sec6, s)
  | 7 => (s.sec7, s)
  | 8 => (s.sec8, s)
  | _ => s.sec9

/-- A section header, 13 R363. -/
def secHdr (k len : Nat) : List Byte := le 2 k ++ le 2 0 ++ le 4 len

/-- Write one selected section behind the bytes so far: whole items only; the last part tells that something did not fit. SECT_LEN counts
the body as written (log entry 15). -/
def State.addSection (x : State × List Byte × Bool) (room k : Nat) : State × List Byte × Bool :=
  let (s, out, cut) := x
  if cut then x
  else if k = 0 then
    if room < out.length + 72 then (s, out, true) else (s, out ++ secHdr 0 64 ++ s.summary, false)
  else if room < out.length + 8 then (s, out, true)
  else
    let (its, s) := s.section_ k
    let n := min its.length ((room - out.length - 8) / 16)
    (s, out ++ secHdr k (16 * n) ++ (its.take n).flatMap stEnc, n < its.length)

/-- STATUS_GET. -/
def execStatusGet (c : Cmd) (s : State) : Host.Outcome State Fault Refusal :=
  .next (s.hostCmd 0x0020 c 2 (c.inf 0 4 < 1024 && c.inlZero 4) fun s =>
    let sel := c.inf 0 4
    if sel = 0 then s.final 0x0020 c stEmpty dNone
    else
      let (s, out, cut) := ((List.range 10).filter fun k => sel.testBit k).foldl (fun x k => State.addSection x c.length k)
        (s, [], false)
      s.finalData 0x0020 c stOk (BitVec.ofNat 64 out.length) (if cut then 1 else 0) out)

end Sys2Proof.Machine
end

