-- ==== Sys2Proof/Machine/Dispatch.lean ====
section
/-! DEFINITION. One arm per command: a direct call of its meaning, or a rejection by name. -/

namespace Sys2Proof.Machine
open Sys2Proof

/-- The effect of a command on everything but the queue. -/
def exec (i : Instr) (s : State) : Host.Outcome State Fault Refusal :=
  match i with
  | .nop c => Sys2Proof.Machine.execNop c s
  | .sessionOpen c => Sys2Proof.Machine.execSessionOpen c s
  | .sessionProve c sigOk shared => Sys2Proof.Machine.execSessionProve c sigOk shared s
  | .sessionClose c => Sys2Proof.Machine.execSessionClose c s
  | .statusGet c => Sys2Proof.Machine.execStatusGet c s
  | .rtcGet c => Sys2Proof.Machine.execRtcGet c s
  | .setUtc c => Sys2Proof.Machine.execSetUtc c s
  | .setCivil c => Sys2Proof.Machine.execSetCivil c s
  | .setTrim c => Sys2Proof.Machine.execSetTrim c s
  | .clearStamp c => Sys2Proof.Machine.execClearStamp c s
  | .writeBackup c => Sys2Proof.Machine.execWriteBackup c s
  | .rtcShift c => Sys2Proof.Machine.execRtcShift c s
  | .alarmSetArm c => Sys2Proof.Machine.execAlarmSetArm c s
  | .alarmSetDisarm c => Sys2Proof.Machine.execAlarmSetDisarm c s
  | .logRead c => Sys2Proof.Machine.execLogRead c s
  | .logClearRing c => Sys2Proof.Machine.execLogClearRing c s
  | .logClearArchive c => Sys2Proof.Machine.execLogClearArchive c s
  | .gustTableReplace c => Sys2Proof.Machine.execGustTableReplace c s
  | .gustTableDefault c => Sys2Proof.Machine.execGustTableDefault c s
  | .logExport c => Sys2Proof.Machine.execLogExport c s
  | .forceSet c => Sys2Proof.Machine.execForceSet c s
  | .forceRelease c => Sys2Proof.Machine.execForceRelease c s
  | .forceReleaseAll c => Sys2Proof.Machine.execForceReleaseAll c s
  | .forceList c => Sys2Proof.Machine.execForceList c s
  | .appLoad c img => Sys2Proof.Machine.execAppLoad c img s
  | .appChange c img => Sys2Proof.Machine.execAppChange c img s
  | .appRollback c => Sys2Proof.Machine.execAppRollback c s
  | .appStart c => Sys2Proof.Machine.execAppStart c s
  | .appStop c => Sys2Proof.Machine.execAppStop c s
  | .taskRelease c => Sys2Proof.Machine.execTaskRelease c s
  | .fwStage c img => Sys2Proof.Machine.execFwStage c img s
  | .fwHandover c => Sys2Proof.Machine.execFwHandover c s
  | .fwConfirm c => Sys2Proof.Machine.execFwConfirm c s
  | .fwFallback c => Sys2Proof.Machine.execFwFallback c s
  | .netConfigure c => Sys2Proof.Machine.execNetConfigure c s
  | .netConfigureNext c => Sys2Proof.Machine.execNetConfigureNext c s
  | .netStart c => Sys2Proof.Machine.execNetStart c s
  | .stationReintegrate c => Sys2Proof.Machine.execStationReintegrate c s
  | .pairSwitch c => Sys2Proof.Machine.execPairSwitch c s
  | .pairRejoin c => Sys2Proof.Machine.execPairRejoin c s
  | .attest c => Sys2Proof.Machine.execAttest c s
  | .lifecycleAdvance c proofOk => Sys2Proof.Machine.execLifecycleAdvance c proofOk s
  | .enrolIntegrator c proofOk => Sys2Proof.Machine.execEnrolIntegrator c proofOk s
  | .revokeIntegrator c => Sys2Proof.Machine.execRevokeIntegrator c s
  | .grantService c proofOk => Sys2Proof.Machine.execGrantService c proofOk s
  | .revokeService c => Sys2Proof.Machine.execRevokeService c s
  | .replaceOwner c proofOk => Sys2Proof.Machine.execReplaceOwner c proofOk s
  | .marginReport c => Sys2Proof.Machine.execMarginReport c s
  | .marginReplan c => Sys2Proof.Machine.execMarginReplan c s
  | .scrub c => Sys2Proof.Machine.execScrub c s
  | .flashVerify c => Sys2Proof.Machine.execFlashVerify c s
  | .laneInject c => Sys2Proof.Machine.execLaneInject c s
  | .opSuspend c => Sys2Proof.Machine.execOpSuspend c s
  | .opResume c => Sys2Proof.Machine.execOpResume c s
  | .opCancel c => Sys2Proof.Machine.execOpCancel c s
  | .trackSnapshot c => Sys2Proof.Machine.execTrackSnapshot c s
  | .suspendPointReached sess cmdId => Sys2Proof.Machine.execSuspendPointReached sess cmdId s
  | .imageStagingDone sess cmdId => Sys2Proof.Machine.execImageStagingDone sess cmdId s
  | .hqSqTail q v descs ring => Sys2Proof.Machine.execHqSqTail q v descs ring s
  | .hqCqHead q v => Sys2Proof.Machine.execHqCqHead q v s
  | .hqEvHead v => Sys2Proof.Machine.execHqEvHead v s
  | .queueEnable => Sys2Proof.Machine.execQueueEnable s
  | .queueDisable => Sys2Proof.Machine.execQueueDisable s
  | .queueDrained q => Sys2Proof.Machine.execQueueDrained q s
  | .eventRingEnable => Sys2Proof.Machine.execEventRingEnable s
  | .eventRingDisable => Sys2Proof.Machine.execEventRingDisable s
  | .hifResetHost => Sys2Proof.Machine.execHifResetHost s
  | .hifResetWarm => Sys2Proof.Machine.execHifResetWarm s
  | .pairCtrl v => Sys2Proof.Machine.execPairCtrl v s
  | .ethApply port => Sys2Proof.Machine.execEthApply port s
  | .registerWrite by_ addr size v => Sys2Proof.Machine.execRegisterWrite by_ addr size v s
  | .interruptHoldoffExpiry vec => Sys2Proof.Machine.execInterruptHoldoffExpiry vec s
  | .busyEnter => Sys2Proof.Machine.execBusyEnter s
  | .busyEnd => Sys2Proof.Machine.execBusyEnd s
  | .sessionTimeout sess => Sys2Proof.Machine.execSessionTimeout sess s
  | .tlsConnect port handshakeOk => Sys2Proof.Machine.execTlsConnect port handshakeOk s
  | .capsuleRx conn cap => Sys2Proof.Machine.execCapsuleRx conn cap s
  | .tlsClose conn => Sys2Proof.Machine.execTlsClose conn s
  | .hifLinkReset => Sys2Proof.Machine.execHifLinkReset s
  | .taskDone lane copy v => Sys2Proof.Machine.execTaskDone lane copy v s
  | .taskDispatch lane copy => Sys2Proof.Machine.execTaskDispatch lane copy s
  | .taskTrap lane copy cause addr => Sys2Proof.Machine.execTaskTrap lane copy cause addr s
  | .deliveryRequest lane cA cB => Sys2Proof.Machine.execDeliveryRequest lane cA cB s
  | .laneTimerExpiry lane => Sys2Proof.Machine.execLaneTimerExpiry lane s
  | .softwareInterrupt src dst => Sys2Proof.Machine.execSoftwareInterrupt src dst s
  | .wfi lane copy it flt => Sys2Proof.Machine.execWfi lane copy it flt s
  | .comparedItem lane copy it flt => Sys2Proof.Machine.execComparedItem lane copy it flt s
  | .skewTime lane => Sys2Proof.Machine.execSkewTime lane s
  | .readReturn lane errA errB => Sys2Proof.Machine.execReadReturn lane errA errB s
  | .interconnectTransaction t => Sys2Proof.Machine.execInterconnectTransaction t s
  | .l1ParityError lane copy line => Sys2Proof.Machine.execL1ParityError lane copy line s
  | .laneFaultFlashCommit => Sys2Proof.Machine.execLaneFaultFlashCommit s
  | .pairResetRequestTimeout => Sys2Proof.Machine.execPairResetRequestTimeout s
  | .laneWake => Sys2Proof.Machine.execLaneWake s
  | .laneParkTimeout => Sys2Proof.Machine.execLaneParkTimeout s
  | .cycleStart => Sys2Proof.Machine.execCycleStart s
  | .netStall => Sys2Proof.Machine.execNetStall s
  | .stillPoint => Sys2Proof.Machine.execStillPoint s
  | .inputClose w => Sys2Proof.Machine.execInputClose w s
  | .cycleMark m => Sys2Proof.Machine.execCycleMark m s
  | .outputCutoff => Sys2Proof.Machine.execOutputCutoff s
  | .downstreamWindow win late => Sys2Proof.Machine.execDownstreamWindow win late s
  | .heartbeatSend => Sys2Proof.Machine.execHeartbeatSend s
  | .mirrorTransferClose => Sys2Proof.Machine.execMirrorTransferClose s
  | .mirrorAckDeadline => Sys2Proof.Machine.execMirrorAckDeadline s
  | .inFrameRx ch f => Sys2Proof.Machine.execInFrameRx ch f s
  | .upstreamFrameAtGuardian branch seen f => Sys2Proof.Machine.execUpstreamFrameAtGuardian branch seen f s
  | .evtFrameRx ch f => Sys2Proof.Machine.execEvtFrameRx ch f s
  | .cfgResponseRx ch f => Sys2Proof.Machine.execCfgResponseRx ch f s
  | .delayReportRx ch t4 f => Sys2Proof.Machine.execDelayReportRx ch t4 f s
  | .cfgRequestTimeout branch tag => Sys2Proof.Machine.execCfgRequestTimeout branch tag s
  | .stationRetryTimer code => Sys2Proof.Machine.execStationRetryTimer code s
  | .joiningTimeout code => Sys2Proof.Machine.execJoiningTimeout code s
  | .countersPoll => Sys2Proof.Machine.execCountersPoll s
  | .timeTransfer linkDelay took offset content => Sys2Proof.Machine.execTimeTransfer linkDelay took offset content s
  | .listenTimerExpiry => Sys2Proof.Machine.execListenTimerExpiry s
  | .partnerCstartRx cs => Sys2Proof.Machine.execPartnerCstartRx cs s
  | .cstartStartTime => Sys2Proof.Machine.execCstartStartTime s
  | .contentionEnd => Sys2Proof.Machine.execContentionEnd s
  | .transferLossTimer => Sys2Proof.Machine.execTransferLossTimer s
  | .heartbeatRx hb => Sys2Proof.Machine.execHeartbeatRx hb s
  | .faultMessageRx hb req => Sys2Proof.Machine.execFaultMessageRx hb req s
  | .heartbeatLost => Sys2Proof.Machine.execHeartbeatLost s
  | .pairLaneFail k => Sys2Proof.Machine.execPairLaneFail k s
  | .pairAuth h => Sys2Proof.Machine.execPairAuth h s
  | .partnerContentRx win late f => Sys2Proof.Machine.execPartnerContentRx win late f s
  | .stationStateRx code st wasLost miss good losses refusal => Sys2Proof.Machine.execStationStateRx code st wasLost miss good losses refusal s
  | .pairConfigRx length buf next switchN => Sys2Proof.Machine.execPairConfigRx length buf next switchN s
  | .pairImageRx img => Sys2Proof.Machine.execPairImageRx img s
  | .changeAnnounceRx n => Sys2Proof.Machine.execChangeAnnounceRx n s
  | .mirrorBlockRx xfer block lines forceVer digest => Sys2Proof.Machine.execMirrorBlockRx xfer block lines forceVer digest s
  | .resendRequestRx block => Sys2Proof.Machine.execResendRequestRx block s
  | .closeBlockRx xfer blocks commit slice audit fin => Sys2Proof.Machine.execCloseBlockRx xfer blocks commit slice audit fin s
  | .transferAckRx xfer => Sys2Proof.Machine.execTransferAckRx xfer s
  | .snapshotTransferRx cycle lines complete => Sys2Proof.Machine.execSnapshotTransferRx cycle lines complete s
  | .baseChunkRx chunk => Sys2Proof.Machine.execBaseChunkRx chunk s
  | .baseCopyDone => Sys2Proof.Machine.execBaseCopyDone s
  | .vaneLineChange line asserted => Sys2Proof.Machine.execVaneLineChange line asserted s
  | .takeover => Sys2Proof.Machine.execTakeover s
  | .sentinelCheck => Sys2Proof.Machine.execSentinelCheck s
  | .noHolder => Sys2Proof.Machine.execNoHolder s
  | .slotBAssertWait => Sys2Proof.Machine.execSlotBAssertWait s
  | .switchFinalClose => Sys2Proof.Machine.execSwitchFinalClose s
  | .changeQ => Sys2Proof.Machine.execChangeQ s
  | .rollbackPeriodEnd => Sys2Proof.Machine.execRollbackPeriodEnd s
  | .pairResetIn => Sys2Proof.Machine.execPairResetIn s
  | .watchdogRestart => Sys2Proof.Machine.execWatchdogRestart s
  | .watchdogExpiry => Sys2Proof.Machine.execWatchdogExpiry s
  | .netActPushT lane time => Sys2Proof.Machine.execNetActPushT lane time s
  | .actCancel lane time => Sys2Proof.Machine.execActCancel lane time s
  | .localActInstant ch => Sys2Proof.Machine.execLocalActInstant ch s
  | .create lane residue => Sys2Proof.Machine.execCreate lane residue s
  | .delete lane => Sys2Proof.Machine.execDelete lane s
  | .setTag lane => Sys2Proof.Machine.execSetTag lane s
  | .move lane residue => Sys2Proof.Machine.execMove lane residue s
  | .unfreeze lane => Sys2Proof.Machine.execUnfreeze lane s
  | .lioTripClr group v => Sys2Proof.Machine.execLioTripClr group v s
  | .wbUpdateSet => Sys2Proof.Machine.execWbUpdateSet s
  | .wbUpdateClear => Sys2Proof.Machine.execWbUpdateClear s
  | .wbLoadSet => Sys2Proof.Machine.execWbLoadSet s
  | .wbRgnWrite r reg v => Sys2Proof.Machine.execWbRgnWrite r reg v s
  | .wbAbortedClear => Sys2Proof.Machine.execWbAbortedClear s
  | .wbUpdateTimeout => Sys2Proof.Machine.execWbUpdateTimeout s
  | .lioDebounceDone ch high edgeTime => Sys2Proof.Machine.execLioDebounceDone ch high edgeTime s
  | .lioBand ch => Sys2Proof.Machine.execLioBand ch s
  | .wireBreak ch below => Sys2Proof.Machine.execWireBreak ch below s
  | .lioOutputFault ch terminalHigh => Sys2Proof.Machine.execLioOutputFault ch terminalHigh s
  | .lioFaultClear ch => Sys2Proof.Machine.execLioFaultClear ch s
  | .overcurrentTrip ch => Sys2Proof.Machine.execOvercurrentTrip ch s
  | .thermalTrip ch => Sys2Proof.Machine.execThermalTrip ch s
  | .tripRetryExpiry ch => Sys2Proof.Machine.execTripRetryExpiry ch s
  | .supplySag group => Sys2Proof.Machine.execSupplySag group s
  | .supplyLow group => Sys2Proof.Machine.execSupplyLow group s
  | .supplyRise group => Sys2Proof.Machine.execSupplyRise group s
  | .supplyDip group => Sys2Proof.Machine.execSupplyDip group s
  | .recoveringTimerExpiry group levels => Sys2Proof.Machine.execRecoveringTimerExpiry group levels s
  | .ptpAnnounceRx port m => Sys2Proof.Machine.execPtpAnnounceRx port m s
  | .ptpSyncRx port m => Sys2Proof.Machine.execPtpSyncRx port m s
  | .ptpSyncTimeout => Sys2Proof.Machine.execPtpSyncTimeout s
  | .leapSecond insert => Sys2Proof.Machine.execLeapSecond insert s
  | .calendarDiscipline => Sys2Proof.Machine.execCalendarDiscipline s
  | .alarmFire => Sys2Proof.Machine.execAlarmFire s
  | .calendarEnd => Sys2Proof.Machine.execCalendarEnd s
  | .batteryTest mv => Sys2Proof.Machine.execBatteryTest mv s
  | .bkpSwitch => Sys2Proof.Machine.execBkpSwitch s
  | .gustRefill code => Sys2Proof.Machine.execGustRefill code s
  | .archiveCommit => Sys2Proof.Machine.execArchiveCommit s
  | .holdBufferFlush => Sys2Proof.Machine.execHoldBufferFlush s
  | .feedLoss feed mv => Sys2Proof.Machine.execFeedLoss feed mv s
  | .feedOvervoltage feed mv => Sys2Proof.Machine.execFeedOvervoltage feed mv s
  | .feedPath feed cause => Sys2Proof.Machine.execFeedPath feed cause s
  | .feedReturned feed mv => Sys2Proof.Machine.execFeedReturned feed mv s
  | .holdupVaneRelease => Sys2Proof.Machine.execHoldupVaneRelease s
  | .holdupCommit => Sys2Proof.Machine.execHoldupCommit s
  | .holdupDomainsOff => Sys2Proof.Machine.execHoldupDomainsOff s
  | .holdupEnd => Sys2Proof.Machine.execHoldupEnd s
  | .aonPowerLoss => Sys2Proof.Machine.execAonPowerLoss s
  | .powerGood slotHigh bkpOk => Sys2Proof.Machine.execPowerGood slotHigh bkpOk s
  | .domainFault d => Sys2Proof.Machine.execDomainFault d s
  | .domainGoodTimeout d => Sys2Proof.Machine.execDomainGoodTimeout d s
  | .clockFault src => Sys2Proof.Machine.execClockFault src s
  | .dramWipeDone => Sys2Proof.Machine.execDramWipeDone s
  | .lullServiceReached f => Sys2Proof.Machine.execLullServiceReached f s
  | .fullServiceReady verdicts => Sys2Proof.Machine.execFullServiceReady verdicts s
  | .fwStartTimeout => Sys2Proof.Machine.execFwStartTimeout s
  | .presentSettled => Sys2Proof.Machine.execPresentSettled s
  | .presentLost => Sys2Proof.Machine.execPresentLost s
  | .swapPress ms => Sys2Proof.Machine.execSwapPress ms s
  | .scrubPatrol addr uncorrectable => Sys2Proof.Machine.execScrubPatrol addr uncorrectable s
  | .rngFail => Sys2Proof.Machine.execRngFail s
  | .rngRetest ok => Sys2Proof.Machine.execRngRetest ok s
  | .marginMeasure kind inst value => Sys2Proof.Machine.execMarginMeasure kind inst value s
  | .marginDaily dates => Sys2Proof.Machine.execMarginDaily dates s
  | .debugToken t => Sys2Proof.Machine.execDebugToken t s
  | .debugHaltRequest lane => Sys2Proof.Machine.execDebugHaltRequest lane s
  | .debugResetRequest => Sys2Proof.Machine.execDebugResetRequest s
  | .debugAccess t => Sys2Proof.Machine.execDebugAccess t s
  | .stationSyncRx code ch f spacingOk ofs => Sys2Proof.Machine.execStationSyncRx code ch f spacingOk ofs s
  | .stationActRx code ch win f => Sys2Proof.Machine.execStationActRx code ch win f s
  | .stationActInstant code point => Sys2Proof.Machine.execStationActInstant code point s
  | .stationOutApply code => Sys2Proof.Machine.execStationOutApply code s
  | .stationWatchdogExpiry code => Sys2Proof.Machine.execStationWatchdogExpiry code s
  | .stationRestart code retains => Sys2Proof.Machine.execStationRestart code retains s
  | .stationCfgRequest code ch f => Sys2Proof.Machine.execStationCfgRequest code ch f s
  | .stationGuardFrame code ch seen f => Sys2Proof.Machine.execStationGuardFrame code ch seen f s
  | .partnerReportRx kind ok => Sys2Proof.Machine.execPartnerReportRx kind ok s
  | .stationInSend code ch latchDev => Sys2Proof.Machine.execStationInSend code ch latchDev s
  | .stationArbSend code ch startAt => Sys2Proof.Machine.execStationArbSend code ch startAt s
  | .stationOutRx code ch f => Sys2Proof.Machine.execStationOutRx code ch f s
  | .stationCstartRx code ch f => Sys2Proof.Machine.execStationCstartRx code ch f s
  | .stationSyncMissed code => Sys2Proof.Machine.execStationSyncMissed code s
  | .phyLinkChange port up => Sys2Proof.Machine.execPhyLinkChange port up s
  | .firmwareWarmRestart => Sys2Proof.Machine.execFirmwareWarmRestart s
  | .laneInjectTimeout => Sys2Proof.Machine.execLaneInjectTimeout s
  | .longOperationProgress sess cmdId done total ok => Sys2Proof.Machine.execLongOperationProgress sess cmdId done total ok s
  | .domainSupplyGood d => Sys2Proof.Machine.execDomainSupplyGood d s

end Sys2Proof.Machine
end

