-- ==== Sys2Proof/Safety.lean ====
section
/-! DEFINITION. What counts as a safe run, in the terms of the claims: the memory keeps its canonical form, and a step answers
a next state. -/

namespace Sys2Proof.Machine
open Sys2Proof

/-- The memory of the state is in canonical form. -/
def State.memOk (s : State) : Prop := memWf s.mem = true

/-- The outcome of a step is a next state. -/
def completes (o : Host.Outcome State Fault Refusal) : Prop := ∃ s, o = .next s

end Sys2Proof.Machine
end

