-- ==== Sys2Proof/Certificates/Slice0/Obligations.lean ====
section
/-! DEFINITION. The statements for the provers: what each command does where it takes effect, what it leaves alone, and what holds of the
whole machine. -/

namespace Sys2Proof
open Sys2Proof.Machine

/-! ## Words of the statements -/

/-- A host command passes the checks of 13 R345: it can be begun, checks 2 to 5 pass and a buffer to the host has a LENGTH. -/
def passes (s : State) (op : Nat) (c : Cmd) (dir : Nat) (inlOk : Bool) : Bool :=
  s.canBegin op c && (s.unqueue op c).checks op c dir inlOk (allowed s.keys.life (s.partyOf c) op) = none && (dir ≠ 2 || c.length ≠ 0)

/-- The state in which a command that has passed the checks begins its own rules: out of the backlog, its CMD_ID used up (13 R346). -/
def begun (s : State) (op : Nat) (c : Cmd) (dir : Nat) (inlOk : Bool) : State := (s.unqueue op c).useId op c dir inlOk

/-- The command answers this next state. -/
def answers (c : Instr) (s t : State) : Prop := exec c s = .next t

/-- The session that SESSION_OPEN begins, with the key and BOOT_LIMIT that its slot names and an ephemeral key (14 R386). -/
def openedSess (b : State) (c : Cmd) (k : Key × Nat) (eph : Key) : Sess :=
  { num := c.inf 2 2, party := c.inf 0 1, slot := c.inf 1 1, src := c.src, openedAt := b.clk.now, bootLimit := k.2, key := some k.1, eph := eph
    curRing := oldestSeq b.recd.ring b.recd.seq, curArch := oldestSeq b.recd.archive b.recd.seq }

/-- What SESSION_PROVE asks beside its signature: the LENGTH of the party, a Vendor key that the slot names, a Service key within BOOT_LIMIT, and on
queue 0 the Owner or Service (14 R387, R388, 13 R339). -/
def proveOk (b : State) (c : Cmd) (x : Sess) : Bool :=
  c.length = (if x.party = 1 then 128 else 96) && (x.party ≠ 1 || x.key = some (BitVec.ofNat 256 (c.buf.field 96 32))) &&
    (x.party ≠ 4 || b.keys.boot ≤ x.bootLimit) && (!onQueue0 c || x.party = 2 || x.party = 4)

/-- The seconds since 2000 that bytes 2 to 8 of INLINE give, 17 R448, and whether they are a valid value. -/
def inlSec (c : Cmd) : Nat := calSec (c.inf 2 2) (c.inf 4 1) (c.inf 5 1) (c.inf 6 1) (c.inf 7 1) (c.inf 8 1)
def inlValid (c : Cmd) : Bool := calValid (c.inf 2 2) (c.inf 4 1) (c.inf 5 1) (c.inf 6 1) (c.inf 7 1) (c.inf 8 1)

/-- The store that INLINE byte 1 names, as LOG_READ and LOG_EXPORT may read it: the archive, or the ring while it is served (18 R481). -/
def logAt (b : State) (c : Cmd) : Bool := c.inf 1 1 ≠ 0 || b.recd.served

/-- SEQ at which a reading begins, 16 R436. -/
def logFrom (b : State) (c : Cmd) : Nat :=
  startSeq (b.recd.store (c.inf 1 1)) b.recd.seq (c.inf 0 1) (b.cursor c (c.inf 1 1)) (c.inf 4 4)

/-- A reading with its answer: records, NEXT_SEQ, OLDEST_SEQ, RFLAGS (16 R437). -/
def logGot (b : State) (c : Cmd) : List Rec × Nat × Nat × Nat :=
  readLog (b.recd.store (c.inf 1 1)) b.recd.seq (logFrom b c) c.length (c.inf 8 4)

/-- The entries of FORCE_RELEASE that a condition selects and no earlier change already releases (04 R112). -/
def freedBy (b : State) (sel : Force → Bool) (f : Force) : Bool := sel f && !b.releasing f.point

/-- A change begun: nothing staged in this module yet, the partner's report awaited where it shares the duty. -/
def stagingBegun (s : State) (w : Option ReportKind) : State := { s with chg := { s.chg with ownOk := false, partnerWait := w } }

/-- The state of a change that is made at Q: split tasks halted, the new table, memory migrated, tables laid, lane modes set, tracking configuration
and forces following the new image (12 R318). -/
def changedAtQ (s : State) (c : Change) : State :=
  ((((({ s with cyc := { s.cyc with holdRel := true } } : State).haltSplit.loadTable (some c.img)).migrate (s.rulesOf c) c.img.body).layTables
    c.img.body).laneModes c.img.body).changeTracking c.img.body |>.changeForces c

/-- The long operation of FW_STAGE and of FW_HANDOVER. -/
def fwRun (b : State) (c : Cmd) (img : AppImage) : Run := mkRun 0x0070 c (b.partyOf c) true c.length (.fwStage img)
def hoRun (b : State) (c : Cmd) : Run := mkRun 0x0071 c (b.partyOf c) true 8 .handover

/-- A transaction goes straight to its target: no update holds the gate, the Windbreak refuses nothing, the target's domain and clock run
(15 R419, 01 R15, R21, R22). -/
def reaches (s : State) (t : Txn) : Bool :=
  !s.wb.held && !barBad t && (s.refusal t).isNone && s.powered t.addr && !s.atParked t.addr && !s.clockHeld t.addr

/-- The transaction of a register write through BAR0. -/
def barWrite (a size : Nat) (v : Word) : Txn := { cls := 4, kind := 1, addr := a, size := size, data := le 8 (BitVec.toNat v), posted := true }

/-- A transaction that no compared lane issues, of NET, an engine, MGT, HOST or DBG, or of a split copy that executes (03 R59). -/
def issues (s : State) (t : Txn) : Bool :=
  2 < t.cls.val || ((s.laneAt t.lane.val).split && s.copyGoes t.lane.val t.copy)

/-- What the end of an update leaves, before the gate opens: armed, counted, with the time of its hold (15 R414, R419). -/
def updated (s : State) : State :=
  { s with wb := { s.wb with armed := true, updates := min 65535 (s.wb.updates + 1), lastHold := s.clk.now - s.wb.since } }

/-- A copy of a compared lane that emits: not in a WAIT, its island on, no throttle, nothing injected, nothing muted. -/
def emits (s : State) (l : Nat) (c : Side) : Bool :=
  s.comparing l && (s.laneAt l).wait.isNone && !((s.laneAt l).copy c).waiting && !((s.laneAt l).copy c).dead && s.lanes.inject.isNone &&
    !((s.laneAt l).copy c).muted

/-- The entry that a copy writes for an item. -/
def skewEntry (s : State) (l : Nat) (c : Side) (i : Item) : SkewEnt :=
  { num := ((s.laneAt l).copy c).items + 1, at_ := s.clk.now
    item := formItem i (((s.laneAt l).copy c).items + 1) ((s.laneAt l).copy c).checks (s.cacheable l i.addr.toNat) }

/-- A command on a long operation passes the checks of 13 R345 under the permission of its issuer over the target (13 R372, 14 R390). -/
def passesOn (s : State) (op : Nat) (c : Cmd) : Bool :=
  s.canBegin op c && (s.unqueue op c).checks op c 0 (c.inlZero 6) (opAllowed s c op) = none

/-- The entry of an OP_SUSPEND and of an OP_CANCEL that wait for their target. -/
def suspendWait (b : State) (c : Cmd) (r : Run) : Run := mkRun 0x00E0 c (b.partyOf c) false 0 (.opSuspend r.session r.cmdId.toNat)
def cancelWait (b : State) (c : Cmd) (r : Run) : Run := mkRun 0x00E2 c (b.partyOf c) false 0 (.opCancel r.session r.cmdId.toNat)

/-- The fault that LANE_INJECT arms, 03 R91. -/
def armed (c : Cmd) : Inject :=
  { lane := c.inf 1 1, copy := if c.inf 2 1 = 0 then .a else .b, kind := c.inf 3 1, bit := c.inf 4 2, left := c.inf 8 4
    session := c.session.toNat, cmdId := c.cmdId.toNat }

/-- A life-cycle command passes the checks of 13 R345 under its own permission (14 R399, R402). -/
def lifePasses (s : State) (c : Cmd) (dir : Nat) : Bool :=
  s.canBegin 0x00B0 c && (s.unqueue 0x00B0 c).checks 0x00B0 c dir (lifeRes c) (s.lifeAllowed c) = none && (dir ≠ 2 || c.length ≠ 0)

/-- The long operation of LIFECYCLE_ADVANCE: the state it goes to, its new Owner, serial number and certificate (14 R399, R401). -/
def lifeRun (b : State) (c : Cmd) : Run :=
  mkRun 0x00B0 c (b.partyOf c) true 5 (.lifecycle {
    target := c.inf 0 1, owner := if b.keys.life = 1 && c.inf 0 1 = 2 then some (BitVec.ofNat 256 (c.buf.field 0 32)) else none
    serial := if b.keys.life = 0 then c.buf.field 64 8 else b.keys.serial
    cert := if b.keys.life = 0 && c.inf 0 1 = 1 then some (BitVec.ofNat 512 (c.buf.field 80 64)) else none })

/-- A margin after a measurement, and the state of the day's end: history, hours, patrol, days and predictions (19 R490 to R492). -/
def measuredMargin (s : State) (i : Nat) (v : Int) : State :=
  s.onMargins fun j x => if i = j then { x with value := v, low := some (match x.low with | some l => min l v | none => v) } else x
def dayKept (s : State) : State :=
  ({ s with mgn := { s.mgn with
      log := s.mgn.log ++ [(s.mgn.hours, s.mgn.m.toList.map fun m => m.low.getD m.value)], hours := s.mgn.hours + 24
      patrol := patrolNext s.mgn.patrol s.mgn.corrected, corrected := 0 } } : State).onMargins fun _ m =>
    if m.low.isSome then { m with days := m.days + 1, low := none } else m

/-- The item of a write of a word by the code that the lane runs, and the transaction that goes on when it has been compared (03 R60, R68). -/
def laneItem (s : State) (l : Fin 8) (a : Nat) (v : Word) : Item :=
  formItem (writeItem (s.lanePriv l.val .a) a 8 v) ((s.laneAt l.val).a.items + 1) (s.laneAt l.val).a.checks (s.cacheable l.val a)
def laneHeld (s : State) (l : Fin 8) (a : Nat) (v : Word) : Held :=
  { t := itemTxn l.val (laneItem s l a v) .none, item := some (laneItem s l a v), lane := l.val, num := (s.laneAt l.val).a.items + 1, lead := 0 }

/-- Both copies of a compared lane have emitted that item: their buffers are empty again, and the item goes on. -/
def paired (s : State) (l : Fin 8) (a : Nat) (v : Word) : State :=
  s.onLane l.val fun x => { x with
    a := { x.a with items := x.a.items + 1, waiting := false, exc := none, skew := [] }
    b := { x.b with items := x.b.items + 1, waiting := false, exc := none, skew := [] }
    awaiting := x.awaiting ++ [{ num := x.a.items + 1, lead := 0, item := laneItem s l a v }] }

/-- A write by the code of a compared lane takes effect at once: both copies emit and have emitted as much, their buffers are empty, and the write
reaches its target (03 R59 to R68, 15 R419). -/
def carries (s : State) (l : Fin 8) (a : Nat) (v : Word) : Bool :=
  !(s.laneAt l.val).split && s.copyGoes l.val .a && s.copyGoes l.val .b && emits s l.val .a && emits s l.val .b &&
    (s.laneAt l.val).a.skew = [] && (s.laneAt l.val).b.skew = [] && (s.laneAt l.val).a.items = (s.laneAt l.val).b.items &&
    reaches (paired s l a v) (laneHeld s l a v).t

/-- The state after such a write whose register's effect is `f`. -/
def carried (s : State) (l : Fin 8) (a : Nat) (v : Word) (f : State → State) : State :=
  (((f (paired s l a v)).answer []).done (laneHeld s l a v)).injectRepair l.val (laneItem s l a v).addr.toNat

/-- The push of an entry by a lane: its effect, 08 R207. -/
def pushes (l : Fin 8) (time : Word) (s : State) : State := s.push l.val (s.act.pushA.toList.getD l.val 0) time

/-- Masters heard on a port, in the domain and on the transport of the time source block, with this one's announcement put in (08 R203). -/
def heardMasters (s : State) (p : Fin 2) (m : Announce) : List (Nat × Announce) :=
  (p.val, m) :: s.act.masters.filter fun x => !(x.1 = p.val && x.2.source = m.source)

/-- A Sync of the master that is selected, in its domain and transport (08 R204, R206). -/
def oursSync (s : State) (p : Fin 2) (m : PtpSync) : Bool :=
  s.act.master.map (fun x => (x.1, x.2.source)) = some (p.val, m.source) && m.domain = s.timeSrc.domain && m.transport = s.timeSrc.transport

/-- Take a trip: its code, its instant, its count; then the switch opens and the fault is written (10 R270, R274). -/
def tripped (s : State) (ch code : Nat) : State :=
  s.onLch ch fun c => { c with trip := some code, tripAt := s.clk.now, lastTrip := some s.clk.now, trips := satAdd 64 c.trips 1 }

/-- The first trip for a second, 10 R270. -/
def freshTrip (s : State) (ch : Nat) : Bool :=
  match (s.lch ch).lastTrip with
  | some t => t + 1000000000 ≤ s.clk.now
  | none => true

/-- A channel's trip is gone; what else stands is its fault, and its switch follows (10 R270). -/
def untripped (s : State) (ch : Nat) : State :=
  ((s.onLch ch fun c => { c with trip := none, clrHeld := false }).onLch ch fun c => { c with fault := c.standing }).switches

/-- A supply that lets outputs work: VALID or SAG (10 R273). -/
def upSupply (u : Supply) : Bool := u = .valid || u = .sag

/-- A level of the group's inputs as they show it, and the clears that were held take effect (10 R265, R273). -/
def supplyBack (g : Side) (lv : BitVec 8) (s : State) (c : Nat) : State :=
  let k := s.onLch (8 * g.num + c) fun x => if x.cfg.mode = 1 then { x with level := lv.getLsbD c } else x
  if (k.lch (8 * g.num + c)).clrHeld then k.clearTrip (8 * g.num + c) else k

/-- The command window of a lane, 09 R234. -/
def trkWin (s : State) (l : Fin 8) : CmdWin := s.trk.win.toList.getD l.val {}

/-- Segment and object that a command window names. -/
def segNo (w : CmdWin) : Nat := (w.seg &&& 0x3FFF).toNat
def objNo (w : CmdWin) : Nat := (w.obj.setWidth 32).toNat

/-- The five commands with their operation codes. -/
def trkOps (l : Fin 8) : List (Nat × Instr) := [(1, .create l false), (2, .delete l), (3, .setTag l), (4, .move l false), (5, .unfreeze l)]

/-- The verdict over the residues of a command stands while it is executed (09 R235). -/
def residue (s : State) (r : Bool) : State := s.onTrk fun t => { t with cmdFlt := r }

/-- The address of TRK_CMD_GO of a lane, and the result that a command leaves in its window (09 R234). -/
def goAddr (l : Fin 8) : Nat := trkWindow l.val + 0x30
def leaves (s : State) (l : Fin 8) (w : CmdWin) (code obj : Nat) : State :=
  s.onTrk fun t => { t with win := t.win.setIfInBounds l.val { w with code := code, robj := obj } }

/-- The object that CREATE makes of a command window, before it is placed (09 R236). -/
def madeObj (s : State) (w : CmdWin) : Obj :=
  { num := freeFrom 0 s.trk.objs, offset := 0, seg := segNo w, tag := w.tag.setWidth 32, id := w.id, createTime := s.netTime
    length := (w.tag >>> 32).toNat, user := w.user.setWidth 32 }

/-- Length of a network configuration buffer, 13 R366. -/
def cfgLen (b : Buf) : Nat := 66048 + 16 * b.field 28 4

/-- A NET_CONFIGURE with this NEXT bit that passes every check of R368 at a primary with no configuration or start under way (13 R366 to R368). -/
def goodConfig (s b : State) (c : Cmd) (next : Nat) : Prop :=
  b = begun s 0x0080 c 1 (c.inf 0 4 < 2 && c.inlZero 4) ∧ passes s 0x0080 c 1 (c.inf 0 4 < 2 && c.inlZero 4) = true ∧ c.inf 0 4 = next ∧
    b.primary = true ∧ b.running 0x0080 = false ∧ b.running 0x0081 = false ∧ b.net.switchCfg = none ∧ c.length = cfgLen c.buf ∧
    b.netOk c.buf (parseNet c.buf) = true ∧ b.fits 1 (c.buf.bytes 0 c.length) = true

/-- A configuration is held as the next one and kept in settings block 0x0001. -/
def heldNext (b : State) (x : NetCfg) : State :=
  ({ b with net := { b.net with next := some x, stored := some x } } : State).wroteBlock 1

/-- A configuration for use now is kept in settings block 0x0001, its RANK and its time source block taken at once (05 R142, 08 R204). -/
def takenNow (b : State) (x : NetCfg) : State :=
  (({ (b.storeCfg x) with net := { (b.storeCfg x).net with rank := x.rank } } : State).setSrc x.src)

/-- The CSTART that a proposing module sends, 06 R161, 05 R150. -/
def ownCstart (s : State) (c : NetCfg) : CStart :=
  { cycle := 0, startTime := roundUp (s.netTime + 2 * c.t) 1000, tNs := c.t, rank := rankIn s.net.rank s.slot, round := s.net.round
    slot := s.slot }

/-- The mark's interrupt at every lane that enables it and runs (02 R46). -/
def markLanes (s : State) (m : Fin 16) : State :=
  (List.range 8).foldl (fun s l =>
    if (s.laneAt l).markEn.getLsbD m.val && !(s.laneAt l).halted then s.atDelivery l (.mark m.val s.cyc.n) else s) s

/-- Releases of the tasks of a mark, with the first releases after APP_START where they are due (02 R46, R52). -/
def markTasks (s : State) (m : Fin 16) : State :=
  let due := s.tasks.filter fun t => t.kind = .mark && t.mark = m.val && s.cyc.n % 2 ^ t.e = t.phase
  due.foldl (fun s t => s.release { task := t.num, src := 1, bytes := [] }) (if due.isEmpty then s else s.firstReleases)

/-- The cut-off before the snapshot: forces take effect, the outputs stand (04 R109, R115, R116, 02 R55). -/
def cutReady (s : State) (c : NetCfg) : State :=
  let k := s.reachNet (s.cycleStart + c.o)
  (((k.effectForces true).forceCame k.comingForces).lullOver.readyOutputs).forceCancels (s.cycleStart + c.o)

/-- The snapshot, and the frames that the holder makes of it (02 R36, 07 R196, 08 R209). -/
def cutTaken (s : State) (c : NetCfg) : State :=
  (((cutReady s c).forceOutputs ((cutReady s c).outputs c)).1).takeOutputs ((cutReady s c).forceOutputs ((cutReady s c).outputs c)).2
def cutSent (s : State) (c : NetCfg) : State :=
  let k := (cutTaken s c).stnM.foldl (fun s x => if s.holder then s.sendOut c x else s) (cutTaken s c)
  if k.holder then k.sendAct c else k

/-- What a complete transfer writes: its lines in block order, which a slice that differed may have lacked (11 R292, R295). -/
def written (s : State) (c : CloseBlk) : State :=
  (s.writeLines (s.stagedLines c.xfer c.blocks)).auditGot fun a => (s.stagedLines c.xfer c.blocks).any (·.addr = a)

/-- It is applied in one step, with COMMIT where it carries it, and acknowledged (11 R292, 12 R318). -/
def applied (s : State) (c : CloseBlk) : State :=
  let k : State := { written s c with pair := { (written s c).pair with staging := [], differed := [], heldClose := none, xferSeq := c.xfer } }
  let k := if c.commit.isSome then k.standbySwitch else k
  ((k.send (.ack c.xfer)).takeFinal c.fin).takeSnapshots true

/-- A standby that receives the close of a transfer: it holds the close block, with no rejoin to be suspended (11 R292, R307). -/
def closing (s : State) (c : CloseBlk) : State := { s with pair := { s.pair with heldClose := some c } }
def takesClose (s : State) (x : Nat) : Bool :=
  s.receiving && !decide (s.pair.voided = some x) && !s.rejoinStands && !(s.host.runs.any fun r => r.suspendDue && isRejoin r)

/-- The instant of a deadline for the acknowledgement (11 R293, R305), and an acknowledgement that comes in time. -/
def atAckLimit (s : State) (final : Bool) : State := if s.cyc.running then s.reachNet (s.ackLimit final) else s
def ackInTime (s : State) (final : Bool) : Bool := !(s.cyc.running && decide (s.ackLimit final < s.netTime))

/-- The transfer that waits is closed by its acknowledgement (11 R293). -/
def acked (s : State) (q : Nat) : Pair :=
  { s.pair with xferSeq := q, unacked := none, shipped := [], unackedCommit := false, lost := 0 }

/-- A heartbeat is held as the partner's last (11 R284, R285). -/
def heard (s : State) (h : Heartbeat) : State :=
  { s with pair := { s.pair with
    hb := some h, hbAt := s.clk.now, hbLost := false
    leave := if s.pair.partnerPrim && (h.role = 1 || h.role = 4) then s.pair.leave else 0
    partnerPrim := h.role = 1 || (s.pair.partnerPrim && s.pair.other) } }

/-- A level of a VANE line as it stands at the pins. -/
def lineSeen (s : State) (line : Side) (v : Bool) : State :=
  if line = s.slot then { s with pair := { s.pair with own := v } }
  else { s with pair := { s.pair with
    other := v, otherOffAt := if s.pair.other && !v then s.clk.now else s.pair.otherOffAt, takeFrom := if v then none else s.pair.takeFrom
    noHolder := s.pair.noHolder && !v } }

/-- The module has given up its VANE line, where it drives it. -/
def vaneOff (s : State) : State := if s.pair.drive then s.releaseVane else s

/-- The feed's voltage is known, and a path fault (18 R462, R463). -/
def feedAt (s : State) (k : Side) (mv : Nat) : State := s.onFeed k fun f => { f with mv := mv }
def pathBad (s : State) (k : Side) (cause : Nat) : State :=
  (s.onFeed k fun f => { f with pathFault := true }).recordFor 0x0F02 (srcOf 14 0) k.num (items [k.num, cause]) 0 false

/-- A feed is in range again (18 R462). -/
def feedBack (s : State) (k : Side) (mv : Nat) : State := s.onFeed k fun f => { f with valid := true, mv := mv }

/-- The line is released where the primary's traffic ends, and the role OUT (18 R466, 11 R309). -/
def holdupRelease (s : State) : State :=
  let k := vaneOff (match s.pair.releaseAt with
    | some t => s.reachNet t
    | none => s)
  if k.primary then k.setRole .out else k

/-- A sound self-test: every comparator gives the verdicts of 03 R79. -/
def soundTest : List (List (Bool × Bool)) := List.replicate 9 soundVerdicts

/-- What Lull service begins with: the table where none was loaded, the seals, the key list and the settings as they were found (18 R477, R481). -/
def foundAt (s : State) (f : StartFind) : State :=
  (((if s.wb.armed then s else s.loadTable none).checkSeals f.sealRegions f.sealRing).readKeys f.keyList f.keyOlder).readSettings f.bad

/-- Lull service is reached: counted, the lockout judged, the management lane running (18 R481, R489, 03 R85). -/
def lullBegun (k : State) : State :=
  ({ k with
    pwr := { k.pwr with lullService := true, st := .lull, starting := false }
    pair := { k.pair with lullAt := k.clk.now }
    chg := { k.chg with failsWas := k.chg.fails, fails := 0 }
    keys := { k.keys with lullCount := satAdd 32 k.keys.lullCount 1 }
    lanes := { k.lanes with lockout := k.lanes.lockout || 3 ≤ k.faultsIn24h } } : State).onLane 8 fun l => { l with halted := false, parked := false }

/-- A domain's supply has failed while running: shown and recorded (18 R470). -/
def domainBad (s : State) (d : Fin 12) : State :=
  ({ s with pwr := { s.pwr with good := s.pwr.good &&& ~~~domBit d.val, faulted := s.pwr.faulted ||| domBit d.val } } : State).recordFor 0x0F04
    (srcOf 14 0) d.val (items [d.val]) 0 false

/-- A press of the swap button is kept (22 R546, 18 R486). -/
def pressed (s : State) : State := { s with keys := { s.keys with swapAt := some s.clk.now } }

/-- A part of an IN stream joins the hidden bank, unless its number is there already: the first valid copy (05 R126). -/
def inBanked (s : State) (f : Frame) : State :=
  s.onStnM f.addr.toNat fun x => if x.parts.any (·.num = f.part) then x
    else { x with parts := x.parts ++ [{ num := f.part, last := f.last, bytes := f.payload, flags := f.flags }] }

/-- An IN window of the station serves it in the cycle and has room for the part. -/
def inFits (c : NetCfg) (f : Frame) (n : Nat) : Bool := (c.winsOf f.addr.toNat 0x10).any fun w =>
  w.serves n && winPart w = f.part && winLast w = f.last && f.length ≤ w.len

/-- A request is overdue on the branch: sent 64 basic cycles ago without a response (05 R556). -/
def overdue (s : State) (b : Fin 16) (tag : Nat) : Option CfgReq :=
  s.net.reqs.find? fun r => codeBranch r.code = b.val && r.tag = tag && (match r.sentN with
    | some k => k + 64 ≤ s.cyc.n
    | none => false)

/-- The module's own instance of the station's state and counts, as the holder gave them (07 R193). -/
def adopted (s : State) (code : Nat) (st : SSt) (w : Bool) (miss good losses refusal : Nat) : State := s.onStnM code fun x =>
  { x with st := st, wasLost := w, miss := miss, good := good, losses := losses, refusal := refusal
           since := if x.st = st then x.since else s.cyc.n, withheld := st ≠ .included }

/-- The cycle from which a reintegrated station's inputs and outputs are used (07 R200). -/
def backFrom (s : State) : Nat := if s.cyc.snapN = some s.cyc.n then s.cyc.n + 1 else s.cyc.n

/-- What a frame that a station takes leaves behind: counted, acted on, forwarded. -/
def tookFrame (s : State) (code : Nat) (ch : Side) (f : Frame) (x : Stn) (act : Stn → Stn) : State :=
  (s.setStn (act (x.countDown ch .take))).forwarded code ch f

/-- The OUT window of the part that serves the station in its cycle. -/
def outWin (x : Stn) (code : Nat) (f : Frame) : Option WinEnt :=
  x.wins.find? fun w => w.down && w.owner = code && w.ty = 0x20 && w.serves x.n && winPart w = f.part

/-- A part of the OUT stream is kept from its first copy; the first of a cycle begins anew (05 R152). -/
def outKept (x : Stn) (f : Frame) : Stn :=
  let y := x.seeFlags f
  let y := if y.partsN = y.n then y else { y with parts := [], partsN := y.n }
  if y.parts.any (·.num = f.part) then y
  else { y with parts := y.parts ++ [{ num := f.part, last := f.last, bytes := f.payload, flags := f.flags }] }

/-- The still point of the station's cycle, with the number of its pending entries. -/
def atStill (x : Stn) : Stn := { x with still := some (x.n, x.queue.length) }

/-- The station may start a frame of its own in the arbitrating window (05 R140, 06 R172). -/
def arbFree (x : Stn) (ch : Side) (at_ : Nat) : Bool :=
  let k := x.ch ch
  x.nst ≠ .listen && !k.arbSent && k.linkUp && k.idleAt at_ &&
    decide (x.t ≤ at_ + (if x.nst = .synced && k.held then k.pdUp.getD 0 else 0) + x.arb)

/-- A frame of `len` bytes ends at the star 500 ns before T. -/
def arbFits (x : Stn) (ch : Side) (at_ len : Nat) : Bool := at_ + x.margin ch + frameNs len + 500 ≤ x.t

/-- A response that can go. -/
def respDue (x : Stn) (ch : Side) (at_ : Nat) : Option (Side × Nat × List Byte) :=
  x.resps.find? fun r => r.1 = ch && r.2.1 < x.n && arbFits x ch at_ r.2.2.length

/-- The guardian's judgement does not depend on the band of 06 R179. -/
def guardSure (x : Stn) (ch : Side) (seen : Seen) (f : Frame) (v : Pass) : Prop :=
  x.judgeUp (((x.ch ch).pdUp.getD 0) + (x.ch ch).fwdUp) guardNs seen f = v ∧
    x.judgeUp (((x.ch ch).pdUp.getD 0) + (x.ch ch).fwdUp) (guardNs + 8) seen f = v

/-- The commands at a station. -/
def stationCmd : Instr → Bool
  | .stationSyncRx .. | .stationActRx .. | .stationActInstant .. | .stationOutApply .. | .stationWatchdogExpiry .. | .stationRestart ..
  | .stationCfgRequest .. | .stationGuardFrame .. | .stationInSend .. | .stationArbSend .. | .stationOutRx .. | .stationCstartRx ..
  | .stationSyncMissed .. => true
  | _ => false

/-- A leap year of the Gregorian calendar. -/
def leapYear (y : Nat) : Prop := y % 4 = 0 ∧ (y % 100 ≠ 0 ∨ y % 400 = 0)

/-- The length of a month. -/
def daysIn (y m d : Nat) : Prop :=
  (m = 4 ∨ m = 6 ∨ m = 9 ∨ m = 11 → d ≤ 30) ∧ (m = 2 → d ≤ 29 ∧ (d = 29 → leapYear y)) ∧ d ≤ 31

/-- A command of the host fails check 5 alone (13 R345). -/
def deniedTo (s : State) (op : Nat) (c : Cmd) (dir : Nat) (inlOk : Bool) : Bool :=
  c.src ≠ .self && s.canBegin op c && resOk c inlOk && bufOk c dir && !(dir = 1 && 0 < c.length && !dmaOk c) && (s.unqueue op c).sessOk op c

end Sys2Proof

open Sys2Proof Sys2Proof.Machine


/-! ## Host interface, 13 -/

/-- NOP, the session commands and the session time-out, where they take effect (13 R339, R362, 14 R386 to R389): NOP only completes; SESSION_OPEN
of a filled slot with a free number begins the session, with an ephemeral key drawn, and answers its response; SESSION_PROVE with a good signature
and a shared secret that is not zero proves the session and answers party, slot and BOOT_LIMIT; SESSION_CLOSE removes its session; a session
still OPENED 10 s after SESSION_OPEN is closed with the event. -/
def Obligations.SessionCommandsComplete : Prop :=
  (∀ c s, passes s 0x0001 c 0 (c.inlZero 0) = true →
    answers (.nop c) s ((begun s 0x0001 c 0 (c.inlZero 0)).final 0x0001 c stOk dNone)) ∧
  (∀ c s b k d e, b = begun s 0x0010 c 2 (c.inlZero 4) → passes s 0x0010 c 2 (c.inlZero 4) = true → c.length = 240 → c.inf 2 2 ≠ 0 →
    b.keyAt (c.inf 0 1) (c.inf 1 1) = some k → b.sessOf (c.inf 2 2) = none → b.host.sess.length < 32 → b.keys.rngFail = false →
    d = b.draw.2 → e = first32 b.draw.1 →
    answers (.sessionOpen c) s (({ d with host := { d.host with sess := d.host.sess ++ [openedSess b c k e] } } : State).finalData 0x0010 c stOk
      (BitVec.ofNat 64 (c.inf 2 2)) 0 (openResponse d (c.inf 2 2) e))) ∧
  (∀ c s b x shared k, b = begun s 0x0011 c 1 (c.inlZero 0) → passes s 0x0011 c 1 (c.inlZero 0) = true →
    b.sessOf c.session.toNat = some x → proveOk b c x = true → shared ≠ 0 →
    k = commandKey shared (Config.x25519Base x.eph) (BitVec.ofNat 256 (c.buf.field 0 32)) b.keys.serial x.num →
    answers (.sessionProve c true shared) s
      ((b.onSess x.num fun y => { y with proven := true, eph := 0, ck := k }).final 0x0011 c stOk dNone
        (BitVec.ofNat 64 (x.party + 256 * x.slot)) (BitVec.ofNat 64 (if x.party = 4 then x.bootLimit else 0)))) ∧
  (∀ c s, passes s 0x0012 c 0 (c.inlZero 0) = true →
    answers (.sessionClose c) s (((begun s 0x0012 c 0 (c.inlZero 0)).dropSess c.session.toNat).final 0x0012 c stOk dNone)) ∧
  (∀ n s x, s.sessOf (BitVec.toNat n) = some x → x.proven = false →
    answers (.sessionTimeout n) s ((s.reach (x.openedAt + 10000000000)).closeSess x.num 3))

/-- Queues, doorbells, event ring, interrupts and BUSY (13 R336 to R338, R342, R343, R356, R358, R375, 21 R516 to R518). A good SQ tail is kept and
the entries from SQ_HEAD up to it are fetched, whether it moved on or back; a tail at or beyond SIZE puts the queue in ERROR with reason 1. A good
CQ head frees entries and posts what was held; a head at or beyond SIZE puts the queue in ERROR with reason 2. A good event head frees entries of a
ring that dropped nothing. A disabled queue with a size is enabled with its positions zero and PHASE 1, one without a size is a setup error; an
enabled queue is stopped, its sessions closed with reason 1; a draining queue becomes DISABLED. The event ring is enabled; disabled, it is DRAINING
for at most 100 µs, then DISABLED. A deferred message goes out at the end of its holdoff, or pends where the vector is masked. BUSY is entered once
with its event, and ends 1 ms after the backlog fell to 16, with its event and a fetch of every queue. Points that the spec leaves open are the
model's choice: log entries 6 and 48. -/
def Obligations.RingsComplete : Prop :=
  (∀ (q : Fin 8) v descs h s, h = s.hq q.val → h.st = .enabled → BitVec.toNat v < 4096 → BitVec.toNat v < h.size →
    (BitVec.toNat v + h.size - h.sqHead) % h.size ≤ h.posted.length + descs.length →
    answers (.hqSqTail q v descs .ok) s
      ((s.onHq q.val fun h => { h with sqTail := v.toNat, posted := postedBy h v.toNat descs }).fetch q.val)) ∧
  (∀ (q : Fin 8) v descs ok s, (s.hq q.val).st = .enabled → (s.hq q.val).size ≤ BitVec.toNat v →
    answers (.hqSqTail q v descs ok) s (s.queueError q.val 1)) ∧
  (∀ (q : Fin 8) v d s, (s.hq q.val).st = .enabled → BitVec.toNat v < (s.hq q.val).size →
    d = (BitVec.toNat v + (s.hq q.val).size - (s.hq q.val).cqHead) % (s.hq q.val).size → d ≤ (s.hq q.val).used →
    answers (.hqCqHead q v) s
      ((s.onHq q.val fun h => { h with cqHead := v.toNat, used := h.used - d, cq := h.cq.drop d }).flushCq q.val)) ∧
  (∀ (q : Fin 8) v s, (s.hq q.val).st = .enabled → (s.hq q.val).size ≤ BitVec.toNat v →
    answers (.hqCqHead q v) s (s.queueError q.val 2)) ∧
  (∀ v d s, s.host.ev.st = .enabled → s.host.ev.lostNow = 0 → BitVec.toNat v < s.host.ev.size →
    d = (BitVec.toNat v + s.host.ev.size - s.host.ev.head) % s.host.ev.size → d ≤ s.host.ev.used →
    answers (.hqEvHead v) s { s with host := { s.host with ev :=
      { s.host.ev with head := v.toNat, used := s.host.ev.used - d, ents := s.host.ev.ents.drop d } } }) ∧
  (∀ s, (s.hq s.host.sel).st = .disabled → 0 < (s.hq s.host.sel).size →
    answers .queueEnable s (s.onHq s.host.sel fun h =>
      { h with st := .enabled, err := 0, sqHead := 0, sqTail := 0, cqHead := 0, cqPost := 0, phase := true, used := 0
               posted := [], backlog := [], cq := [], waiting := [] })) ∧
  (∀ s, (s.hq s.host.sel).st = .disabled → (s.hq s.host.sel).size = 0 → answers .queueEnable s (s.setupError 0x0008 1)) ∧
  (∀ (q : Fin 8) s, s.host.sel = q.val → (s.hq q.val).st = .enabled →
    answers .queueDisable s ((((s.onHq q.val fun h => { h with st := .draining, posted := [], backlog := [], waiting := [] }).orphan
      (.queue q)).closeAll (fun x => x.src = .queue q) 1))) ∧
  (∀ (q : Fin 8) s, (s.hq q.val).st = .draining → answers (.queueDrained q) s (s.onHq q.val HQ.drain)) ∧
  (∀ s, s.host.ev.st = .disabled → 0 < s.host.ev.size →
    answers .eventRingEnable s { s with host := { s.host with ev :=
      { st := .enabled, base := s.host.ev.base, size := s.host.ev.size, vector := s.host.ev.vector, holdoff := s.host.ev.holdoff } } }) ∧
  (∀ s, s.host.ev.st = .enabled ∨ s.host.ev.st = .error → ∃ d, d ≤ 100000 ∧ answers .eventRingDisable s { s.drawNat.2 with host :=
    { s.host with ev := { s.host.ev with st := .draining, drainEnd := s.clk.now + d } } }) ∧
  (∀ (r : EvRing) t, r.st = .draining → (r.drainEnd ≤ t → r.at_ t = r.stop) ∧ (t < r.drainEnd → r.at_ t = r)) ∧
  (∀ (v : Fin 16) s, (s.host.msi[v]).due = true → (s.host.msi[v]).masked = false →
    answers (.interruptHoldoffExpiry v) s { s.reach (s.host.msi[v]).dueAt with host := { s.host with
      msi := s.host.msi.set v.val { s.host.msi[v] with
        due := false, last := some (s.reach (s.host.msi[v]).dueAt).clk.now, sent := (s.host.msi[v]).sent + 1 } } }) ∧
  (∀ (v : Fin 16) s, (s.host.msi[v]).due = true → (s.host.msi[v]).masked = true →
    answers (.interruptHoldoffExpiry v) s { s.reach (s.host.msi[v]).dueAt with host := { s.host with
      msi := s.host.msi.set v.val { s.host.msi[v] with due := false, pba := true } } }) ∧
  (∀ s, s.host.busy = false →
    answers .busyEnter s (({ s with host := { s.host with busy := true, lowSince := none } } : State).noteLow.event 0x0001
      (le 4 s.backlog ++ List.replicate 8 0))) ∧
  (∀ s u, s.host.busy = true → s.host.lowSince = some u → s.backlog ≤ 16 →
    answers .busyEnd s (({ s.reach (u + 1000000) with host := { s.host with busy := false, lowSince := none } } : State).event 0x0002
      (List.replicate 12 0)).fetchAll)

/-- Resets by the host (18 R475, R477, 21 R520): a write of HIF_RESET_REQ only starts a pair; the second write of the same value within 1 ms
takes the reset of kind HOST, or the warm restart, after a fault message; the firmware takes a warm restart by itself. A link reset stops queues
and event ring and writes HIF_RESET. Where a reset can be taken at all is the model's reading: log entry 89. -/
def Obligations.HostResetsComplete : Prop :=
  (∀ s, s.resetOk 5 = true → s.host.resetReq = none →
    answers .hifResetHost s { s with host := { s.host with resetReq := some (1, s.clk.now) } }) ∧
  (∀ s u, s.resetOk 5 = true → s.host.resetReq = some (1, u) → s.clk.now ≤ u + 1000000 →
    answers .hifResetHost s ((s.faultMessage 3).takeReset 5)) ∧
  (∀ s, s.resetOk 8 = true → s.host.resetReq = none →
    answers .hifResetWarm s { s with host := { s.host with resetReq := some (2, s.clk.now) } }) ∧
  (∀ s u, s.resetOk 8 = true → s.host.resetReq = some (2, u) → s.clk.now ≤ u + 1000000 →
    answers .hifResetWarm s ((s.faultMessage 3).takeReset 8)) ∧
  (∀ s, s.resetOk 8 = true → answers .firmwareWarmRestart s ((s.faultMessage 3).takeReset 8)) ∧
  (∀ s, answers .hifLinkReset s (s.stopRings.record 0x0F0B (srcOf 14 0) []))

/-- The service channel, PAIR_CTRL and the plant ports (13 R376 to R378, 21 R519, R521, R523, R524). A handshake on a port that serves takes a free
connection. A closed connection ends with its sessions, reason 2, and its commands run on unanswered. A capsule that keeps the rules joins its
connection's backlog. PAIR_CTRL keeps its two fields and writes settings block 0x0002. ETH_APPLY brings a port's staged registers into use and
writes settings block 0x0005; where SERVICE and ADDRESS stay as they were nothing else happens; where one changes, every connection of the port is
closed and only host interface, settings and reference are touched. -/
def Obligations.ServiceChannelCompletes : Prop :=
  (∀ (p : Fin 2) (k : Fin 4) s, s.freeConn = some k → (s.host.eth[p]).inService = true → (s.host.eth[p]).linkUp = true → s.serves = true →
    answers (.tlsConnect p true) s { s with host := { s.host with conn := s.host.conn.set k.val (some { port := p.val }) } }) ∧
  (∀ (k : Fin 4) s, (s.host.conn[k]).isSome = true →
    answers (.tlsClose k) s ((({ s with host := { s.host with conn := s.host.conn.set k.val none, gone := s.host.gone ++ (s.host.conn[k]).toList } } :
      State).orphan (.conn k)).closeAll (fun x => x.src = .conn k) 2)) ∧
  (∀ (k : Fin 4) cap x s, s.host.conn[k] = some x → s.host.busy = false → capsuleOk cap = true → knownOp cap.desc.opcode = true →
    answers (.capsuleRx k cap) s { s with host := { s.host with
      conn := s.host.conn.set k.val (some { x with backlog := x.backlog ++ [{ cap.desc with cmd := { cap.desc.cmd with src := .conn k } }] }) } }) ∧
  (∀ v s, s.fits 2 (le 8 (BitVec.toNat v)) = true →
    answers (.pairCtrl v) s (({ s with pair := { s.pair.ctrlDue s.clk.now with
      hotReg := v.getLsbD 0, autostart := v.getLsbD 1
      ctrl := (s.pair.ctrlDue s.clk.now).ctrl ++ [(s.clk.now, v.getLsbD 0, v.getLsbD 1)] } } : State).wroteBlock 2)) ∧
  (∀ (p : Fin 2) e l s, e = s.host.eth[p] → (e.service && e.addr = 0) = false → inPrefix e.addr e.gw e.pre = true → s.fits 5 (ethBytes s) = true →
    e.inService = e.service → e.inAddr = e.addr → l = s.host.eth.set p.val { e with inPre := e.pre, inGw := e.gw } →
    answers (.ethApply p) s (({ s with host := { s.host with
      eth := l, ethStored := l.toList.map fun e => (e.inService, e.inAddr, e.inPre, e.inGw) } } : State).wroteBlock 5)) ∧
  (∀ (p : Fin 2) e l s, e = s.host.eth[p] → (e.service && e.addr = 0) = false → inPrefix e.addr e.gw e.pre = true → s.fits 5 (ethBytes s) = true →
    l = s.host.eth.set p.val { e with inService := e.service, inAddr := e.addr, inPre := e.pre, inGw := e.gw } →
    ∃ t, answers (.ethApply p) s t ∧ t = { ({ s with host := t.host } : State).wroteBlock 5 with act := t.act } ∧ t.host.eth = l ∧
      t.host.ethStored = l.toList.map (fun e => (e.inService, e.inAddr, e.inPre, e.inGw)) ∧
      (e.inService ≠ e.service ∨ e.inAddr ≠ e.addr → ∀ k : Fin 4, (t.host.conn[k]).map (·.port) ≠ some p.val))

/-! ## STATUS_GET, calendar and backup domain: 13, 17 -/

/-- STATUS_GET of the sections that its mask selects, bits 0 to 9, returns them in order and names their bytes in RESULT_0, with RESULT_1 telling
whether an item was left out (13 R363); with section 0 alone and 72 bytes these are its header and the 64 summary bytes. RTC_GET returns the 128
bytes of its report (17 R452). Neither changes anything but its completion and the count of free values. Points that the spec leaves open are the
model's choice: log entries 7 and 15. -/
def Obligations.ReportsComplete : Prop :=
  (∀ c s b r, b = begun s 0x0020 c 2 (c.inf 0 4 < 1024 && c.inlZero 4) → passes s 0x0020 c 2 (c.inf 0 4 < 1024 && c.inlZero 4) = true →
    c.inf 0 4 ≠ 0 →
    r = ((List.range 10).filter fun k => (c.inf 0 4).testBit k).foldl (fun x k => State.addSection x c.length k) (b, [], false) →
    answers (.statusGet c) s (r.1.finalData 0x0020 c stOk (BitVec.ofNat 64 r.2.1.length) (if r.2.2 then 1 else 0) r.2.1)) ∧
  (∀ c s b, b = begun s 0x0020 c 2 (c.inf 0 4 < 1024 && c.inlZero 4) → passes s 0x0020 c 2 (c.inf 0 4 < 1024 && c.inlZero 4) = true →
    c.inf 0 4 = 1 → 72 ≤ c.length →
    answers (.statusGet c) s (b.finalData 0x0020 c stOk (BitVec.ofNat 64 (secHdr 0 64 ++ b.summary).length) 0 (secHdr 0 64 ++ b.summary))) ∧
  (∀ c s b, b = begun s 0x0030 c 2 (c.inlZero 0) → passes s 0x0030 c 2 (c.inlZero 0) = true → c.length = 128 →
    answers (.rtcGet c) s (b.rtcReport.2.finalData 0x0030 c stOk 128 0 b.rtcReport.1)) ∧
  (∀ c s b, b = begun s 0x0030 c 2 (c.inlZero 0) → passes s 0x0030 c 2 (c.inlZero 0) = true → c.length = 128 →
    0 ≤ b.rtc.localSec b.clk.now → answers (.rtcGet c) s (b.finalData 0x0030 c stOk 128 0 b.rtcReport.1))

/-- RTC_SET by its ACTION, RTC_SHIFT and ALARM_SET (17 R451, R453 to R455). SET_UTC of a valid value, unless the reference is LOCKED, puts the
calendar at it, clears TIME_INVALID and CAL_END, sets the calendar offset anew where network time is held, writes RTC_ADJUST with cause 1 and lets a
reached alarm fire. SET_CIVIL sets zone and summer time, and TAI_UTC unless a LOCKED reference gives it, with cause 4. SET_TRIM sets TRIM while no
network time is held. CLEAR_STAMP of the Owner writes STAMP_CLEARED and clears the stamp and its loss. WRITE_BACKUP replaces a run of bytes and
writes BACKUP_WRITE. The summer-time shift changes DST alone, with cause 5; an alarm later than local time is armed; an armed one is disarmed. -/
def Obligations.CalendarCommandsComplete : Prop :=
  (∀ c s b k u, b = begun s 0x0031 c 0 (c.inf 1 1 = 0 && c.inlZero 9) → passes s 0x0031 c 0 (c.inf 1 1 = 0 && c.inlZero 9) = true →
    c.inf 0 1 = 1 → inlValid c = true → b.act.ref ≠ .locked → k = b.setCal ((inlSec c : Int) * 1000000000) →
    u = ({ k with rtc := { k.rtc with
      invalid := false, ended := false, calOfs := if k.timeHeld then k.calNs - k.netCalNs else k.rtc.calOfs } } : State) →
    answers (.setUtc c) s (((u.adjustRec 1 (b.rtc.sec b.clk.now) (u.partyOf c)).afterAdjust).rtcDone c)) ∧
  (∀ c s b u, b = begun s 0x0031 c 0 (c.inf 1 1 = 0 && c.inlZero 6) → passes s 0x0031 c 0 (c.inf 1 1 = 0 && c.inlZero 6) = true →
    c.inf 0 1 = 2 → -48 ≤ int8 (c.inf 4 1) → int8 (c.inf 4 1) ≤ 56 → c.inf 5 1 ≤ 1 →
    u = ({ b with rtc := { b.rtc with
      taiUtc := if b.act.ref = .locked && b.act.utc.isSome then b.rtc.taiUtc else int16 (c.inf 2 2)
      zone := int8 (c.inf 4 1), dst := c.inf 5 1 = 1 } } : State) →
    answers (.setCivil c) s (((u.adjustRec 4 (b.rtc.sec b.clk.now) (u.partyOf c)).afterAdjust).rtcDone c)) ∧
  (∀ c s b, b = begun s 0x0031 c 0 (c.inf 1 1 = 0 && c.inlZero 3) → passes s 0x0031 c 0 (c.inf 1 1 = 0 && c.inlZero 3) = true →
    c.inf 0 1 = 3 → -127 ≤ int8 (c.inf 2 1) → b.timeHeld = false →
    answers (.setTrim c) s (({ b with rtc := { b.rtc.rebase b.clk.now with trim := int8 (c.inf 2 1) } } : State).rtcDone c)) ∧
  (∀ c s b u, b = begun s 0x0031 c 0 (c.inlZero 1) → passes s 0x0031 c 0 (c.inlZero 1) = true → c.inf 0 1 = 4 → b.partyOf c = 2 →
    u = b.recordBy 0x0E06 (srcOf 13 0) (items [b.rtc.stampSec]) 2 false →
    answers (.clearStamp c) s (({ u with rtc := { u.rtc with stampSet := false, stampLost := false } } : State).rtcDone c)) ∧
  (∀ c s b v, b = begun s 0x0031 c 1 (c.inf 1 1 = 0 && c.inlZero 3) → passes s 0x0031 c 1 (c.inf 1 1 = 0 && c.inlZero 3) = true →
    c.inf 0 1 = 5 → c.inf 2 1 + c.length ≤ 64 → 0 < c.length →
    v = (Vector.ofFn fun i : Fin 64 =>
      if c.inf 2 1 ≤ i.val ∧ i.val < c.inf 2 1 + c.length then c.buf.byte (i.val - c.inf 2 1) else b.rtc.bkp[i]) →
    answers (.writeBackup c) s ((({ b with rtc := { b.rtc with bkp := v } } : State).recordBy 0x0E07 (srcOf 13 0)
      (items [c.inf 2 1, c.length]) (b.partyOf c) false).rtcDone c)) ∧
  (∀ c s b, b = begun s 0x0032 c 0 (c.inlZero 1) → passes s 0x0032 c 0 (c.inlZero 1) = true → c.inf 0 1 = 1 ∨ c.inf 0 1 = 2 →
    b.rtc.dst = decide (c.inf 0 1 = 2) →
    answers (.rtcShift c) s ((({ b with rtc := { b.rtc with dst := decide (c.inf 0 1 = 1) } } : State).adjustRec 5 (b.rtc.sec b.clk.now)
      (b.partyOf c)).afterAdjust.final 0x0032 c stOk dNone)) ∧
  (∀ c s b, b = begun s 0x0033 c 0 (c.inf 1 1 = 0 && c.inlZero 9) → passes s 0x0033 c 0 (c.inf 1 1 = 0 && c.inlZero 9) = true →
    c.inf 0 1 = 1 → inlValid c = true → b.rtc.localSec b.clk.now < (inlSec c : Int) → 0 ≤ (inlSec c : Int) - b.rtc.localOfs →
    (inlSec c : Int) - b.rtc.localOfs ≤ calMax →
    answers (.alarmSetArm c) s (({ b with rtc :=
      { b.rtc with armed := true, fired := false, skipped := false, alarm := BitVec.ofNat 64 (calPack (inlSec c) 0) } } : State).final 0x0033 c stOk
        dNone)) ∧
  (∀ c s b, b = begun s 0x0033 c 0 (c.inlZero 1) → passes s 0x0033 c 0 (c.inlZero 1) = true → c.inf 0 1 = 0 → b.rtc.armed = true →
    answers (.alarmSetDisarm c) s (({ b with rtc := { b.rtc with armed := false } } : State).final 0x0033 c stOk dNone))

/-- What happens to the calendar by itself (17 R446, R447, R449, R456, R459, R460): a leap second moves the calendar against TAI_UTC by one second
and writes RTC_ADJUST with cause 6; with network time held and the calendar short of its last second a difference below 1 ms only retrims, and a
larger one is stepped away at the next second boundary with cause 2; an armed alarm fires at its time; the end of the range stops the calendar with
TIME_INVALID; the cell's test keeps its voltage and writes BATT_LOW below 2,500 mV and BATT_OK from 2,600 mV on; the first switch to the cell is
stamped, a later one keeps the stamp. Points that the spec leaves open are the model's choice: log entries 47 and 88. -/
def Obligations.CalendarHappeningsComplete : Prop :=
  (∀ ins s k d, d = (if ins then 1 else -1 : Int) → k = s.setCal (s.calNs - d * 1000000000) →
    answers (.leapSecond ins) s ((({ k with
      rtc := { k.rtc with taiUtc := s.rtc.taiUtc + d }, act := { s.act with utc := s.act.utc.map (· + d) } } : State).adjustRec 6
        (s.rtc.sec s.clk.now) 0).afterAdjust)) ∧
  (∀ s, s.timeHeld = true → s.rtc.ended = false → (s.calNs - (s.netCalNs + s.rtc.calOfs)).natAbs < 1000000 →
    answers .calendarDiscipline s
      { s with rtc := { s.rtc.rebase s.clk.now with trim := trimFor (s.calNs - (s.netCalNs + s.rtc.calOfs)) } }) ∧
  (∀ s k, s.timeHeld = true → s.rtc.ended = false → 1000000 ≤ (s.calNs - (s.netCalNs + s.rtc.calOfs)).natAbs → s.rtc.units s.clk.now % 32768 ≠ 0 →
    k = s.reach (s.rtc.instant ((s.rtc.units s.clk.now / 32768 + 1) * 32768)) →
    answers .calendarDiscipline s (((k.setCal (k.netCalNs + s.rtc.calOfs)).adjustRec 2 (k.rtc.sec k.clk.now) 0).afterAdjust)) ∧
  (∀ s, s.rtc.armed = true →
    answers .alarmFire s
      ((s.reach (s.rtc.instant (((packedSec s.rtc.alarm.toNat : Int) - s.rtc.localOfs).toNat * 32768))).fireAlarm false)) ∧
  (∀ s k, s.rtc.ended = false → k = (s.reach (s.rtc.instant (calMax * 32768))).setCal ((calMax : Int) * 1000000000) →
    answers .calendarEnd s
      (({ k with rtc := { k.rtc with ended := true, invalid := true } } : State).record 0x0E00 (srcOf 13 0) [2])) ∧
  (∀ mv s, mv < 2500 → s.rtc.battLow = false →
    answers (.batteryTest mv) s
      (({ s with rtc := { s.rtc with batt := min 255 (mv / 20), battLow := true } } : State).record 0x0E01 (srcOf 13 0) [mv])) ∧
  (∀ mv s, 2600 ≤ mv → s.rtc.battLow = true →
    answers (.batteryTest mv) s
      (({ s with rtc := { s.rtc with batt := min 255 (mv / 20), battLow := false } } : State).record 0x0E02 (srcOf 13 0) [mv])) ∧
  (∀ s, s.rtc.stampSet = false → answers .bkpSwitch s
    { s with rtc := { s.rtc with switched := true, stampSec := s.rtc.sec s.clk.now, stampSet := true } }) ∧
  (∀ s, s.rtc.stampSet = true → answers .bkpSwitch s { s with rtc := { s.rtc with switched := true } })

/-! ## Event recorder: 16 -/

/-- The recorder (16 R429, R430, R436 to R442). LOG_READ returns whole records from its origin on and advances the session's cursor, unless nothing
was read and nothing overrun; LOG_EXPORT is accepted as a long operation whose end point is the newest record. LOG_CLEAR, unless an export runs,
empties the ring, with ACTION 2 the archive and what it is still due too, and writes LOG_CLEARED with the SEQ numbers of what was cleared. A good
gust table replaces its entries, ACTION 4 puts every code at its default, each writes settings block 0x0003 and GUST_TABLE. A bucket that refills
writes its GUST record and suppresses nothing more; the oldest critical record due goes to the archive; the held records go into the ring once it is
served. Points that the spec leaves open are the model's choice: log entry 7. -/
def Obligations.RecorderCompletes : Prop :=
  (∀ c s b r, b = begun s 0x0040 c 2 (logRes c) → passes s 0x0040 c 2 (logRes c) = true → logInl c = true → logAt b c = true →
    r = logGot b c → r.1 = [] → r.2.2.2 % 2 = 0 →
    answers (.logRead c) s (b.finalData 0x0040 c stEmpty (logResult 0 r.2.1 r.2.2.1 r.2.2.2).1 (logResult 0 r.2.1 r.2.2.1 r.2.2.2).2 [])) ∧
  (∀ c s b r k, b = begun s 0x0040 c 2 (logRes c) → passes s 0x0040 c 2 (logRes c) = true → logInl c = true → logAt b c = true →
    r = logGot b c → r.1.isEmpty = false →
    k = b.onSess c.session.toNat (fun x => if c.inf 1 1 = 0 then { x with curRing := r.2.1 } else { x with curArch := r.2.1 }) →
    answers (.logRead c) s (k.finalData 0x0040 c stOk (logResult (recBytes r.1) r.2.1 r.2.2.1 r.2.2.2).1
      (logResult (recBytes r.1) r.2.1 r.2.2.1 r.2.2.2).2 (r.1.flatMap Rec.enc))) ∧
  (∀ c s b, b = begun s 0x0042 c 2 (logRes c) → passes s 0x0042 c 2 (logRes c) = true → logInl c = true → logAt b c = true →
    answers (.logExport c) s (b.accept (mkRun 0x0042 c (b.partyOf c) true (recBytes (b.recd.store (c.inf 1 1)))
      (.logExport (c.inf 1 1) (logFrom b c) (((b.recd.store (c.inf 1 1)).getLast?.map (·.seq)).getD (logFrom b c)) (c.inf 8 4) false 0 []))
        0x0042 c)) ∧
  (∀ c s b k, b = begun s 0x0041 c 0 (c.inlZero 1) → passes s 0x0041 c 0 (c.inlZero 1) = true → c.inf 0 1 = 1 → b.running 0x0042 = false →
    k = ({ b.clearedSpan.2.2 with recd := { b.recd with ring := [] } } : State) →
    answers (.logClearRing c) s ((k.recordBy 0x0006 (srcOf 16 0) (items [b.clearedSpan.1, b.clearedSpan.2.1]) (b.partyOf c) false).final 0x0041 c
      stOk dNone (BitVec.ofNat 64 b.recd.seq))) ∧
  (∀ c s b k, b = begun s 0x0041 c 0 (c.inlZero 1) → passes s 0x0041 c 0 (c.inlZero 1) = true → c.inf 0 1 = 2 → b.running 0x0042 = false →
    k = ({ b.clearedSpan.2.2 with recd := { b.recd with ring := [], archive := [], due := [] } } : State) →
    answers (.logClearArchive c) s ((k.recordBy 0x0006 (srcOf 16 0) (items [b.clearedSpan.1, b.clearedSpan.2.1]) (b.partyOf c) false).final 0x0041
      c stOk dNone (BitVec.ofNat 64 b.recd.seq))) ∧
  (∀ c s b l, b = begun s 0x0041 c 1 (c.inlZero 1) → passes s 0x0041 c 1 (c.inlZero 1) = true → c.inf 0 1 = 3 → c.length % 8 = 0 →
    8 ≤ c.length → c.length ≤ 4096 → l = parseGust c.buf (c.length / 8) → l.all gustOk = true → noTwice (l.map (·.1)) = true →
    b.fits 3 (c.buf.bytes 0 c.length) = true →
    answers (.gustTableReplace c) s
      ((({ b with recd := l.foldl (fun d e => d.setGust e.1 e.2.1 e.2.2.1 b.clk.now) b.recd } : State).wroteBlock 3).recordBy 0x0009 (srcOf 16 0)
        (items [l.length]) (b.partyOf c) false |>.final 0x0041 c stOk dNone (BitVec.ofNat 64 l.length))) ∧
  (∀ c s b d, b = begun s 0x0041 c 0 (c.inlZero 1) → passes s 0x0041 c 0 (c.inlZero 1) = true → c.inf 0 1 = 4 → b.fits 3 [] = true →
    d = b.recd.gust.foldl (fun d g => d.setGust g.1 100 1000 b.clk.now) b.recd →
    answers (.gustTableDefault c) s ((({ b with recd := { d with gust := [] } } : State).wroteBlock 3).recordBy 0x0009 (srcOf 16 0)
      (items [0]) (b.partyOf c) false |>.final 0x0041 c stOk dNone)) ∧
  (∀ code b k d s, s.recd.buckets.find? (·.code = code) = some b → b.sup ≠ 0 → (s.recd.limit code).1 ≠ 0 →
    k = s.reach (b.at_ + (1000000000 - b.tokens + (s.recd.limit code).1 - 1) / (s.recd.limit code).1) → d = s.recd.fill b k.clk.now →
    answers (.gustRefill code) s { k with recd :=
      (s.recd.take (gustRec d k.stamp (s.keys.boot % 65536) (k.recFlags 5 false))).put { d with sup := 0 } }) ∧
  (∀ r l s, s.recd.due = r :: l → recBytes s.recd.archive + r.len ≤ 0x10000000 →
    answers .archiveCommit s { s with recd := { s.recd with due := l, archive := s.recd.archive ++ [r] } }) ∧
  (∀ s, s.pwr.dramOk = true → s.serves = true →
    answers .holdBufferFlush s ({ s with recd := { s.recd with served := true } } : State).flushHold)

/-! ## Forcing: 04 -/

/-- Forcing (04 R105 to R107, R111, R112, 13 R370): FORCE_SET of points that pass takes every entry as PENDING under the next force version, keeps
the table in its store and waits for its completion; FORCE_RELEASE of named points, or of all, takes the release of the forced ones likewise, and
answers EMPTY where none is forced; FORCE_LIST returns the entries from its index on, with their total and their number. With no network running and
no partner in duty a change completes at once. Points that the spec leaves open are the model's choice: log entries 52 and 77. -/
def Obligations.ForceCommandsComplete : Prop :=
  (∀ c s b k, b = begun s 0x0050 c 1 (c.inlZero 0) → passes s 0x0050 c 1 (c.inlZero 0) = true → c.length % 8 = 0 → 8 ≤ c.length →
    c.length ≤ 2048 → b.primary = true → b.forcesOk (parseForces c.buf (c.length / 8)) = true →
    k = (parseForces c.buf (c.length / 8)).foldl (fun s e => s.acceptForce e.1 e.2.1 (b.partyOf c) b.nextVer) b →
    answers (.forceSet c) s (((({ k with pair := { k.pair with forceVer := b.nextVer } } : State).setForces k.img.force).addRun
      (mkRun 0x0050 c (b.partyOf c) false 0 (.force b.nextVer 0))).forceIdle)) ∧
  (∀ c s b, b = begun s 0x0050 c 1 (c.inlZero 0) → passes s 0x0050 c 1 (c.inlZero 0) = true → c.length = 8 → b.primary = true →
    b.forcesOk (parseForces c.buf 1) = true → b.cyc.running = true →
    ∃ t f, answers (.forceSet c) s t ∧ t.forceAt (BitVec.ofNat 32 (c.buf.field 0 4)) = some f ∧ f.pending = true ∧
      f.value = BitVec.ofNat 16 (c.buf.field 4 2) ∧ f.party = b.partyOf c ∧ t.pair.forceVer = b.pair.forceVer + 1 ∧ t.mem = b.mem ∧
      t.net = b.net) ∧
  (∀ c s b n k, b = begun s 0x0051 c 1 (c.inf 0 4 / 2 = 0 && c.inlZero 4) → passes s 0x0051 c 1 (c.inf 0 4 / 2 = 0 && c.inlZero 4) = true →
    c.inf 0 4 % 2 = 0 → c.length % 4 = 0 → 4 ≤ c.length → c.length ≤ 1024 → b.primary = true →
    (parsePoints c.buf (c.length / 4)).all (pointR97 b.mapCfg) = true →
    k = freedBy b (fun f => (parsePoints c.buf (c.length / 4)).contains f.point) → n = b.img.force.countP k → n ≠ 0 →
    answers (.forceRelease c) s (((b.acceptReleases k (b.partyOf c) b.nextVer).addRun
      (mkRun 0x0051 c (b.partyOf c) false 0 (.force b.nextVer n))).forceIdle)) ∧
  (∀ c s b n k, b = begun s 0x0051 c 0 (c.inf 0 4 / 2 = 0 && c.inlZero 4) → passes s 0x0051 c 0 (c.inf 0 4 / 2 = 0 && c.inlZero 4) = true →
    c.inf 0 4 % 2 = 1 → b.primary = true → k = freedBy b (fun _ => true) → n = b.img.force.countP k → n ≠ 0 →
    answers (.forceReleaseAll c) s (((b.acceptReleases k (b.partyOf c) b.nextVer).addRun
      (mkRun 0x0051 c (b.partyOf c) false 0 (.force b.nextVer n))).forceIdle)) ∧
  (∀ c s b, b = begun s 0x0051 c 0 (c.inf 0 4 / 2 = 0 && c.inlZero 4) → passes s 0x0051 c 0 (c.inf 0 4 / 2 = 0 && c.inlZero 4) = true →
    c.inf 0 4 % 2 = 1 → b.primary = true → b.img.force.countP (freedBy b fun _ => true) = 0 →
    answers (.forceReleaseAll c) s (b.final 0x0051 c stEmpty dNone)) ∧
  (∀ c s b, b = begun s 0x0052 c 2 (c.inlZero 4) → passes s 0x0052 c 2 (c.inlZero 4) = true → c.inf 0 4 < b.img.force.length →
    answers (.forceList c) s (b.finalData 0x0052 c stOk (BitVec.ofNat 64 b.img.force.length)
      (BitVec.ofNat 64 ((b.img.force.drop (c.inf 0 4)).take (c.length / 32)).length)
      (((b.img.force.drop (c.inf 0 4)).take (c.length / 32)).flatMap Force.enc)))

/-! ## Application images: 02, 12 -/

/-- Commands that bring an image (12 R311, R316, R317, R323). APP_LOAD of an image whose header passes is accepted as a long operation at the
primary while no task is READY or RUNNING. APP_CHANGE with a delta and a rollback within 60 s of the change, while nothing that excludes them is under
way, end the rollback period and are accepted; the delta goes to a partner in pair duty, a rollback is announced at once. The rollback period ends
by itself too, and raises the floor. Points that the spec leaves open are the model's choice: log entries 44 and 86.
Staging (12 R311, R314, R316, R317, R325). An image whose body passes its checks is loaded, staged and passed to a partner, merged and staged, or
held as STAGED firmware; what fails them ends the operation. A standby checks what the primary passes, holds it and reports it; a joining module takes
the primary's ACTIVE image as its own; the standby keeps the change instant announced for its staged image, and a later one for the same change. -/
def Obligations.ImageCommandsComplete : Prop :=
  (∀ c img s b, b = begun s 0x0060 c 1 (c.inlZero 0) → passes s 0x0060 c 1 (c.inlZero 0) = true → b.primary = true →
    b.busyTask = false → b.appHdr img 2 c.length = none → b.longOps < 8 →
    answers (.appLoad c img) s ((b.addRun (mkRun 0x0060 c (b.partyOf c) true c.length (.appLoad img false))).runPost
      (mkRun 0x0060 c (b.partyOf c) true c.length (.appLoad img false)) stAccepted 1 dNone)) ∧
  (∀ c img s b k, b = begun s 0x0061 c 1 (cflagsOk c) → passes s 0x0061 c 1 (cflagsOk c) = true → b.primary = true → c.inf 0 4 = 0 →
    b.changeBusy = false → b.appHdr img 3 c.length = none → b.longOps < 8 →
    k = b.endRollback.accept (mkRun 0x0061 c (b.endRollback.partyOf c) true c.length (.appChange img)) 0x0061 c → k.partnerDuty = false →
    answers (.appChange c img) s (stagingBegun k none)) ∧
  (∀ c img s b k, b = begun s 0x0061 c 1 (cflagsOk c) → passes s 0x0061 c 1 (cflagsOk c) = true → b.primary = true → c.inf 0 4 = 0 →
    b.changeBusy = false → b.appHdr img 3 c.length = none → b.longOps < 8 →
    k = b.endRollback.accept (mkRun 0x0061 c (b.endRollback.partyOf c) true c.length (.appChange img)) 0x0061 c → k.partnerDuty = true →
    answers (.appChange c img) s (((stagingBegun k (some .delta)).passImage img).changeStep 1)) ∧
  (∀ c s b u p i, b = begun s 0x0061 c 0 (cflagsOk c) → passes s 0x0061 c 0 (cflagsOk c) = true → b.primary = true → c.inf 0 4 = 1 →
    b.changeBusy = false → b.chg.rollback = some u → b.chg.app.toList.find? (·.st = .previous) = some p → p.img = some i →
    b.stamp ≤ u → b.longOps < 8 →
    answers (.appRollback c) s ((b.endRollback.accept (mkRun 0x0061 c (b.endRollback.partyOf c) true 0 .rollback) 0x0061 c).announce i true)) ∧
  (∀ u s k, s.chg.rollback = some u → k = s.reach ((u : Int) - ((s.stamp : Int) - (s.clk.now : Int))).toNat → k.chg.rollback = some u →
    answers .rollbackPeriodEnd s { k with chg := { k.chg with
      rollback := none, appFloor := max k.chg.appFloor ((k.chg.running.map (·.hdr.rollback)).getD 0) } }) ∧
  (∀ sess id img r s, s.runOf (BitVec.toNat sess) id = some r → r.suspended = false → s.serves = true → r.work = .appLoad img false →
    s.staging img = none → s.partnerDuty = false → answers (.imageStagingDone sess id) s (s.loadEnd r img)) ∧
  (∀ sess id img r s k, s.runOf (BitVec.toNat sess) id = some r → r.suspended = false → s.serves = true → r.work = .appLoad img false →
    s.staging img = none → s.partnerDuty = true → k = ((s.stageApp img img).keepSecret img).setRun { r with work := .appLoad img true } →
    answers (.imageStagingDone sess id) s
      (({ k with chg := { k.chg with ownOk := true, partnerWait := some .appImage } } : State).passImage img)) ∧
  (∀ sess id img r s k, s.runOf (BitVec.toNat sess) id = some r → r.suspended = false → s.serves = true → r.work = .appChange img →
    s.chg.ownOk = false → s.staging img = none → k = (s.stageApp img (s.merged img)).keepSecret img →
    answers (.imageStagingDone sess id) s
      ((({ k with chg := { k.chg with ownOk := true } } : State).changeStep 3).bothStaged)) ∧
  (∀ sess id img r s k, s.runOf (BitVec.toNat sess) id = some r → r.suspended = false → s.serves = true → r.work = .fwStage img →
    s.staging img = none → s.chg.partnerWait = none → k = s.stageFw img →
    answers (.imageStagingDone sess id) s (({ k with chg := { k.chg with ownOk := true } } : State).endRun r stOk dNone)) ∧
  (∀ sess id img r s st d, s.runOf (BitVec.toNat sess) id = some r → r.suspended = false → s.serves = true → r.work = .fwStage img →
    s.staging img = some (st, d) → answers (.imageStagingDone sess id) s (s.stagingFails r st d)) ∧
  (∀ img s, s.pair.role = .standby → img.hdr.kind = 1 → s.passedCheck img = none → s.staging img = none →
    answers (.pairImageRx img) s ((s.stageFw img).send (.report .firmware true))) ∧
  (∀ img s, s.pair.role = .standby → img.hdr.kind = 2 → s.passedCheck img = none → s.staging img = none →
    answers (.pairImageRx img) s (((s.stageApp img img).keepSecret img).send (.report .appImage true))) ∧
  (∀ img i s k, s.pair.role = .standby → img.hdr.kind = 3 → s.passedCheck img = none → s.staging img = none → i = s.merged img →
    k = (s.endRollback.stageApp img i).keepSecret img →
    answers (.pairImageRx img) s (({ k with chg := { k.chg with staged := some i, change := none } } : State).send (.report .delta true))) ∧
  (∀ img s k, s.pair.role = .joining → s.hdrCheckAny img img.hdr.kind (img.hdr.bodyLength + 512) = none → s.tagOk img = true →
    img.hdr.resultDigest = Config.bodyDigest (fullBody img.body) → s.contentOk img.body = true →
    (s.pair.hb.map (·.appId)) = some (img.hdr.resultDigest.setWidth 128) → k = (s.install img).keepSecret img →
    answers (.pairImageRx img) s { k with chg := { k.chg with
      app := #v[{ st := .active, img := some img }, (s.chg.app.toList.find? (·.st = .previous)).getD {}] } }) ∧
  (∀ n i s, s.pair.role = .standby → s.chg.change = none → s.chg.staged = some i →
    answers (.changeAnnounceRx n) s { s with chg := { s.chg with change := some { img := i, nc := n } } }) ∧
  (∀ n c s, s.pair.role = .standby → s.chg.change = some c →
    answers (.changeAnnounceRx n) s { s with chg := { s.chg with change := some { c with nc := n } } })

/-- The running image (02 R50 to R58, 12 R318, 13 R365): APP_START sets the tasks running with first releases at the cycle of 02 R52, which it
answers; APP_STOP latches Calm with cause COMMANDED; TASK_RELEASE delivers its INLINE to the tasks bound to its number and answers how many took it;
at Q, with the compared tasks idle after the last snapshot of the old image and the times kept, the change is made and the mirror transfer closed,
and a boundary that comes too early to be used is abandoned. -/
def Obligations.RunningImageCompletes : Prop :=
  (∀ c s b, b = begun s 0x0062 c 0 (c.inlZero 0) → passes s 0x0062 c 0 (c.inlZero 0) = true → b.primary = true →
    b.chg.running.isSome = true →
    answers (.appStart c) s (b.appStart.final 0x0062 c stOk dNone (BitVec.ofNat 64 b.firstCycle))) ∧
  (∀ c s b, b = begun s 0x0062 c 0 (c.inlZero 0) → passes s 0x0062 c 0 (c.inlZero 0) = true → b.primary = true →
    b.chg.running.isSome = true →
    ∃ t, answers (.appStart c) s t ∧ t.calm.on = false ∧ t.calm.cause = 0 ∧ t.cyc.starting = true ∧
      t.cyc.firstRel = if b.cyc.running then some b.firstCycle else none) ∧
  (∀ c s b, b = begun s 0x0063 c 0 (c.inlZero 0) → passes s 0x0063 c 0 (c.inlZero 0) = true → b.primary = true →
    answers (.appStop c) s ((b.latchCalm 4 false [] (b.partyOf c)).final 0x0063 c stOk dNone (BitVec.ofNat 64 b.cyc.n))) ∧
  (∀ c s b, b = begun s 0x0063 c 0 (c.inlZero 0) → passes s 0x0063 c 0 (c.inlZero 0) = true → b.primary = true → b.calm.on = false →
    ∃ t, answers (.appStop c) s t ∧ t.calm.on = true ∧ t.calm.cause = 4 ∧ t.act.pool = [] ∧
      (∀ i : Fin 9, i.val < 8 → (t.lanes.lane[i]).halted = true) ∧ t.chg = b.chg) ∧
  (∀ c s b x, b = begun s 0x0064 c 0 true → passes s 0x0064 c 0 true = true → b.primary = true → c.inf 0 1 ≤ 15 → b.calm.on = false →
    b.hostTasks (c.inf 0 1) = [x] → b.taskCfg x.num = some x → (b.taskAt x.num).st = .idle → x.num < 32 →
    b.cyc.noRel = false → b.cyc.starting = false → b.cyc.holdRel = false →
    ∃ t, answers (.taskRelease c) s t ∧ (t.taskAt x.num).st = .ready ∧ (t.taskAt x.num).record = c.inl ∧ t.mem = b.mem ∧ t.chg = b.chg) ∧
  (∀ c s k, s.chg.change = some c → s.primary = true → c.done = false → c.abandoned = false → s.cyc.n + 1 = c.nc →
    s.cyc.snapN = some s.cyc.n → s.comparedIdle = true → s.wb.update = false →
    s.netTime + 8000 + migNs (s.rulesOf c) + 2000 ≤ s.startOf c.nc + ((s.net.cfg.map (·.i)).getD 0) → k = changedAtQ s c →
    answers .changeQ s (({ k with chg := { k.chg with
      change := some { c with done := true }, commitDue := if k.partnerStandby then some c.nc else none } } : State).closeTransfer false)) ∧
  (∀ c s, s.chg.change = some c → s.primary = true → c.done = false → c.abandoned = false → s.cyc.n + 1 = c.nc →
    s.cyc.snapN = some s.cyc.n → s.comparedIdle = true →
    s.startOf c.nc + ((s.net.cfg.map (·.i)).getD 0) < s.netTime + 8000 + migNs (s.rulesOf c) + 2000 →
    answers .changeQ s { s with chg := { s.chg with change := some { c with abandoned := true } } })

/-! ## Firmware: 12 -/

/-- Firmware commands (12 R325 to R329). FW_STAGE of a good header, of the running generation or the next and with no trial in either module, is
accepted, and the image goes to a partner in pair duty; FW_HANDOVER with a target and a current standby in order is accepted, ordered and its first
step reported; FW_CONFIRM of a TRIAL that the partner runs too confirms it and is recorded; FW_FALLBACK marks the trial FAILED, in a partner that
the link reaches too; a failed start of a trial is counted, the third runs the ACTIVE slot, marks the trial FAILED and ends a handover, and any
other start counts nothing. Points that the spec leaves open are the model's choice: log entries 16, 36 and 86. -/
def Obligations.FirmwareCommandsComplete : Prop :=
  (∀ c img s b k, b = begun s 0x0070 c 1 (c.inlZero 0) → passes s 0x0070 c 1 (c.inlZero 0) = true → b.primary = true →
    b.hdrCheck img 1 c.length = none → img.hdr.gen = b.fwGen ∨ img.hdr.gen = b.fwGen + 1 → b.anyTrial = false → b.longOps < 8 →
    k = (b.addRun (fwRun b c img)).runPost (fwRun b c img) stAccepted 1 dNone → k.partnerDuty = false →
    answers (.fwStage c img) s { k with chg := { k.chg with ownOk := false, partnerWait := none } }) ∧
  (∀ c img s b k, b = begun s 0x0070 c 1 (c.inlZero 0) → passes s 0x0070 c 1 (c.inlZero 0) = true → b.primary = true →
    b.hdrCheck img 1 c.length = none → img.hdr.gen = b.fwGen ∨ img.hdr.gen = b.fwGen + 1 → b.anyTrial = false → b.longOps < 8 →
    k = (b.addRun (fwRun b c img)).runPost (fwRun b c img) stAccepted 1 dNone → k.partnerDuty = true →
    answers (.fwStage c img) s
      (({ k with chg := { k.chg with ownOk := false, partnerWait := some .firmware } } : State).send (.firmware img))) ∧
  (∀ c s b, b = begun s 0x0071 c 0 (c.inlZero 0) → passes s 0x0071 c 0 (c.inlZero 0) = true → b.primary = true → b.hasTarget = true →
    b.changeBusy = false → b.partnerStandby = true → b.pair.partnerCur = true → b.partnerFlag 3 = false → b.otherTarget = false →
    b.longOps < 8 →
    answers (.fwHandover c) s
      ((((b.addRun (hoRun b c)).runPost (hoRun b c) stAccepted 1 dNone).send (.report .handover true)).handoverStep 1)) ∧
  (∀ c s b, b = begun s 0x0072 c 0 (c.inlZero 0) → passes s 0x0072 c 0 (c.inlZero 0) = true → b.runsTrial = true →
    b.partnerDuty = false →
    answers (.fwConfirm c) s ((b.confirmFw.recordBy 0x0A04 (srcOf 9 0) [] (b.partyOf c) false).final 0x0072 c stOk dNone)) ∧
  (∀ c s b p k, b = begun s 0x0072 c 0 (c.inlZero 0) → passes s 0x0072 c 0 (c.inlZero 0) = true → b.runsTrial = true →
    b.partnerDuty = true → b.chg.partner = some p → p.runs = b.fwSlot.hdr.map (·.resultDigest) → k = b.send (.report .fwConfirm true) →
    answers (.fwConfirm c) s ((k.confirmFw.recordBy 0x0A04 (srcOf 9 0) [] (k.partyOf c) false).final 0x0072 c stOk dNone)) ∧
  (∀ c s b, b = begun s 0x0073 c 0 (c.inlZero 0) → passes s 0x0073 c 0 (c.inlZero 0) = true → b.anyTrial = true → b.linked = false →
    answers (.fwFallback c) s (b.fallbackFw.final 0x0073 c stOk dNone)) ∧
  (∀ c s b, b = begun s 0x0073 c 0 (c.inlZero 0) → passes s 0x0073 c 0 (c.inlZero 0) = true → b.anyTrial = true → b.linked = true →
    answers (.fwFallback c) s ((b.send (.report .fwFallback true)).fallbackFw.final 0x0073 c stOk dNone)) ∧
  (∀ s, s.pwr.lullService = false → s.runsTrial = true → s.chg.fails < 2 →
    answers .fwStartTimeout s { s with chg := { s.chg with fails := s.chg.fails + 1 } }) ∧
  (∀ s k u, s.pwr.lullService = false → s.runsTrial = true → 2 ≤ s.chg.fails →
    k = (s.chg.fw.toList.findIdx? (·.st = .active)).getD s.chg.fwRun →
    u = (({ s with chg := { s.chg with fwRun := k, fails := 0 } } : State).setFw (failTrials s.chg.fw)).record 0x0A03 (srcOf 9 0) [] →
    answers .fwStartTimeout s (if 6 ≤ s.chg.handover then u.handoverFail else u)) ∧
  (∀ s, s.pwr.lullService = true ∨ s.runsTrial = false → answers .fwStartTimeout s s)

/-! ## Tasks and lanes: 02, 03 -/

/-- Tasks on their lanes (02 R42, R50, R51, R554, R555, 03 R59): the runtime of a split copy writes LANE_CUR_TASK and LANE_TASK_DONE, and a write that
reaches its target dispatches the ready task of highest priority, which then runs, or completes the running task, which is IDLE where nothing waits; a
copy of a compared lane emits the write as its item. A trap holds the task that runs, counts it and writes TASK_TRAP, with the cause of the error
response where one was returned (03 R70). -/
def Obligations.TaskCommandsComplete : Prop :=
  (∀ (l : Fin 8) cp x s t, s.copyGoes l.val cp = true → (s.laneAt l.val).split = true → s.nextTask l.val cp = some x → x.num < 32 →
    reaches s (writeTxn l cp 3 (laneSlot l.val + 0x108) 8 (BitVec.ofNat 64 x.num)) = true →
    t = (s.curWrite l.val cp (BitVec.ofNat 64 x.num)).answer [] →
    answers (.taskDispatch l cp) s t ∧ (t.taskAt x.num).st = .running) ∧
  (∀ (l : Fin 8) cp x s, s.copyGoes l.val cp = true → (s.laneAt l.val).split = false → s.nextTask l.val cp = some x →
    answers (.taskDispatch l cp) s
      (s.emit l.val cp (writeItem 3 (laneSlot l.val + 0x108) 8 (BitVec.ofNat 64 x.num)) .none)) ∧
  (∀ (l : Fin 8) cp v s, s.copyGoes l.val cp = true → (s.laneAt l.val).split = true →
    reaches s (writeTxn l cp 3 (laneSlot l.val + 0x100) 8 v) = true →
    answers (.taskDone l cp v) s ((s.taskDone l.val cp v).answer [])) ∧
  (∀ (l : Fin 8) cp v x s t, s.copyGoes l.val cp = true → (s.laneAt l.val).split = true →
    reaches s (writeTxn l cp 3 (laneSlot l.val + 0x100) 8 v) = true → ((s.laneAt l.val).copy cp).idle = false →
    ((s.laneAt l.val).copy cp).curTask = BitVec.toNat (v &&& 0x1F) → s.taskCfg (BitVec.toNat (v &&& 0x1F)) = some x →
    x.num = BitVec.toNat (v &&& 0x1F) → x.kind ≠ .background → (s.taskAt x.num).st = .running → (s.taskAt x.num).held = false →
    (s.taskAt x.num).queue = [] → t = (s.taskDone l.val cp v).answer [] →
    answers (.taskDone l cp v) s t ∧ (t.taskAt x.num).st = .idle ∧ (t.taskAt x.num).firstRun = false) ∧
  (∀ (l : Fin 8) cp v s, s.copyGoes l.val cp = true → (s.laneAt l.val).split = false →
    answers (.taskDone l cp v) s (s.emit l.val cp (writeItem 3 (laneSlot l.val + 0x100) 8 v) .none)) ∧
  (∀ (l : Fin 8) cp cause addr x s u k, s.copyGoes l.val cp = true → s.runningOn l.val cp = some x →
    u = s.onLane l.val (fun y => if y.split then y.onCopy cp LaneCopy.trapped else { y with a := y.a.trapped, b := y.b.trapped }) →
    k = (u.charge l.val cp x).onTask x.num (fun y => { y with held := true, traps := satAdd 64 y.traps 1 }) →
    answers (.taskTrap l cp cause addr) s
      (k.record 0x0104 (srcOf 2 x.num) [x.num, l.val, ((s.laneAt l.val).copy cp).exc.getD cause, if k.confidential then 0 else addr]))

/-- Delivery at an agreed count, the lane timer and software interrupts (03 R71 to R73, R87): the copies report counts within their checkpoints and
receive D and every pending event in the fixed order, which ends a WAIT; a split lane's copies take them without an agreed count; the events of a
lane timer and of another lane wait at the delivery unit. -/
def Obligations.DeliveryCompletes : Prop :=
  (∀ (l : Fin 9) cA cB s d evs, (s.laneAt l.val).pending ≠ [] → s.laneGoes l.val = true → (s.laneAt l.val).a.countOk cA = true →
    (s.laneAt l.val).b.countOk cB = true → (s.laneAt l.val).split = false →
    d = agreed cA cB (s.laneAt l.val).a.waiting (s.laneAt l.val).b.waiting → evs = s.sortDev (s.laneAt l.val).pending →
    answers (.deliveryRequest l cA cB) s (s.onLane l.val fun x => { x with
      pending := [], delivered := evs, d := d, wait := none, waitOver := x.overWaits, debugHalt := x.debugHalt || evs.contains .halt
      stillAt := if evs.contains .halt then some s.clk.now else x.stillAt
      a := { x.a with ret := cA, waiting := false }, b := { x.b with ret := cB, waiting := false } })) ∧
  (∀ (l : Fin 9) cA cB s evs, (s.laneAt l.val).pending ≠ [] → s.laneGoes l.val = true → (s.laneAt l.val).a.countOk cA = true →
    (s.laneAt l.val).b.countOk cB = true → (s.laneAt l.val).split = true → evs = s.sortDev (s.laneAt l.val).pending →
    answers (.deliveryRequest l cA cB) s (s.onLane l.val fun x => { x with
      pending := [], delivered := evs, wait := none, debugHalt := x.debugHalt || evs.contains .halt
      stillAt := if evs.contains .halt then some s.clk.now else x.stillAt
      a := { x.a with ret := cA, waiting := false }, b := { x.b with ret := cB, waiting := false } })) ∧
  (∀ (l : Fin 9) s, (s.laneAt l.val).timerEn = true → (s.laneAt l.val).halted = false →
    answers (.laneTimerExpiry l) s (s.atDelivery l.val .timer)) ∧
  (∀ (a b : Fin 9) s, s.laneGoes a.val = true → (s.laneAt b.val).halted = false →
    answers (.softwareInterrupt a b) s (s.atDelivery b.val (.soft a.val)))

/-! ## Interconnect, Windbreak, comparators, debug port: 03, 14, 15 -/

/-- Transactions and register writes (15 R406, R408, R419, R422, 01 R21, R24, 21 R513). A transaction that reaches plain memory without a code error
or poison is carried out there, a write into memory outside the tracking tables stores its enabled bytes; a refused one is recorded as a violation
and answers nothing, in a split copy with an access fault; while an update holds the gate one of another class than MGT waits; one for an island
whose clock stands still waits at its crossing. A register write through BAR0 is a transaction of class HOST, of a split copy one of its class; a
copy of a compared lane, the management lane among them, emits it as an item. Points that the spec leaves open are the model's choice: log entries
12, 13 and 73. -/
def Obligations.TransactionsComplete : Prop :=
  (∀ t s, issues s t = true → reaches s t = true → slotOf t.addr = none → t.err = .none → s.mgn.poison = [] →
    answers (.interconnectTransaction t) s (s.memAccess (Held.of t))) ∧
  (∀ t s k, issues s t = true → reaches s t = true → slotOf t.addr = none → t.err = .none → s.mgn.poison = [] → t.kind = 1 →
    (0x0160000000 ≤ t.addr && t.addr < 0x017C000000) = false → k = s.breakRes t.addr →
    answers (.interconnectTransaction t) s ((k.store t.addr (blend t (s.readOf t.addr t.size))).answer [])) ∧
  (∀ t reason region a straddle s, issues s t = true → s.wb.held = false → barBad t = false →
    s.refusal t = some (reason, region, a, straddle) →
    answers (.interconnectTransaction t) s ((s.violate t reason region a straddle).refuse.done (Held.of t))) ∧
  (∀ t s, issues s t = true → s.wb.held = true → t.cls.val ≠ 3 →
    answers (.interconnectTransaction t) s { s with wb := { s.wb with gate := s.wb.gate ++ [Held.of t] } }) ∧
  (∀ t s, issues s t = true → s.wb.held = false → barBad t = false → s.refusal t = none → s.powered t.addr = true →
    (s.atParked t.addr || s.clockHeld t.addr) = true →
    answers (.interconnectTransaction t) s { s with wb := { s.wb with crossing := s.wb.crossing ++ [Held.of t] } }) ∧
  (∀ (l : Fin 8) cp addr size v s p, s.copyGoes l.val cp = true → (s.laneAt l.val).split = false →
    p = (if slotOf addr = some (12 + l.val) then 3 else s.lanePriv l.val cp) →
    answers (.registerWrite (.lane l cp) addr size v) s (s.emit l.val cp (writeItem p addr size v) .none)) ∧
  (∀ (l : Fin 8) cp addr size v s p, s.copyGoes l.val cp = true → (s.laneAt l.val).split = true →
    p = (if slotOf addr = some (12 + l.val) then 3 else s.lanePriv l.val cp) →
    answers (.registerWrite (.lane l cp) addr size v) s (s.txn (Held.of (writeTxn l cp p addr size v)))) ∧
  (∀ addr a size v s, barAddr addr = some a → answers (.registerWrite .host addr size v) s (s.txn (Held.of (barWrite a size v)))) ∧
  (∀ addr a v s slot k, barAddr addr = some a → slotOf a = some slot → described slot = true → a % 8 = 0 →
    reaches s (barWrite a 8 v) = true → k = s.regWrite slot .a (a % 0x10000) v State.heldTxn →
    answers (.registerWrite .host addr 8 v) s (k.answer [])) ∧
  (∀ addr size v s, answers (.registerWrite .mgt addr size v) s
    ((s.emit 8 .a (writeItem 3 addr size v) .none).emit 8 .b (writeItem 3 addr size v) .none))

/-- The update of the access table (15 R409, R419 to R421, R426): UPDATE, at a time that R420 allows, keeps the table in its shadow and closes the
gate; LOAD and region writes are taken only meanwhile, and a region register keeps no reserved bit; the end of the update arms the Windbreak and
opens the gate, whose transactions are then granted; 8 µs after it began an update is aborted, the shadow restored and recorded. -/
def Obligations.WindbreakUpdateCompletes : Prop :=
  (∀ s, s.wb.update = false → s.updateTime = true → answers .wbUpdateSet s
    { s with wb := { s.wb with update := true, held := true, shadow := s.wb.rgn, since := s.clk.now } }) ∧
  (∀ s, s.wb.update = true → answers .wbLoadSet s { s with wb := { s.wb with load := true } }) ∧
  (∀ s, s.wb.update = false → answers .wbLoadSet s (s.setupError 0 2)) ∧
  (∀ s, s.wb.update = true → answers .wbUpdateClear s ((updated s).openGate State.heldTxn)) ∧
  (∀ s, s.wb.update = true → s.wb.gate = [] → answers .wbUpdateClear s
    { updated s with wb := { (updated s).wb with held := false, update := false } }) ∧
  (∀ s k, s.wb.update = true → s.wb.gate = [] → k = s.reach (s.wb.since + 8000) → k.wb = s.wb → answers .wbUpdateTimeout s
    (({ k with
      wb := { s.wb with rgn := s.wb.shadow, load := false, aborted := true, aborts := min 65535 (s.wb.aborts + 1)
                        lastHold := k.clk.now - s.wb.since, held := false, update := false }
      chg := { k.chg with change := k.chg.change.map fun c => { c with abandoned := true } } } : State).record 0x0D01 (srcOf 12 0) [])) ∧
  (∀ (r : Fin 64) v s, s.wb.aborted = false → s.wb.update = true → s.wb.held = true → rgnBad 0 v = false →
    answers (.wbRgnWrite r 0 v) s
      { s with wb := { s.wb with rgn := s.wb.rgn.set r.val { s.wb.rgn[r] with addr := v &&& 0x800000FFFFFFF03F } } }) ∧
  (∀ (r : Fin 64) v s, s.wb.aborted = false → s.wb.update = true → s.wb.held = true →
    answers (.wbRgnWrite r 1 v) s
      { s with wb := { s.wb with rgn := s.wb.rgn.set r.val { s.wb.rgn[r] with perm := v &&& 0xFFFFFF } } }) ∧
  (∀ (r : Fin 64) v s, s.wb.aborted = false → s.wb.update = true → s.wb.held = true →
    answers (.wbRgnWrite r 2 v) s
      { s with wb := { s.wb with rgn := s.wb.rgn.set r.val { s.wb.rgn[r] with scope := v &&& 0xFFFFFFFF00000FFF } } }) ∧
  (∀ (r : Fin 64) (g : Fin 3) v s, s.wb.aborted = false → s.wb.update = false →
    answers (.wbRgnWrite r g v) s (s.setupError (0x1000 + 0x20 * r.val + 8 * g.val) (BitVec.toNat v))) ∧
  (∀ s, answers .wbAbortedClear s { s with wb := { s.wb with aborted := false } })

/-- The comparator (03 R59, R60, R63 to R69, R77, R81). A copy's first item enters its empty buffer, numbered and formed by the hardware; a WFI
enters as a WAIT, and a copy of a split lane waits on its own. The second copy's item that equals the first one's leaves both buffers empty and goes
on; one that differs latches MISMATCH. An item that waits too long for its pair latches SKEW_TIME; an answered return reaches both copies, an error
response with the same access fault in both; a parity error in a line that the lane may cache is repaired with memory's line under the copy's own
writes, and counted. The instant of the timer is a free value within its bounds: log entry 3. -/
def Obligations.ComparatorCompletes : Prop :=
  (∀ (l : Fin 9) cp it s, emits s l.val cp = true → it.kind ≠ 7 → it.kind ≠ 6 → it.kind ≠ 5 → it.size ≠ 7 → (s.laneAt l.val).a.skew = [] →
    (s.laneAt l.val).b.skew = [] →
    answers (.comparedItem l cp it .none) s
      (s.onLane l.val fun x => x.onCopy cp fun y => { y with
        items := y.items + 1, waiting := false, exc := none, skew := [skewEntry s l.val cp it] })) ∧
  (∀ (l : Fin 9) cp it s, emits s l.val cp = true → (s.laneAt l.val).split = false → (s.laneAt l.val).a.skew = [] →
    (s.laneAt l.val).b.skew = [] → it.size ≠ 7 → answers (.wfi l cp it .none) s (s.onLane l.val fun x => x.onCopy cp fun y =>
      { y with items := y.items + 1, waiting := true, exc := none, skew := [skewEntry s l.val cp { it with kind := 6 }] })) ∧
  (∀ (l : Fin 9) cp it s, (s.laneAt l.val).split = true → s.copyGoes l.val cp = true → answers (.wfi l cp it .none) s
    (s.onLane l.val fun x => (x.onCopy cp fun y => { y with waiting := true }).takeMode)) ∧
  (∀ (l : Fin 9) ent it e s k, emits s l.val .b = true → it.kind.toNat < 5 → it.size ≠ 7 → (s.laneAt l.val).a.skew = [ent] →
    (s.laneAt l.val).b.skew = [] → s.clk.now ≤ ent.at_ + 2000 → e = skewEntry s l.val .b it → itemEq ent.item e.item = true →
    k = s.onLane l.val (fun x => { x with
      a := { x.a with skew := [] }, b := { x.b with items := x.b.items + 1, waiting := false, exc := none, skew := [] } }) →
    answers (.comparedItem l .b it .none) s ((k.forward l.val ent 0 .none).injectRepair l.val e.item.addr.toNat)) ∧
  (∀ (l : Fin 9) ent it e s k, emits s l.val .b = true → it.kind.toNat < 5 → it.size ≠ 7 → (s.laneAt l.val).a.skew = [ent] →
    (s.laneAt l.val).b.skew = [] → s.clk.now ≤ ent.at_ + 2000 → e = skewEntry s l.val .b it → itemEq ent.item e.item = false →
    k = s.onLane l.val (fun x => { x with
      a := { x.a with skew := [] }, b := { x.b with items := x.b.items + 1, waiting := false, exc := none, skew := [] } }) →
    answers (.comparedItem l .b it .none) s
      ((k.latchFault l.val 1 0 ent.num (some ent.item) (some e.item)).injectRepair l.val e.item.addr.toNat)) ∧
  (∀ (l : Fin 9) ent rest s k, s.comparing l.val = true → (s.laneAt l.val).a.skew = ent :: rest → (s.laneAt l.val).b.skew = [] →
    k = s.drawNat →
    answers (.skewTime l) s ((k.2.reach (ent.at_ + 1800 + k.1 % 201)).latchOne l.val 3 .a ent.num ent.item)) ∧
  (∀ (l : Fin 9) r rest d s, s.comparing l.val = true → (s.laneAt l.val).awaiting = r :: rest → r.reply = some d → s.lanes.inject = none →
    answers (.readReturn l .none .none) s (s.onLane l.val fun x => { x with
      awaiting := rest, returned := d
      a := { x.a with exc := if d.isNone then some (accessCause r.item.fetch r.item.kind.toNat) else none }
      b := { x.b with exc := if d.isNone then some (accessCause r.item.fetch r.item.kind.toNat) else none } })) ∧
  (∀ (l : Fin 9) cp line s, s.comparing l.val = true → ((s.laneAt l.val).copy cp).dead = false → s.cacheable l.val line = true →
    answers (.l1ParityError l cp line) s (s.repair l.val cp line)) ∧
  (∀ (l : Fin 9) cp line s, s.comparing l.val = true → ((s.laneAt l.val).copy cp).dead = false → s.cacheable l.val line = true →
    ((s.laneAt l.val).copy cp).repairAt = [] →
    answers (.l1ParityError l cp line) s (s.onLane l.val fun x => x.onCopy cp fun y => { y with
      repairs := satAdd 64 y.repairs 1, repairAt := [s.clk.now]
      repaired := s.repairData ((s.laneAt l.val).copy cp) line }))

/-- Lanes beside their tasks (11 R298, 01 R21, 03 R66, R84): a standby with parked lanes wakes them, with their L1 caches to invalidate and the
transactions that waited for them granted, a hot one only notes the time; 1 ms later without a takeover the lanes that stand in a WAIT are parked
again; with the record of a lane fault in the archive a module asks its partner for a reset, and 100 ms without one leave it stranded. -/
def Obligations.LanesWakeAndFollowFaults : Prop :=
  (∀ s k, s.pair.role = .standby → s.pair.wokenAt = none → s.pair.hot = false → k = s.wakeLanes →
    answers .laneWake s { k with pair := { k.pair with wokenAt := some k.clk.now } }) ∧
  (∀ s, s.pair.role = .standby → s.pair.wokenAt = none → s.pair.hot = false → s.wb.crossing = [] →
    ∃ t, answers .laneWake s t ∧ t.pair.wokenAt = some s.clk.now ∧ t.mem = s.mem ∧
      ∀ i : Fin 9, i.val < 8 → (t.lanes.lane[i]).parked = false ∧ ((s.lanes.lane[i]).parked = true → (t.lanes.lane[i]).l1Inval = true)) ∧
  (∀ s, s.pair.role = .standby → s.pair.wokenAt = none → s.pair.hot = true →
    answers .laneWake s { s with pair := { s.pair with wokenAt := some s.clk.now } }) ∧
  (∀ u s k, s.pair.wokenAt = some u → k = s.reach (u + 1000000) → k.pair.role = .standby → k.pair.hot = false →
    answers .laneParkTimeout s ({ k with pair := { k.pair with wokenAt := none } } : State).parkLanes) ∧
  (∀ s, s.lanes.faulted = true → s.lanes.resetReq = none → s.recd.due = [] →
    answers .laneFaultFlashCommit s
      (({ s with lanes := { s.lanes with resetReq := some s.clk.now } } : State).send .resetRequest)) ∧
  (∀ s k, k = (s.recd.due.filter (·.code = 0x0200)).foldl State.archiveOne
      ({ s with recd := { s.recd with due := s.recd.due.filter (·.code ≠ 0x0200) } } : State) → k.lanes.faulted = false →
    answers .laneFaultFlashCommit s k) ∧
  (∀ u s k, s.lanes.resetReq = some u → k = s.reach (u + 100000000) →
    answers .pairResetRequestTimeout s { k with lanes := { k.lanes with stranded := true, resetReq := none } })

/-- The debug port (14 R403, R404, 18 R476): a valid token opens the port with its scope and is recorded; through an open port with HALT a lane that
no running VANE holder needs is halted at an agreed count, and the module is reset; an access within the scope is a transaction of class DBG, one
outside it is refused with a record. Points that the spec leaves open are the model's choice: log entries 46 and 89. -/
def Obligations.DebugPortCompletes : Prop :=
  (∀ k s, s.tokenOk k = true → answers (.debugToken k) s
    (({ s with keys := { s.keys with dbgOpen := true, dbgScope := k.tscope, dbgSeen := true } } : State).record 0x0C02 (srcOf 11 0) [])) ∧
  (∀ (l : Fin 8) s, s.dbgIsOpen = true → s.dbgRight 2 = true → (s.holder && s.liveTask) = false →
    answers (.debugHaltRequest l) s (s.atDelivery l.val .halt)) ∧
  (∀ (l : Fin 8) s, s.dbgIsOpen = true → s.dbgRight 2 = false → answers (.debugHaltRequest l) s (s.dbgRefuse [l.val])) ∧
  (∀ s, s.dbgIsOpen = true → s.dbgRight 2 = true → s.resetOk 6 = true → (s.holder && s.liveTask) = false →
    answers .debugResetRequest s ((s.faultMessage 3).takeReset 6)) ∧
  (∀ t s, s.dbgIsOpen = true → s.dbgRight (if txnWrites t then 1 else 0) = true →
    answers (.debugAccess t) s (s.txn (Held.of { t with cls := 5 }))) ∧
  (∀ t s, s.dbgIsOpen = true → reaches s { t with cls := 5 } = true → s.dbgRight (if txnWrites t then 1 else 0) = true →
    slotOf t.addr = none → t.err = .none → s.mgn.poison = [] →
    answers (.debugAccess t) s (s.memAccess (Held.of { t with cls := 5 }))) ∧
  (∀ t s, s.dbgIsOpen = true → s.dbgRight (if txnWrites t then 1 else 0) = false →
    answers (.debugAccess t) s ((s.dbgRefuse [t.addr]).refuse))

/-! ## Long operations, self-tests, life cycle: 13, 14 -/

/-- OP_SUSPEND, OP_RESUME and OP_CANCEL, suspend points and progress (13 R352, R372, R373, 12 R331). A suspend of an operation that still may be
suspended waits for its next suspend point, which suspends it; one of LIFECYCLE_ADVANCE takes effect at once; a resume of a suspended operation
posts its PROGRESS; a cancel of one that still may be cancelled ends it, an FW_HANDOVER outside the rejoin at its next step. A chunk of a SCRUB
posts PROGRESS at each 256 MiB, the last one ends it with its counts. Points that the spec leaves open are the model's choice: log entries 19 and
34. -/
def Obligations.OperationControlCompletes : Prop :=
  (∀ c s b r, b = begun s 0x00E0 c 0 (c.inlZero 6) → passesOn s 0x00E0 c = true → b.target c = some r → r.suspended = false →
    b.noSuspend r = false → suspendsNow r = false →
    answers (.opSuspend c) s ((b.addRun (suspendWait b c r)).setRun { r with suspendDue := true })) ∧
  (∀ c s b r, b = begun s 0x00E0 c 0 (c.inlZero 6) → passesOn s 0x00E0 c = true → b.target c = some r → r.suspended = false →
    b.noSuspend r = false → suspendsNow r = true →
    answers (.opSuspend c) s ((b.addRun (suspendWait b c r)).suspendRun r)) ∧
  (∀ c s b r q, b = begun s 0x00E1 c 0 (c.inlZero 6) → passesOn s 0x00E1 c = true → b.target c = some r → r.suspended = true →
    q = ({ r with suspended := false, suspendDue := false } : Run) → isRejoin r = false →
    answers (.opResume c) s (((b.setRun q).resumed q).heardMeanwhile.final 0x00E1 c stOk dNone)) ∧
  (∀ c s b r q, b = begun s 0x00E1 c 0 (c.inlZero 6) → passesOn s 0x00E1 c = true → b.target c = some r → r.suspended = true →
    q = ({ r with suspended := false, suspendDue := false } : Run) → isRejoin r = true →
    answers (.opResume c) s (((b.setRun q).resumed q).rejoinOn.final 0x00E1 c stOk dNone)) ∧
  (∀ c s b r, b = begun s 0x00E2 c 0 (c.inlZero 6) → passesOn s 0x00E2 c = true → b.target c = some r → b.noCancel r = false →
    r.work ≠ .handover → answers (.opCancel c) s ((b.addRun (cancelWait b c r)).cancelRun r)) ∧
  (∀ c s b r x y, b = begun s 0x00E2 c 0 (c.inlZero 6) → passesOn s 0x00E2 c = true → b.target c = some r → r.work = .scrub x y →
    answers (.opCancel c) s ((b.addRun (cancelWait b c r)).endRun r stCancelled dNone)) ∧
  (∀ c s b r, b = begun s 0x00E2 c 0 (c.inlZero 6) → passesOn s 0x00E2 c = true → b.target c = some r → r.work = .handover →
    b.chg.handover ≠ 3 → b.noCancel r = false →
    answers (.opCancel c) s ((b.addRun (cancelWait b c r)).setRun { r with cancelDue := true })) ∧
  (∀ sess id r s, s.runOf (BitVec.toNat sess) id = some r → r.suspendDue = true → r.suspended = false →
    answers (.suspendPointReached sess id) s (s.suspendRun r)) ∧
  (∀ sess id done total x y r s, s.runOf (BitVec.toNat sess) id = some r → r.suspended = false → s.serves = true → r.work = .scrub x y →
    r.total ≤ done → answers (.longOperationProgress sess id done total .good) s
      (s.endRun r stOk dNone (BitVec.ofNat 64 x) (BitVec.ofNat 64 y))) ∧
  (∀ sess id done total x y r s, s.runOf (BitVec.toNat sess) id = some r → r.suspended = false → s.serves = true → r.work = .scrub x y →
    done < r.total → r.tells done = false → answers (.longOperationProgress sess id done total .good) s (s.setRun { r with done := done })) ∧
  (∀ sess id done total x y r s k, s.runOf (BitVec.toNat sess) id = some r → r.suspended = false → s.serves = true → r.work = .scrub x y →
    done < r.total → r.tells done = true → k = s.setRun { r with done := done } →
    answers (.longOperationProgress sess id done total .good) s
      (k.drawNat.2.progress { r with done := done } (k.drawNat.1 % 65536) done r.total))

/-- SELFTEST and TRACK_SNAPSHOT (13 R371, 03 R91, R92, 09 R252): SCRUB, FLASH_VERIFY and a TRACK_SNAPSHOT whose scope fits its buffer are accepted
as long operations; LANE_INJECT with its fields in range, while no fault is armed, is accepted and arms its fault; an armed fault without its result
within 10 ms of firing ends its operation and unmutes its copy. Points that the spec leaves open are the model's choice: log entry 21. -/
def Obligations.SelfTestsComplete : Prop :=
  (∀ c s b, b = begun s 0x00D0 c 0 (c.inlZero 1) → passes s 0x00D0 c 0 (c.inlZero 1) = true → c.inf 0 1 = 1 →
    answers (.scrub c) s (b.accept (mkRun 0x00D0 c (b.partyOf c) true 0x100000000 (.scrub 0 0)) 0x00D0 c)) ∧
  (∀ c s b, b = begun s 0x00D0 c 0 (c.inlZero 1) → passes s 0x00D0 c 0 (c.inlZero 1) = true → c.inf 0 1 = 2 →
    answers (.flashVerify c) s (b.accept (mkRun 0x00D0 c (b.partyOf c) true b.slotsHeld (.flashVerify 0 0)) 0x00D0 c)) ∧
  (∀ c s b k, b = begun s 0x00D0 c 0 (c.inf 6 2 = 0 && c.inf 12 4 = 0) → passes s 0x00D0 c 0 (c.inf 6 2 = 0 && c.inf 12 4 = 0) = true →
    c.inf 0 1 = 0x10 → c.inf 1 1 ≤ 8 → (decide (c.inf 1 1 < 8) && (b.laneAt (c.inf 1 1)).split) = false → c.inf 2 1 ≤ 1 → c.inf 3 1 ≤ 6 →
    bitOk (c.inf 3 1) (c.inf 4 2) = true → c.inf 8 4 ≠ 0 → b.lanes.inject = none → b.longOps < 8 →
    k = b.accept (mkRun 0x00D0 c (b.partyOf c) true 0 .inject) 0x00D0 c →
    answers (.laneInject c) s { k with lanes := { k.lanes with inject := some (armed c) } }) ∧
  (∀ i u n s k, s.lanes.inject = some i → i.fired = some (u, n) → k = s.reach (u + 10000000) →
    answers .laneInjectTimeout s ((k.onLane i.lane fun l => l.onCopy i.copy fun c => { c with muted := false }).endInject i false 0)) ∧
  (∀ c s b, b = begun s 0x00F0 c 2 (c.inf 0 4 < 128 && c.inf 12 4 = 0) →
    passes s 0x00F0 c 2 (c.inf 0 4 < 128 && c.inf 12 4 = 0) = true → c.inf 0 4 ≠ 0 → c.inf 4 4 + c.inf 8 4 ≤ objMax →
    snapLen (c.inf 0 4) (c.inf 8 4) ≤ c.length → b.running 0x00F0 = false →
    answers (.trackSnapshot c) s (b.accept (mkRun 0x00F0 c (b.partyOf c) true (snapLen (c.inf 0 4) (c.inf 8 4))
      (.snapshot (c.inf 0 4) (c.inf 4 4) (c.inf 8 4) none 0 0 false)) 0x00F0 c))

/-- ATTEST, LIFECYCLE_ADVANCE and the key set (14 R395 to R402). ATTEST with room for its list answers the report with its signature. A change that
the table gives, with its buffer, its content, its condition and a free module, is accepted, recorded, and its first step reported; its second step
is reported, its third closes every session and programs copy 1 of the fuses, its fourth resets the module. An empty slot takes the key with its
proof; a revoked slot is empty, its sessions closed; a new Owner empties every Service slot and closes the sessions of both. Each change of the key
set is recorded. The verdict on a proof is an operand: log entry 35. -/
def Obligations.LifeCycleCompletes : Prop :=
  (∀ c s b p, b = begun s 0x00A0 c 2 (c.inlZero 16) → passes s 0x00A0 c 2 (c.inlZero 16) = true →
    512 + 8 * b.img.force.length ≤ c.length → p = b.report (slice c.inl 0 16) →
    answers (.attest c) s
      (b.finalData 0x00A0 c stOk (BitVec.ofNat 64 (512 + 8 * b.img.force.length)) 0 (p ++ le 64 (b.sign p).toNat))) ∧
  (∀ c ok s b d k, d = (if lifeBuf (c.inf 0 1) s.keys.life = 0 then 0 else 1) → b = begun s 0x00B0 c d (lifeRes c) → lifePasses s c d = true →
    changeGiven b.keys.life (c.inf 0 1) = true → c.length = lifeBuf (c.inf 0 1) b.keys.life → b.lifeContent c (c.inf 0 1) ok = true →
    b.lifeCond (c.inf 0 1) = true → b.lifeFree = true → b.keys.rngFail = false → b.running 0x00B0 = false → b.longOps < 8 →
    c.inf 0 1 ≠ b.keys.life → k = (b.accept (lifeRun b c) 0x00B0 c).lifeRecord (c.inf 0 1)
      ((b.accept (lifeRun b c) 0x00B0 c).partyOf c) →
    answers (.lifecycleAdvance c ok) s
      (({ k with keys := { k.keys with transition := some 1 } } : State).progress (lifeRun b c) 1 1 5)) ∧
  (∀ sess id done total e x r s, s.runOf (BitVec.toNat sess) id = some r → r.suspended = false → s.serves = true → r.work = .lifecycle x →
    s.keys.transition = some 1 → answers (.longOperationProgress sess id done total e) s
      (({ s with keys := { s.keys with transition := some 2 } } : State).progress r 2 2 5)) ∧
  (∀ sess id done total e x r s k, s.runOf (BitVec.toNat sess) id = some r → r.suspended = false → s.serves = true → r.work = .lifecycle x →
    s.keys.transition = some 2 → k = s.closeAll (fun _ => true) 3 → answers (.longOperationProgress sess id done total e) s
      { k with keys := { k.keys with half := some x, epoch := k.keys.epoch + 1, transition := some 3 } }) ∧
  (∀ sess id done total e x r s, s.runOf (BitVec.toNat sess) id = some r → r.suspended = false → s.serves = true → r.work = .lifecycle x →
    s.keys.transition = some 3 → s.pair.role ≠ .standby → answers (.longOperationProgress sess id done total e) s (s.takeReset 7)) ∧
  (∀ c s b, b = begun s 0x00B0 c 1 (lifeRes c) → lifePasses s c 1 = true → c.inf 0 1 = b.keys.life → c.inf 1 1 = 1 → c.length = 96 →
    c.inf 2 1 < 8 → c.inf 4 4 = 0 → (b.keys.integ.toList.getD (c.inf 2 1) none).isSome = false →
    answers (.enrolIntegrator c true) s (keySetDone c
      { b with keys := { b.keys.rewritten with integ := b.keys.integ.setIfInBounds (c.inf 2 1) (some (newKey c)) } })) ∧
  (∀ c s b x, b = begun s 0x00B0 c 0 (lifeRes c) → lifePasses s c 0 = true → c.inf 0 1 = b.keys.life → c.inf 1 1 = 2 → c.length = 0 →
    c.inf 2 1 < 8 → c.inf 4 4 = 0 → x = b.keys.integ.toList.getD (c.inf 2 1) none → (x.isSome && b.signedHeld x) = false →
    answers (.revokeIntegrator c) s (closeParty c (fun y => y.party = 3 && y.slot = c.inf 2 1)
      { b with keys := { b.keys.rewritten with
        integ := b.keys.integ.setIfInBounds (c.inf 2 1) none, store := b.keys.store.filter fun y => some y ≠ x } })) ∧
  (∀ c s b, b = begun s 0x00B0 c 1 (lifeRes c) → lifePasses s c 1 = true → c.inf 0 1 = b.keys.life → c.inf 1 1 = 3 → c.length = 96 →
    c.inf 2 1 < 8 → b.keys.boot ≤ c.inf 4 4 → (b.keys.grant.toList.getD (c.inf 2 1) none).isSome = false →
    answers (.grantService c true) s (keySetDone c { b with keys := { b.keys.rewritten with
      grant := b.keys.grant.setIfInBounds (c.inf 2 1) (some { key := newKey c, limit := c.inf 4 4 }) } })) ∧
  (∀ c s b, b = begun s 0x00B0 c 0 (lifeRes c) → lifePasses s c 0 = true → c.inf 0 1 = b.keys.life → c.inf 1 1 = 4 → c.length = 0 →
    c.inf 2 1 < 8 → c.inf 4 4 = 0 →
    answers (.revokeService c) s (closeParty c (fun y => y.party = 4 && y.slot = c.inf 2 1)
      { b with keys := { b.keys.rewritten with grant := b.keys.grant.setIfInBounds (c.inf 2 1) none } })) ∧
  (∀ c s b, b = begun s 0x00B0 c 1 (lifeRes c) → lifePasses s c 1 = true → c.inf 0 1 = b.keys.life → c.inf 1 1 = 5 → c.length = 96 →
    c.inf 2 1 = 0 → c.inf 4 4 = 0 →
    answers (.replaceOwner c true) s (closeParty c (fun y => y.party = 2 || y.party = 4)
      { b with keys := { b.keys.rewritten with
        owner := some (newKey c), grant := Vector.replicate 8 none, store := b.keys.store.filter fun y => some y ≠ b.keys.owner } }))

/-! ## Ageing and margins: 19 -/

/-- Ageing (19 R490 to R493, R496, R497). A measurement sets the value of its margin and the day's lowest, then the automatic step and the test for
exhaustion follow; the day's lowest values join the history, the day is counted, the predictions are kept and each margin may propose its change;
MARGIN_REPORT answers 3,712 bytes; MARGIN_REPLAN of the proposed plan on a quiescent module puts it into force, records it and writes settings block
0x0004. The predicted dates are an operand: log entry 14. -/
def Obligations.AgeingCompletes : Prop :=
  (∀ kind inst v i s, marginIdx kind inst = some i →
    answers (.marginMeasure kind inst v) s (((measuredMargin s i v).autoStep kind inst i).exhaust kind inst i)) ∧
  (∀ kind inst v i s, marginIdx kind inst = some i →
    ∃ t, answers (.marginMeasure kind inst v) s t ∧ (t.margin i).value = v ∧ t.mgn.mhz = s.mgn.mhz ∧ t.mgn.tMin = s.mgn.tMin ∧
      t.mgn.plan = s.mgn.plan ∧ t.mem = s.mem) ∧
  (∀ dates s k, k = dayKept s →
    answers (.marginDaily dates) s
      ((List.range 113).foldl State.planOne (k.onMargins fun i m => { m with pred := k.predict dates i m }))) ∧
  (∀ c s b, b = begun s 0x00C0 c 2 (c.inlZero 0) → passes s 0x00C0 c 2 (c.inlZero 0) = true → 3712 ≤ c.length →
    answers (.marginReport c) s (b.finalData 0x00C0 c stOk 3712 0 b.marginReport) ∧
    (b.basePlan.1.length = 8 → b.marginReport.length = 3712)) ∧
  (∀ c s b f u k, b = begun s 0x00C1 c 0 (c.inlZero 4) → passes s 0x00C1 c 0 (c.inlZero 4) = true → c.inf 0 4 ≠ 0 →
    b.mgn.plan = some (c.inf 0 4, f, u) → b.quiescent = true → b.tMinBad u = false →
    b.fits 4 ((c.inf 0 4 :: f ++ [u]).flatMap (le 8)) = true →
    k = ({ b with mgn := { b.mgn with mhz := Vector.ofFn (fun i => f.getD i.val 1600), tMin := u, plan := none } } : State) →
    answers (.marginReplan c) s
      (((k.recordBy 0x1002 ageSrc (items ([c.inf 0 4] ++ f ++ [u])) (k.partyOf c) false).wroteBlock 4).final 0x00C1 c stOk dNone
        (BitVec.ofNat 64 (c.inf 0 4))))

/-! ## Timed actuation and the IEEE 1588 reference: 08 -/

/-- The push window (08 R207 to R210, R217, R218, 03 R59). In a compared lane the commit of an entry for a network point that passes the checks puts
it into the pool with result 0; one that fails a check changes no queue, is counted for the task and leaves its code; ACT_CANCEL sets CANCEL, its
commit removes the unsent entries of its point at or after its TIME and joins the pool. In a split lane the copy that runs a task writes by itself.
A queued local entry is applied at its start instant. Points that the spec leaves open are the model's choice: log entries 9, 73 and 81. The IEEE
1588 reference (08 R202 to R206). An Announce on an enabled port joins the masters heard and the best acceptable one is selected; the first one
begins ACQUIRE. A Sync of the selected master measures the difference of R205; the sixteenth in a row within 1 µs locks the reference, disciplines
the calendar and brings TAI_UTC; the sixteenth in a row beyond it unlocks it; 3 s without a Sync give HOLDOVER and forget that master. Points that
the spec leaves open are the model's choice: log entry 11. -/
def Obligations.ActuationAndReferenceComplete : Prop :=
  (∀ (l : Fin 8) time s a, a = actWindow l.val + 8 → carries s l a time = true →
    answers (.netActPushT l time) s (carried s l a time (pushes l time))) ∧
  (∀ (l : Fin 8) time s a e t, a = actWindow l.val + 8 → carries s l a time = true → e = pushEntry (s.act.pushA.toList.getD l.val 0) time →
    e.cancel = false → ptStn e.point ≠ localCode → (paired s l a time).actCode e ((s.act.pushA.toList.getD l.val 0 >>> 49) ≠ 0) = 0 →
    t = carried s l a time (pushes l time) →
    answers (.netActPushT l time) s t ∧ t.act.pool = s.act.pool ++ [e] ∧ t.act.result[l] = 0 ∧ t.act.localQ = s.act.localQ ∧
      t.act.log = s.act.log ∧ t.mem = s.mem) ∧
  (∀ (l : Fin 8) time s a e k t, a = actWindow l.val + 8 → carries s l a time = true →
    e = pushEntry (s.act.pushA.toList.getD l.val 0) time →
    (paired s l a time).actCode e ((s.act.pushA.toList.getD l.val 0 >>> 49) ≠ 0) = k → k ≠ 0 → t = carried s l a time (pushes l time) →
    answers (.netActPushT l time) s t ∧ t.act.pool = s.act.pool ∧ t.act.result[l] = k ∧ t.act.localQ = s.act.localQ ∧ t.mem = s.mem ∧
      ∀ x, (s.laneAt l.val).a.curTask = x → x < 32 → (t.taskAt x).rejected = satAdd 64 (s.taskAt x).rejected 1) ∧
  (∀ (l : Fin 8) time s cp p, (s.laneAt l.val).split = true → cp = (if (s.laneAt l.val).a.idle && !(s.laneAt l.val).b.idle then .b else .a) →
    s.copyGoes l.val cp = true → p = s.lanePriv l.val cp →
    answers (.netActPushT l time) s (s.txn (Held.of (writeTxn l cp p (actWindow l.val + 8) 8 time)))) ∧
  (∀ (l : Fin 8) time s a (v : Word) k, a = actWindow l.val → v = s.act.pushA.toList.getD l.val 0 ||| (1 <<< 48) → carries s l a v = true →
    k = carried s l a v (fun x => { x with act := { x.act with pushA := x.act.pushA.setIfInBounds l.val v } }) →
    carries k l (a + 8) time = true →
    answers (.actCancel l time) s (carried k l (a + 8) time (pushes l time))) ∧
  (∀ (l : Fin 8) time s a (v : Word) k e t, a = actWindow l.val → v = s.act.pushA.toList.getD l.val 0 ||| (1 <<< 48) → carries s l a v = true →
    k = carried s l a v (fun x => { x with act := { x.act with pushA := x.act.pushA.setIfInBounds l.val v } }) →
    carries k l (a + 8) time = true → e = pushEntry v time → ptStn e.point ≠ localCode → (paired k l (a + 8) time).actCode e ((v >>> 49) ≠ 0) = 0 →
    t = carried k l (a + 8) time (pushes l time) →
    answers (.actCancel l time) s t ∧ t.act.result[l] = 0 ∧
      t.act.pool = s.act.pool.filter (fun x => !(x.point = e.point && e.time ≤ x.time)) ++ [e] ∧ t.act.localQ = s.act.localQ) ∧
  (∀ (ch : Fin 16) e s k, nextLocal ch.val s.act.localQ = some e → k = s.reachNet (localStart e) →
    answers (.localActInstant ch) s (({ k with act := { k.act with
      localQ := k.act.localQ.filter fun x => !(x.point = e.point && x.time = e.time) } } : State).applyLocal e)) ∧
  (∀ (ch : Fin 16) e s, nextLocal ch.val s.act.localQ = some e → ptIdx e.point = ch.val →
    ∃ t, answers (.localActInstant ch) s t ∧ (t.lch ch.val).cmd = e.value.getLsbD 0 ∧ (t.lch ch.val).held = true ∧
      (t.lch ch.val).actN = e.seq ∧ (∀ x ∈ t.act.localQ, ¬(x.point = e.point ∧ x.time = e.time)) ∧ t.act.pool = s.act.pool ∧
      t.mem = s.mem) ∧
  (∀ (p : Fin 2) m s, s.timeSrc.ports.testBit p.val = true → m.domain = s.timeSrc.domain → m.transport = s.timeSrc.transport →
    answers (.ptpAnnounceRx p m) s ({ s with act := { s.act with masters := heardMasters s p m } } : State).selectMaster) ∧
  (∀ (p : Fin 2) m s, s.timeSrc.ports.testBit p.val = true → acceptable s.timeSrc (p.val, m) = true → s.act.masters = [] →
    s.act.ref = .free → s.act.master = none →
    answers (.ptpAnnounceRx p m) s { s with act := { s.act with
      masters := [(p.val, m)], master := some (p.val, m), utc := if m.utcValid then some m.utcOffset else none
      ref := .acquire, near := 0, far := 0, syncAt := s.clk.now } }) ∧
  (∀ (p : Fin 2) m s, oursSync s p m = true → answers (.ptpSyncRx p m) s (s.measured (s.thetaOf m))) ∧
  (∀ (p : Fin 2) m s, oursSync s p m = true → s.act.ref = .acquire → Int.natAbs (s.thetaOf m) ≤ 1000 → 15 ≤ s.act.near →
    answers (.ptpSyncRx p m) s
      ((({ s with act := { s.act with
        theta := s.thetaOf m, near := s.act.near + 1, far := 0, syncAt := s.clk.now, ref := .locked } } : State).record 0x0408 (srcOf 4 32)
          []).calLocked).utcFromRef) ∧
  (∀ (p : Fin 2) m s, oursSync s p m = true → s.act.ref = .locked → 1000 < Int.natAbs (s.thetaOf m) → 15 ≤ s.act.far →
    answers (.ptpSyncRx p m) s
      (({ s with act := { s.act with
        theta := s.thetaOf m, near := 0, far := s.act.far + 1, syncAt := s.clk.now, ref := .acquire } } : State).record 0x0409 (srcOf 4 32)
          [])) ∧
  (∀ s m k, s.act.ref = .acquire ∨ s.act.ref = .locked → s.act.master = some m → k = s.reach (s.act.syncAt + 3000000000) →
    k.act = s.act →
    answers .ptpSyncTimeout s ({ k with act := { k.act with
      masters := k.act.masters.filter fun x => !(x.1 = m.1 && x.2.source = m.2.source) } } : State).loseRef)

/-! ## Local input and output: 10 -/

/-- Local inputs (10 R261 to R265, R274): a debounced level is taken, the fault that stands is kept, and its event released where the supply is up
and no force stands; BAND and a broken wire are faults with record and error task, a repaired wire ends its fault. Local outputs (10 R268, R270,
R272, R274): a terminal that disagrees with an open or closed switch is a fault with its code, agreement ends it; an overload opens the switch;
RETRY_MS later, or by LIO_TRIP_CLR, the trip ends. Points that the spec leaves open are the model's choice: log entry 54. -/
def Obligations.LocalChannelsComplete : Prop :=
  (∀ (ch : Fin 16) high e s k, (s.lch ch.val).cfg.mode = 1 →
    k = ((s.reachNet (e + (s.lch ch.val).cfg.debounceUs * 1000)).onLch ch.val fun c => { c with band := false }).onLch ch.val
      (fun c => { c with fault := c.standing }) →
    answers (.lioDebounceDone ch high e) s
      (k.setLevel ch.val high (upSupply (k.supplyOf ch.val) && !(k.forced (mkPoint localCode 0 ch.val)).isSome) e)) ∧
  (∀ (ch : Fin 16) high e s, (s.lch ch.val).cfg.mode = 2 →
    answers (.lioDebounceDone ch high e) s (s.onLch ch.val fun c => { c with level := high })) ∧
  (∀ (ch : Fin 16) s, (s.lch ch.val).cfg.mode = 1 → (s.lch ch.val).band = false →
    answers (.lioBand ch) s
      (((s.onLch ch.val fun c => { c with band := true }).record 0x0801 (srcOf 7 ch.val) []).chFault ch.val 0x11 true)) ∧
  (∀ (ch : Fin 16) s, (s.lch ch.val).cfg.mode = 1 → (s.lch ch.val).cfg.lflags.testBit 0 = true → (s.lch ch.val).wbreak = false →
    answers (.wireBreak ch true) s ((s.onLch ch.val fun c => { c with wbreak := true }).chFault ch.val 0x10 true)) ∧
  (∀ (ch : Fin 16) s, (s.lch ch.val).cfg.mode = 1 → (s.lch ch.val).cfg.lflags.testBit 0 = true → (s.lch ch.val).wbreak = true →
    answers (.wireBreak ch false) s
      ((s.onLch ch.val fun c => { c with wbreak := false }).onLch ch.val fun c => { c with fault := c.standing })) ∧
  (∀ (ch : Fin 16) s, (s.lch ch.val).cfg.mode = 2 → (s.lch ch.val).sw = true → (s.lch ch.val).outFlt ≠ 2 →
    answers (.lioOutputFault ch false) s ((s.onLch ch.val fun c => { c with outFlt := 2 }).chFault ch.val 2 true)) ∧
  (∀ (ch : Fin 16) s, (s.lch ch.val).cfg.mode = 2 → (s.lch ch.val).sw = false → (s.lch ch.val).outFlt ≠ 1 →
    ((s.lch ch.val).cfg.lflags.testBit 1 && !s.holder) = false →
    answers (.lioOutputFault ch true) s ((s.onLch ch.val fun c => { c with outFlt := 1 }).chFault ch.val 1 true)) ∧
  (∀ (ch : Fin 16) s, (s.lch ch.val).outFlt ≠ 0 →
    answers (.lioFaultClear ch) s ((s.onLch ch.val fun c => { c with outFlt := 0 }).onLch ch.val fun c => { c with fault := c.standing })) ∧
  (∀ (ch : Fin 16) s, (s.lch ch.val).cfg.mode = 2 → (s.lch ch.val).sw = true → (s.lch ch.val).trip = none →
    upSupply (s.supplyOf ch.val) = true →
    answers (.overcurrentTrip ch) s ((tripped s ch.val 3).switches.chFault ch.val 3 (freshTrip s ch.val)) ∧
    answers (.thermalTrip ch) s ((tripped s ch.val 4).switches.chFault ch.val 4 (freshTrip s ch.val))) ∧
  (∀ (ch : Fin 16) u s k, (s.lch ch.val).trip.isSome = true → 0 < (s.lch ch.val).cfg.retryMs →
    k = s.reach ((s.lch ch.val).tripAt + (s.lch ch.val).cfg.retryMs * 1000000) → (k.lch ch.val).trip = some u →
    upSupply (k.supplyOf ch.val) = true → answers (.tripRetryExpiry ch) s (untripped k ch.val)) ∧
  (∀ (g : Side) v s, answers (.lioTripClr g v) s
    ((List.range 8).foldl (fun s c => if BitVec.getLsbD v c then s.clearTrip (8 * g.num + c) else s) s)) ∧
  (∀ (g : Side) v s, upSupply (s.supplyOf (8 * g.num)) = true →
    ∃ t, answers (.lioTripClr g v) s t ∧ t.mem = s.mem ∧ t.recd = s.recd ∧
      ∀ i : Fin 8, BitVec.getLsbD v i.val = true → (t.lch (8 * g.num + i.val)).trip = none)

/-- The supply of a channel group (10 R265, R273): VALID, SAG, LOW and RECOVERING follow the voltage, each change but the one into RECOVERING and back
with its record; in LOW and RECOVERING every output switch of the group is open; the way back takes levels and held clears along. -/
def Obligations.SuppliesComplete : Prop :=
  (∀ g s, (s.lio.grp g).st = .valid →
    answers (.supplySag g) s ((s.onGrp g fun x => { x with st := .sag, due := x.due ++ [0x20] }).supplyRec 0x0802 g)) ∧
  (∀ g s, (s.lio.grp g).st = .valid ∨ (s.lio.grp g).st = .sag →
    answers (.supplyLow g) s ((s.onGrp g fun x => { x with st := .low, due := x.due ++ [0x21] }).supplyRec 0x0803 g).switches) ∧
  (∀ g s, (s.lio.grp g).st = .valid ∨ (s.lio.grp g).st = .sag →
    ∃ t, answers (.supplyLow g) s t ∧ (t.lio.grp g).st = .low ∧ t.mem = s.mem ∧
      ∀ i : Fin 8, (t.lch (8 * g.num + i.val)).sw = false) ∧
  (∀ g s, (s.lio.grp g).st = .sag → answers (.supplyRise g) s ((s.onGrp g fun x => { x with st := .valid }).supplyRec 0x0804 g)) ∧
  (∀ g s, (s.lio.grp g).st = .low → answers (.supplyRise g) s
    (s.onGrp g fun x => { x with st := .recovering, timer := some (s.clk.now + 10000000) })) ∧
  (∀ g s, (s.lio.grp g).st = .recovering → answers (.supplyDip g) s (s.onGrp g fun x => { x with st := .low, timer := none })) ∧
  (∀ g lv s k, (s.lio.grp g).st = .recovering →
    k = (s.reach ((s.lio.grp g).timer.getD s.clk.now)).onGrp g (fun x => { x with st := .valid, timer := none }) →
    answers (.recoveringTimerExpiry g lv) s (((List.range 8).foldl (supplyBack g lv) k).switches.supplyRec 0x0804 g))

/-! ## Tracking commands: 09 -/

/-- Tracking commands from a compared lane (09 R234 to R237, 03 R59): CREATE takes the first free record and places it; DELETE takes the object from
its segment and frees it; SET_TAG sets its tag; MOVE takes it from its segment, counts the hop and places it anew; UNFREEZE ends FROZEN with its
code and is recorded. A placement that fails leaves code 7 and faults its segment; a command that fails a check leaves its code and changes no
record. Points that the spec leaves open are the model's choice: log entries 53, 73 and 83. -/
def Obligations.TrackingCommandsComplete : Prop :=
  (∀ (l : Fin 8) r s k u w g v, k = residue s r → carries k l (goAddr l) 1 = true → u = paired k l (goAddr l) 1 → w = trkWin s l →
    u.cmdCode 1 false w = 0 → u.trk.enabled (segNo w) = some g → u.place (madeObj u w) g w.position = .inl v →
    answers (.create l r) s (residue (carried k l (goAddr l) 1 fun _ => leaves v l w 0 (freeFrom 0 u.trk.objs)) false)) ∧
  (∀ (l : Fin 8) r s k u w g c, k = residue s r → carries k l (goAddr l) 1 = true → u = paired k l (goAddr l) 1 → w = trkWin s l →
    u.cmdCode 1 false w = 0 → u.trk.enabled (segNo w) = some g → u.place (madeObj u w) g w.position = .inr c →
    answers (.create l r) s (residue (carried k l (goAddr l) 1 fun _ => leaves (u.trkFault (segNo w) c) l w 7 (objNo w)) false)) ∧
  (∀ (l : Fin 8) s u w, carries s l (goAddr l) 2 = true → u = paired s l (goAddr l) 2 → w = trkWin s l → u.cmdCode 2 false w = 0 →
    answers (.delete l) s (carried s l (goAddr l) 2 fun _ =>
      leaves ((u.unlinkObj (objNo w)).onTrk fun t => t.freeObj (objNo w)) l w 0 (objNo w))) ∧
  (∀ (l : Fin 8) s u w, carries s l (goAddr l) 3 = true → u = paired s l (goAddr l) 3 → w = trkWin s l → u.cmdCode 3 false w = 0 →
    answers (.setTag l) s (carried s l (goAddr l) 3 fun _ =>
      leaves ((u.onTrk fun t => t.onObj (objNo w) fun o => { o with tag := w.tag.setWidth 32 }).markTrk 0 (objNo w)) l w 0 (objNo w))) ∧
  (∀ (l : Fin 8) r s k u w o g v, k = residue s r → carries k l (goAddr l) 4 = true → u = paired k l (goAddr l) 4 → w = trkWin s l →
    u.cmdCode 4 false w = 0 → u.trk.obj (objNo w) = some o → (u.unlinkObj (objNo w)).trk.enabled (segNo w) = some g →
    (u.unlinkObj (objNo w)).place { o with hops := satAdd 16 o.hops 1 } g w.position = .inl v →
    answers (.move l r) s (residue (carried k l (goAddr l) 4 fun _ => leaves v l w 0 (objNo w)) false)) ∧
  (∀ (l : Fin 8) r s k u w o g c, k = residue s r → carries k l (goAddr l) 4 = true → u = paired k l (goAddr l) 4 → w = trkWin s l →
    u.cmdCode 4 false w = 0 → u.trk.obj (objNo w) = some o → (u.unlinkObj (objNo w)).trk.enabled (segNo w) = some g →
    (u.unlinkObj (objNo w)).place { o with hops := satAdd 16 o.hops 1 } g w.position = .inr c →
    answers (.move l r) s (residue (carried k l (goAddr l) 4 fun _ => leaves (u.trkFault (segNo w) c) l w 7 (objNo w)) false)) ∧
  (∀ (l : Fin 8) s u w, carries s l (goAddr l) 5 = true → u = paired s l (goAddr l) 5 → w = trkWin s l → u.cmdCode 5 false w = 0 →
    answers (.unfreeze l) s (carried s l (goAddr l) 5 fun _ =>
      leaves (((u.onTrk fun t => t.onSeg (segNo w) fun g => { g with frozen := false, faultCode := 0, hoStop := false }).markTrk 2
        (segNo w)).record 0x0705 (srcOf 6 0) []) l w 0 (objNo w))) ∧
  (∀ (l : Fin 8) s w op i, w = trkWin s l → (op, i) ∈ trkOps l → s.trk.cmdFlt = false → carries s l (goAddr l) (BitVec.ofNat 64 op) = true →
    (paired s l (goAddr l) (BitVec.ofNat 64 op)).cmdCode op false w ≠ 0 →
    ∃ t, answers i s t ∧ (trkWin t l).code = (paired s l (goAddr l) (BitVec.ofNat 64 op)).cmdCode op false w ∧ t.trk.objs = s.trk.objs ∧
      t.trk.segs = s.trk.segs ∧ t.mem = s.mem ∧ t.act = s.act)

/-! ## Network configuration and start: 05, 06, 13 -/

/-- NET_CONFIGURE (13 R366 to R368, 05 R142): a good configuration becomes the held next one, with NEXT or before the network's first start, and is
passed to a partner in pair duty, whose report ends the command; with NEXT clear once the network has started, one of the same frame takes its parts:
without another schedule or local channel block at once, another schedule is written to the stations and announced, another local channel block waits
for a still point. Points that the spec leaves open are the model's choice: log entries 42 and 79. -/
def Obligations.NetConfigureCompletes : Prop :=
  (∀ c s b, goodConfig s b c 0 → b.cyc.started = false → (heldNext b (parseNet c.buf)).partnerDuty = false →
    answers (.netConfigure c) s
      ((heldNext b (parseNet c.buf)).final 0x0080 c stOk dNone (BitVec.ofNat 64 (parseNet c.buf).sched) 0)) ∧
  (∀ c s b x k, goodConfig s b c 0 → b.cyc.started = false → x = parseNet c.buf → (heldNext b x).partnerDuty = true →
    k = (heldNext b x).send (.netConfig x true 0) →
    answers (.netConfigure c) s (k.addRun (mkRun 0x0080 c ((heldNext b x).partyOf c) false 0 (.netConfigure x.sched true true)))) ∧
  (∀ c s b run x k, goodConfig s b c 0 → b.cyc.started = true → b.net.cfg = some run → x = parseNet c.buf → sameFrame run x = true →
    sameSched run x = true → run.sched = x.sched → x.lio = run.lio → k = takenNow b x → k.partnerDuty = false →
    answers (.netConfigure c) s
      ((k.addRun (mkRun 0x0080 c (k.partyOf c) false 0 (.netConfigure x.sched false true))).netDone)) ∧
  (∀ c s b run x k, goodConfig s b c 0 → b.cyc.started = true → b.net.cfg = some run → x = parseNet c.buf → sameFrame run x = true →
    sameSched run x = false → run.sched ≠ x.sched → x.lio = run.lio → k = (takenNow b x).beginSched run x →
    answers (.netConfigure c) s
      ((k.addRun (mkRun 0x0080 c (k.partyOf c) false 0 (.netConfigure x.sched false true))).netDone)) ∧
  (∀ c s b run x k, goodConfig s b c 0 → b.cyc.started = true → b.net.cfg = some run → x = parseNet c.buf → sameFrame run x = true →
    sameSched run x = true → run.sched = x.sched → x.lio ≠ run.lio → (takenNow b x).partnerDuty = false → k = (takenNow b x).dueLio x.lio →
    answers (.netConfigure c) s
      ((k.addRun (mkRun 0x0080 c (k.partyOf c) false 0 (.netConfigure x.sched false false))).netDone)) ∧
  (∀ c s b, goodConfig s b c 1 → (heldNext b (parseNet c.buf)).partnerDuty = false →
    answers (.netConfigureNext c) s
      ((heldNext b (parseNet c.buf)).final 0x0080 c stOk dNone (BitVec.ofNat 64 (parseNet c.buf).sched) 0))

/-- NET_START and the partner's configuration (13 R369, 06 R160, R164, 05 R142): NET_START at a primary with no task READY or RUNNING and a
configuration held gives the start trigger under it, passes it on and waits for its completion; the trigger silences the star, puts every
configured station ABSENT, empties the pools and begins to listen. A standby, or a module that follows, keeps the configuration that its partner
passes, as the next one or for use, and reports it, takes the start trigger that comes with one, or refuses one below its own T_MIN. The message of
that trigger is the model's choice: log entry 27. -/
def Obligations.NetStartCompletes : Prop :=
  (∀ c s b cfg k, b = begun s 0x0081 c 0 (c.inlZero 0) → passes s 0x0081 c 0 (c.inlZero 0) = true → b.primary = true →
    b.busyTask = false → (b.net.next.orElse fun _ => b.net.stored) = some cfg →
    k = ({ b with net := { b.net with next := none }, cyc := { b.cyc with lullCycle := false } } : State) →
    answers (.netStart c) s
      (((k.addRun (mkRun 0x0081 c (k.partyOf c) false 0 .netStart)).startTrigger cfg).send .netStart)) ∧
  (∀ cfg (s : State) t, t = s.startTrigger cfg → t.net.start = .listen ∧ t.cyc.running = false ∧ t.act.pool = [] ∧ t.net.sending = false ∧
    (∀ x ∈ t.stnM, x.st = .absent) ∧ t.stnM.map (·.code) = cfg.par.map (·.1)) ∧
  (∀ len buf s x k, s.adopts = true → len = cfgLen buf → x = parseNet buf → s.mgn.tMin ≤ x.t → k = s.storeCfg x →
    answers (.pairConfigRx len buf true 0) s
      (({ k with net := { k.net with next := some x } } : State).send (.report .netConfig true))) ∧
  (∀ len buf n s x k, s.adopts = true → len = cfgLen buf → x = parseNet buf → s.mgn.tMin ≤ x.t → k = s.storeCfg x → n ≠ 0 →
    answers (.pairConfigRx len buf true n) s
      ((({ k with net := { k.net with next := none } } : State).startTrigger x).send (.report .netConfig true))) ∧
  (∀ len buf s x k run, s.adopts = true → len = cfgLen buf → x = parseNet buf → s.mgn.tMin ≤ x.t → k = s.storeCfg x →
    k.net.cfg = some run → run.src = x.src → run.lio = x.lio → run.sched ≠ x.sched →
    answers (.pairConfigRx len buf false 0) s
      (((({ k with net := { k.net with rank := x.rank } } : State).setCfg x).record 0x0401 (srcOf 4 32) [x.sched]).send
        (.report .netConfig true))) ∧
  (∀ len buf nx n s, s.adopts = true → len = cfgLen buf → (parseNet buf).t < s.mgn.tMin →
    answers (.pairConfigRx len buf nx n) s (s.send (.report .netConfig false)))

/-- The cold start (06 R158 to R168). A listening module whose exchange is a valid transfer corrects its time by it; the end of listening proposes a
network on every branch and over the pair link, unless a partner that drives its line gave no valid transfer, with which listening begins anew; a
CSTART heard while listening is followed, and one of a lower rank while proposing; in another state its rank alone is kept; the proposed start time
begins cycle 0 with the branches open; the contention's end makes the module the leader; a follower without a valid transfer for a basic cycle is
due to lead where the partner's line is released, and falls silent after 8 where it is driven. Points that the spec leaves open are the model's
choice: log entries 25, 26 and 27. -/
def Obligations.ColdStartCompletes : Prop :=
  (∀ d took ofs s k, s.linked = true → s.cyc.running = false → took ≤ 100000 → s.net.start = .listen → s.transfer d = (k, true) →
    k.net.start = .listen →
    answers (.timeTransfer d took ofs none) s (k.lockTo none ofs).passSync) ∧
  (∀ d took ofs content s k, s.linked = true → s.cyc.running = false → took ≤ 100000 → s.transfer d = (k, false) →
    answers (.timeTransfer d took ofs content) s k) ∧
  (∀ c e s k, s.net.cfg = some c → s.net.listenEnd = some e → s.net.start = .listen → k = s.reach e → (!k.xferValid && k.pair.other) = false →
    answers .listenTimerExpiry s (k.proposeNet c)) ∧
  (∀ c e s k, s.net.cfg = some c → s.net.listenEnd = some e → s.net.start = .listen → k = s.reach e → k.xferValid = false →
    k.pair.other = true → answers .listenTimerExpiry s (k.record 0x0403 (srcOf 4 32) []).listen) ∧
  (∀ c (s : State) t, t = s.proposeNet c → t.net.start = .contend ∧ t.net.tx.length = 16 ∧
    t.net.proposal = some (ownCstart s.seedTime c)) ∧
  (∀ x s, s.linked = true → s.net.start = .listen →
    answers (.partnerCstartRx x) s (({ s with net := { s.net with partnerRank := some x.rank } } : State).follow x.startTime x.tNs)) ∧
  (∀ x s, s.linked = true → s.net.start = .contend → x.rank < rankIn s.net.rank s.slot →
    answers (.partnerCstartRx x) s
      (({ s with net := { s.net with partnerRank := some x.rank } } : State).silence.follow x.startTime x.tNs)) ∧
  (∀ x s, s.linked = true → s.net.start ≠ .listen → s.net.start ≠ .contend →
    answers (.partnerCstartRx x) s { s with net := { s.net with partnerRank := some x.rank } }) ∧
  (∀ x s u, s.net.start = .contend → s.net.proposal = some x → s.cyc.running = false → u = s.reachNet x.startTime →
    answers .cstartStartTime s ((({ u with
      cyc := { u.cyc with c0 := x.startTime }, net := { u.net with leader := u.slot } } : State).netEstablished
        u.clk.seeded).openBranches.beginCycle 0)) ∧
  (∀ x s k, s.net.start = .contend → s.net.proposal = some x → s.cyc.running = true → k = s.reachNet (x.startTime + 2 * x.tNs) →
    answers .contentionEnd s { k with net := { k.net with start := .lead, proposal := none } }) ∧
  (∀ s k, s.net.start = .follow → s.pair.other = false → k = s.reach (max (s.net.xferAt.getD 0) s.net.followAt + s.t) →
    answers .transferLossTimer s { k with net := { k.net with leadDue := some true } }) ∧
  (∀ s, s.net.start = .follow → s.pair.other = true →
    answers .transferLossTimer s
      (s.reach (max (s.net.xferAt.getD 0) s.net.followAt + min (8 * s.t) 50000000)).timeLost)

/-! ## The basic cycle: 02, 04, 05, 11 -/

/-- The instants of a basic cycle (02 R33 to R36, R46, 05 R125, R138, 11 R280). A leader with its partner's line released begins the next cycle; a
star in pair duty that stalls leaves it with its line released; the still point applies the snapshot, latches the local channels and lets a waiting
configuration take effect; input close commits once in a cycle, a primary's tasks, tracking and snapshots follow, a standby that has missed a commit
is STALE; the cut-off takes the snapshot once in a cycle and makes its frames; a mark's interrupt and its tasks follow at its offset; a window whose
content is ready within 3 µs of its start sends the frame. The star's part of DOWNSTREAM_WINDOW and the work that INPUT_CLOSE reports are operands:
log entries 24, 58, 83 and 93. -/
def Obligations.CyclesComplete : Prop :=
  (∀ c s k, s.net.cfg = some c → s.cyc.running = true → s.net.silenceDue = false → s.net.start = .lead → k = s.reachNet (s.startOf (s.cyc.n + 1)) →
    k.net = s.net → k.pair.other = false →
    answers .cycleStart s (k.beginCycle (s.cyc.n + 1))) ∧
  (∀ s, s.cyc.running = true → s.pair.role = .primary ∨ s.pair.role = .standby → answers .netStall s (s.leavePair 6)) ∧
  (∀ s, s.cyc.running = true → s.pair.role = .primary ∨ s.pair.role = .standby →
    ∃ t, answers .netStall s t ∧ t.pair.role = .out ∧ t.pair.drive = false) ∧
  (∀ s k, s.cyc.running = true → k = s.reachNet (s.stillOf s.cyc.n) →
    (!k.lull && !({ k with cyc := { k.cyc with still := k.stillOf k.cyc.n } } : State).calmOut) = true →
    answers .stillPoint s
      (({ k with cyc := { k.cyc with still := k.stillOf k.cyc.n } } : State).outSnapshot.lioAtStill.latchLocal.hotAtStill.switchStill)) ∧
  (∀ w c s k u, s.net.cfg = some c → s.cyc.running = true → s.cyc.commitN ≠ some s.cyc.n →
    k = s.reachNet (s.cycleStart + c.i) → k.primary = false → u = k.commitInputs c w.copyErr → u.primary = false →
    answers (.inputClose w) s (({ (if u.commitMissed then u.goStale else u) with cyc := { u.cyc with errDue := [] } } :
      State).supplyFaults.publish.parkIdle)) ∧
  (∀ w c s k u e, s.net.cfg = some c → s.cyc.running = true → s.cyc.commitN ≠ some s.cyc.n →
    k = s.reachNet (s.cycleStart + c.i) → k.primary = true → u = (k.effectForces false).commitInputs c w.copyErr → u.primary = true →
    e = stnErrors u.cyc.n (k.effectForces false).stnM u.stnM →
    answers (.inputClose w) s ((u.commitPrimary (k.effectForces false).cyc.errDue e.1 e.2 w).publish.parkIdle)) ∧
  (∀ w s, s.cyc.running = true → s.cyc.commitN = some s.cyc.n → answers (.inputClose w) s s) ∧
  (∀ c s, s.net.cfg = some c → s.cyc.running = true → s.primary = true → s.cyc.snapN ≠ some s.cyc.n →
    answers .outputCutoff s (((cutSent s c).shipSnapshot (s.reachNet (s.cycleStart + c.o)).mem).switchCut)) ∧
  (∀ (m : Fin 16) i ofs c s k, s.chg.running = some i → alook m.val i.body.marks = some ofs → s.cyc.running = true → s.primary = true →
    s.net.cfg = some c → ofs ≠ c.i → k = markLanes (s.reachNet (s.cycleStart + ofs)) m →
    answers (.cycleMark m) s (markTasks k m)) ∧
  (∀ c i w e late s b, s.net.cfg = some c → c.wins[i]? = some w → w.down = true → s.holder = true → s.cyc.running = true →
    (s.net.ready.find? fun x => x.1 = i) = some e → (s.net.br.toList.getD w.branch {}).downEnd = 0 → late ≤ 3000 →
    b = ({ s with net := { s.net with
      ready := s.net.ready.filter fun x => x.1 ≠ i, fromPair := s.net.fromPair.filter fun x => x.1 ≠ i } } : State).onBr w.branch
        (fun y => { y with downEnd := w.start + late + frameNs e.2.length }) →
    answers (.downstreamWindow i late) s
      { b with net := { b.net with tx := b.net.tx ++ [{ branch := some w.branch, at_ := w.start + late, f := e.2 }] } }) ∧
  (∀ s, s.cyc.running = false → answers .heartbeatSend s (s.send (.beat (s.beat 1 0))))

/-! ## Mirror: 11 -/

/-- The primary's mirror (11 R291 to R293): it closes once in a cycle, as soon as the owners of outputs are done, else at the output cut-off; a
close of a shipping primary with nothing dirty awaits its acknowledgement; one that is not acknowledged by its deadline is given up, and the standby
is STALE; a block asked for is sent again, recorded and counted against the budget; the acknowledgement in time closes the transfer, and makes a
STALE standby CURRENT, with a record, unless COMMIT is still due. The standby's mirror (11 R292, R294, R295, R307): a good block has its force lines
written and its others staged; the close block of a complete transfer applies it, and with an equal audit makes the standby CURRENT, with another
STALE and recorded; a block that is missing is asked for; a snapshot whose check block agrees is held, another discarded; a joining module writes
the chunks of the base copy, or keeps them while its rejoin stands suspended; its end makes it a STALE standby with its lanes parked or, hot, awake.
Points that the spec leaves open are the model's choice: log entries 19, 45, 78, 93 and 107. -/
def Obligations.MirrorCompletes : Prop :=
  (∀ s, s.cyc.running = false → answers .mirrorTransferClose s (s.closeTransfer false)) ∧
  (∀ s, s.cyc.running = true → s.pair.closeN = some s.cyc.n → answers .mirrorTransferClose s s) ∧
  (∀ s, s.cyc.running = true → s.pair.closeN ≠ some s.cyc.n → s.ownersDone = true →
    answers .mirrorTransferClose s (s.closeTransfer false)) ∧
  (∀ s c, s.cyc.running = true → s.pair.closeN ≠ some s.cyc.n → s.ownersDone = false → s.net.cfg = some c →
    answers .mirrorTransferClose s ((s.reachNet (s.cycleStart + c.o)).closeTransfer false)) ∧
  (∀ s, s.cyc.running = false → s.shipping = true → s.pair.unacked = none → s.pair.dirty = [] → s.pair.shipped = [] → s.pair.again = 0 →
    s.pair.resent = 0 → s.pair.forceShipped = s.pair.forceVer →
    ∃ t, answers .mirrorTransferClose s t ∧ t.pair.unacked = some (s.openSeq, 0, 0, false) ∧ t.pair.dirty = [] ∧ t.mem = s.mem ∧
      t.img = s.img ∧ t.net = s.net) ∧
  (∀ s q n k f, s.pair.unacked = some (q, n, k, f) → answers .mirrorAckDeadline s ((atAckLimit s f).ackMissed n f)) ∧
  (∀ s q n k, s.pair.unacked = some (q, n, k, false) →
    ∃ t, answers .mirrorAckDeadline s t ∧ t.pair.unacked = none ∧ t.pair.partnerCur = false ∧ t.mem = s.mem ∧ t.img = s.img ∧
      t.net = s.net) ∧
  (∀ s blk q n k f l u, s.pair.unacked = some (q, n, k, f) → s.pair.shipped[blk]? = some l →
    u = ({ s.shipBlock q blk l with
      pair := { (s.shipBlock q blk l).pair with resends := satAdd 64 s.pair.resends 1 } } : State).record 0x090C (srcOf 8 0) [blk] →
    64 * (n + l.length) ≤ s.budget →
    answers (.resendRequestRx blk) s
      (({ u with pair := { u.pair with unacked := some (q, n + l.length, k, f) } } : State).volume (n + l.length))) ∧
  (∀ s blk l u, s.pair.unacked = none → s.pair.shipped[blk]? = some l →
    u = ({ s.shipBlock s.openSeq blk l with
      pair := { (s.shipBlock s.openSeq blk l).pair with resends := satAdd 64 s.pair.resends 1 } } : State).record 0x090C (srcOf 8 0) [blk] →
    answers (.resendRequestRx blk) s { u with pair := { u.pair with resent := u.pair.resent + l.length } }) ∧
  (∀ s q n k, s.pair.unacked = some (q, n, k, false) → ackInTime s false = true → s.pair.partnerCur = false → s.chg.commitDue = none →
    answers (.transferAckRx q) s (({ s with pair := { acked s q with partnerCur := true } } : State).record 0x090B (srcOf 8 0) [])) ∧
  (∀ s q n k, s.pair.unacked = some (q, n, k, true) → ackInTime s true = true → s.pair.partnerCur = true → s.chg.commitDue = none →
    answers (.transferAckRx q) s
      { s with pair := { acked s q with switch_ := s.pair.switch_.map fun w => { w with phase := .acked } } }) ∧
  (∀ s q n k f, s.pair.unacked = some (q, n, k, f) → ackInTime s f = false → answers (.transferAckRx q) s (s.ackMissed n f)) ∧
  (∀ x blk lines fv d s k, s.receiving = true → d = blockDigest x blk lines → (∀ y ∈ lines, y.err = .none) →
    k = (s.writeLines (lines.filter fun x => forceLine x.addr)).auditGot (fun a => fv.isSome && forceLine a) →
    k.pair.heldClose = none → k.pair.voided ≠ some x → k.rejoinStands = false →
    answers (.mirrorBlockRx x blk lines fv d) s { k with pair := { k.pair with
      forceVer := fv.getD k.pair.forceVer
      staging := k.pair.staging.filter (fun b => b.1 = x && b.2.1 ≠ blk) ++ [(x, blk, lines.filter fun x => !forceLine x.addr)] } }) ∧
  (∀ x blk lines fv d s, s.receiving = true → d ≠ blockDigest x blk lines → (∀ y ∈ lines, y.err = .none) → s.pair.voided ≠ some x →
    answers (.mirrorBlockRx x blk lines fv d) s (s.blockDiffers x blk)) ∧
  (∀ c s u, takesClose s c.xfer = true → u = closing s c → u.complete_ c.xfer c.blocks = true →
    c.audit = (written u c).auditDigest c.slice → (applied u c).pair.auditLeft = [] →
    answers (.closeBlockRx c.xfer c.blocks c.commit c.slice c.audit c.fin) s (applied u c).becomeCurrent) ∧
  (∀ c s u, takesClose s c.xfer = true → u = closing s c → u.complete_ c.xfer c.blocks = true →
    c.audit ≠ (written u c).auditDigest c.slice →
    answers (.closeBlockRx c.xfer c.blocks c.commit c.slice c.audit c.fin) s ((applied u c).audited false c.slice)) ∧
  (∀ c s u k, takesClose s c.xfer = true → u = closing s c → u.complete_ c.xfer c.blocks = false →
    ((List.range c.blocks).filter fun k =>
      !(s.pair.staging.any fun b => b.1 = c.xfer && b.2.1 = k) && s.timesDiffered k = 0) = [k] →
    answers (.closeBlockRx c.xfer c.blocks c.commit c.slice c.audit c.fin) s (u.send (.resend k))) ∧
  (∀ n lines s k, s.receiving = true → k = lines.foldl (fun s x => s.storeIn 7 1 x.addr x.bytes) s →
    answers (.snapshotTransferRx n lines (some (snapCheck n lines))) s
      (({ k with pair := { k.pair with snapSeq := n % 2 ^ 32 } } : State).keepSent n)) ∧
  (∀ n lines ch s, ch ≠ some (snapCheck n lines) → answers (.snapshotTransferRx n lines ch) s s) ∧
  (∀ (c : Span) s k, s.pair.role = .joining → s.rejoinStands = false → c.err = .none → forceLine c.addr = false → k = s.writeLine c →
    k.pair.baseDone / 0x4000000 = (k.pair.baseDone + c.bytes.length) / 0x4000000 →
    answers (.baseChunkRx c) s ({ k with
      pair := { k.pair with baseDone := k.pair.baseDone + c.bytes.length }
      host := { k.host with
        runs := k.host.runs.map fun r =>
          if isRejoin r then { r with done := k.pair.baseDone + c.bytes.length } else r } } : State).rejoinPause) ∧
  (∀ (c : Span) s, s.pair.role = .joining → s.rejoinStands = true →
    answers (.baseChunkRx c) s { s with pair := { s.pair with heldChunks := s.pair.heldChunks ++ [c] } }) ∧
  (∀ s k u, s.pair.role = .joining → s.pwr.selfFail = false → s.rejoinStands = false → k = s.restLanes →
    u = ({ k with
      pair := { k.pair with current := false, rejoin := k.pair.rejoin.map fun _ => 2 }, calm := { k.calm with follower := k.calm.on } } : State) →
    u.pair.hot = false → u.parkLanes.host.runs = [] →
    answers .baseCopyDone s (u.parkLanes.setRole .standby)) ∧
  (∀ s, s.pair.role = .joining → s.pwr.selfFail = false → s.rejoinStands = false → s.wb.crossing = [] →
    ∃ t, answers .baseCopyDone s t ∧ t.pair.role = .standby ∧ t.pair.current = false ∧ t.mem = s.mem)

/-! ## The pair: 11 -/

/-- Messages and link (11 R283 to R286, 12 R326 to R329, 14 R393). A module out of duty takes a heartbeat as the partner's last; a primary shares
the partner's force version and its joining, a standby its Calm. A fault message leaves no partner in duty and wakes a standby; a heartbeat that
fails to come is lost, with a record while the partner's line is driven. A failed lane leaves the link to the other and is recorded; the link passes
when certificates, life cycle and Owner agree, and fails with a record otherwise. A report ends or refuses what this module has passed, brings the
partner's part of FW_CONFIRM, FW_FALLBACK and FW_HANDOVER, tells what firmware it holds, or has the copies staged here activated or discarded. A
running module sends its heartbeat at T − A − 20 µs. Points that the spec leaves open are the model's choice: log entries 37, 38 and 86. -/
def Obligations.PairLinkCompletes : Prop :=
  (∀ h s, s.linked = true → h.crcOk = true → h.kind = 1 → s.pair.role = .out → s.partnerDuty = false →
    answers (.heartbeatRx h) s (heard s h)) ∧
  (∀ h s k, s.linked = true → h.crcOk = true → h.kind = 1 → s.primary = true → k = heard s h → (s.partnerDuty && !k.partnerDuty) = false →
    answers (.heartbeatRx h) s (k.beatPrimary ((s.pair.hb.map (·.role)).getD 0) h)) ∧
  (∀ h s k, s.linked = true → h.crcOk = true → h.kind = 1 → s.pair.role = .standby → h.role = 1 → k = heard s h →
    k.forcesHeld = true → s.pair.hbLost = false → answers (.heartbeatRx h) s (k.followCalm h)) ∧
  (∀ h q s k u, s.linked = true → h.crcOk = true → h.kind = 2 →
    k = ({ s with pair := { s.pair with
      hb := some h, hbAt := s.clk.now, hbLost := false, leave := h.leaveCause
      partnerPrim := h.role = 1 || (s.pair.partnerPrim && s.pair.other), partnerReq := s.pair.partnerReq || q } } : State) →
    u = (k.standbyWake.partnerAway.takeBeat ((s.pair.hb.map (·.role)).getD 0) h).issueReset → u.chg.handover ≠ 1 →
    answers (.faultMessageRx h q) s u) ∧
  (∀ s k, s.pair.hbLost = false → s.pair.hb.isSome = true → s.cyc.running = false →
    k = ({ s with pair := { s.pair with hbLost := true } } : State).standbyWake.partnerAway → k.pair.other = false →
    answers .heartbeatLost s k) ∧
  (∀ s u k, s.pair.hbLost = false → s.pair.hb.isSome = true → s.cyc.running = true → u = s.reach (s.pair.hbAt + 2 * s.t + 10000) →
    k = ({ u with pair := { u.pair with hbLost := true } } : State).standbyWake.partnerAway → k.pair.other = true → k.pair.role = .standby →
    answers .heartbeatLost s (k.goStale.record 0x0904 (srcOf 8 0) [])) ∧
  (∀ (k : Fin 2) s l, s.pair.lanes.getLsbD k.val = true → l = s.pair.lanes &&& ~~~(1#2 <<< k.val) →
    answers (.pairLaneFail k) s
      (({ s with pair := { s.pair with lanes := l, auth := s.pair.auth && l ≠ 0 } } : State).record 0x0903 (srcOf 8 0)
        []).roleAgain) ∧
  (∀ h s u k, s.pair.lanes ≠ 0 → s.authOk h = true → u = ({ s with pair := { s.pair with auth := true } } : State) → k = u.draw.2 →
    answers (.pairAuth h) s (({ k with
      pair := { k.pair with unit := h.unit, key := Config.pairKey (Config.x25519 (first32 u.draw.1) h.eph) }
      chg := { k.chg with partner := if h.unit ≠ u.pair.unit then none else k.chg.partner } } : State).send .auth).tellFw) ∧
  (∀ h s, s.pair.lanes ≠ 0 → s.authOk h = false →
    answers (.pairAuth h) s (({ s with pair := { s.pair with auth := false } } : State).record 0x0C06 (srcOf 8 0) [])) ∧
  (∀ s r sched y, (s.host.runs.find? fun r => match r.work with | .netConfigure _ _ _ => true | _ => false) = some r →
    r.work = .netConfigure sched true y →
    answers (.partnerReportRx .netConfig true) s (s.endRun r stOk dNone (BitVec.ofNat 64 sched) 0) ∧
    answers (.partnerReportRx .netConfig false) s (s.endRun r stFailed dPartner)) ∧
  (∀ ok s, answers (.partnerReportRx .fwConfirm ok) s s.confirmFw ∧ answers (.partnerReportRx .fwFallback ok) s s.fallbackFw ∧
    answers (.partnerReportRx .handover true) s s.handoverOrder ∧ answers (.partnerReportRx .delta ok) s (s.partnerDone .delta ok)) ∧
  (∀ tr ru g ok s, answers (.partnerReportRx (.firmwareHeld tr ru g) ok) s
      { s with chg := { s.chg with partner := some { trial := tr, runs := ru, target := g } } } ∧
    answers (.partnerReportRx .activate ok) s s.activateStaged ∧ answers (.partnerReportRx .discard ok) s s.discardHeld ∧
    answers (.partnerReportRx .deltaDenied ok) s (s.partnerDone .delta false stDenied)) ∧
  (∀ s, s.cyc.running = true →
    answers .heartbeatSend s
      ((s.reachNet (s.cycleStart + s.t - (s.net.cfg.map (·.a)).getD 0 - 20000)).send
        (.beat ((s.reachNet (s.cycleStart + s.t - (s.net.cfg.map (·.a)).getD 0 - 20000)).beat 1 0))))

/-- The VANE lines (11 R278, R281, R282, R286, R287, R298 to R303): the levels at the pins are observed, the switches follow, and a standby acts on
its partner's release; a CURRENT standby that may assert takes over at the first still point at least 27 µs after it observed the release; a primary
whose own line does not follow its drive leaves pair duty halted; sound lines leave no finding; 1 ms without a holder is seen and recorded; slot B
asserts 250 ms after Lull service and the partner's last release; the pair-reset input resets the module. Where a reset can be taken, and a takeover
without a running network, are the model's choice: log entries 85 and 89. -/
def Obligations.VaneLinesComplete : Prop :=
  (∀ v s k, s.slot = .a → k = (lineSeen s .a v).watchHolder.switches → answers (.vaneLineChange .a v) s k) ∧
  (∀ l v s k, k = (lineSeen s l v).watchHolder.switches →
    (k.pair.drive && k.pair.own && k.pair.other && k.slot = .b && k.clk.now ≤ k.pair.driveAt + 100) = false →
    answers (.vaneLineChange l v) s (if l = s.slot then k else if v then k.roleAgain else k.releaseSeen)) ∧
  (∀ l s, l ≠ s.slot →
    ∃ t, answers (.vaneLineChange l true) s t ∧ t.pair.other = true ∧ t.pair.takeFrom = none ∧ t.mem = s.mem ∧ t.keys = s.keys) ∧
  (∀ u s k, s.pair.takeFrom = some u → k = s.reach (u + 27000) → k.pair.role = .standby → k.pair.current = true →
    k.lanes.lockout = false → k.mayAssert = true → k.cyc.running = true → k.netTime ≤ k.stillOf k.cyc.n →
    answers .takeover s ((k.reachNet (k.stillOf k.cyc.n)).becomePrimary false)) ∧
  (∀ u s, s.pair.takeFrom = some u → (s.reach (u + 27000)).pair.role = .standby → (s.reach (u + 27000)).pair.current = true →
    (s.reach (u + 27000)).lanes.lockout = false → (s.reach (u + 27000)).mayAssert = true → (s.reach (u + 27000)).cyc.running = false →
    answers .takeover s ((s.reach (u + 27000)).becomePrimary false)) ∧
  (∀ s k, s.pair.driveAt + 2000 ≤ s.clk.now → s.pair.drive = true → s.pair.own = false → s.primary = true →
    k = (({ s with pair := { s.pair with resetOut := false } } : State).record 0x0900 (srcOf 8 0) []).haltLanes →
    answers .sentinelCheck s (({ k with
      net := { k.net with ready := [] }, lanes := { k.lanes with faulted := true } } : State).leavePair 5)) ∧
  (∀ s, s.pair.driveAt + 2000 ≤ s.clk.now → s.pair.drive = s.pair.own → s.pair.other = false →
    answers .sentinelCheck s { s with pair := { s.pair with resetOut := false, stuck := false, conflict := false } }) ∧
  (∀ u s k, s.pair.noHolderAt = some u → s.pair.noHolder = false → s.holder = false → k = s.reach (u + 1000000) → k.pair.role ≠ .out →
    answers .noHolder s (({ k with pair := { k.pair with noHolder := true } } : State).record 0x0907 (srcOf 8 0) [])) ∧
  (∀ s, s.pair.role = .bringUp → s.slot = .b → s.pwr.lullService = true → s.lanes.lockout = false → s.pair.other = false →
    s.pair.stuck = false →
    answers .slotBAssertWait s
      ((((s.reach (max s.pair.lullAt s.pair.otherOffAt + 250000000)).assertVane).setRole .primary).record 0x0902 (srcOf 8 0) [])) ∧
  (∀ s, s.resetOk 4 = true → answers .pairResetIn s (s.takeReset 4))

/-- Switch and rejoin (11 R304 to R307, 03 R85): PAIR_SWITCH with a CURRENT standby and no switch or rejoin under way begins and waits; its final
close halts split tasks, carries the held releases and the pool, and awaits the acknowledgement; PAIR_REJOIN of a module beside a PRIMARY, neither
locked out nor failed, is accepted, makes it JOINING and posts the base phase. Points that the spec leaves open are the model's choice: log entries
20 and 39. -/
def Obligations.SwitchAndRejoinComplete : Prop :=
  (∀ c s b k, b = begun s 0x0090 c 0 (c.inlZero 0) → passes s 0x0090 c 0 (c.inlZero 0) = true → b.primary = true →
    b.pair.switch_ = none → b.pair.rejoin = none → b.pair.partnerJoins = false → (b.pair.hb.map (·.role)) ≠ some 3 → b.switchable = true →
    k = ({ b with pair := { b.pair with switch_ := some {} } } : State) →
    answers (.pairSwitch c) s (k.addRun (mkRun 0x0090 c (k.partyOf c) false 0 .pairSwitch))) ∧
  (∀ s w k, s.pair.switch_ = some w → s.primary = true → w.phase = .cut → s.comparedIdle = true → s.pair.unacked = none →
    (s.cyc.running && decide (s.stillOf w.k < s.netTime + 25000)) = false →
    k = (s.haltSplit.send (.held (s.cyc.heldRel ++ s.dueRels) s.act.pool)).closeTransfer true → k.pair.unacked.isSome = true →
    answers .switchFinalClose s { k with pair := { k.pair with switch_ := some { w with phase := .closing } } }) ∧
  (∀ c s b r, b = begun s 0x0091 c 0 (c.inf 0 4 < 2 && c.inlZero 4) → s.canBegin 0x0091 c = true →
    (s.unqueue 0x0091 c).checks 0x0091 c 0 (c.inf 0 4 < 2 && c.inlZero 4) (rejoinAllowed s c) = none → c.inf 0 4 = 0 →
    b.primary = false → b.pair.rejoin = none → b.lanes.lockout = false → b.pwr.selfFail = false → b.partnerPrimary = true →
    b.genFar = false → b.longOps < 8 → r = mkRun 0x0091 c (b.partyOf c) true 0 .rejoin →
    answers (.pairRejoin c) s ((b.startRejoin.accept r 0x0091 c).progress r 1 0 0))

/-! ## Power, resets, services: 18, 20, 14, 05 -/

/-- Feeds and watchdog (18 R462 to R464, R468, R472, R474). A restart keeps its instant; an expiry releases the line, keeps WDT_EXPIRY for the hold
buffer and takes a reset of kind WATCHDOG. A VALID feed below its range, above it, or with a path fault is declared LOST with its code, and beside a
VALID one the module runs on; the loss of both begins the hold-up sequence. A feed back in range is VALID with a record, brings AON up from Off with
a POWER_ON reset, and ends the hold-up sequence with one of kind FEED. Where a reset can be taken is the model's reading: log entry 89. The hold-up
sequence and the loss of AON (18 R466 to R468, R479): the line is released, 10 µs later lanes and host interface stop and their domains go off; the
flash commit keeps critical records, force table and Calm latch; 8 ms after its beginning the memories and the other domains go off; after 10 ms the
module waits on its store, whose charge is open, or takes a reset of kind FEED where a feed is VALID; a loss of AON is Off at once. The store's
charge is a free value: log entry 3. -/
def Obligations.FeedsComplete : Prop :=
  (∀ s, answers .watchdogRestart s { s with pwr := { s.pwr with wdt := s.clk.now } }) ∧
  (∀ s k, s.resetOk 3 = true → k = (vaneOff (s.reach (s.pwr.wdt + 250000000))).faultMessage 3 →
    answers .watchdogExpiry s
      ((({ k with recd := { k.recd with served := false } } : State).record 0x0F06 (srcOf 14 0) []).takeReset 3)) ∧
  (∀ k mv s, answers (.feedLoss k mv) s ((feedAt s k mv).feedLost k 1) ∧ answers (.feedOvervoltage k mv) s ((feedAt s k mv).feedLost k 3)) ∧
  (∀ k o mv s, o = Side.other k → (s.pwr.feed k).valid = true → (s.pwr.feed o).valid = true →
    (∃ t, answers (.feedLoss k mv) s t ∧ (t.pwr.feed k).valid = false ∧ (t.pwr.feed k).mv = mv ∧ t.pwr.feed o = s.pwr.feed o ∧
      t.pwr.holdup = s.pwr.holdup ∧ t.pair = s.pair ∧ t.mem = s.mem) ∧
    (∃ t, answers (.feedOvervoltage k mv) s t ∧ (t.pwr.feed k).valid = false ∧ (t.pwr.feed k).mv = mv ∧ t.pwr.feed o = s.pwr.feed o ∧
      t.pwr.holdup = s.pwr.holdup ∧ t.pair = s.pair ∧ t.mem = s.mem)) ∧
  (∀ k cause s, (s.pwr.feed k).pathFault = false → answers (.feedPath k cause) s ((pathBad s k cause).feedLost k 2)) ∧
  (∀ k mv s, (s.pwr.feed k).valid = true → (s.pwr.feed k.other).valid = false → s.pwr.holdup = 0 → s.pwr.st ≠ .off → s.primary = true →
    ∃ t, answers (.feedLoss k mv) s t ∧ t.pwr.fed = false ∧ t.pwr.holdup = 1 ∧ t.cyc.noRel = true ∧ t.pair.releaseAt.isSome = true ∧
      t.pair.drive = s.pair.drive ∧ t.mem = s.mem) ∧
  (∀ k mv s, (s.pwr.feed k).valid = false → (s.pwr.feed k).pathFault = false → s.pwr.st ≠ .off → s.pwr.holdup ≠ 6 →
    answers (.feedReturned k mv) s ((feedBack s k mv).recordFor 0x0F03 (srcOf 14 0) k.num (items [k.num]) 0 false)) ∧
  (∀ k mv s, (s.pwr.feed k).valid = false → (s.pwr.feed k).pathFault = false → s.pwr.st = .off →
    answers (.feedReturned k mv) s (((feedBack s k mv).takeReset 1).recordFor 0x0F03 (srcOf 14 0) k.num (items [k.num]) 0 false)) ∧
  (∀ k mv s, (s.pwr.feed k).valid = false → (s.pwr.feed k).pathFault = false → s.pwr.st ≠ .off → s.pwr.holdup = 6 →
    answers (.feedReturned k mv) s (((feedBack s k mv).takeReset 2).recordFor 0x0F03 (srcOf 14 0) k.num (items [k.num]) 0 false)) ∧
  (∀ s u k, s.pwr.holdup = 1 → u = holdupRelease s → k = ((u.reach (u.clk.now + 10000)).haltLanes.hifOff).domainsOff (domMask [4, 5, 9, 11]) →
    answers .holdupVaneRelease s { k with pwr := { k.pwr with holdup := 3 } }) ∧
  (∀ s, s.pwr.holdup = 1 → ∃ t, answers .holdupVaneRelease s t ∧ t.pwr.holdup = 3 ∧ t.pair.drive = false ∧
    (∀ i : Fin 9, i.val < 8 → (t.lanes.lane[i]).halted = true) ∧ t.mem = s.mem) ∧
  (∀ s k, s.pwr.holdup = 3 → k = s.flashCommit → answers .holdupCommit s { k with pwr := { k.pwr with holdup := 4 } }) ∧
  (∀ s k, s.pwr.holdup = 4 →
    k = (s.reach (s.pwr.td + 8000000)).silence.memoryOff.domainsOff (domMask [2, 3, 6, 7, 8, 10]) →
    answers .holdupDomainsOff s { k with
      net := { k.net with start := .silent, listenEnd := none }
      pwr := { k.pwr with holdup := 5, lullService := false, full := false, ready := false } }) ∧
  (∀ s k, s.pwr.holdup = 5 → s.pwr.fed = false → k = (s.reach (s.pwr.td + 10000000)).drawNat → k.2.pwr.fed = false →
    answers .holdupEnd s { k.2 with pwr := { k.2.pwr with holdup := 6, store := k.1 % 101 } }) ∧
  (∀ s k, s.pwr.holdup = 5 → s.pwr.fed = true → k = (s.reach (s.pwr.td + 10000000)).drawNat → k.2.pwr.fed = true →
    answers .holdupEnd s (({ k.2 with pwr := { k.2.pwr with holdup := 6, store := k.1 % 101 } } : State).takeReset 2)) ∧
  (∀ s k, k = (vaneOff s).haltLanes.silence.memoryOff.hifOff →
    answers .aonPowerLoss s { k with
      pair := { k.pair with role := .bringUp }
      net := { k.net with start := .none_, listenEnd := none }
      recd := { k.recd with hold := [], holdLost := 0 }
      pwr := { k.pwr with
        fa := {}, fb := {}, store := 0, st := .off, on := domBit 0, good := domBit 0, stage := 1, holdup := 0, waitGood := true
        lullService := false, full := false, ready := false } })

/-- Bring-up (18 R469, R473, R481 to R485, 01 R14, 12 R327, 03 R79). Power-good samples the slot once at a power-on reset, starts the backup domain
and charges the store; PRESENT_n settles; a domain's supply is good and lets the next step begin, or stops bring-up with the line released; the wipe
of DRAM ends; Lull service is reached, its records written, the role taken and the network started; a sound self-test declares readiness and loads
the ACTIVE image; a failed one is a failed start. What a start finds in its memories is an operand: log entries 55 and 76. -/
def Obligations.BringUpCompletes : Prop :=
  (∀ h ok s k, s.pwr.fed = true → s.pwr.waitGood = true → s.pwr.kind = 1 → s.pwr.sampled = false →
    k = ({ s with slot := if h then .b else .a, pwr := { s.pwr with sampled := true } } : State).bkpStart ok →
    answers (.powerGood h ok) s ({ k with pwr := { k.pwr with store := 100 } } : State).releaseReset) ∧
  (∀ h ok s k, s.pwr.fed = true → s.pwr.waitGood = true → s.pwr.kind ≠ 1 ∨ s.pwr.sampled = true → k = s.bkpStart ok →
    answers (.powerGood h ok) s ({ k with pwr := { k.pwr with store := 100 } } : State).releaseReset) ∧
  (∀ s, answers .presentSettled s ({ s with pwr := { s.pwr with present := true } } : State).releaseReset) ∧
  (∀ s, s.pwr.waitGood = true → s.pwr.fed = true → s.pwr.store = 100 →
    ∃ t, answers .presentSettled s t ∧ t.pwr.present = true ∧ t.pwr.waitGood = false ∧ t.mem = s.mem ∧ t.keys = s.keys) ∧
  (∀ (d : Fin 12) s, s.pwr.failed = false → s.pwr.on.getLsbD d.val = true →
    answers (.domainSupplyGood d) s ({ s with pwr := { s.pwr with good := s.pwr.good ||| domBit d.val } } : State).nextStage) ∧
  (∀ (d : Fin 12) s, s.pwr.failed = false → s.pwr.stage < 6 → s.pwr.on.getLsbD d.val = true → s.pwr.good.getLsbD d.val = false →
    answers (.domainGoodTimeout d) s
      ((vaneOff { s with pwr := { s.pwr with failed := true } }).recordFor 0x0F05 (srcOf 14 0) d.val (items [d.val]) 0 false)) ∧
  (∀ s, s.pwr.on.getLsbD 8 = true →
    answers .dramWipeDone s ({ s with pwr := { s.pwr with dramOk := true } } : State).serveRing) ∧
  (∀ f s u, s.pwr.lullService = false → s.pwr.failed = false → s.pwr.waitGood = false → 5 ≤ s.pwr.stage → s.pwr.st = .lull →
    s.pwr.holdup = 0 → u = (lullBegun (foundAt s f)).serveRing.startRecords.event 0x0006 (List.replicate 12 0) →
    answers (.lullServiceReached f) s (if u.chg.handover = 6 then u.handoverStep 7 else u).takeRole.lullNetwork) ∧
  (∀ s k, s.pwr.lullService = true → s.pwr.ready = false → s.pwr.dramOk = true → s.pair.role ≠ .bringUp →
    k = ({ s with pwr := { s.pwr with ready := true } } : State).loadActive → k.primary = false →
    answers (.fullServiceReady soundTest) s k) ∧
  (∀ s k c u, s.pwr.lullService = true → s.pwr.ready = false → s.pwr.dramOk = true → s.pair.role ≠ .bringUp →
    k = ({ s with pwr := { s.pwr with ready := true } } : State).loadActive → k.primary = true → k.net.stored = some c →
    u = (({ k with cyc := { k.cyc with lullCycle := false }, net := { k.net with next := none } } : State).startTrigger c).send .netStart →
    (u.pair.autostart && !u.calm.on && u.chg.running.isSome) = true →
    answers (.fullServiceReady soundTest) s u.appStart) ∧
  (∀ v s, s.pwr.lullService = true → s.pwr.ready = false → s.pwr.dramOk = true → s.pair.role ≠ .bringUp → v ≠ soundTest →
    answers (.fullServiceReady v) s s.selfTestFails)

/-- Faults and extraction while running (18 R470, R485 to R487, 20 R502, R503, 01 R19, R23, 14 R380, 05 R120). A supply fault is shown and recorded
and halts what its domain serves; a clock out of its limits is recorded, reacted to without a count, and stops what runs on it; one within them does
nothing. A lost PRESENT_n gives up the line and ends in Hold with its pins floating; a short press is kept; a press of 1 s extracts a module without
VANE and has a primary hand over to its standby; one of 5 s extracts a primary without one. The patrol counts a corrected error and poisons the word
of another; a failed health test stops random numbers with a record, a good retest brings them back; link changes are held. Points that the spec
leaves open are the model's choice: log entries 12 and 56. -/
def Obligations.RunningFaultsComplete : Prop :=
  (∀ (d : Fin 12) s, s.pwr.lullService = true → s.pwr.on.getLsbD d.val = true → d.val ∈ [2, 3, 6, 7, 8, 9] →
    answers (.domainFault d) s ((domainBad s d).reactFault (d.val = 2) 3)) ∧
  (∀ s, s.pwr.lullService = true → s.pwr.on.getLsbD 4 = true → answers (.domainFault 4) s ((domainBad s 4).stopCopies .a)) ∧
  (∀ s, s.pwr.lullService = true → s.pwr.on.getLsbD 5 = true → answers (.domainFault 5) s ((domainBad s 5).stopCopies .b)) ∧
  (∀ s, s.pwr.lullService = true → s.pwr.on.getLsbD 10 = true → answers (.domainFault 10) s ((domainBad s 10).leaveDuty 6).silence) ∧
  (∀ s, s.pwr.lullService = true → s.pwr.on.getLsbD 11 = true → answers (.domainFault 11) s (domainBad s 11).hifOff) ∧
  (∀ src s, clockBad src = true →
    answers (.clockFault src) s (((s.record 0x0011 (srcOf 0 0) (clockItems src)).reactFault (clockMgt src) 3).clockStops src)) ∧
  (∀ src s, clockBad src = false → answers (.clockFault src) s s) ∧
  (∀ s k, s.pwr.holdup = 0 → s.pwr.st = .run ∨ s.pwr.st = .lull →
    k = (vaneOff { s with pwr := { s.pwr with present := false } }).enterHold →
    answers .presentLost s { k with pwr := { k.pwr with hiZ := true } }) ∧
  (∀ s, s.pwr.holdup = 0 → s.pwr.st = .run ∨ s.pwr.st = .lull →
    ∃ t, answers .presentLost s t ∧ t.pwr.present = false ∧ t.pwr.st = .hold ∧ t.pwr.hiZ = true ∧ t.pair.drive = false ∧ t.mem = []) ∧
  (∀ ms s, s.pwr.lullService = true → s.pwr.holdup = 0 → s.pwr.st = .run ∨ s.pwr.st = .lull → ms < 1000 →
    answers (.swapPress ms) s (pressed s)) ∧
  (∀ ms s, s.pwr.lullService = true → s.pwr.holdup = 0 → s.pwr.st = .run ∨ s.pwr.st = .lull → 1000 ≤ ms → s.pwr.extract = false →
    s.primary = false → answers (.swapPress ms) s (vaneOff (pressed s)).enterHold) ∧
  (∀ ms s, s.pwr.lullService = true → s.pwr.holdup = 0 → s.pwr.st = .run ∨ s.pwr.st = .lull → 1000 ≤ ms → s.pwr.extract = false →
    s.primary = true → s.switchable = true → s.pair.switch_ = none →
    answers (.swapPress ms) s { pressed s with
      pwr := { s.pwr with extract := true, ledSwap := 1 }, pair := { s.pair with switch_ := some { swap := true } } }) ∧
  (∀ ms s, s.pwr.lullService = true → s.pwr.holdup = 0 → s.pwr.st = .run ∨ s.pwr.st = .lull → 5000 ≤ ms → s.pwr.extract = false →
    s.primary = true → s.switchable = false →
    answers (.swapPress ms) s (pressed s).releaseVane.enterHold) ∧
  (∀ a s k, k = s.scrubCounts false →
    answers (.scrubPatrol a false) s { k with mgn := { k.mgn with
      corrected := k.mgn.corrected + 1, memCorr := satAdd 64 k.mgn.memCorr 1 } }) ∧
  (∀ a s, answers (.scrubPatrol a true) s ((s.scrubCounts true).memFault a 0xFF)) ∧
  (∀ s, answers .rngFail s (({ s with keys := { s.keys with rngFail := true } } : State).record 0x0C04 (srcOf 11 0) [])) ∧
  (∀ s, answers (.rngRetest true) s { s with keys := { s.keys with rngFail := false } }) ∧
  (∀ s, answers (.rngRetest false) s (({ s with keys := { s.keys with rngFail := true } } : State).record 0x0C04 (srcOf 11 0) [])) ∧
  (∀ (b : Fin 16) up s, answers (.phyLinkChange (.branch b) up) s (s.onBr b.val fun x => { x with link := up })) ∧
  (∀ code up s, answers (.phyLinkChange (.station code .a true) up) s
    (s.onStn code fun x => { x with a := { x.a with linkUp := up } }))

/-! ## The module's station manager: 05, 06, 07 -/

/-- Frames from stations (05 R126, R154 to R157, R556, 06 R173, R178 to R182): an IN part from its window fills the hidden bank until input close,
a BECALM_END before it where it is due; a frame that the guardian of an OPEN branch admits is counted and passed on, any other is cut off; one at a
BECALMED branch is passed nowhere, and is a violation unless admitted; EVT entries are taken one by one; the holder takes the response to its request,
reads the counters out of it, or drops one to a request it no longer holds; a DELAY report counts at the holder, another module passes its star's on.
Points that the spec leaves open are the model's choice: log entries 3 and 60. -/
def Obligations.StationFramesComplete : Prop :=
  (∀ ch (f : Frame) c s, s.net.cfg = some c → s.taken ch f 0x10 = true → inFits c f s.cyc.n = true → s.cyc.commitN ≠ some s.cyc.n →
    answers (.inFrameRx ch f) s (inBanked (s.becalmOver ch f.addr.toNat c.l) f)) ∧
  (∀ ch (f : Frame) c x s, s.net.cfg = some c → s.taken ch f 0x10 = true → inFits c f s.cyc.n = true → s.cyc.commitN ≠ some s.cyc.n →
    s.net.stnBecalm = [] → s.stnAt f.addr.toNat = some x → (x.parts.any (·.num = f.part)) = false →
    ∃ t, answers (.inFrameRx ch f) s t ∧ (t.stnAt f.addr.toNat).map (·.parts) =
        some (x.parts ++ [{ num := f.part, last := f.last, bytes := f.payload, flags := f.flags }]) ∧
      t = { s with stnM := t.stnM }) ∧
  (∀ (b : Fin 16) seen (f : Frame) c k s room, s.net.cfg = some c → s.cyc.running = true → (s.net.br[b]).g = .open_ →
    s.judge c b.val seen f = (.admitted room, k) → answers (.upstreamFrameAtGuardian b seen f) s (k.admitted c b.val room f)) ∧
  (∀ (b : Fin 16) seen (f : Frame) c room s, s.net.cfg = some c → (s.net.br[b]).g = .open_ → s.cyc.running = true →
    c.judgeUp b.val s.cyc.n guardNs seen f = .admitted room → c.judgeUp b.val s.cyc.n (guardNs + 8) seen f = .admitted room →
    f.crcOk = true → s.discardOf c f room = none →
    ∃ t, answers (.upstreamFrameAtGuardian b seen f) s t ∧ (t.net.br[b]).g = .open_ ∧
      ((t.net.br[b]).ca.frames, (t.net.br[b]).cb.frames) = (if s.slot = .a
        then (satAdd 32 (s.net.br[b]).ca.frames 1, (s.net.br[b]).cb.frames)
        else ((s.net.br[b]).ca.frames, satAdd 32 (s.net.br[b]).cb.frames 1)) ∧ t.mem = s.mem ∧ t.stnM = s.stnM) ∧
  (∀ (b : Fin 16) seen (f : Frame) c k s, s.net.cfg = some c → s.cyc.running = true → (s.net.br[b]).g = .open_ →
    s.judge c b.val seen f = (.refused, k) ∨ s.judge c b.val seen f = (.cut, k) →
    answers (.upstreamFrameAtGuardian b seen f) s (k.cutOff b.val)) ∧
  (∀ (b : Fin 16) seen (f : Frame) c s, s.net.cfg = some c → s.cyc.running = true → (s.net.br[b]).g = .becalmed →
    ∃ t, answers (.upstreamFrameAtGuardian b seen f) s t ∧ t.pair.sent = s.pair.sent ∧ t.mem = s.mem ∧ t.stnM = s.stnM ∧
      (t.net.br[b]).g = .becalmed ∧ (t.net.br[b]).ca = (s.net.br[b]).ca ∧ (t.net.br[b]).cb = (s.net.br[b]).cb ∧
      ((t.net.br[b]).dirtyM = true ∨ t.net = s.net)) ∧
  (∀ ch (f : Frame) s, s.taken ch f 0x30 = true → f.length ≠ 0 → f.length % 16 = 0 →
    answers (.evtFrameRx ch f) s ((List.range (f.length / 16)).foldl
      (fun k i => k.evtEntry ch f.addr.toNat ((f.payload.drop (16 * i)).take 16)) s)) ∧
  (∀ ch (f : Frame) c r s, s.net.cfg = some c → s.taken ch f 0x40 = true → s.holder = true →
    (s.net.reqs.find? fun r => r.code = f.addr.toNat && r.tag = (byteAt f.payload 1).toNat && r.sentN.isSome) = some r →
    answers (.cfgResponseRx ch f) s (s.cfgAnswer c r f.payload).pumpCfg) ∧
  (∀ ch (f : Frame) c s, s.net.cfg = some c → s.taken ch f 0x40 = true → s.holder = true →
    (s.net.reqs.find? fun r => r.code = f.addr.toNat && r.tag = (byteAt f.payload 1).toNat && r.sentN.isSome) = none →
    answers (.cfgResponseRx ch f) s s) ∧
  (∀ ch (f : Frame) c r x s, s.net.cfg = some c → s.taken ch f 0x40 = true → s.holder = true → s.net.reqs = [r] → s.stnM = [x] →
    x.code = f.addr.toNat → r.code = f.addr.toNat → r.tag = (byteAt f.payload 1).toNat → r.sentN.isSome = true → r.why = .counters →
    field f.payload 0 1 = 2 → field f.payload 8 2 = 64 → field f.payload 10 2 = 0 → f.payload.length = 76 →
    ∃ t, answers (.cfgResponseRx ch f) s t ∧ t.net.reqs = [] ∧
      t.stnM = [{ x with arbA := field f.payload 28 4, arbB := field f.payload 60 4 }] ∧ t.mem = s.mem) ∧
  (∀ ch t4 (f : Frame) s, s.taken ch f 0x40 = true → field f.payload 0 1 = 2 → field f.payload 1 1 = 0 → field f.payload 2 2 = 0x8003 →
    field f.payload 8 2 = 44 → s.holder = true →
    answers (.delayReportRx ch t4 f) s (s.delayReport ch t4 f.addr.toNat (slice f.payload 12 44))) ∧
  (∀ t4 (f : Frame) s, s.taken s.slot f 0x40 = true → field f.payload 0 1 = 2 → field f.payload 1 1 = 0 → field f.payload 2 2 = 0x8003 →
    field f.payload 8 2 = 44 → s.holder = false → answers (.delayReportRx s.slot t4 f) s (s.send (.delay t4 f)))

/-- Requests, timers and the partner's part (05 R125, R141, R157, R556, 07 R192, R193, R200). An overdue request is abandoned: one of the inclusion
steps refuses its station, one for counters ends there, any other is asked again; a module that is not the holder only drops it. A REFUSED station,
and an ABSENT one with path delays held, is checked again after 256 cycles; JOINING without a complete IN frame ends in ABSENT; counters are read
from included stations once in 1,024 cycles; a module that is not the holder adopts the holder's states, with the station-lost release of a loss
due, and takes its frame contents, a late one left out and counted. STATION_REINTEGRATE includes a RETURNED station from the next snapshot on, with
its record, checks a REFUSED one again, and clears WAS_LOST of any; a primary that is not the holder refuses it. Points that the spec leaves open
are the model's choice: log entries 23, 57, 80 and 108. -/
def Obligations.StationTimersComplete : Prop :=
  (∀ b tag r s, overdue s b tag = some r → s.holder = true → r.why.inclusion = true →
    answers (.cfgRequestTimeout b tag) s ((s.dropReqs fun q => q = r).refuseStn r.code 11).pumpCfg) ∧
  (∀ b tag r s, overdue s b tag = some r → r.why = .counters →
    answers (.cfgRequestTimeout b tag) s (s.dropReqs fun q => q = r).pumpCfg) ∧
  (∀ b tag r s, overdue s b tag = some r → s.holder = true → r.why.inclusion = false → r.why ≠ .counters →
    answers (.cfgRequestTimeout b tag) s (((s.dropReqs fun q => q = r).ask [{ r with sentN := none, tag := 0 }]).pumpCfg)) ∧
  (∀ b tag r s, overdue s b tag = some r → s.holder = false →
    answers (.cfgRequestTimeout b tag) s (s.dropReqs fun q => q = r)) ∧
  (∀ code x s, s.stnAt code = some x → s.holder = true → x.since + 256 ≤ s.cyc.n →
    x.st = .refused ∨ (x.st = .absent ∧ (x.da.held = true ∨ x.db.held = true)) →
    answers (.stationRetryTimer code) s (s.readIdentity code)) ∧
  (∀ code x s, s.stnAt code = some x → s.holder = true → x.since + 256 ≤ s.cyc.n → x.st = .refused →
    ∃ t, answers (.stationRetryTimer code) s t ∧ (t.stnAt code).map (·.st) = some .checking ∧
      (t.net.reqs.any fun r => r.code = code && r.obj = 0x8000) = true ∧ t.mem = s.mem) ∧
  (∀ code x s, s.stnAt code = some x → s.holder = true → x.st = .joining → x.checked = true → 16 ≤ x.waited →
    answers (.joiningTimeout code) s
      (s.moveStn code fun x => { x with st := .absent, since := s.cyc.n, checked := false, waited := 0 })) ∧
  (∀ s, s.holder = true → s.cyc.running = true → s.pollDue = true →
    answers .countersPoll s (({ s with net := { s.net with pollN := some s.cyc.n } } : State).ask
      ((s.stnM.filter fun x => x.st = .included && !(s.net.reqs.any fun r => r.code = x.code && r.why = .counters)).map fun x =>
        { code := x.code, tag := 0, obj := 0x8005, ofs := 0, write := false, count := 64, why := .counters }))) ∧
  (∀ s, s.holder = true → s.cyc.running = true → s.pollDue = false → answers .countersPoll s s) ∧
  (∀ x s, s.holder = true → s.cyc.running = true → s.pollDue = true → x ∈ s.stnM → x.st = .included →
    ∃ t, answers .countersPoll s t ∧ (t.net.reqs.any fun r => r.code = x.code && r.why = .counters) = true ∧ t.stnM = s.stnM ∧
      t.mem = s.mem ∧ t.net.pollN = some s.cyc.n) ∧
  (∀ code st w miss good losses refusal s, s.holder = false → s.linked = true →
    (SSt.ofCode st = .lost ∧ w = true → ∀ x, s.stnAt code = some x → x.st = .lost) →
    answers (.stationStateRx code st w miss good losses refusal) s (adopted s code (SSt.ofCode st) w miss good losses refusal)) ∧
  (∀ code st miss good losses refusal x s, s.holder = false → s.linked = true → SSt.ofCode st = .lost → s.stnAt code = some x → x.st ≠ .lost →
    answers (.stationStateRx code st true miss good losses refusal) s
      (adopted { s with cyc := { s.cyc with errDue := s.cyc.errDue ++ [(0, le 8 code ++ le 8 x.lastGood)] } } code .lost true miss good losses
        refusal)) ∧
  (∀ i late (f : Frame) c w s, s.net.cfg = some c → c.wins[i]? = some w → s.holder = false → s.linked = true → s.cyc.running = true →
    late ≤ 3000 → answers (.partnerContentRx i late f) s { s with net := { s.net with fromPair := s.net.fromPair ++ [(i, f)] } }) ∧
  (∀ i late (f : Frame) c w s, s.net.cfg = some c → c.wins[i]? = some w → s.holder = false → s.linked = true → s.cyc.running = true →
    3000 < late → answers (.partnerContentRx i late f) s (s.pairLate i w)) ∧
  (∀ i late (f : Frame) c a s, s.net.cfg = some c → c.wins[i]? = none → s.holder = false → s.linked = true → s.cyc.running = true →
    a = s.cfgStart c (codeBranch f.addr.toNat) → a + frameNs f.length + 500 ≤ c.t →
    answers (.partnerContentRx i late f) s (s.placeCfg (codeBranch f.addr.toNat) a f)) ∧
  (∀ c s b cfg x k, b = begun s 0x0082 c 0 (c.inlZero 2) → passes s 0x0082 c 0 (c.inlZero 2) = true → b.primary = true → b.holder = true →
    b.net.cfg = some cfg → c.inf 0 2 < 1024 → (cfg.parOf (c.inf 0 2)).isSome = true → b.stnAt (c.inf 0 2) = some x → x.st = .returned →
    k = ((b.onStnM (c.inf 0 2) fun y => { y with wasLost := false }).moveStn (c.inf 0 2)
      fun y => { y with st := .included, since := b.cyc.n, withheld := false }).recordBy 0x0503
      (srcOf 5 (c.inf 0 2)) [] (b.partyOf c) false →
    answers (.stationReintegrate c) s (k.final 0x0082 c stOk dNone (BitVec.ofNat 64 (backFrom b)))) ∧
  (∀ c s b cfg x, b = begun s 0x0082 c 0 (c.inlZero 2) → passes s 0x0082 c 0 (c.inlZero 2) = true → b.primary = true → b.holder = true →
    b.net.cfg = some cfg → c.inf 0 2 < 1024 → (cfg.parOf (c.inf 0 2)).isSome = true → b.stnAt (c.inf 0 2) = some x → x.st = .refused →
    answers (.stationReintegrate c) s
      (((b.onStnM (c.inf 0 2) fun y => { y with wasLost := false }).readIdentity (c.inf 0 2)).final 0x0082 c stOk dNone)) ∧
  (∀ c s b cfg x, b = begun s 0x0082 c 0 (c.inlZero 2) → passes s 0x0082 c 0 (c.inlZero 2) = true → b.primary = true → b.holder = true →
    b.net.cfg = some cfg → c.inf 0 2 < 1024 → (cfg.parOf (c.inf 0 2)).isSome = true → b.stnAt (c.inf 0 2) = some x →
    x.st ≠ .returned → x.st ≠ .refused →
    answers (.stationReintegrate c) s
      (((b.onStnM (c.inf 0 2) fun y => { y with wasLost := false }).tellStn (c.inf 0 2)).final 0x0082 c stOk dNone)) ∧
  (∀ c s b cfg, b = begun s 0x0082 c 0 (c.inlZero 2) → passes s 0x0082 c 0 (c.inlZero 2) = true → b.primary = true → b.holder = false →
    b.net.cfg = some cfg → c.inf 0 2 < 1024 → (cfg.parOf (c.inf 0 2)).isSome = true →
    answers (.stationReintegrate c) s (b.final 0x0082 c stFailed dState)) ∧
  (∀ c s b, b = begun s 0x0082 c 0 (c.inlZero 2) → passes s 0x0082 c 0 (c.inlZero 2) = true → b.primary = true → 1024 ≤ c.inf 0 2 →
    answers (.stationReintegrate c) s (b.final 0x0082 c stInvalid dContent))

/-! ## The stations: 05, 06, 07, 08 -/

/-- Time at a station (06 R171, R176, R177, 07 R192). It acts on a SYNC and a CSTART that it takes; in LISTEN the second of two consistent SYNC
gives it time, in COARSE; a CSTART there changes no state, elsewhere it ends integration on its channel and, where no other channel is integrated,
drops time; the rows for a cycle without a SYNC are judged once in each cycle, the fourth without any drops time. A restart of the control function
begins in LISTEN without path delays and windows. Points that the spec leaves open are the model's choice: log entry 61. -/
def Obligations.StationTimeCompletes : Prop :=
  (∀ code ch (f : Frame) ok ofs x s, x = (s.station code).advance (syncDec f.payload f.sched) (s.wholeSched (s.station code)) →
    f.ftype = 0x01 → f.length = 48 → f.crcOk = true → x.judge f 48 = .take →
    answers (.stationSyncRx code ch f ok ofs) s
      (tookFrame s code ch f x fun y => (y.seeFlags f).onSync ch f (syncDec f.payload f.sched) ok ofs)) ∧
  (∀ code ch (f : Frame) ofs x p s, x = s.station code → x.nst = .listen → x.judge f 48 = .take → f.ftype = 0x01 →
    (x.ch ch).sync = some p → syncNext p (syncDec f.payload f.sched) = true →
    ∃ t, answers (.stationSyncRx code ch f true ofs) s t ∧ (t.station code).nst = .coarse ∧ (t.station code).ref = ch ∧
      (t.station code).n = (syncDec f.payload f.sched).cycle ∧ (t.station code).sched = f.sched ∧ (t.station code).timeOk = false) ∧
  (∀ code ch (f : Frame) x s, x = s.station code → f.ftype = 0x02 → x.judge f 32 = .take →
    answers (.stationCstartRx code ch f) s (tookFrame s code ch f x fun y => y.onCstart ch)) ∧
  (∀ code ch (f : Frame) x s, x = s.station code → f.ftype = 0x02 → x.judge f 32 = .take → x.nst = .listen →
    ∃ t, answers (.stationCstartRx code ch f) s t ∧ (t.station code).nst = .listen ∧ (t.station code).queue = x.queue ∧
      ((t.station code).ch ch).pdDown = (x.ch ch).pdDown ∧ ((t.station code).ch ch).downFwd = satAdd 32 (x.ch ch).downFwd 1) ∧
  (∀ code ch (f : Frame) x s, x = s.station code → f.ftype = 0x02 → x.judge f 32 = .take → x.nst ≠ .listen →
    (x.ch ch.other).integrated = false →
    ∃ t, answers (.stationCstartRx code ch f) s t ∧ (t.station code).nst = .listen ∧ (t.station code).queue = [] ∧
      ((t.station code).ch ch).pdDown = none ∧ ((t.station code).ch ch).pdUp = none) ∧
  (∀ code ch (f : Frame) x s, x = s.station code → f.ftype = 0x02 → x.judge f 32 = .take → x.nst ≠ .listen →
    (x.ch ch.other).integrated = true →
    ∃ t, answers (.stationCstartRx code ch f) s t ∧ (t.station code).nst = x.nst ∧ (t.station code).queue = x.queue ∧
      ((t.station code).ch ch).pdDown = none ∧ ((t.station code).ch ch).pdUp = none ∧ ((t.station code).ch ch).integrated = false ∧
      (t.station code).ch ch.other = x.ch ch.other) ∧
  (∀ code x s, x = s.station code → x.nst = .listen →
    answers (.stationSyncMissed code) s (s.setStn (x.newCycle (x.n + 1) (s.wholeSched x)))) ∧
  (∀ code x s, x = s.station code → x.nst ≠ .listen → x.missesNow = true → answers (.stationSyncMissed code) s (s.setStn x.missed)) ∧
  (∀ code x s, x = s.station code → x.nst ≠ .listen → x.missesNow = false →
    answers (.stationSyncMissed code) s (s.setStn (x.newCycle (x.n + 1) (s.wholeSched x)).missed)) ∧
  (∀ code x s, x = s.station code → x.nst ≠ .listen → x.missesNow = true → x.a.got = false → x.b.got = false → 3 ≤ x.dark →
    ∃ t, answers (.stationSyncMissed code) s t ∧ (t.station code).nst = .listen ∧ (t.station code).timeOk = false ∧
      (t.station code).queue = [] ∧ (t.station code).pts = x.pts) ∧
  (∀ code retains x s, x = s.station code → ∃ t, answers (.stationRestart code retains) s t ∧ (t.station code).nst = .listen ∧
    (t.station code).queue = [] ∧ (t.station code).a.pdDown = none ∧ (t.station code).a.pdUp = none ∧ (t.station code).b.pdDown = none ∧
    (t.station code).b.pdUp = none ∧ (t.station code).objs = dropObj 0x8002 x.objs ∧ (t.station code).safe = true ∧
    (t.station code).evts = [] ∧ (∀ p ∈ x.outPoints, ((t.station code).pt p).term = ((x.toSafe retains).pt p).term ∧
      ((t.station code).pt p).held = false))

/-- Outputs of a station (05 R122, R152 to R154, 07 R197, R198, 08 R211 to R214, R218): OUT parts are kept from the first copy, and
one for another station is passed on at most 400 ns behind its arrival; at the still point a complete
stream without LULL ends the safe state, restarts the watchdog and sets the outputs that no entry holds; without one nothing else changes; an ACT part
is taken once, its entries in their order; an entry that reaches its instant is applied and leaves the queue, a safe station's terminal standing; the
watchdog's expiry puts the outputs at their safe values, discards the queue and is reported. Points that the spec leaves open are the model's choice:
log entries 3 and 29. -/
def Obligations.StationOutputsComplete : Prop :=
  (∀ code ch (f : Frame) w x s, x = s.station code → outWin x code f = some w → f.addr.toNat = code → x.judge f w.len = .take →
    f.ftype = 0x20 → answers (.stationOutRx code ch f) s (tookFrame s code ch f x fun y => outKept y f)) ∧
  (∀ code ch (f : Frame) x s, x = s.station code → f.addr.toNat ≠ code → x.judge f x.maxLen = .pass →
    answers (.stationOutRx code ch f) s ((s.setStn (x.countDown ch .pass)).forwarded code ch f)) ∧
  (∀ code ch (f : Frame) x s, x = s.station code → f.addr.toNat ≠ code → x.judge f x.maxLen = .pass →
    ∃ t d, answers (.stationOutRx code ch f) s t ∧ d ≤ 400 ∧ (t.station code).down = x.down ++ [{ ch := ch, delay := d, f := f }] ∧
      (t.station code).parts = x.parts) ∧
  (∀ code ch (f : Frame) w x s, x = s.station code → outWin x code f = some w → f.addr.toNat = code → x.judge f w.len = .take →
    f.ftype = 0x20 → x.partsN = x.n → (x.parts.any (·.num = f.part)) = false →
    ∃ t, answers (.stationOutRx code ch f) s t ∧ (t.station code).parts =
      x.parts ++ [{ num := f.part, last := f.last, bytes := f.payload, flags := f.flags }]) ∧
  (∀ code x s, x = s.station code → x.outStream = none → answers (.stationOutApply code) s (s.setStn (atStill x))) ∧
  (∀ code x b fl s, x = s.station code → x.outStream = some (b, fl) → BitVec.getLsbD fl 2 = true →
    answers (.stationOutApply code) s (s.setStn { atStill x with parts := [] })) ∧
  (∀ code x b fl s, x = s.station code → x.outStream = some (b, fl) → BitVec.getLsbD fl 2 = false →
    answers (.stationOutApply code) s (s.setStn { atStill x with
      parts := [], wdt := 0, wdOn := decide (0 < x.doN + x.aoN), safe := false
      pts := x.outPoints.map fun p => (x.pt p).outApply (x.outVal b p) (x.partsN % 2 ^ 32) x.stillAt })) ∧
  (∀ code ch i w (f : Frame) x s, x = s.station code → x.wins[i]? = some w → x.judge f w.len = .take → f.ftype = 0x21 → w.ty = 0x21 →
    w.down = true → w.serves x.n = true → x.acts.contains (i, f.part) = false →
    answers (.stationActRx code ch i f) s (tookFrame s code ch f x fun y =>
      (List.range (f.length / 16)).foldl (fun z k => z.takeEnt s.netTime (actEntAt f.payload f.seq k))
        { y.seeFlags f with acts := x.acts ++ [(i, f.part)] })) ∧
  (∀ code ch i w (f : Frame) x s, x = s.station code → x.wins[i]? = some w → x.judge f (if w.down then w.len else x.maxLen) = .take →
    f.ftype = 0x21 → x.acts.contains (i, f.part) = true → answers (.stationActRx code ch i f) s (tookFrame s code ch f x fun y => y)) ∧
  (∀ code p e x s, x = s.station code → nextEnt p x.queue = some e →
    answers (.stationActInstant code p) s ((s.reachNet e.start).setStn
      (({ x with queue := x.queue.filter fun q => q.point ≠ e.point || q.time ≠ e.time } : Stn).applyEnt e))) ∧
  (∀ code p e x s, x = s.station code → nextEnt p x.queue = some e → e.point = p → x.safe = false →
    ∃ t, answers (.stationActInstant code p) s t ∧ ((t.station code).pt p).term = e.value ∧ ((t.station code).pt p).held = true ∧
      ((t.station code).pt p).actN = e.seq ∧ (∀ q ∈ (t.station code).queue, ¬(q.point = e.point ∧ q.time = e.time))) ∧
  (∀ code p e x s, x = s.station code → nextEnt p x.queue = some e → x.safe = true →
    ∃ t, answers (.stationActInstant code p) s t ∧ (t.station code).pts = x.pts) ∧
  (∀ code h x s, x = s.station code → alook 0x8004 x.objs = some h → x.wdOn = true → field h 0 2 ≤ x.wdt →
    answers (.stationWatchdogExpiry code) s
      (s.setStn (({ x.toSafe true with queue := [], wdOn := false } : Stn).evt none 0x8003 0 0 s.netTime)))

/-- What a station sends (05 R137, R140, R148, R151, R154, R155, 06 R172, R173, R176, R182 to R185, 07 R187, R189). A request it takes is answered
once; a read gives the bytes of the object, a write of HOLD is held. IN frames go out once in a serving cycle, each part at START − PD_UP. In the
arbitrating window a waiting response goes first, then a DELAY report that is due, then events. In COARSE a frame from behind in the widened window
is forwarded; in SYNCED the guardian's verdict is carried out: an OPEN port forwards, or cuts off and reports, a BECALMED one passes nothing. Points
that the spec leaves open are the model's choice: log entries 3, 22, 28, 62 and 98. -/
def Obligations.StationSendingCompletes : Prop :=
  (∀ code ch (f : Frame) x s, x = s.station code → x.judge f x.maxLen = .take → f.ftype = 0x40 → 12 ≤ f.length →
    answers (.stationCfgRequest code ch f) s (tookFrame s code ch f x fun y => y.answer ch f.payload)) ∧
  (∀ code ch (f : Frame) x y d s, x = s.station code → y = x.countDown ch .take → x.judge f x.maxLen = .take → f.ftype = 0x40 →
    12 ≤ f.length → field f.payload 0 1 = 0 → field f.payload 2 2 ≠ 0x8002 → y.object ch (field f.payload 2 2) = some d →
    field f.payload 4 4 + field f.payload 8 2 ≤ d.length → 12 + field f.payload 8 2 ≤ y.maxLen →
    (y.resps.any fun r => r.2.1 = y.n && field r.2.2 1 1 = field f.payload 1 1 && field r.2.2 2 2 = field f.payload 2 2 &&
      field r.2.2 4 4 = field f.payload 4 4) = false →
    ∃ t, answers (.stationCfgRequest code ch f) s t ∧ (t.station code).resps = x.resps ++ [(ch, x.n,
      cfgBytes 2 (field f.payload 1 1) (field f.payload 2 2) (field f.payload 4 4) 0
        (slice d (field f.payload 4 4) (field f.payload 8 2)))]) ∧
  (∀ code ch (f : Frame) x s, x = s.station code → x.judge f x.maxLen = .take → f.ftype = 0x40 → f.length = 16 →
    field f.payload 0 1 = 1 → field f.payload 2 2 = 0x8004 → field f.payload 4 4 = 0 → field f.payload 8 2 = 4 → f.payload.length = 16 →
    x.resps = [] → alook 0x8004 x.objs = none →
    ∃ t, answers (.stationCfgRequest code ch f) s t ∧ alook 0x8004 (t.station code).objs = some (slice f.payload 12 4) ∧
      (t.station code).resps = [(ch, x.n, cfgBytes 3 (field f.payload 1 1) 0x8004 0 0 [])]) ∧
  (∀ code ch dev x b fl k s, x = s.station code → x.nst = .synced → x.quiet = false → (x.ch ch).integrated = true → x.inWins ≠ [] →
    (x.up.any fun u => u.ch = ch && u.f.ftype = 0x10 && u.f.addr.toNat = code) = false → s.inStream x dev = ((b, fl), k) →
    answers (.stationInSend code ch dev) s (k.onStn code fun y => { y with up := y.up ++ y.inParts ch fl y.inWins b })) ∧
  (∀ code ch dev w pd x s, x = s.station code → x.nst = .synced → x.quiet = false → (x.ch ch).integrated = true → x.inWins = [w] →
    x.up = [] → (x.ch ch).pdUp = some pd →
    ∃ t f, answers (.stationInSend code ch dev) s t ∧ (t.station code).up = [{ ch := ch, at_ := w.start - pd, f := f }] ∧
      f.ftype = 0x10 ∧ f.addr = BitVec.ofNat 16 x.code ∧ f.seq = x.n % 2 ^ 32 ∧ f.part = winPart w ∧ f.last = winLast w ∧
      (t.station code).queue = x.queue) ∧
  (∀ code ch at_ x r s, x = s.station code → arbFree x ch at_ = true → respDue x ch at_ = some r →
    answers (.stationArbSend code ch at_) s (s.setStn
      (({ x with resps := x.resps.filter (· ≠ r) } : Stn).arbOut ch 0x40 at_ (patchTx r.2.2 (x.cycleStart + at_))))) ∧
  (∀ code ch at_ x s, x = s.station code → arbFree x ch at_ = true → respDue x ch at_ = none → x.reportDue ch = true →
    arbFits x ch at_ 56 = true →
    answers (.stationArbSend code ch at_) s (s.setStn ((x.onCh ch fun k => { k with repN := some x.n }).arbOut ch 0x40 at_
      (patchTx (cfgBytes 2 0 0x8003 0 0 (x.delayObj ch)) (x.cycleStart + at_))))) ∧
  (∀ code ch at_ x e l s, x = s.station code → arbFree x ch at_ = true → respDue x ch at_ = none → x.reportDue ch = false →
    takeEvts ch x.evtRoom x.evts = (e, l) → e ≠ [] → arbFits x ch at_ (16 * e.length) = true →
    answers (.stationArbSend code ch at_) s (s.setStn (({ x with evts := l } : Stn).arbOut ch 0x30 at_ e.flatten))) ∧
  (∀ code ch seen (f : Frame) x s, x = (s.station code).hear ch seen.fin → x.nst = .coarse → x.inWide seen.sfd = true →
    (x.ch ch).g = .open_ →
    answers (.stationGuardFrame code ch seen f) s
      (s.passUp x ch (x.t ≤ seen.sfd + x.arb + 2 * pdMax 63) x.maxLen seen f false)) ∧
  (∀ code ch seen (f : Frame) x s, x = s.station code → x.nst = .coarse → x.inWide seen.sfd = true → (x.ch ch).g = .open_ →
    f.crcOk = true → seen.sfd + x.arb + 2 * pdMax 63 < x.t →
    ∃ t a, answers (.stationGuardFrame code ch seen f) s t ∧ seen.sfd ≤ a ∧ a ≤ seen.sfd + 400 ∧
      (t.station code).up = x.up ++ [{ ch := ch, at_ := a, f := f }] ∧ ((t.station code).ch ch).upFwd = satAdd 32 (x.ch ch).upFwd 1) ∧
  (∀ code ch seen (f : Frame) x v s, x = (s.station code).hear ch seen.fin → x.nst = .synced → (x.ch ch).held = true →
    (x.ch ch).upD ≠ [] → guardSure x ch seen f v → answers (.stationGuardFrame code ch seen f) s (s.guarded x ch seen f v)) ∧
  (∀ code ch seen (f : Frame) x v s k g, x = (s.station code).hear ch seen.fin → x.nst = .synced → (x.ch ch).held = true →
    (x.ch ch).upD = [] → s.drawNat = (g, k) → x.judgeUp ((x.ch ch).pdUp.getD 0 + g % 401) guardNs seen f = v →
    x.judgeUp ((x.ch ch).pdUp.getD 0 + g % 401) (guardNs + 8) seen f = v →
    answers (.stationGuardFrame code ch seen f) s (k.guarded x ch seen f v)) ∧
  (∀ code ch seen (f : Frame) room x s, x = (s.station code).hear ch seen.fin → x.nst = .synced → (x.ch ch).held = true →
    (x.ch ch).upD ≠ [] → guardSure x ch seen f (.go false room) → (x.ch ch).g = .open_ → f.crcOk = true →
    ∃ t a, answers (.stationGuardFrame code ch seen f) s t ∧ seen.sfd ≤ a ∧ a ≤ seen.sfd + 400 ∧
      (t.station code).up = x.up ++ [{ ch := ch, at_ := a, f := f }] ∧ ((t.station code).ch ch).cutoff = (x.ch ch).cutoff) ∧
  (∀ code ch seen (f : Frame) x s, x = (s.station code).hear ch seen.fin → x.nst = .synced → (x.ch ch).held = true →
    (x.ch ch).upD ≠ [] → guardSure x ch seen f .refused → (x.ch ch).g = .open_ →
    ∃ t, answers (.stationGuardFrame code ch seen f) s t ∧ ((t.station code).ch ch).cutoff = satAdd 32 (x.ch ch).cutoff 1 ∧
      ((t.station code).ch ch).cuts = (x.ch ch).cuts + 1 ∧ (t.station code).up = x.up ∧
      (t.station code).evts.length = x.evts.length + 1) ∧
  (∀ code ch seen (f : Frame) x v s, x = (s.station code).hear ch seen.fin → x.nst = .synced → (x.ch ch).held = true →
    (x.ch ch).upD ≠ [] → guardSure x ch seen f v → (x.ch ch).g = .becalmed →
    ∃ t, answers (.stationGuardFrame code ch seen f) s t ∧ (t.station code).up = x.up ∧ ((t.station code).ch ch).g = .becalmed ∧
      ((t.station code).ch ch).cutoff = (x.ch ch).cutoff)

/-- A command at a station changes nothing of the module: only the stations, the model's clock and its count of free values (06, 07). -/
def Obligations.StationsLeaveTheModule : Prop :=
  ∀ c s t, stationCmd c = true → answers c s t → t = { s with stn := t.stn, clk := t.clk, free := t.free }

/-! ## The whole machine -/

/-- A step runs the command at the front of the queue with the queue's rest; on an empty queue it only lets the model's clock pass (the model's
choice, log entry 2). -/
def Obligations.StepRunsTheFrontCommand : Prop :=
  (∀ c l s, s.pending = c :: l → step s = exec c { s with pending := l }) ∧
  (∀ s, s.pending = [] → step s = .next { s with clk := { s.clk with now := s.clk.now + 1 } })

/-- The module right after a power-on reset (18 R471 to R481, 02 R50, 11 R278, 14 R399): queues, rings and sessions are off, the role is BRING_UP
with VANE released, the network has not started, no image runs, memory reads zero in canonical form, and no command waits. -/
def Obligations.ResetIsBringUp : Prop :=
  State.reset.memOk ∧ (∀ a, memGet State.reset.mem a = 0) ∧ State.reset.pending = [] ∧ State.reset.pair.role = .bringUp ∧
  State.reset.pair.drive = false ∧ State.reset.pair.current = false ∧ (∀ q : Fin 8, (State.reset.hq q.val).st = .disabled) ∧
  State.reset.host.ev.st = .disabled ∧ State.reset.host.sess = [] ∧ State.reset.host.runs = [] ∧ State.reset.keys.life = 0 ∧
  State.reset.keys.dbgOpen = false ∧ State.reset.cyc.running = false ∧ State.reset.net.cfg = none ∧ State.reset.chg.running = none ∧
  State.reset.calm.on = false ∧ State.reset.img.force = [] ∧ State.reset.trk.objs = [] ∧ State.reset.act.pool = [] ∧
  State.reset.act.ref = .free ∧ (∀ t : Fin 32, (State.reset.taskAt t.val).st = .stopped) ∧ State.reset.pwr.kind = 1

/-- Every command completes with a next state, and leaves the queue of waiting commands as it is: no command of the block stops it. -/
def Obligations.EveryCommandCompletes : Prop := ∀ c s, ∃ t, answers c s t ∧ t.pending = s.pending

/-- Memory keeps its canonical form: no command and no step leaves an unsorted list, a double address or a listed zero. -/
def Obligations.MemoryStaysCanonical : Prop :=
  (∀ c s t, s.memOk → answers c s t → t.memOk) ∧ (∀ s t, s.memOk → step s = .next t → t.memOk)

/-- Reads after writes: every byte of a run that is stored reads as stored, every other byte reads as before, and the canonical form is kept;
zeroing and copying a range likewise (01 R24). -/
def Obligations.MemoryReadsBack : Prop :=
  (∀ m a bs, memWf m = true → memWf (memPut m a bs) = true ∧
    (∀ i, i < bs.length → memGet (memPut m a bs) (a + i) = bs.getD i 0) ∧
    ∀ x, x < a ∨ a + bs.length ≤ x → memGet (memPut m a bs) x = memGet m x) ∧
  (∀ m a k, memWf m = true → memWf (memClear m a k) = true ∧
    ∀ x, memGet (memClear m a k) x = if a ≤ x ∧ x < a + k then 0 else memGet m x) ∧
  (∀ m a b k, memWf m = true → memWf (memCopy m a b k) = true ∧
    ∀ x, memGet (memCopy m a b k) x = if b ≤ x ∧ x < b + k then memGet m (x - b + a) else memGet m x)

/-- Residue-coded words (09 R222, R224): the word of a value in range carries the value and its residue modulo 61, and passes the check; the check
refuses residues 61 to 63; a word that differs from a right one in one bit fails it. -/
def Obligations.WordsHoldTheirResidue : Prop :=
  (∀ v, inRange v = true → wval (mkWord v) = v ∧ (wres (mkWord v) : Int) = v % 61 ∧ wordOk (mkWord v) = true) ∧
  (∀ w, -(2 ^ 57) ≤ wval w ∧ wval w < 2 ^ 57) ∧
  (∀ w, wordOk w = true → wres w ≤ 60) ∧
  (∀ (w : Word) (k : Fin 64), wordOk w = true → wordOk (w ^^^ (1 <<< k.val)) = false)

/-- A calendar value given by the host is valid only within the limits of 17 R448; any other value, in SET_UTC or in an alarm that is armed,
completes with INVALID and DETAIL CONTENT, and nothing else changes. -/
def Obligations.CalendarValuesAreChecked : Prop :=
  (∀ y m d h mi s, calValid y m d h mi s = true ↔
    (2000 ≤ y ∧ y ≤ 2399) ∧ (1 ≤ m ∧ m ≤ 12) ∧ (1 ≤ d ∧ daysIn y m d) ∧ h ≤ 23 ∧ mi ≤ 59 ∧ s ≤ 59) ∧
  calValid 2100 2 29 0 0 0 = false ∧ calValid 2031 4 31 0 0 0 = false ∧
  (∀ c s b, b = begun s 0x0031 c 0 (c.inf 1 1 = 0 && c.inlZero 9) → passes s 0x0031 c 0 (c.inf 1 1 = 0 && c.inlZero 9) = true →
    c.inf 0 1 = 1 → calValid (c.inf 2 2) (c.inf 4 1) (c.inf 5 1) (c.inf 6 1) (c.inf 7 1) (c.inf 8 1) = false →
    answers (.setUtc c) s (b.final 0x0031 c stInvalid dContent)) ∧
  (∀ c s b, b = begun s 0x0033 c 0 (c.inf 1 1 = 0 && c.inlZero 9) → passes s 0x0033 c 0 (c.inf 1 1 = 0 && c.inlZero 9) = true →
    c.inf 0 1 = 1 → calValid (c.inf 2 2) (c.inf 4 1) (c.inf 5 1) (c.inf 6 1) (c.inf 7 1) (c.inf 8 1) = false →
    answers (.alarmSetArm c) s (b.final 0x0033 c stInvalid dContent))

/-- A debug reset is requested through an open debug port whose token grants HALT, and is refused with DEBUG_REFUSED while the module is the VANE
holder with tasks that are neither STOPPED nor HALTED (18 R476). Where a reset can be taken is the model's reading: log entry 89. -/
def Obligations.DebugResetIsRefusedToALiveHolder : Prop :=
  (∀ s, s.dbgIsOpen = true → s.dbgRight 2 = true → s.resetOk 6 = true → s.holder = true →
    (∃ x ∈ s.tasks, (s.taskAt x.num).st ≠ .stopped ∧ (s.taskAt x.num).st ≠ .halted) →
    answers .debugResetRequest s (s.dbgRefuse [])) ∧
  (∀ s, s.dbgIsOpen = true → s.dbgRight 2 = true → s.resetOk 6 = true →
    (s.holder = false ∨ ∀ x ∈ s.tasks, (s.taskAt x.num).st = .stopped ∨ (s.taskAt x.num).st = .halted) →
    answers .debugResetRequest s ((s.faultMessage 3).takeReset 6))

/-- A party that the table of 14 R390 does not name for a command gets DENIED, and no part of the command is performed: FORCE_SET and LOG_CLEAR from
any party but the Owner, APP_START from any but Owner and Integrator, FW_CONFIRM from any but the Owner, all in FIELD. -/
def Obligations.PrivilegeIsChecked : Prop :=
  (∀ c s, s.keys.life = 2 → s.partyOf c ≠ 2 → deniedTo s 0x0050 c 1 (c.inlZero 0) = true →
    answers (.forceSet c) s ((begun s 0x0050 c 1 (c.inlZero 0)).final 0x0050 c stDenied dNone)) ∧
  (∀ c s, s.keys.life = 2 → s.partyOf c ≠ 2 → deniedTo s 0x0041 c 0 (c.inlZero 1) = true →
    answers (.logClearRing c) s ((begun s 0x0041 c 0 (c.inlZero 1)).final 0x0041 c stDenied dNone)) ∧
  (∀ c s, s.keys.life = 2 → s.partyOf c ≠ 2 → s.partyOf c ≠ 3 → deniedTo s 0x0062 c 0 (c.inlZero 0) = true →
    answers (.appStart c) s ((begun s 0x0062 c 0 (c.inlZero 0)).final 0x0062 c stDenied dNone)) ∧
  (∀ c s, s.keys.life = 2 → s.partyOf c ≠ 2 → deniedTo s 0x0072 c 0 (c.inlZero 0) = true →
    answers (.fwConfirm c) s ((begun s 0x0072 c 0 (c.inlZero 0)).final 0x0072 c stDenied dNone))

/-- What a reset of any kind keeps (18 R473, R479, 14 R381): key list, life-cycle state, settings, slots, calendar and lane lockout are kept where no
state change stands half programmed, and one that does is completed (14 R397); the boot count rises by one and holds at its top; a PAIR_CTRL write of
the last 10 ms may or may not be lost; the line is released and the network, the queues and the sessions are off; no command is under way, but for an
FW_HANDOVER whose own step 6 this reset is (12 R326; log entry 36); memory is wiped, or after a warm restart holds only retained bytes. -/
def Obligations.ResetKeepsWhatItMust : Prop :=
  (∀ s k t, t = State.takeReset s k → s.keys.half = none →
    t.keys.life = s.keys.life ∧ t.keys.owner = s.keys.owner ∧ t.keys.integ = s.keys.integ ∧ t.keys.grant = s.keys.grant ∧
    t.net.stored = s.net.stored ∧ t.pair.stored = s.settleCtrl.pair.stored ∧
    ((s.pair.ctrlDue s.clk.now).ctrl = [] → t.pair.stored = (s.pair.ctrlDue s.clk.now).stored) ∧ t.chg.app = s.chg.app ∧
    t.chg.fw = s.chg.fw ∧ t.rtc = s.rtc ∧ t.img.store = s.img.store) ∧
  (∀ s k t x, t = State.takeReset s k → s.keys.half = some x → t.keys.life = x.target ∧ t.keys.half = none ∧ t.mem = []) ∧
  (∀ s k t, t = State.takeReset s k → ¬ (k = 4 ∧ s.chg.handover = 6) → t.host.runs = [] ∧ t.chg.handover = 0) ∧
  (∀ s t, t = State.takeReset s 4 → s.chg.handover = 6 → t.chg.handover = 6 ∧ t.host.runs = s.host.runs.filter (·.work = .handover)) ∧
  ∀ s k t, t = State.takeReset s k →
    t.lanes.lockout = s.lanes.lockout ∧ t.keys.boot = min (s.keys.boot + 1) 0xFFFFFFFF ∧ t.pair.drive = false ∧ t.pair.role = .bringUp ∧
    t.cyc.running = false ∧ t.net.cfg = none ∧ t.host.sess = [] ∧ (∀ q : Fin 8, (t.hq q.val).st = .disabled) ∧ t.chg.running = none ∧
    (k ≠ 8 → t.mem = []) ∧ (∀ c ∈ t.mem, c ∈ s.mem ∧ retained s.chg.running c.1 = true) ∧ (s.memOk → t.memOk)

/-- BOOT_COUNT never decreases (14 R381): whatever the command, a boot counter within its 32 bits stays there and does not fall. -/
def Obligations.BootCountNeverDecreases : Prop :=
  ∀ c s t, s.keys.boot ≤ 0xFFFFFFFF → answers c s t → s.keys.boot ≤ t.keys.boot ∧ t.keys.boot ≤ 0xFFFFFFFF

/-- Once Calm is latched, a second cause does not replace the first (02 R54): whatever the command, a latch that stands before and after it keeps
its cause, but for ADOPTED in a module that takes over (02 R57). -/
def Obligations.CalmKeepsItsCause : Prop :=
  ∀ c s t, s.calm.on = true → answers c s t → t.calm.on = true → t.calm.cause = s.calm.cause ∨ t.calm.cause = 3

/-! ## Rules of the spec, stated whole -/

/-- NOP has no effect and completes with status OK (13 R362): nothing but the rings and sessions of the host interface, through which the command
came and its completion goes, is touched, but for the notice of a refused read where the fetch of a later descriptor of its queue
is refused (15 R425). -/
def Obligations.NopHasNoEffect : Prop :=
  (∀ c s, passes s 0x0001 c 0 (c.inlZero 0) = true →
    answers (.nop c) s ((begun s 0x0001 c 0 (c.inlZero 0)).final 0x0001 c stOk dNone)) ∧
  (∀ c s, (∀ q, c.src = .queue q → (s.hq q.val).posted = []) → ∃ t h, answers (.nop c) s t ∧ t = { s with host := h }) ∧
  (∀ c s, ∃ t h w d, answers (.nop c) s t ∧ t = { s with host := h, wb := w, recd := d })

/-- The end of the calendar (17 R447): at 2399-12-31T23:59:59 the calendar stays at that second at every later instant, TIME_INVALID is set and the
record TIME_INVALID is written with cause 2; nothing but the calendar, the recorder and the model's clock is touched. -/
def Obligations.CalendarStopsAtItsEnd : Prop :=
  calSec 2399 12 31 23 59 59 = calMax ∧
  (∀ s k, k = (s.reach (s.rtc.instant (calMax * 32768))).setCal ((calMax : Int) * 1000000000) → s.rtc.ended = false →
    answers .calendarEnd s (({ k with rtc := { k.rtc with ended := true, invalid := true } } : State).record 0x0E00 (srcOf 13 0) [2])) ∧
  (∀ s, s.rtc.ended = false → ∃ t r d, answers .calendarEnd s t ∧ t = { s with rtc := r, recd := d, clk := t.clk } ∧ r.invalid = true ∧
    r.ended = true ∧
    ∀ n, r.sec n = calMax)

/-- RTC_SHIFT (17 R454): DIRECTION 1 sets DST and 2 clears it; bytes 1 to 15 are reserved; a DIRECTION that DST already holds completes with INVALID
and STATE; otherwise local time moves by one hour at once, UTC and network time are unaffected, RTC_ADJUST is written with cause 5 and the command
completes OK. -/
def Obligations.LocalTimeShiftsByAnHour : Prop :=
  (∀ c s, s.canBegin 0x0032 c = true → c.inlZero 1 = false →
    answers (.rtcShift c) s ((begun s 0x0032 c 0 false).final 0x0032 c stInvalid dReserved)) ∧
  (∀ c s b, b = begun s 0x0032 c 0 (c.inlZero 1) → passes s 0x0032 c 0 (c.inlZero 1) = true → c.inf 0 1 = 1 ∨ c.inf 0 1 = 2 →
    b.rtc.dst = decide (c.inf 0 1 = 1) → answers (.rtcShift c) s (b.final 0x0032 c stInvalid dState)) ∧
  (∀ c s b, b = begun s 0x0032 c 0 (c.inlZero 1) → passes s 0x0032 c 0 (c.inlZero 1) = true → c.inf 0 1 = 1 ∨ c.inf 0 1 = 2 →
    b.rtc.dst = decide (c.inf 0 1 = 2) →
    answers (.rtcShift c) s ((((({ b with rtc := { b.rtc with dst := decide (c.inf 0 1 = 1) } } : State).adjustRec 5 (b.rtc.sec b.clk.now)
      (b.partyOf c)).afterAdjust)).final 0x0032 c stOk dNone)) ∧
  (∀ c s b, b = begun s 0x0032 c 0 (c.inlZero 1) → passes s 0x0032 c 0 (c.inlZero 1) = true → c.inf 0 1 = 1 ∨ c.inf 0 1 = 2 →
    b.rtc.dst = decide (c.inf 0 1 = 2) →
    ∃ t r d h w, answers (.rtcShift c) s t ∧ t = { s with rtc := r, recd := d, host := h, wb := w } ∧ r.dst = decide (c.inf 0 1 = 1) ∧
      (∀ n, r.localSec n = s.rtc.localSec n + (if c.inf 0 1 = 1 then 3600 else -3600)) ∧ ∀ n, r.units n = s.rtc.units n)

/-- ALARM_SET (17 R455): ACTION 1 arms at a local civil time in bytes 2 to 8, replacing any armed alarm and clearing ALARM_FIRED and ALARM_SKIPPED; a
time that fails R448, whose UTC equivalent lies outside the calendar, or that is not later than local time completes with INVALID and CONTENT; ACTION
0 disarms, with OK_EMPTY when no alarm is armed; byte 1 is reserved. -/
def Obligations.AlarmsAreArmedAndDisarmed : Prop :=
  (∀ c s, s.canBegin 0x0033 c = true → c.inf 1 1 ≠ 0 →
    answers (.alarmSetArm c) s ((begun s 0x0033 c 0 false).final 0x0033 c stInvalid dReserved)) ∧
  (∀ c s, s.canBegin 0x0033 c = true → c.inf 1 1 ≠ 0 →
    answers (.alarmSetDisarm c) s ((begun s 0x0033 c 0 false).final 0x0033 c stInvalid dReserved)) ∧
  (∀ c s b x, b = begun s 0x0033 c 0 (c.inf 1 1 = 0 && c.inlZero 9) → passes s 0x0033 c 0 (c.inf 1 1 = 0 && c.inlZero 9) = true →
    c.inf 0 1 = 1 → calValid (c.inf 2 2) (c.inf 4 1) (c.inf 5 1) (c.inf 6 1) (c.inf 7 1) (c.inf 8 1) = true →
    x = calSec (c.inf 2 2) (c.inf 4 1) (c.inf 5 1) (c.inf 6 1) (c.inf 7 1) (c.inf 8 1) →
    b.rtc.localSec b.clk.now < (x : Int) → 0 ≤ (x : Int) - b.rtc.localOfs → (x : Int) - b.rtc.localOfs ≤ calMax →
    answers (.alarmSetArm c) s (({ b with rtc :=
      { b.rtc with armed := true, fired := false, skipped := false, alarm := BitVec.ofNat 64 (calPack x 0) } } : State).final 0x0033 c stOk dNone)) ∧
  (∀ c s b x, b = begun s 0x0033 c 0 (c.inf 1 1 = 0 && c.inlZero 9) → passes s 0x0033 c 0 (c.inf 1 1 = 0 && c.inlZero 9) = true →
    c.inf 0 1 = 1 → x = calSec (c.inf 2 2) (c.inf 4 1) (c.inf 5 1) (c.inf 6 1) (c.inf 7 1) (c.inf 8 1) →
    calValid (c.inf 2 2) (c.inf 4 1) (c.inf 5 1) (c.inf 6 1) (c.inf 7 1) (c.inf 8 1) = false ∨ (x : Int) - b.rtc.localOfs < 0 ∨
      (calMax : Int) < (x : Int) - b.rtc.localOfs ∨ (x : Int) ≤ b.rtc.localSec b.clk.now →
    answers (.alarmSetArm c) s (b.final 0x0033 c stInvalid dContent)) ∧
  (∀ c s b, b = begun s 0x0033 c 0 (c.inlZero 1) → passes s 0x0033 c 0 (c.inlZero 1) = true → c.inf 0 1 = 0 → b.rtc.armed = true →
    answers (.alarmSetDisarm c) s (({ b with rtc := { b.rtc with armed := false } } : State).final 0x0033 c stOk dNone)) ∧
  (∀ c s b, b = begun s 0x0033 c 0 (c.inlZero 1) → passes s 0x0033 c 0 (c.inlZero 1) = true → c.inf 0 1 = 0 → b.rtc.armed = false →
    answers (.alarmSetDisarm c) s (b.final 0x0033 c stEmpty dNone))
end

