-- ==== Sys2Proof/Laws/Command.lean ====
section
/-! SUPPORT. Everything that beginning a host command can do (13 R345 to R349): it waits, it completes with the first check that fails, it
completes EMPTY for a zero LENGTH, or its own rules run. And where a completion and an event are written (15 R425). -/

namespace Sys2Proof.Machine
open Sys2Proof

/-- A command that cannot be begun has no effect. -/
theorem State.hostCmdBy_waits {s : State} {op dir : Nat} {c : Cmd} {inlOk ok : Bool} {k : State → State} (h : s.canBegin op c = false) :
    s.hostCmdBy op c dir inlOk ok k = s := by
  simp [State.hostCmdBy, h]

/-- The state in which a failed check completes the command: a refused read of its buffer is counted where the aperture refused it. -/
def State.failedAt (s : State) (op : Nat) (c : Cmd) (d : Nat) : State :=
  if d = dDma then (s.unqueue op c).apertureRefuses c.dma false c.bufAddr.toNat c.length else s.unqueue op c

/-- A check fails: the command completes with its status and DETAIL, and its own rules do not run. -/
theorem State.hostCmdBy_fails {s : State} {op dir st d : Nat} {c : Cmd} {inlOk ok : Bool} {k : State → State} (h : s.canBegin op c = true)
    (hc : (s.unqueue op c).checks op c dir inlOk ok = some (st, d)) :
    s.hostCmdBy op c dir inlOk ok k = ((s.failedAt op c d).useId op c dir inlOk).final op c st d := by
  simp [State.hostCmdBy, State.failedAt, h, hc]

/-- The checks pass for a command that expects a buffer of the host, whose LENGTH is zero: EMPTY. -/
theorem State.hostCmdBy_empty {s : State} {op : Nat} {c : Cmd} {inlOk ok : Bool} {k : State → State} (h : s.canBegin op c = true)
    (hc : (s.unqueue op c).checks op c 2 inlOk ok = none) (hl : c.length = 0) :
    s.hostCmdBy op c 2 inlOk ok k = ((s.unqueue op c).useId op c 2 inlOk).final op c stEmpty dNone := by
  simp [State.hostCmdBy, h, hc, hl]

/-- The checks pass: the command's own rules run. -/
theorem State.hostCmdBy_runs {s : State} {op dir : Nat} {c : Cmd} {inlOk ok : Bool} {k : State → State} (h : s.canBegin op c = true)
    (hc : (s.unqueue op c).checks op c dir inlOk ok = none) (hl : dir ≠ 2 ∨ c.length ≠ 0) :
    s.hostCmdBy op c dir inlOk ok k = k ((s.unqueue op c).useId op c dir inlOk) := by
  have hd : (decide (dir = 2) && decide (c.length = 0)) = false := by
    rcases hl with h | h <;> simp [h]
  simp [State.hostCmdBy, h, hc, hd]

/-- The four cases are all. -/
theorem State.hostCmdBy_cases (s : State) (op dir : Nat) (c : Cmd) (inlOk ok : Bool) (k : State → State) :
    s.hostCmdBy op c dir inlOk ok k = s ∨
    (∃ st d, (s.unqueue op c).checks op c dir inlOk ok = some (st, d) ∧
      s.hostCmdBy op c dir inlOk ok k = ((s.failedAt op c d).useId op c dir inlOk).final op c st d) ∨
    s.hostCmdBy op c dir inlOk ok k = ((s.unqueue op c).useId op c dir inlOk).final op c stEmpty dNone ∨
    s.hostCmdBy op c dir inlOk ok k = k ((s.unqueue op c).useId op c dir inlOk) := by
  cases h : s.canBegin op c
  · exact .inl (hostCmdBy_waits h)
  · cases hc : (s.unqueue op c).checks op c dir inlOk ok with
    | some x => exact .inr (.inl ⟨x.1, x.2, rfl, hostCmdBy_fails h hc⟩)
    | none =>
      by_cases hd : dir = 2 ∧ c.length = 0
      · obtain ⟨rfl, hl⟩ := hd
        exact .inr (.inr (.inl (hostCmdBy_empty h hc hl)))
      · exact .inr (.inr (.inr (hostCmdBy_runs h hc (by omega))))

/-- A command under the table of 14 R390 begins with that table's permission. -/
theorem State.hostCmd_eq (s : State) (op dir : Nat) (c : Cmd) (inlOk : Bool) (k : State → State) :
    s.hostCmd op c dir inlOk k = s.hostCmdBy op c dir inlOk (allowed s.keys.life (s.partyOf c) op) k := rfl

/-- A completion is written inside the aperture of its ring (13 R353, 15 R425). -/
theorem State.cq_inAperture (s : State) (q : Fin 8) (he : (s.hq q.val).st = .enabled) (hp : (s.hq q.val).cqPost < (s.hq q.val).size) :
    s.inAperture true ((s.hq q.val).cqBase.toNat + 32 * (s.hq q.val).cqPost) 32 = true := by
  have hm : s.hq q.val ∈ s.host.q.toList := by
    unfold State.hq
    simp
  unfold State.inAperture
  rw [Bool.or_eq_true]
  left
  rw [List.any_eq_true]
  refine ⟨_, hm, ?_⟩
  simp only [he, inRing, decide_true, Bool.true_and, if_true, Bool.and_eq_true, decide_eq_true_eq]
  omega

/-- An event is written inside the aperture of the event ring (13 R356, 15 R425). -/
theorem State.ev_inAperture (s : State) (he : s.host.ev.st = .enabled) (hp : s.host.ev.post < s.host.ev.size) :
    s.inAperture true (s.host.ev.base.toNat + 32 * s.host.ev.post) 32 = true := by
  unfold State.inAperture
  rw [Bool.or_eq_true]
  right
  simp only [he, inRing, decide_true, Bool.true_and, Bool.and_eq_true, decide_eq_true_eq]
  omega

end Sys2Proof.Machine
end

