-- ==== Sys2Proof/Laws/State.lean ====
section
/-! SUPPORT. What the named updates of State leave as it was: one lemma for each operation of Machine/Ops.lean and Machine/Flags.lean that
answers a state, with every field it keeps. Tagged for simp, so that no later proof unfolds a record update. -/

namespace Sys2Proof.Machine
open Sys2Proof

/-- A run over a list keeps what each of its steps keeps. -/
theorem foldl_kept {α β} (g : State → β) (f : State → α → State) (h : ∀ s a, g (f s a) = g s) (l : List α) (s : State) :
    g (l.foldl f s) = g s := by
  induction l generalizing s with
  | nil => rfl
  | cons a l ih => rw [List.foldl_cons, ih, h]

@[simp] theorem State.reach_frame (s : State) (t : Nat) :
    (s.reach t).slot = s.slot ∧ (s.reach t).cyc = s.cyc ∧ (s.reach t).lanes = s.lanes ∧ (s.reach t).calm = s.calm ∧
    (s.reach t).img = s.img ∧ (s.reach t).net = s.net ∧ (s.reach t).stnM = s.stnM ∧ (s.reach t).stn = s.stn ∧ (s.reach t).act = s.act ∧
    (s.reach t).trk = s.trk ∧ (s.reach t).lio = s.lio ∧ (s.reach t).pair = s.pair ∧ (s.reach t).chg = s.chg ∧ (s.reach t).host = s.host ∧
    (s.reach t).keys = s.keys ∧ (s.reach t).wb = s.wb ∧ (s.reach t).recd = s.recd ∧ (s.reach t).rtc = s.rtc ∧ (s.reach t).pwr = s.pwr ∧
    (s.reach t).mgn = s.mgn ∧ (s.reach t).mem = s.mem ∧ (s.reach t).free = s.free ∧ (s.reach t).pending = s.pending := by
  unfold State.reach
  simp

@[simp] theorem State.reachNet_frame (s : State) (t : Nat) :
    (s.reachNet t).slot = s.slot ∧ (s.reachNet t).cyc = s.cyc ∧ (s.reachNet t).lanes = s.lanes ∧ (s.reachNet t).calm = s.calm ∧
    (s.reachNet t).img = s.img ∧ (s.reachNet t).net = s.net ∧ (s.reachNet t).stnM = s.stnM ∧ (s.reachNet t).stn = s.stn ∧
    (s.reachNet t).act = s.act ∧ (s.reachNet t).trk = s.trk ∧ (s.reachNet t).lio = s.lio ∧ (s.reachNet t).pair = s.pair ∧
    (s.reachNet t).chg = s.chg ∧ (s.reachNet t).host = s.host ∧ (s.reachNet t).keys = s.keys ∧ (s.reachNet t).wb = s.wb ∧
    (s.reachNet t).recd = s.recd ∧ (s.reachNet t).rtc = s.rtc ∧ (s.reachNet t).pwr = s.pwr ∧ (s.reachNet t).mgn = s.mgn ∧
    (s.reachNet t).mem = s.mem ∧ (s.reachNet t).free = s.free ∧ (s.reachNet t).pending = s.pending := by
  unfold State.reachNet
  simp

@[simp] theorem State.drawNat_frame (s : State) :
    s.drawNat.2.slot = s.slot ∧ s.drawNat.2.clk = s.clk ∧ s.drawNat.2.cyc = s.cyc ∧ s.drawNat.2.lanes = s.lanes ∧
    s.drawNat.2.calm = s.calm ∧ s.drawNat.2.img = s.img ∧ s.drawNat.2.net = s.net ∧ s.drawNat.2.stnM = s.stnM ∧ s.drawNat.2.stn = s.stn ∧
    s.drawNat.2.act = s.act ∧ s.drawNat.2.trk = s.trk ∧ s.drawNat.2.lio = s.lio ∧ s.drawNat.2.pair = s.pair ∧ s.drawNat.2.chg = s.chg ∧
    s.drawNat.2.host = s.host ∧ s.drawNat.2.keys = s.keys ∧ s.drawNat.2.wb = s.wb ∧ s.drawNat.2.recd = s.recd ∧ s.drawNat.2.rtc = s.rtc ∧
    s.drawNat.2.pwr = s.pwr ∧ s.drawNat.2.mgn = s.mgn ∧ s.drawNat.2.mem = s.mem ∧ s.drawNat.2.pending = s.pending := by
  unfold State.drawNat
  simp

@[simp] theorem State.mark_frame (s : State) (a : Nat) (k : Nat) :
    (s.mark a k).slot = s.slot ∧ (s.mark a k).clk = s.clk ∧ (s.mark a k).cyc = s.cyc ∧ (s.mark a k).lanes = s.lanes ∧
    (s.mark a k).calm = s.calm ∧ (s.mark a k).img = s.img ∧ (s.mark a k).net = s.net ∧ (s.mark a k).stnM = s.stnM ∧
    (s.mark a k).stn = s.stn ∧ (s.mark a k).act = s.act ∧ (s.mark a k).trk = s.trk ∧ (s.mark a k).lio = s.lio ∧ (s.mark a k).chg = s.chg ∧
    (s.mark a k).host = s.host ∧ (s.mark a k).keys = s.keys ∧ (s.mark a k).wb = s.wb ∧ (s.mark a k).recd = s.recd ∧
    (s.mark a k).rtc = s.rtc ∧ (s.mark a k).pwr = s.pwr ∧ (s.mark a k).mgn = s.mgn ∧ (s.mark a k).mem = s.mem ∧
    (s.mark a k).free = s.free ∧ (s.mark a k).pending = s.pending := by
  unfold State.mark
  (repeat' split) <;> simp

@[simp] theorem State.store_frame (s : State) (a : Nat) (bs : List Byte) :
    (s.store a bs).slot = s.slot ∧ (s.store a bs).clk = s.clk ∧ (s.store a bs).cyc = s.cyc ∧ (s.store a bs).lanes = s.lanes ∧
    (s.store a bs).calm = s.calm ∧ (s.store a bs).img = s.img ∧ (s.store a bs).net = s.net ∧ (s.store a bs).stnM = s.stnM ∧
    (s.store a bs).stn = s.stn ∧ (s.store a bs).act = s.act ∧ (s.store a bs).trk = s.trk ∧ (s.store a bs).lio = s.lio ∧
    (s.store a bs).chg = s.chg ∧ (s.store a bs).host = s.host ∧ (s.store a bs).keys = s.keys ∧ (s.store a bs).wb = s.wb ∧
    (s.store a bs).recd = s.recd ∧ (s.store a bs).rtc = s.rtc ∧ (s.store a bs).pwr = s.pwr ∧ (s.store a bs).mgn = s.mgn ∧
    (s.store a bs).free = s.free ∧ (s.store a bs).pending = s.pending := by
  unfold State.store
  simp

@[simp] theorem State.onTask_frame (s : State) (t : Nat) (f : Task → Task) :
    (s.onTask t f).slot = s.slot ∧ (s.onTask t f).clk = s.clk ∧ (s.onTask t f).cyc = s.cyc ∧ (s.onTask t f).calm = s.calm ∧
    (s.onTask t f).img = s.img ∧ (s.onTask t f).net = s.net ∧ (s.onTask t f).stnM = s.stnM ∧ (s.onTask t f).stn = s.stn ∧
    (s.onTask t f).act = s.act ∧ (s.onTask t f).trk = s.trk ∧ (s.onTask t f).lio = s.lio ∧ (s.onTask t f).pair = s.pair ∧
    (s.onTask t f).chg = s.chg ∧ (s.onTask t f).host = s.host ∧ (s.onTask t f).keys = s.keys ∧ (s.onTask t f).wb = s.wb ∧
    (s.onTask t f).recd = s.recd ∧ (s.onTask t f).rtc = s.rtc ∧ (s.onTask t f).pwr = s.pwr ∧ (s.onTask t f).mgn = s.mgn ∧
    (s.onTask t f).mem = s.mem ∧ (s.onTask t f).free = s.free ∧ (s.onTask t f).pending = s.pending := by
  unfold State.onTask
  simp

@[simp] theorem State.onLane_frame (s : State) (l : Nat) (f : Lane → Lane) :
    (s.onLane l f).slot = s.slot ∧ (s.onLane l f).clk = s.clk ∧ (s.onLane l f).cyc = s.cyc ∧ (s.onLane l f).calm = s.calm ∧
    (s.onLane l f).img = s.img ∧ (s.onLane l f).net = s.net ∧ (s.onLane l f).stnM = s.stnM ∧ (s.onLane l f).stn = s.stn ∧
    (s.onLane l f).act = s.act ∧ (s.onLane l f).trk = s.trk ∧ (s.onLane l f).lio = s.lio ∧ (s.onLane l f).pair = s.pair ∧
    (s.onLane l f).chg = s.chg ∧ (s.onLane l f).host = s.host ∧ (s.onLane l f).keys = s.keys ∧ (s.onLane l f).wb = s.wb ∧
    (s.onLane l f).recd = s.recd ∧ (s.onLane l f).rtc = s.rtc ∧ (s.onLane l f).pwr = s.pwr ∧ (s.onLane l f).mgn = s.mgn ∧
    (s.onLane l f).mem = s.mem ∧ (s.onLane l f).free = s.free ∧ (s.onLane l f).pending = s.pending := by
  unfold State.onLane
  simp

@[simp] theorem State.onStnM_frame (s : State) (code : Nat) (f : StnM → StnM) :
    (s.onStnM code f).slot = s.slot ∧ (s.onStnM code f).clk = s.clk ∧ (s.onStnM code f).cyc = s.cyc ∧ (s.onStnM code f).lanes = s.lanes ∧
    (s.onStnM code f).calm = s.calm ∧ (s.onStnM code f).img = s.img ∧ (s.onStnM code f).net = s.net ∧ (s.onStnM code f).stn = s.stn ∧
    (s.onStnM code f).act = s.act ∧ (s.onStnM code f).trk = s.trk ∧ (s.onStnM code f).lio = s.lio ∧ (s.onStnM code f).pair = s.pair ∧
    (s.onStnM code f).chg = s.chg ∧ (s.onStnM code f).host = s.host ∧ (s.onStnM code f).keys = s.keys ∧ (s.onStnM code f).wb = s.wb ∧
    (s.onStnM code f).recd = s.recd ∧ (s.onStnM code f).rtc = s.rtc ∧ (s.onStnM code f).pwr = s.pwr ∧ (s.onStnM code f).mgn = s.mgn ∧
    (s.onStnM code f).mem = s.mem ∧ (s.onStnM code f).free = s.free ∧ (s.onStnM code f).pending = s.pending := by
  unfold State.onStnM
  simp

@[simp] theorem State.onStn_frame (s : State) (code : Nat) (f : Stn → Stn) :
    (s.onStn code f).slot = s.slot ∧ (s.onStn code f).clk = s.clk ∧ (s.onStn code f).cyc = s.cyc ∧ (s.onStn code f).lanes = s.lanes ∧
    (s.onStn code f).calm = s.calm ∧ (s.onStn code f).img = s.img ∧ (s.onStn code f).net = s.net ∧ (s.onStn code f).stnM = s.stnM ∧
    (s.onStn code f).act = s.act ∧ (s.onStn code f).trk = s.trk ∧ (s.onStn code f).lio = s.lio ∧ (s.onStn code f).pair = s.pair ∧
    (s.onStn code f).chg = s.chg ∧ (s.onStn code f).host = s.host ∧ (s.onStn code f).keys = s.keys ∧ (s.onStn code f).wb = s.wb ∧
    (s.onStn code f).recd = s.recd ∧ (s.onStn code f).rtc = s.rtc ∧ (s.onStn code f).pwr = s.pwr ∧ (s.onStn code f).mgn = s.mgn ∧
    (s.onStn code f).mem = s.mem ∧ (s.onStn code f).free = s.free ∧ (s.onStn code f).pending = s.pending := by
  unfold State.onStn
  (repeat' split) <;> simp

@[simp] theorem State.putRec_frame (s : State) (r : Rec) :
    (s.putRec r).slot = s.slot ∧ (s.putRec r).clk = s.clk ∧ (s.putRec r).cyc = s.cyc ∧ (s.putRec r).lanes = s.lanes ∧
    (s.putRec r).calm = s.calm ∧ (s.putRec r).img = s.img ∧ (s.putRec r).net = s.net ∧ (s.putRec r).stnM = s.stnM ∧
    (s.putRec r).stn = s.stn ∧ (s.putRec r).act = s.act ∧ (s.putRec r).trk = s.trk ∧ (s.putRec r).lio = s.lio ∧
    (s.putRec r).pair = s.pair ∧ (s.putRec r).chg = s.chg ∧ (s.putRec r).host = s.host ∧ (s.putRec r).keys = s.keys ∧
    (s.putRec r).wb = s.wb ∧ (s.putRec r).rtc = s.rtc ∧ (s.putRec r).pwr = s.pwr ∧ (s.putRec r).mgn = s.mgn ∧ (s.putRec r).mem = s.mem ∧
    (s.putRec r).free = s.free ∧ (s.putRec r).pending = s.pending := by
  unfold State.putRec
  dsimp only; (repeat' split) <;> simp

@[simp] theorem State.recordFor_frame (s : State) (code : Nat) (src : Nat) (inst : Nat) (pay : List Byte) (party : Nat) (follow : Bool) :
    (s.recordFor code src inst pay party follow).slot = s.slot ∧ (s.recordFor code src inst pay party follow).clk = s.clk ∧
    (s.recordFor code src inst pay party follow).cyc = s.cyc ∧ (s.recordFor code src inst pay party follow).lanes = s.lanes ∧
    (s.recordFor code src inst pay party follow).calm = s.calm ∧ (s.recordFor code src inst pay party follow).img = s.img ∧
    (s.recordFor code src inst pay party follow).net = s.net ∧ (s.recordFor code src inst pay party follow).stnM = s.stnM ∧
    (s.recordFor code src inst pay party follow).stn = s.stn ∧ (s.recordFor code src inst pay party follow).act = s.act ∧
    (s.recordFor code src inst pay party follow).trk = s.trk ∧ (s.recordFor code src inst pay party follow).lio = s.lio ∧
    (s.recordFor code src inst pay party follow).pair = s.pair ∧ (s.recordFor code src inst pay party follow).chg = s.chg ∧
    (s.recordFor code src inst pay party follow).host = s.host ∧ (s.recordFor code src inst pay party follow).keys = s.keys ∧
    (s.recordFor code src inst pay party follow).wb = s.wb ∧ (s.recordFor code src inst pay party follow).rtc = s.rtc ∧
    (s.recordFor code src inst pay party follow).pwr = s.pwr ∧ (s.recordFor code src inst pay party follow).mgn = s.mgn ∧
    (s.recordFor code src inst pay party follow).mem = s.mem ∧ (s.recordFor code src inst pay party follow).free = s.free ∧
    (s.recordFor code src inst pay party follow).pending = s.pending := by
  unfold State.recordFor
  simp

@[simp] theorem State.recordBy_frame (s : State) (code : Nat) (src : Nat) (pay : List Byte) (party : Nat) (follow : Bool) :
    (s.recordBy code src pay party follow).slot = s.slot ∧ (s.recordBy code src pay party follow).clk = s.clk ∧
    (s.recordBy code src pay party follow).cyc = s.cyc ∧ (s.recordBy code src pay party follow).lanes = s.lanes ∧
    (s.recordBy code src pay party follow).calm = s.calm ∧ (s.recordBy code src pay party follow).img = s.img ∧
    (s.recordBy code src pay party follow).net = s.net ∧ (s.recordBy code src pay party follow).stnM = s.stnM ∧
    (s.recordBy code src pay party follow).stn = s.stn ∧ (s.recordBy code src pay party follow).act = s.act ∧
    (s.recordBy code src pay party follow).trk = s.trk ∧ (s.recordBy code src pay party follow).lio = s.lio ∧
    (s.recordBy code src pay party follow).pair = s.pair ∧ (s.recordBy code src pay party follow).chg = s.chg ∧
    (s.recordBy code src pay party follow).host = s.host ∧ (s.recordBy code src pay party follow).keys = s.keys ∧
    (s.recordBy code src pay party follow).wb = s.wb ∧ (s.recordBy code src pay party follow).rtc = s.rtc ∧
    (s.recordBy code src pay party follow).pwr = s.pwr ∧ (s.recordBy code src pay party follow).mgn = s.mgn ∧
    (s.recordBy code src pay party follow).mem = s.mem ∧ (s.recordBy code src pay party follow).free = s.free ∧
    (s.recordBy code src pay party follow).pending = s.pending := by
  unfold State.recordBy
  simp

@[simp] theorem State.record_frame (s : State) (code : Nat) (src : Nat) (l : List Nat) :
    (s.record code src l).slot = s.slot ∧ (s.record code src l).clk = s.clk ∧ (s.record code src l).cyc = s.cyc ∧
    (s.record code src l).lanes = s.lanes ∧ (s.record code src l).calm = s.calm ∧ (s.record code src l).img = s.img ∧
    (s.record code src l).net = s.net ∧ (s.record code src l).stnM = s.stnM ∧ (s.record code src l).stn = s.stn ∧
    (s.record code src l).act = s.act ∧ (s.record code src l).trk = s.trk ∧ (s.record code src l).lio = s.lio ∧
    (s.record code src l).pair = s.pair ∧ (s.record code src l).chg = s.chg ∧ (s.record code src l).host = s.host ∧
    (s.record code src l).keys = s.keys ∧ (s.record code src l).wb = s.wb ∧ (s.record code src l).rtc = s.rtc ∧
    (s.record code src l).pwr = s.pwr ∧ (s.record code src l).mgn = s.mgn ∧ (s.record code src l).mem = s.mem ∧
    (s.record code src l).free = s.free ∧ (s.record code src l).pending = s.pending := by
  unfold State.record
  simp

@[simp] theorem State.setupError_frame (s : State) (ofs : Nat) (v : Nat) :
    (s.setupError ofs v).slot = s.slot ∧ (s.setupError ofs v).clk = s.clk ∧ (s.setupError ofs v).cyc = s.cyc ∧
    (s.setupError ofs v).lanes = s.lanes ∧ (s.setupError ofs v).calm = s.calm ∧ (s.setupError ofs v).img = s.img ∧
    (s.setupError ofs v).net = s.net ∧ (s.setupError ofs v).stnM = s.stnM ∧ (s.setupError ofs v).stn = s.stn ∧
    (s.setupError ofs v).act = s.act ∧ (s.setupError ofs v).trk = s.trk ∧ (s.setupError ofs v).lio = s.lio ∧
    (s.setupError ofs v).pair = s.pair ∧ (s.setupError ofs v).chg = s.chg ∧ (s.setupError ofs v).host = s.host ∧
    (s.setupError ofs v).keys = s.keys ∧ (s.setupError ofs v).wb = s.wb ∧ (s.setupError ofs v).rtc = s.rtc ∧
    (s.setupError ofs v).pwr = s.pwr ∧ (s.setupError ofs v).mgn = s.mgn ∧ (s.setupError ofs v).mem = s.mem ∧
    (s.setupError ofs v).free = s.free ∧ (s.setupError ofs v).pending = s.pending := by
  unfold State.setupError
  simp

@[simp] theorem State.signal_frame (s : State) (vec : Nat) (holdoff : Nat) :
    (s.signal vec holdoff).slot = s.slot ∧ (s.signal vec holdoff).clk = s.clk ∧ (s.signal vec holdoff).cyc = s.cyc ∧
    (s.signal vec holdoff).lanes = s.lanes ∧ (s.signal vec holdoff).calm = s.calm ∧ (s.signal vec holdoff).img = s.img ∧
    (s.signal vec holdoff).net = s.net ∧ (s.signal vec holdoff).stnM = s.stnM ∧ (s.signal vec holdoff).stn = s.stn ∧
    (s.signal vec holdoff).act = s.act ∧ (s.signal vec holdoff).trk = s.trk ∧ (s.signal vec holdoff).lio = s.lio ∧
    (s.signal vec holdoff).pair = s.pair ∧ (s.signal vec holdoff).chg = s.chg ∧ (s.signal vec holdoff).keys = s.keys ∧
    (s.signal vec holdoff).wb = s.wb ∧ (s.signal vec holdoff).recd = s.recd ∧ (s.signal vec holdoff).rtc = s.rtc ∧
    (s.signal vec holdoff).pwr = s.pwr ∧ (s.signal vec holdoff).mgn = s.mgn ∧ (s.signal vec holdoff).mem = s.mem ∧
    (s.signal vec holdoff).free = s.free ∧ (s.signal vec holdoff).pending = s.pending := by
  unfold State.signal
  simp

@[simp] theorem State.hostWrite_frame (s : State) (addr : Nat) (data : List Byte) :
    (s.hostWrite addr data).slot = s.slot ∧ (s.hostWrite addr data).clk = s.clk ∧ (s.hostWrite addr data).cyc = s.cyc ∧
    (s.hostWrite addr data).lanes = s.lanes ∧ (s.hostWrite addr data).calm = s.calm ∧ (s.hostWrite addr data).img = s.img ∧
    (s.hostWrite addr data).net = s.net ∧ (s.hostWrite addr data).stnM = s.stnM ∧ (s.hostWrite addr data).stn = s.stn ∧
    (s.hostWrite addr data).act = s.act ∧ (s.hostWrite addr data).trk = s.trk ∧ (s.hostWrite addr data).lio = s.lio ∧
    (s.hostWrite addr data).pair = s.pair ∧ (s.hostWrite addr data).chg = s.chg ∧ (s.hostWrite addr data).keys = s.keys ∧
    (s.hostWrite addr data).wb = s.wb ∧ (s.hostWrite addr data).recd = s.recd ∧ (s.hostWrite addr data).rtc = s.rtc ∧
    (s.hostWrite addr data).pwr = s.pwr ∧ (s.hostWrite addr data).mgn = s.mgn ∧ (s.hostWrite addr data).mem = s.mem ∧
    (s.hostWrite addr data).free = s.free ∧ (s.hostWrite addr data).pending = s.pending := by
  unfold State.hostWrite
  simp

@[simp] theorem State.hostRead_frame (s : State) (addr len : Nat) :
    (s.hostRead addr len).slot = s.slot ∧ (s.hostRead addr len).clk = s.clk ∧ (s.hostRead addr len).cyc = s.cyc ∧
    (s.hostRead addr len).lanes = s.lanes ∧ (s.hostRead addr len).calm = s.calm ∧ (s.hostRead addr len).img = s.img ∧
    (s.hostRead addr len).net = s.net ∧ (s.hostRead addr len).stnM = s.stnM ∧ (s.hostRead addr len).stn = s.stn ∧
    (s.hostRead addr len).act = s.act ∧ (s.hostRead addr len).trk = s.trk ∧ (s.hostRead addr len).lio = s.lio ∧
    (s.hostRead addr len).pair = s.pair ∧ (s.hostRead addr len).chg = s.chg ∧ (s.hostRead addr len).keys = s.keys ∧
    (s.hostRead addr len).wb = s.wb ∧ (s.hostRead addr len).recd = s.recd ∧ (s.hostRead addr len).rtc = s.rtc ∧
    (s.hostRead addr len).pwr = s.pwr ∧ (s.hostRead addr len).mgn = s.mgn ∧ (s.hostRead addr len).mem = s.mem ∧
    (s.hostRead addr len).free = s.free ∧ (s.hostRead addr len).pending = s.pending := by
  unfold State.hostRead
  simp

@[simp] theorem State.writeEntry_frame (s : State) (addr : Nat) (b : List Byte) :
    (s.writeEntry addr b).slot = s.slot ∧ (s.writeEntry addr b).clk = s.clk ∧ (s.writeEntry addr b).cyc = s.cyc ∧
    (s.writeEntry addr b).lanes = s.lanes ∧ (s.writeEntry addr b).calm = s.calm ∧ (s.writeEntry addr b).img = s.img ∧
    (s.writeEntry addr b).net = s.net ∧ (s.writeEntry addr b).stnM = s.stnM ∧ (s.writeEntry addr b).stn = s.stn ∧
    (s.writeEntry addr b).act = s.act ∧ (s.writeEntry addr b).trk = s.trk ∧ (s.writeEntry addr b).lio = s.lio ∧
    (s.writeEntry addr b).pair = s.pair ∧ (s.writeEntry addr b).chg = s.chg ∧ (s.writeEntry addr b).keys = s.keys ∧
    (s.writeEntry addr b).wb = s.wb ∧ (s.writeEntry addr b).recd = s.recd ∧ (s.writeEntry addr b).rtc = s.rtc ∧
    (s.writeEntry addr b).pwr = s.pwr ∧ (s.writeEntry addr b).mgn = s.mgn ∧ (s.writeEntry addr b).mem = s.mem ∧
    (s.writeEntry addr b).free = s.free ∧ (s.writeEntry addr b).pending = s.pending := by
  unfold State.writeEntry
  simp

@[simp] theorem State.event_frame (s : State) (code : Nat) (param : List Byte) :
    (s.event code param).slot = s.slot ∧ (s.event code param).clk = s.clk ∧ (s.event code param).cyc = s.cyc ∧
    (s.event code param).lanes = s.lanes ∧ (s.event code param).calm = s.calm ∧ (s.event code param).img = s.img ∧
    (s.event code param).net = s.net ∧ (s.event code param).stnM = s.stnM ∧ (s.event code param).stn = s.stn ∧
    (s.event code param).act = s.act ∧ (s.event code param).trk = s.trk ∧ (s.event code param).lio = s.lio ∧
    (s.event code param).pair = s.pair ∧ (s.event code param).chg = s.chg ∧ (s.event code param).keys = s.keys ∧
    (s.event code param).wb = s.wb ∧ (s.event code param).recd = s.recd ∧ (s.event code param).rtc = s.rtc ∧
    (s.event code param).pwr = s.pwr ∧ (s.event code param).mgn = s.mgn ∧ (s.event code param).mem = s.mem ∧
    (s.event code param).free = s.free ∧ (s.event code param).pending = s.pending := by
  unfold State.event
  dsimp only; (repeat' split) <;> simp

@[simp] theorem State.onHq_frame (s : State) (q : Nat) (f : HQ → HQ) :
    (s.onHq q f).slot = s.slot ∧ (s.onHq q f).clk = s.clk ∧ (s.onHq q f).cyc = s.cyc ∧ (s.onHq q f).lanes = s.lanes ∧
    (s.onHq q f).calm = s.calm ∧ (s.onHq q f).img = s.img ∧ (s.onHq q f).net = s.net ∧ (s.onHq q f).stnM = s.stnM ∧
    (s.onHq q f).stn = s.stn ∧ (s.onHq q f).act = s.act ∧ (s.onHq q f).trk = s.trk ∧ (s.onHq q f).lio = s.lio ∧
    (s.onHq q f).pair = s.pair ∧ (s.onHq q f).chg = s.chg ∧ (s.onHq q f).keys = s.keys ∧ (s.onHq q f).wb = s.wb ∧
    (s.onHq q f).recd = s.recd ∧ (s.onHq q f).rtc = s.rtc ∧ (s.onHq q f).pwr = s.pwr ∧ (s.onHq q f).mgn = s.mgn ∧
    (s.onHq q f).mem = s.mem ∧ (s.onHq q f).free = s.free ∧ (s.onHq q f).pending = s.pending := by
  unfold State.onHq
  simp

@[simp] theorem State.putCpl_frame (s : State) (q : Nat) (c : Cpl) :
    (s.putCpl q c).slot = s.slot ∧ (s.putCpl q c).clk = s.clk ∧ (s.putCpl q c).cyc = s.cyc ∧ (s.putCpl q c).lanes = s.lanes ∧
    (s.putCpl q c).calm = s.calm ∧ (s.putCpl q c).img = s.img ∧ (s.putCpl q c).net = s.net ∧ (s.putCpl q c).stnM = s.stnM ∧
    (s.putCpl q c).stn = s.stn ∧ (s.putCpl q c).act = s.act ∧ (s.putCpl q c).trk = s.trk ∧ (s.putCpl q c).lio = s.lio ∧
    (s.putCpl q c).pair = s.pair ∧ (s.putCpl q c).chg = s.chg ∧ (s.putCpl q c).keys = s.keys ∧ (s.putCpl q c).wb = s.wb ∧
    (s.putCpl q c).recd = s.recd ∧ (s.putCpl q c).rtc = s.rtc ∧ (s.putCpl q c).pwr = s.pwr ∧ (s.putCpl q c).mgn = s.mgn ∧
    (s.putCpl q c).mem = s.mem ∧ (s.putCpl q c).free = s.free ∧ (s.putCpl q c).pending = s.pending := by
  unfold State.putCpl
  simp

@[simp] theorem State.post_frame (s : State) (src : Src) (c : Cpl) :
    (s.post src c).slot = s.slot ∧ (s.post src c).clk = s.clk ∧ (s.post src c).cyc = s.cyc ∧ (s.post src c).lanes = s.lanes ∧
    (s.post src c).calm = s.calm ∧ (s.post src c).img = s.img ∧ (s.post src c).net = s.net ∧ (s.post src c).stnM = s.stnM ∧
    (s.post src c).stn = s.stn ∧ (s.post src c).act = s.act ∧ (s.post src c).trk = s.trk ∧ (s.post src c).lio = s.lio ∧
    (s.post src c).pair = s.pair ∧ (s.post src c).chg = s.chg ∧ (s.post src c).keys = s.keys ∧ (s.post src c).wb = s.wb ∧
    (s.post src c).recd = s.recd ∧ (s.post src c).rtc = s.rtc ∧ (s.post src c).pwr = s.pwr ∧ (s.post src c).mgn = s.mgn ∧
    (s.post src c).mem = s.mem ∧ (s.post src c).free = s.free ∧ (s.post src c).pending = s.pending := by
  unfold State.post
  dsimp only; (repeat' split) <;> simp

@[simp] theorem State.final_frame (s : State) (op : Nat) (c : Cmd) (status : Nat) (detail : Nat) (r0 : Word) (r1 : Word) (data : List Byte) :
    (s.final op c status detail r0 r1 data).slot = s.slot ∧ (s.final op c status detail r0 r1 data).clk = s.clk ∧
    (s.final op c status detail r0 r1 data).cyc = s.cyc ∧ (s.final op c status detail r0 r1 data).lanes = s.lanes ∧
    (s.final op c status detail r0 r1 data).calm = s.calm ∧ (s.final op c status detail r0 r1 data).img = s.img ∧
    (s.final op c status detail r0 r1 data).net = s.net ∧ (s.final op c status detail r0 r1 data).stnM = s.stnM ∧
    (s.final op c status detail r0 r1 data).stn = s.stn ∧ (s.final op c status detail r0 r1 data).act = s.act ∧
    (s.final op c status detail r0 r1 data).trk = s.trk ∧ (s.final op c status detail r0 r1 data).lio = s.lio ∧
    (s.final op c status detail r0 r1 data).pair = s.pair ∧ (s.final op c status detail r0 r1 data).chg = s.chg ∧
    (s.final op c status detail r0 r1 data).keys = s.keys ∧ (s.final op c status detail r0 r1 data).wb = s.wb ∧
    (s.final op c status detail r0 r1 data).recd = s.recd ∧ (s.final op c status detail r0 r1 data).rtc = s.rtc ∧
    (s.final op c status detail r0 r1 data).pwr = s.pwr ∧ (s.final op c status detail r0 r1 data).mgn = s.mgn ∧
    (s.final op c status detail r0 r1 data).mem = s.mem ∧ (s.final op c status detail r0 r1 data).free = s.free ∧
    (s.final op c status detail r0 r1 data).pending = s.pending := by
  unfold State.final
  (repeat' split) <;> simp

@[simp] theorem State.runPost_frame (s : State) (r : Run) (status : Nat) (kind : Nat) (detail : Nat) (r0 : Word) (r1 : Word) (data : List Byte) :
    (s.runPost r status kind detail r0 r1 data).slot = s.slot ∧ (s.runPost r status kind detail r0 r1 data).clk = s.clk ∧
    (s.runPost r status kind detail r0 r1 data).cyc = s.cyc ∧ (s.runPost r status kind detail r0 r1 data).lanes = s.lanes ∧
    (s.runPost r status kind detail r0 r1 data).calm = s.calm ∧ (s.runPost r status kind detail r0 r1 data).img = s.img ∧
    (s.runPost r status kind detail r0 r1 data).net = s.net ∧ (s.runPost r status kind detail r0 r1 data).stnM = s.stnM ∧
    (s.runPost r status kind detail r0 r1 data).stn = s.stn ∧ (s.runPost r status kind detail r0 r1 data).act = s.act ∧
    (s.runPost r status kind detail r0 r1 data).trk = s.trk ∧ (s.runPost r status kind detail r0 r1 data).lio = s.lio ∧
    (s.runPost r status kind detail r0 r1 data).pair = s.pair ∧ (s.runPost r status kind detail r0 r1 data).chg = s.chg ∧
    (s.runPost r status kind detail r0 r1 data).keys = s.keys ∧ (s.runPost r status kind detail r0 r1 data).wb = s.wb ∧
    (s.runPost r status kind detail r0 r1 data).recd = s.recd ∧ (s.runPost r status kind detail r0 r1 data).rtc = s.rtc ∧
    (s.runPost r status kind detail r0 r1 data).pwr = s.pwr ∧ (s.runPost r status kind detail r0 r1 data).mgn = s.mgn ∧
    (s.runPost r status kind detail r0 r1 data).mem = s.mem ∧ (s.runPost r status kind detail r0 r1 data).free = s.free ∧
    (s.runPost r status kind detail r0 r1 data).pending = s.pending := by
  unfold State.runPost
  (repeat' split) <;> simp

@[simp] theorem State.setRun_frame (s : State) (r : Run) :
    (s.setRun r).slot = s.slot ∧ (s.setRun r).clk = s.clk ∧ (s.setRun r).cyc = s.cyc ∧ (s.setRun r).lanes = s.lanes ∧
    (s.setRun r).calm = s.calm ∧ (s.setRun r).img = s.img ∧ (s.setRun r).net = s.net ∧ (s.setRun r).stnM = s.stnM ∧
    (s.setRun r).stn = s.stn ∧ (s.setRun r).act = s.act ∧ (s.setRun r).trk = s.trk ∧ (s.setRun r).lio = s.lio ∧
    (s.setRun r).pair = s.pair ∧ (s.setRun r).chg = s.chg ∧ (s.setRun r).keys = s.keys ∧ (s.setRun r).wb = s.wb ∧
    (s.setRun r).recd = s.recd ∧ (s.setRun r).rtc = s.rtc ∧ (s.setRun r).pwr = s.pwr ∧ (s.setRun r).mgn = s.mgn ∧
    (s.setRun r).mem = s.mem ∧ (s.setRun r).free = s.free ∧ (s.setRun r).pending = s.pending := by
  unfold State.setRun
  simp

@[simp] theorem State.endRun_frame (s : State) (r : Run) (status : Nat) (detail : Nat) (r0 : Word) (r1 : Word) (data : List Byte) :
    (s.endRun r status detail r0 r1 data).slot = s.slot ∧ (s.endRun r status detail r0 r1 data).clk = s.clk ∧
    (s.endRun r status detail r0 r1 data).cyc = s.cyc ∧ (s.endRun r status detail r0 r1 data).lanes = s.lanes ∧
    (s.endRun r status detail r0 r1 data).calm = s.calm ∧ (s.endRun r status detail r0 r1 data).img = s.img ∧
    (s.endRun r status detail r0 r1 data).net = s.net ∧ (s.endRun r status detail r0 r1 data).stnM = s.stnM ∧
    (s.endRun r status detail r0 r1 data).stn = s.stn ∧ (s.endRun r status detail r0 r1 data).act = s.act ∧
    (s.endRun r status detail r0 r1 data).trk = s.trk ∧ (s.endRun r status detail r0 r1 data).lio = s.lio ∧
    (s.endRun r status detail r0 r1 data).pair = s.pair ∧ (s.endRun r status detail r0 r1 data).chg = s.chg ∧
    (s.endRun r status detail r0 r1 data).keys = s.keys ∧ (s.endRun r status detail r0 r1 data).wb = s.wb ∧
    (s.endRun r status detail r0 r1 data).recd = s.recd ∧ (s.endRun r status detail r0 r1 data).rtc = s.rtc ∧
    (s.endRun r status detail r0 r1 data).pwr = s.pwr ∧ (s.endRun r status detail r0 r1 data).mgn = s.mgn ∧
    (s.endRun r status detail r0 r1 data).mem = s.mem ∧ (s.endRun r status detail r0 r1 data).free = s.free ∧
    (s.endRun r status detail r0 r1 data).pending = s.pending := by
  unfold State.endRun
  simp [foldl_kept]

@[simp] theorem State.endRuns_frame (s : State) (p : Run → Bool) (status : Nat) (detail : Nat) (r0 : Word) (r1 : Word) :
    (s.endRuns p status detail r0 r1).slot = s.slot ∧ (s.endRuns p status detail r0 r1).clk = s.clk ∧
    (s.endRuns p status detail r0 r1).cyc = s.cyc ∧ (s.endRuns p status detail r0 r1).lanes = s.lanes ∧
    (s.endRuns p status detail r0 r1).calm = s.calm ∧ (s.endRuns p status detail r0 r1).img = s.img ∧
    (s.endRuns p status detail r0 r1).net = s.net ∧ (s.endRuns p status detail r0 r1).stnM = s.stnM ∧
    (s.endRuns p status detail r0 r1).stn = s.stn ∧ (s.endRuns p status detail r0 r1).act = s.act ∧
    (s.endRuns p status detail r0 r1).trk = s.trk ∧ (s.endRuns p status detail r0 r1).lio = s.lio ∧
    (s.endRuns p status detail r0 r1).pair = s.pair ∧ (s.endRuns p status detail r0 r1).chg = s.chg ∧
    (s.endRuns p status detail r0 r1).keys = s.keys ∧ (s.endRuns p status detail r0 r1).wb = s.wb ∧
    (s.endRuns p status detail r0 r1).recd = s.recd ∧ (s.endRuns p status detail r0 r1).rtc = s.rtc ∧
    (s.endRuns p status detail r0 r1).pwr = s.pwr ∧ (s.endRuns p status detail r0 r1).mgn = s.mgn ∧
    (s.endRuns p status detail r0 r1).mem = s.mem ∧ (s.endRuns p status detail r0 r1).free = s.free ∧
    (s.endRuns p status detail r0 r1).pending = s.pending := by
  unfold State.endRuns
  and_intros <;> (apply foldl_kept; intro s a; (try dsimp only); (repeat' split) <;> simp)

@[simp] theorem State.goStale_frame (s : State) :
    s.goStale.slot = s.slot ∧ s.goStale.clk = s.clk ∧ s.goStale.cyc = s.cyc ∧ s.goStale.lanes = s.lanes ∧ s.goStale.calm = s.calm ∧
    s.goStale.img = s.img ∧ s.goStale.net = s.net ∧ s.goStale.stnM = s.stnM ∧ s.goStale.stn = s.stn ∧ s.goStale.act = s.act ∧
    s.goStale.trk = s.trk ∧ s.goStale.lio = s.lio ∧ s.goStale.chg = s.chg ∧ s.goStale.host = s.host ∧ s.goStale.keys = s.keys ∧
    s.goStale.wb = s.wb ∧ s.goStale.recd = s.recd ∧ s.goStale.rtc = s.rtc ∧ s.goStale.pwr = s.pwr ∧ s.goStale.mgn = s.mgn ∧
    s.goStale.mem = s.mem ∧ s.goStale.free = s.free ∧ s.goStale.pending = s.pending := by
  unfold State.goStale
  (repeat' split) <;> simp

@[simp] theorem State.send_frame (s : State) (m : PairMsg) :
    (s.send m).slot = s.slot ∧ (s.send m).clk = s.clk ∧ (s.send m).cyc = s.cyc ∧ (s.send m).lanes = s.lanes ∧ (s.send m).calm = s.calm ∧
    (s.send m).img = s.img ∧ (s.send m).net = s.net ∧ (s.send m).stnM = s.stnM ∧ (s.send m).stn = s.stn ∧ (s.send m).act = s.act ∧
    (s.send m).trk = s.trk ∧ (s.send m).lio = s.lio ∧ (s.send m).chg = s.chg ∧ (s.send m).host = s.host ∧ (s.send m).keys = s.keys ∧
    (s.send m).wb = s.wb ∧ (s.send m).recd = s.recd ∧ (s.send m).rtc = s.rtc ∧ (s.send m).pwr = s.pwr ∧ (s.send m).mgn = s.mgn ∧
    (s.send m).mem = s.mem ∧ (s.send m).free = s.free ∧ (s.send m).pending = s.pending := by
  unfold State.send
  (repeat' split) <;> simp

@[simp] theorem State.onGrp_frame (s : State) (g : Side) (f : LioGrp → LioGrp) :
    (s.onGrp g f).slot = s.slot ∧ (s.onGrp g f).clk = s.clk ∧ (s.onGrp g f).cyc = s.cyc ∧ (s.onGrp g f).lanes = s.lanes ∧
    (s.onGrp g f).calm = s.calm ∧ (s.onGrp g f).img = s.img ∧ (s.onGrp g f).net = s.net ∧ (s.onGrp g f).stnM = s.stnM ∧
    (s.onGrp g f).stn = s.stn ∧ (s.onGrp g f).act = s.act ∧ (s.onGrp g f).trk = s.trk ∧ (s.onGrp g f).pair = s.pair ∧
    (s.onGrp g f).chg = s.chg ∧ (s.onGrp g f).host = s.host ∧ (s.onGrp g f).keys = s.keys ∧ (s.onGrp g f).wb = s.wb ∧
    (s.onGrp g f).recd = s.recd ∧ (s.onGrp g f).rtc = s.rtc ∧ (s.onGrp g f).pwr = s.pwr ∧ (s.onGrp g f).mgn = s.mgn ∧
    (s.onGrp g f).mem = s.mem ∧ (s.onGrp g f).free = s.free ∧ (s.onGrp g f).pending = s.pending := by
  unfold State.onGrp
  (repeat' split) <;> simp

@[simp] theorem State.onLch_frame (s : State) (c : Nat) (f : LioCh → LioCh) :
    (s.onLch c f).slot = s.slot ∧ (s.onLch c f).clk = s.clk ∧ (s.onLch c f).cyc = s.cyc ∧ (s.onLch c f).lanes = s.lanes ∧
    (s.onLch c f).calm = s.calm ∧ (s.onLch c f).img = s.img ∧ (s.onLch c f).net = s.net ∧ (s.onLch c f).stnM = s.stnM ∧
    (s.onLch c f).stn = s.stn ∧ (s.onLch c f).act = s.act ∧ (s.onLch c f).trk = s.trk ∧ (s.onLch c f).pair = s.pair ∧
    (s.onLch c f).chg = s.chg ∧ (s.onLch c f).host = s.host ∧ (s.onLch c f).keys = s.keys ∧ (s.onLch c f).wb = s.wb ∧
    (s.onLch c f).recd = s.recd ∧ (s.onLch c f).rtc = s.rtc ∧ (s.onLch c f).pwr = s.pwr ∧ (s.onLch c f).mgn = s.mgn ∧
    (s.onLch c f).mem = s.mem ∧ (s.onLch c f).free = s.free ∧ (s.onLch c f).pending = s.pending := by
  unfold State.onLch
  simp

@[simp] theorem State.wroteBlock_frame (s : State) (id : Nat) :
    (s.wroteBlock id).slot = s.slot ∧ (s.wroteBlock id).clk = s.clk ∧ (s.wroteBlock id).cyc = s.cyc ∧ (s.wroteBlock id).lanes = s.lanes ∧
    (s.wroteBlock id).calm = s.calm ∧ (s.wroteBlock id).img = s.img ∧ (s.wroteBlock id).net = s.net ∧ (s.wroteBlock id).stnM = s.stnM ∧
    (s.wroteBlock id).stn = s.stn ∧ (s.wroteBlock id).act = s.act ∧ (s.wroteBlock id).trk = s.trk ∧ (s.wroteBlock id).lio = s.lio ∧
    (s.wroteBlock id).pair = s.pair ∧ (s.wroteBlock id).host = s.host ∧ (s.wroteBlock id).keys = s.keys ∧ (s.wroteBlock id).wb = s.wb ∧
    (s.wroteBlock id).recd = s.recd ∧ (s.wroteBlock id).rtc = s.rtc ∧ (s.wroteBlock id).pwr = s.pwr ∧ (s.wroteBlock id).mgn = s.mgn ∧
    (s.wroteBlock id).mem = s.mem ∧ (s.wroteBlock id).free = s.free ∧ (s.wroteBlock id).pending = s.pending := by
  unfold State.wroteBlock
  simp

end Sys2Proof.Machine
end

