-- ==== Sys2Proof/Laws/Frames.lean ====
section
/-! SUPPORT. What the shared operations of the meanings leave as it was: one lemma for each, with every field it keeps. -/

namespace Sys2Proof.Machine
open Sys2Proof

@[simp] theorem State.switches_frame (s : State) :
    s.switches.slot = s.slot ∧ s.switches.clk = s.clk ∧ s.switches.cyc = s.cyc ∧ s.switches.lanes = s.lanes ∧ s.switches.calm = s.calm ∧
    s.switches.img = s.img ∧ s.switches.net = s.net ∧ s.switches.stnM = s.stnM ∧ s.switches.stn = s.stn ∧ s.switches.act = s.act ∧
    s.switches.trk = s.trk ∧ s.switches.pair = s.pair ∧ s.switches.chg = s.chg ∧ s.switches.host = s.host ∧ s.switches.keys = s.keys ∧
    s.switches.wb = s.wb ∧ s.switches.recd = s.recd ∧ s.switches.rtc = s.rtc ∧ s.switches.pwr = s.pwr ∧ s.switches.mgn = s.mgn ∧
    s.switches.mem = s.mem ∧ s.switches.free = s.free ∧ s.switches.pending = s.pending := by
  unfold State.switches
  simp

@[simp] theorem State.watchHolder_frame (s : State) :
    s.watchHolder.slot = s.slot ∧ s.watchHolder.clk = s.clk ∧ s.watchHolder.cyc = s.cyc ∧ s.watchHolder.lanes = s.lanes ∧
    s.watchHolder.calm = s.calm ∧ s.watchHolder.img = s.img ∧ s.watchHolder.net = s.net ∧ s.watchHolder.stnM = s.stnM ∧
    s.watchHolder.stn = s.stn ∧ s.watchHolder.act = s.act ∧ s.watchHolder.trk = s.trk ∧ s.watchHolder.lio = s.lio ∧
    s.watchHolder.chg = s.chg ∧ s.watchHolder.host = s.host ∧ s.watchHolder.keys = s.keys ∧ s.watchHolder.wb = s.wb ∧
    s.watchHolder.recd = s.recd ∧ s.watchHolder.rtc = s.rtc ∧ s.watchHolder.pwr = s.pwr ∧ s.watchHolder.mgn = s.mgn ∧
    s.watchHolder.mem = s.mem ∧ s.watchHolder.free = s.free ∧ s.watchHolder.pending = s.pending := by
  unfold State.watchHolder
  simp

@[simp] theorem State.releaseVane_frame (s : State) :
    s.releaseVane.slot = s.slot ∧ s.releaseVane.clk = s.clk ∧ s.releaseVane.calm = s.calm ∧ s.releaseVane.stnM = s.stnM ∧
    s.releaseVane.stn = s.stn ∧ s.releaseVane.chg = s.chg ∧ s.releaseVane.keys = s.keys ∧ s.releaseVane.wb = s.wb ∧
    s.releaseVane.rtc = s.rtc ∧ s.releaseVane.pwr = s.pwr ∧ s.releaseVane.mgn = s.mgn ∧ s.releaseVane.mem = s.mem ∧
    s.releaseVane.free = s.free ∧ s.releaseVane.pending = s.pending := by
  unfold State.releaseVane
  simp

@[simp] theorem State.setRole_frame (s : State) (r : Role) :
    (s.setRole r).slot = s.slot ∧ (s.setRole r).clk = s.clk ∧ (s.setRole r).calm = s.calm ∧ (s.setRole r).net = s.net ∧
    (s.setRole r).stnM = s.stnM ∧ (s.setRole r).stn = s.stn ∧ (s.setRole r).chg = s.chg ∧ (s.setRole r).keys = s.keys ∧
    (s.setRole r).wb = s.wb ∧ (s.setRole r).rtc = s.rtc ∧ (s.setRole r).pwr = s.pwr ∧ (s.setRole r).mgn = s.mgn ∧
    (s.setRole r).mem = s.mem ∧ (s.setRole r).free = s.free ∧ (s.setRole r).pending = s.pending := by
  unfold State.setRole
  (repeat' split) <;> simp

@[simp] theorem State.faultMessage_frame (s : State) (leave : Nat) :
    (s.faultMessage leave).slot = s.slot ∧ (s.faultMessage leave).clk = s.clk ∧ (s.faultMessage leave).cyc = s.cyc ∧
    (s.faultMessage leave).lanes = s.lanes ∧ (s.faultMessage leave).calm = s.calm ∧ (s.faultMessage leave).img = s.img ∧
    (s.faultMessage leave).net = s.net ∧ (s.faultMessage leave).stnM = s.stnM ∧ (s.faultMessage leave).stn = s.stn ∧
    (s.faultMessage leave).act = s.act ∧ (s.faultMessage leave).trk = s.trk ∧ (s.faultMessage leave).lio = s.lio ∧
    (s.faultMessage leave).chg = s.chg ∧ (s.faultMessage leave).host = s.host ∧ (s.faultMessage leave).keys = s.keys ∧
    (s.faultMessage leave).wb = s.wb ∧ (s.faultMessage leave).recd = s.recd ∧ (s.faultMessage leave).rtc = s.rtc ∧
    (s.faultMessage leave).pwr = s.pwr ∧ (s.faultMessage leave).mgn = s.mgn ∧ (s.faultMessage leave).mem = s.mem ∧
    (s.faultMessage leave).free = s.free ∧ (s.faultMessage leave).pending = s.pending := by
  unfold State.faultMessage
  simp

@[simp] theorem State.leavePair_frame (s : State) (leave : Nat) :
    (s.leavePair leave).slot = s.slot ∧ (s.leavePair leave).clk = s.clk ∧ (s.leavePair leave).calm = s.calm ∧
    (s.leavePair leave).stnM = s.stnM ∧ (s.leavePair leave).stn = s.stn ∧ (s.leavePair leave).chg = s.chg ∧
    (s.leavePair leave).keys = s.keys ∧ (s.leavePair leave).wb = s.wb ∧ (s.leavePair leave).rtc = s.rtc ∧ (s.leavePair leave).pwr = s.pwr ∧
    (s.leavePair leave).mgn = s.mgn ∧ (s.leavePair leave).mem = s.mem ∧ (s.leavePair leave).free = s.free ∧
    (s.leavePair leave).pending = s.pending := by
  unfold State.leavePair
  (repeat' split) <;> simp

@[simp] theorem State.laySafe_frame (s : State) :
    s.laySafe.slot = s.slot ∧ s.laySafe.clk = s.clk ∧ s.laySafe.cyc = s.cyc ∧ s.laySafe.lanes = s.lanes ∧ s.laySafe.calm = s.calm ∧
    s.laySafe.img = s.img ∧ s.laySafe.net = s.net ∧ s.laySafe.stnM = s.stnM ∧ s.laySafe.stn = s.stn ∧ s.laySafe.act = s.act ∧
    s.laySafe.trk = s.trk ∧ s.laySafe.lio = s.lio ∧ s.laySafe.chg = s.chg ∧ s.laySafe.host = s.host ∧ s.laySafe.keys = s.keys ∧
    s.laySafe.wb = s.wb ∧ s.laySafe.recd = s.recd ∧ s.laySafe.rtc = s.rtc ∧ s.laySafe.pwr = s.pwr ∧ s.laySafe.mgn = s.mgn ∧
    s.laySafe.free = s.free ∧ s.laySafe.pending = s.pending := by
  unfold State.laySafe
  and_intros <;> (apply foldl_kept; intro s a; (try dsimp only); (repeat' split) <;> simp)

@[simp] theorem State.localSafe_frame (s : State) :
    s.localSafe.slot = s.slot ∧ s.localSafe.clk = s.clk ∧ s.localSafe.cyc = s.cyc ∧ s.localSafe.lanes = s.lanes ∧
    s.localSafe.calm = s.calm ∧ s.localSafe.img = s.img ∧ s.localSafe.net = s.net ∧ s.localSafe.stnM = s.stnM ∧ s.localSafe.stn = s.stn ∧
    s.localSafe.trk = s.trk ∧ s.localSafe.pair = s.pair ∧ s.localSafe.chg = s.chg ∧ s.localSafe.host = s.host ∧ s.localSafe.keys = s.keys ∧
    s.localSafe.wb = s.wb ∧ s.localSafe.recd = s.recd ∧ s.localSafe.rtc = s.rtc ∧ s.localSafe.pwr = s.pwr ∧ s.localSafe.mgn = s.mgn ∧
    s.localSafe.mem = s.mem ∧ s.localSafe.free = s.free ∧ s.localSafe.pending = s.pending := by
  unfold State.localSafe
  simp

@[simp] theorem State.charge_frame (s : State) (l : Nat) (c : Side) (t : TaskCfg) :
    (s.charge l c t).slot = s.slot ∧ (s.charge l c t).clk = s.clk ∧ (s.charge l c t).cyc = s.cyc ∧ (s.charge l c t).calm = s.calm ∧
    (s.charge l c t).img = s.img ∧ (s.charge l c t).net = s.net ∧ (s.charge l c t).stnM = s.stnM ∧ (s.charge l c t).stn = s.stn ∧
    (s.charge l c t).act = s.act ∧ (s.charge l c t).trk = s.trk ∧ (s.charge l c t).lio = s.lio ∧ (s.charge l c t).pair = s.pair ∧
    (s.charge l c t).chg = s.chg ∧ (s.charge l c t).host = s.host ∧ (s.charge l c t).keys = s.keys ∧ (s.charge l c t).wb = s.wb ∧
    (s.charge l c t).recd = s.recd ∧ (s.charge l c t).rtc = s.rtc ∧ (s.charge l c t).pwr = s.pwr ∧ (s.charge l c t).mgn = s.mgn ∧
    (s.charge l c t).mem = s.mem ∧ (s.charge l c t).free = s.free ∧ (s.charge l c t).pending = s.pending := by
  unfold State.charge
  (repeat' split) <;> simp

@[simp] theorem State.chargeAll_frame (s : State) :
    s.chargeAll.slot = s.slot ∧ s.chargeAll.clk = s.clk ∧ s.chargeAll.cyc = s.cyc ∧ s.chargeAll.calm = s.calm ∧ s.chargeAll.img = s.img ∧
    s.chargeAll.net = s.net ∧ s.chargeAll.stnM = s.stnM ∧ s.chargeAll.stn = s.stn ∧ s.chargeAll.act = s.act ∧ s.chargeAll.trk = s.trk ∧
    s.chargeAll.lio = s.lio ∧ s.chargeAll.pair = s.pair ∧ s.chargeAll.chg = s.chg ∧ s.chargeAll.host = s.host ∧ s.chargeAll.keys = s.keys ∧
    s.chargeAll.wb = s.wb ∧ s.chargeAll.recd = s.recd ∧ s.chargeAll.rtc = s.rtc ∧ s.chargeAll.pwr = s.pwr ∧ s.chargeAll.mgn = s.mgn ∧
    s.chargeAll.mem = s.mem ∧ s.chargeAll.free = s.free ∧ s.chargeAll.pending = s.pending := by
  unfold State.chargeAll
  and_intros <;> (apply foldl_kept; intro s a; (try dsimp only); (repeat' split) <;> simp)

@[simp] theorem State.haltLanes_frame (s : State) :
    s.haltLanes.slot = s.slot ∧ s.haltLanes.clk = s.clk ∧ s.haltLanes.cyc = s.cyc ∧ s.haltLanes.calm = s.calm ∧ s.haltLanes.img = s.img ∧
    s.haltLanes.net = s.net ∧ s.haltLanes.stnM = s.stnM ∧ s.haltLanes.stn = s.stn ∧ s.haltLanes.act = s.act ∧ s.haltLanes.trk = s.trk ∧
    s.haltLanes.lio = s.lio ∧ s.haltLanes.pair = s.pair ∧ s.haltLanes.chg = s.chg ∧ s.haltLanes.host = s.host ∧ s.haltLanes.keys = s.keys ∧
    s.haltLanes.wb = s.wb ∧ s.haltLanes.recd = s.recd ∧ s.haltLanes.rtc = s.rtc ∧ s.haltLanes.pwr = s.pwr ∧ s.haltLanes.mgn = s.mgn ∧
    s.haltLanes.mem = s.mem ∧ s.haltLanes.free = s.free ∧ s.haltLanes.pending = s.pending := by
  unfold State.haltLanes
  simp

@[simp] theorem State.haltTasks_frame (s : State) :
    s.haltTasks.slot = s.slot ∧ s.haltTasks.clk = s.clk ∧ s.haltTasks.cyc = s.cyc ∧ s.haltTasks.calm = s.calm ∧ s.haltTasks.img = s.img ∧
    s.haltTasks.net = s.net ∧ s.haltTasks.stnM = s.stnM ∧ s.haltTasks.stn = s.stn ∧ s.haltTasks.act = s.act ∧ s.haltTasks.trk = s.trk ∧
    s.haltTasks.lio = s.lio ∧ s.haltTasks.pair = s.pair ∧ s.haltTasks.chg = s.chg ∧ s.haltTasks.host = s.host ∧ s.haltTasks.keys = s.keys ∧
    s.haltTasks.wb = s.wb ∧ s.haltTasks.recd = s.recd ∧ s.haltTasks.rtc = s.rtc ∧ s.haltTasks.pwr = s.pwr ∧ s.haltTasks.mgn = s.mgn ∧
    s.haltTasks.mem = s.mem ∧ s.haltTasks.free = s.free ∧ s.haltTasks.pending = s.pending := by
  unfold State.haltTasks
  simp

@[simp] theorem State.latchCalm_frame (s : State) (cause : Nat) (follower : Bool) (its : List Nat) (party : Nat) :
    (s.latchCalm cause follower its party).slot = s.slot ∧ (s.latchCalm cause follower its party).clk = s.clk ∧
    (s.latchCalm cause follower its party).net = s.net ∧ (s.latchCalm cause follower its party).stnM = s.stnM ∧
    (s.latchCalm cause follower its party).stn = s.stn ∧ (s.latchCalm cause follower its party).chg = s.chg ∧
    (s.latchCalm cause follower its party).wb = s.wb ∧ (s.latchCalm cause follower its party).rtc = s.rtc ∧
    (s.latchCalm cause follower its party).pwr = s.pwr ∧ (s.latchCalm cause follower its party).mgn = s.mgn ∧
    (s.latchCalm cause follower its party).free = s.free ∧ (s.latchCalm cause follower its party).pending = s.pending := by
  unfold State.latchCalm
  (repeat' split) <;> simp

@[simp] theorem State.reactFault_frame (s : State) (mgt : Bool) (leave : Nat) :
    (s.reactFault mgt leave).slot = s.slot ∧ (s.reactFault mgt leave).clk = s.clk ∧ (s.reactFault mgt leave).stnM = s.stnM ∧
    (s.reactFault mgt leave).stn = s.stn ∧ (s.reactFault mgt leave).chg = s.chg ∧ (s.reactFault mgt leave).wb = s.wb ∧
    (s.reactFault mgt leave).rtc = s.rtc ∧ (s.reactFault mgt leave).pwr = s.pwr ∧ (s.reactFault mgt leave).mgn = s.mgn ∧
    (s.reactFault mgt leave).free = s.free ∧ (s.reactFault mgt leave).pending = s.pending := by
  unfold State.reactFault
  dsimp only; (repeat' split) <;> simp

@[simp] theorem State.atDelivery_frame (s : State) (lane : Nat) (e : DEv) :
    (s.atDelivery lane e).slot = s.slot ∧ (s.atDelivery lane e).clk = s.clk ∧ (s.atDelivery lane e).cyc = s.cyc ∧
    (s.atDelivery lane e).calm = s.calm ∧ (s.atDelivery lane e).img = s.img ∧ (s.atDelivery lane e).net = s.net ∧
    (s.atDelivery lane e).stnM = s.stnM ∧ (s.atDelivery lane e).stn = s.stn ∧ (s.atDelivery lane e).act = s.act ∧
    (s.atDelivery lane e).trk = s.trk ∧ (s.atDelivery lane e).lio = s.lio ∧ (s.atDelivery lane e).pair = s.pair ∧
    (s.atDelivery lane e).chg = s.chg ∧ (s.atDelivery lane e).host = s.host ∧ (s.atDelivery lane e).keys = s.keys ∧
    (s.atDelivery lane e).wb = s.wb ∧ (s.atDelivery lane e).recd = s.recd ∧ (s.atDelivery lane e).rtc = s.rtc ∧
    (s.atDelivery lane e).pwr = s.pwr ∧ (s.atDelivery lane e).mgn = s.mgn ∧ (s.atDelivery lane e).mem = s.mem ∧
    (s.atDelivery lane e).free = s.free ∧ (s.atDelivery lane e).pending = s.pending := by
  unfold State.atDelivery
  simp

@[simp] theorem State.deliver_frame (s : State) (t : TaskCfg) (r : Rel) :
    (s.deliver t r).slot = s.slot ∧ (s.deliver t r).clk = s.clk ∧ (s.deliver t r).cyc = s.cyc ∧ (s.deliver t r).calm = s.calm ∧
    (s.deliver t r).img = s.img ∧ (s.deliver t r).net = s.net ∧ (s.deliver t r).stnM = s.stnM ∧ (s.deliver t r).stn = s.stn ∧
    (s.deliver t r).act = s.act ∧ (s.deliver t r).trk = s.trk ∧ (s.deliver t r).lio = s.lio ∧ (s.deliver t r).pair = s.pair ∧
    (s.deliver t r).chg = s.chg ∧ (s.deliver t r).host = s.host ∧ (s.deliver t r).keys = s.keys ∧ (s.deliver t r).wb = s.wb ∧
    (s.deliver t r).recd = s.recd ∧ (s.deliver t r).rtc = s.rtc ∧ (s.deliver t r).pwr = s.pwr ∧ (s.deliver t r).mgn = s.mgn ∧
    (s.deliver t r).mem = s.mem ∧ (s.deliver t r).free = s.free ∧ (s.deliver t r).pending = s.pending := by
  unfold State.deliver
  simp

@[simp] theorem State.loseRel_frame (s : State) (t : TaskCfg) :
    (s.loseRel t).slot = s.slot ∧ (s.loseRel t).clk = s.clk ∧ (s.loseRel t).cyc = s.cyc ∧ (s.loseRel t).calm = s.calm ∧
    (s.loseRel t).img = s.img ∧ (s.loseRel t).net = s.net ∧ (s.loseRel t).stnM = s.stnM ∧ (s.loseRel t).stn = s.stn ∧
    (s.loseRel t).act = s.act ∧ (s.loseRel t).trk = s.trk ∧ (s.loseRel t).lio = s.lio ∧ (s.loseRel t).pair = s.pair ∧
    (s.loseRel t).chg = s.chg ∧ (s.loseRel t).host = s.host ∧ (s.loseRel t).keys = s.keys ∧ (s.loseRel t).wb = s.wb ∧
    (s.loseRel t).rtc = s.rtc ∧ (s.loseRel t).pwr = s.pwr ∧ (s.loseRel t).mgn = s.mgn ∧ (s.loseRel t).mem = s.mem ∧
    (s.loseRel t).free = s.free ∧ (s.loseRel t).pending = s.pending := by
  unfold State.loseRel
  simp

@[simp] theorem State.skipRel_frame (s : State) (t : TaskCfg) :
    (s.skipRel t).slot = s.slot ∧ (s.skipRel t).clk = s.clk ∧ (s.skipRel t).cyc = s.cyc ∧ (s.skipRel t).calm = s.calm ∧
    (s.skipRel t).img = s.img ∧ (s.skipRel t).net = s.net ∧ (s.skipRel t).stnM = s.stnM ∧ (s.skipRel t).stn = s.stn ∧
    (s.skipRel t).act = s.act ∧ (s.skipRel t).trk = s.trk ∧ (s.skipRel t).lio = s.lio ∧ (s.skipRel t).pair = s.pair ∧
    (s.skipRel t).chg = s.chg ∧ (s.skipRel t).host = s.host ∧ (s.skipRel t).keys = s.keys ∧ (s.skipRel t).wb = s.wb ∧
    (s.skipRel t).rtc = s.rtc ∧ (s.skipRel t).pwr = s.pwr ∧ (s.skipRel t).mgn = s.mgn ∧ (s.skipRel t).mem = s.mem ∧
    (s.skipRel t).free = s.free ∧ (s.skipRel t).pending = s.pending := by
  unfold State.skipRel
  simp

@[simp] theorem State.release_frame (s : State) (r : Rel) :
    (s.release r).slot = s.slot ∧ (s.release r).clk = s.clk ∧ (s.release r).net = s.net ∧ (s.release r).stnM = s.stnM ∧
    (s.release r).stn = s.stn ∧ (s.release r).chg = s.chg ∧ (s.release r).wb = s.wb ∧ (s.release r).rtc = s.rtc ∧
    (s.release r).pwr = s.pwr ∧ (s.release r).mgn = s.mgn ∧ (s.release r).free = s.free ∧ (s.release r).pending = s.pending := by
  unfold State.release
  (repeat' split) <;> simp

@[simp] theorem State.errRelease_frame (s : State) (cat : Nat) (a : Nat) (b : Nat) :
    (s.errRelease cat a b).slot = s.slot ∧ (s.errRelease cat a b).clk = s.clk ∧ (s.errRelease cat a b).calm = s.calm ∧
    (s.errRelease cat a b).img = s.img ∧ (s.errRelease cat a b).net = s.net ∧ (s.errRelease cat a b).stnM = s.stnM ∧
    (s.errRelease cat a b).stn = s.stn ∧ (s.errRelease cat a b).act = s.act ∧ (s.errRelease cat a b).trk = s.trk ∧
    (s.errRelease cat a b).lio = s.lio ∧ (s.errRelease cat a b).pair = s.pair ∧ (s.errRelease cat a b).chg = s.chg ∧
    (s.errRelease cat a b).host = s.host ∧ (s.errRelease cat a b).keys = s.keys ∧ (s.errRelease cat a b).wb = s.wb ∧
    (s.errRelease cat a b).rtc = s.rtc ∧ (s.errRelease cat a b).pwr = s.pwr ∧ (s.errRelease cat a b).mgn = s.mgn ∧
    (s.errRelease cat a b).mem = s.mem ∧ (s.errRelease cat a b).free = s.free ∧ (s.errRelease cat a b).pending = s.pending := by
  unfold State.errRelease
  and_intros <;> first | rfl | (simp; done) | ((repeat' split) <;> first | rfl | (simp; done) |
      (apply foldl_kept; intro s a; (try dsimp only); (repeat' split) <;> first | rfl | (simp; done)))

@[simp] theorem State.dropSess_frame (s : State) (n : Nat) :
    (s.dropSess n).slot = s.slot ∧ (s.dropSess n).clk = s.clk ∧ (s.dropSess n).cyc = s.cyc ∧ (s.dropSess n).lanes = s.lanes ∧
    (s.dropSess n).calm = s.calm ∧ (s.dropSess n).img = s.img ∧ (s.dropSess n).net = s.net ∧ (s.dropSess n).stnM = s.stnM ∧
    (s.dropSess n).stn = s.stn ∧ (s.dropSess n).act = s.act ∧ (s.dropSess n).trk = s.trk ∧ (s.dropSess n).lio = s.lio ∧
    (s.dropSess n).pair = s.pair ∧ (s.dropSess n).chg = s.chg ∧ (s.dropSess n).keys = s.keys ∧ (s.dropSess n).wb = s.wb ∧
    (s.dropSess n).recd = s.recd ∧ (s.dropSess n).rtc = s.rtc ∧ (s.dropSess n).pwr = s.pwr ∧ (s.dropSess n).mgn = s.mgn ∧
    (s.dropSess n).mem = s.mem ∧ (s.dropSess n).free = s.free ∧ (s.dropSess n).pending = s.pending := by
  unfold State.dropSess
  simp

@[simp] theorem State.closeSess_frame (s : State) (n : Nat) (reason : Nat) :
    (s.closeSess n reason).slot = s.slot ∧ (s.closeSess n reason).clk = s.clk ∧ (s.closeSess n reason).calm = s.calm ∧
    (s.closeSess n reason).net = s.net ∧ (s.closeSess n reason).stnM = s.stnM ∧ (s.closeSess n reason).stn = s.stn ∧
    (s.closeSess n reason).chg = s.chg ∧ (s.closeSess n reason).keys = s.keys ∧ (s.closeSess n reason).wb = s.wb ∧
    (s.closeSess n reason).rtc = s.rtc ∧ (s.closeSess n reason).pwr = s.pwr ∧ (s.closeSess n reason).mgn = s.mgn ∧
    (s.closeSess n reason).mem = s.mem ∧ (s.closeSess n reason).free = s.free ∧ (s.closeSess n reason).pending = s.pending := by
  unfold State.closeSess
  simp

@[simp] theorem State.closeAll_frame (s : State) (p : Sess → Bool) (reason : Nat) :
    (s.closeAll p reason).slot = s.slot ∧ (s.closeAll p reason).clk = s.clk ∧ (s.closeAll p reason).calm = s.calm ∧
    (s.closeAll p reason).net = s.net ∧ (s.closeAll p reason).stnM = s.stnM ∧ (s.closeAll p reason).stn = s.stn ∧
    (s.closeAll p reason).chg = s.chg ∧ (s.closeAll p reason).keys = s.keys ∧ (s.closeAll p reason).wb = s.wb ∧
    (s.closeAll p reason).rtc = s.rtc ∧ (s.closeAll p reason).pwr = s.pwr ∧ (s.closeAll p reason).mgn = s.mgn ∧
    (s.closeAll p reason).mem = s.mem ∧ (s.closeAll p reason).free = s.free ∧ (s.closeAll p reason).pending = s.pending := by
  unfold State.closeAll
  and_intros <;> (apply foldl_kept; intro s a; (try dsimp only); (repeat' split) <;> simp)

@[simp] theorem State.orphan_frame (s : State) (src : Src) :
    (s.orphan src).slot = s.slot ∧ (s.orphan src).clk = s.clk ∧ (s.orphan src).cyc = s.cyc ∧ (s.orphan src).lanes = s.lanes ∧
    (s.orphan src).calm = s.calm ∧ (s.orphan src).img = s.img ∧ (s.orphan src).net = s.net ∧ (s.orphan src).stnM = s.stnM ∧
    (s.orphan src).stn = s.stn ∧ (s.orphan src).act = s.act ∧ (s.orphan src).trk = s.trk ∧ (s.orphan src).lio = s.lio ∧
    (s.orphan src).pair = s.pair ∧ (s.orphan src).chg = s.chg ∧ (s.orphan src).keys = s.keys ∧ (s.orphan src).wb = s.wb ∧
    (s.orphan src).recd = s.recd ∧ (s.orphan src).rtc = s.rtc ∧ (s.orphan src).pwr = s.pwr ∧ (s.orphan src).mgn = s.mgn ∧
    (s.orphan src).mem = s.mem ∧ (s.orphan src).free = s.free ∧ (s.orphan src).pending = s.pending := by
  unfold State.orphan
  simp

@[simp] theorem State.queueError_frame (s : State) (q : Nat) (reason : Nat) :
    (s.queueError q reason).slot = s.slot ∧ (s.queueError q reason).clk = s.clk ∧ (s.queueError q reason).calm = s.calm ∧
    (s.queueError q reason).net = s.net ∧ (s.queueError q reason).stnM = s.stnM ∧ (s.queueError q reason).stn = s.stn ∧
    (s.queueError q reason).chg = s.chg ∧ (s.queueError q reason).keys = s.keys ∧ (s.queueError q reason).wb = s.wb ∧
    (s.queueError q reason).rtc = s.rtc ∧ (s.queueError q reason).pwr = s.pwr ∧ (s.queueError q reason).mgn = s.mgn ∧
    (s.queueError q reason).mem = s.mem ∧ (s.queueError q reason).free = s.free ∧ (s.queueError q reason).pending = s.pending := by
  unfold State.queueError
  simp

@[simp] theorem State.apertureRefuses_frame (s : State) (d : Dma) (write : Bool) (addr : Nat) (size : Nat) :
    (s.apertureRefuses d write addr size).slot = s.slot ∧ (s.apertureRefuses d write addr size).clk = s.clk ∧
    (s.apertureRefuses d write addr size).cyc = s.cyc ∧ (s.apertureRefuses d write addr size).lanes = s.lanes ∧
    (s.apertureRefuses d write addr size).calm = s.calm ∧ (s.apertureRefuses d write addr size).img = s.img ∧
    (s.apertureRefuses d write addr size).net = s.net ∧ (s.apertureRefuses d write addr size).stnM = s.stnM ∧
    (s.apertureRefuses d write addr size).stn = s.stn ∧ (s.apertureRefuses d write addr size).act = s.act ∧
    (s.apertureRefuses d write addr size).trk = s.trk ∧ (s.apertureRefuses d write addr size).lio = s.lio ∧
    (s.apertureRefuses d write addr size).pair = s.pair ∧ (s.apertureRefuses d write addr size).chg = s.chg ∧
    (s.apertureRefuses d write addr size).host = s.host ∧ (s.apertureRefuses d write addr size).keys = s.keys ∧
    (s.apertureRefuses d write addr size).rtc = s.rtc ∧ (s.apertureRefuses d write addr size).pwr = s.pwr ∧
    (s.apertureRefuses d write addr size).mgn = s.mgn ∧ (s.apertureRefuses d write addr size).mem = s.mem ∧
    (s.apertureRefuses d write addr size).free = s.free ∧ (s.apertureRefuses d write addr size).pending = s.pending := by
  unfold State.apertureRefuses
  (repeat' split) <;> simp

@[simp] theorem State.fetchOne_frame (s : State) (q : Nat) (d : Desc) :
    (s.fetchOne q d).slot = s.slot ∧ (s.fetchOne q d).clk = s.clk ∧ (s.fetchOne q d).calm = s.calm ∧ (s.fetchOne q d).net = s.net ∧
    (s.fetchOne q d).stnM = s.stnM ∧ (s.fetchOne q d).stn = s.stn ∧ (s.fetchOne q d).chg = s.chg ∧ (s.fetchOne q d).keys = s.keys ∧
    (s.fetchOne q d).wb = s.wb ∧ (s.fetchOne q d).rtc = s.rtc ∧ (s.fetchOne q d).pwr = s.pwr ∧ (s.fetchOne q d).mgn = s.mgn ∧
    (s.fetchOne q d).mem = s.mem ∧ (s.fetchOne q d).free = s.free ∧ (s.fetchOne q d).pending = s.pending := by
  unfold State.fetchOne
  (repeat' split) <;> simp

@[simp] theorem State.noteLow_frame (s : State) :
    s.noteLow.slot = s.slot ∧ s.noteLow.clk = s.clk ∧ s.noteLow.cyc = s.cyc ∧ s.noteLow.lanes = s.lanes ∧ s.noteLow.calm = s.calm ∧
    s.noteLow.img = s.img ∧ s.noteLow.net = s.net ∧ s.noteLow.stnM = s.stnM ∧ s.noteLow.stn = s.stn ∧ s.noteLow.act = s.act ∧
    s.noteLow.trk = s.trk ∧ s.noteLow.lio = s.lio ∧ s.noteLow.pair = s.pair ∧ s.noteLow.chg = s.chg ∧ s.noteLow.keys = s.keys ∧
    s.noteLow.wb = s.wb ∧ s.noteLow.recd = s.recd ∧ s.noteLow.rtc = s.rtc ∧ s.noteLow.pwr = s.pwr ∧ s.noteLow.mgn = s.mgn ∧
    s.noteLow.mem = s.mem ∧ s.noteLow.free = s.free ∧ s.noteLow.pending = s.pending := by
  unfold State.noteLow
  (repeat' split) <;> simp

@[simp] theorem State.fetchNext_frame (s : State) (q : Nat) :
    (s.fetchNext q).slot = s.slot ∧ (s.fetchNext q).clk = s.clk ∧ (s.fetchNext q).calm = s.calm ∧ (s.fetchNext q).net = s.net ∧
    (s.fetchNext q).stnM = s.stnM ∧ (s.fetchNext q).stn = s.stn ∧ (s.fetchNext q).chg = s.chg ∧ (s.fetchNext q).keys = s.keys ∧
    (s.fetchNext q).rtc = s.rtc ∧ (s.fetchNext q).pwr = s.pwr ∧ (s.fetchNext q).mgn = s.mgn ∧ (s.fetchNext q).mem = s.mem ∧
    (s.fetchNext q).free = s.free ∧ (s.fetchNext q).pending = s.pending := by
  unfold State.fetchNext
  dsimp only; (repeat' split) <;> simp

@[simp] theorem State.fetch_frame (s : State) (q : Nat) :
    (s.fetch q).slot = s.slot ∧ (s.fetch q).clk = s.clk ∧ (s.fetch q).calm = s.calm ∧ (s.fetch q).net = s.net ∧ (s.fetch q).stnM = s.stnM ∧
    (s.fetch q).stn = s.stn ∧ (s.fetch q).chg = s.chg ∧ (s.fetch q).keys = s.keys ∧ (s.fetch q).rtc = s.rtc ∧ (s.fetch q).pwr = s.pwr ∧
    (s.fetch q).mgn = s.mgn ∧ (s.fetch q).mem = s.mem ∧ (s.fetch q).free = s.free ∧ (s.fetch q).pending = s.pending := by
  unfold State.fetch
  simp only [State.noteLow_frame]
  refine ⟨(foldl_kept (·.slot) _ (fun s a => ?_) _ _), (foldl_kept (·.clk) _ (fun s a => ?_) _ _),
    (foldl_kept (·.calm) _ (fun s a => ?_) _ _), (foldl_kept (·.net) _ (fun s a => ?_) _ _), (foldl_kept (·.stnM) _ (fun s a => ?_) _ _),
    (foldl_kept (·.stn) _ (fun s a => ?_) _ _), (foldl_kept (·.chg) _ (fun s a => ?_) _ _), (foldl_kept (·.keys) _ (fun s a => ?_) _ _),
    (foldl_kept (·.rtc) _ (fun s a => ?_) _ _), (foldl_kept (·.pwr) _ (fun s a => ?_) _ _), (foldl_kept (·.mgn) _ (fun s a => ?_) _ _),
    (foldl_kept (·.mem) _ (fun s a => ?_) _ _), (foldl_kept (·.free) _ (fun s a => ?_) _ _),
    (foldl_kept (·.pending) _ (fun s a => ?_) _ _)⟩ <;>
    ((try dsimp only); (repeat' split) <;> simp)

@[simp] theorem State.finalData_frame (s : State) (op : Nat) (c : Cmd) (status : Nat) (r0 : Word) (r1 : Word) (data : List Byte) :
    (s.finalData op c status r0 r1 data).slot = s.slot ∧ (s.finalData op c status r0 r1 data).clk = s.clk ∧
    (s.finalData op c status r0 r1 data).calm = s.calm ∧ (s.finalData op c status r0 r1 data).net = s.net ∧
    (s.finalData op c status r0 r1 data).stnM = s.stnM ∧ (s.finalData op c status r0 r1 data).stn = s.stn ∧
    (s.finalData op c status r0 r1 data).chg = s.chg ∧ (s.finalData op c status r0 r1 data).keys = s.keys ∧
    (s.finalData op c status r0 r1 data).rtc = s.rtc ∧ (s.finalData op c status r0 r1 data).pwr = s.pwr ∧
    (s.finalData op c status r0 r1 data).mgn = s.mgn ∧ (s.finalData op c status r0 r1 data).mem = s.mem ∧
    (s.finalData op c status r0 r1 data).free = s.free ∧ (s.finalData op c status r0 r1 data).pending = s.pending := by
  unfold State.finalData
  (repeat' split) <;> simp

@[simp] theorem State.addRun_frame (s : State) (r : Run) :
    (s.addRun r).slot = s.slot ∧ (s.addRun r).clk = s.clk ∧ (s.addRun r).cyc = s.cyc ∧ (s.addRun r).lanes = s.lanes ∧
    (s.addRun r).calm = s.calm ∧ (s.addRun r).img = s.img ∧ (s.addRun r).net = s.net ∧ (s.addRun r).stnM = s.stnM ∧
    (s.addRun r).stn = s.stn ∧ (s.addRun r).act = s.act ∧ (s.addRun r).trk = s.trk ∧ (s.addRun r).lio = s.lio ∧ (s.addRun r).pair = s.pair ∧
    (s.addRun r).chg = s.chg ∧ (s.addRun r).keys = s.keys ∧ (s.addRun r).wb = s.wb ∧ (s.addRun r).recd = s.recd ∧ (s.addRun r).rtc = s.rtc ∧
    (s.addRun r).pwr = s.pwr ∧ (s.addRun r).mgn = s.mgn ∧ (s.addRun r).mem = s.mem ∧ (s.addRun r).free = s.free ∧
    (s.addRun r).pending = s.pending := by
  unfold State.addRun
  simp

@[simp] theorem State.accept_frame (s : State) (r : Run) (op : Nat) (c : Cmd) :
    (s.accept r op c).slot = s.slot ∧ (s.accept r op c).clk = s.clk ∧ (s.accept r op c).calm = s.calm ∧ (s.accept r op c).net = s.net ∧
    (s.accept r op c).stnM = s.stnM ∧ (s.accept r op c).stn = s.stn ∧ (s.accept r op c).chg = s.chg ∧ (s.accept r op c).keys = s.keys ∧
    (s.accept r op c).wb = s.wb ∧ (s.accept r op c).rtc = s.rtc ∧ (s.accept r op c).pwr = s.pwr ∧ (s.accept r op c).mgn = s.mgn ∧
    (s.accept r op c).mem = s.mem ∧ (s.accept r op c).free = s.free ∧ (s.accept r op c).pending = s.pending := by
  unfold State.accept
  (repeat' split) <;> simp

@[simp] theorem State.progress_frame (s : State) (r : Run) (step : Nat) (done : Nat) (total : Nat) :
    (s.progress r step done total).slot = s.slot ∧ (s.progress r step done total).clk = s.clk ∧
    (s.progress r step done total).calm = s.calm ∧ (s.progress r step done total).net = s.net ∧
    (s.progress r step done total).stnM = s.stnM ∧ (s.progress r step done total).stn = s.stn ∧ (s.progress r step done total).chg = s.chg ∧
    (s.progress r step done total).keys = s.keys ∧ (s.progress r step done total).wb = s.wb ∧ (s.progress r step done total).rtc = s.rtc ∧
    (s.progress r step done total).pwr = s.pwr ∧ (s.progress r step done total).mgn = s.mgn ∧ (s.progress r step done total).mem = s.mem ∧
    (s.progress r step done total).pending = s.pending := by
  unfold State.progress
  simp

@[simp] theorem State.stepOf_frame (s : State) (r : Run) :
    (s.stepOf r).2.slot = s.slot ∧ (s.stepOf r).2.clk = s.clk ∧ (s.stepOf r).2.cyc = s.cyc ∧ (s.stepOf r).2.calm = s.calm ∧
    (s.stepOf r).2.img = s.img ∧ (s.stepOf r).2.net = s.net ∧ (s.stepOf r).2.stnM = s.stnM ∧ (s.stepOf r).2.stn = s.stn ∧
    (s.stepOf r).2.act = s.act ∧ (s.stepOf r).2.trk = s.trk ∧ (s.stepOf r).2.lio = s.lio ∧ (s.stepOf r).2.pair = s.pair ∧
    (s.stepOf r).2.chg = s.chg ∧ (s.stepOf r).2.host = s.host ∧ (s.stepOf r).2.keys = s.keys ∧ (s.stepOf r).2.wb = s.wb ∧
    (s.stepOf r).2.recd = s.recd ∧ (s.stepOf r).2.rtc = s.rtc ∧ (s.stepOf r).2.pwr = s.pwr ∧ (s.stepOf r).2.mgn = s.mgn ∧
    (s.stepOf r).2.mem = s.mem ∧ (s.stepOf r).2.pending = s.pending := by
  unfold State.stepOf
  (repeat' split) <;> simp

@[simp] theorem State.resumed_frame (s : State) (r : Run) :
    (s.resumed r).slot = s.slot ∧ (s.resumed r).clk = s.clk ∧ (s.resumed r).calm = s.calm ∧ (s.resumed r).net = s.net ∧
    (s.resumed r).stnM = s.stnM ∧ (s.resumed r).stn = s.stn ∧ (s.resumed r).chg = s.chg ∧ (s.resumed r).keys = s.keys ∧
    (s.resumed r).wb = s.wb ∧ (s.resumed r).rtc = s.rtc ∧ (s.resumed r).pwr = s.pwr ∧ (s.resumed r).mgn = s.mgn ∧
    (s.resumed r).mem = s.mem ∧ (s.resumed r).pending = s.pending := by
  unfold State.resumed
  simp

@[simp] theorem State.suspendRun_frame (s : State) (r : Run) :
    (s.suspendRun r).slot = s.slot ∧ (s.suspendRun r).clk = s.clk ∧ (s.suspendRun r).calm = s.calm ∧ (s.suspendRun r).net = s.net ∧
    (s.suspendRun r).stnM = s.stnM ∧ (s.suspendRun r).stn = s.stn ∧ (s.suspendRun r).chg = s.chg ∧ (s.suspendRun r).keys = s.keys ∧
    (s.suspendRun r).wb = s.wb ∧ (s.suspendRun r).rtc = s.rtc ∧ (s.suspendRun r).pwr = s.pwr ∧ (s.suspendRun r).mgn = s.mgn ∧
    (s.suspendRun r).mem = s.mem ∧ (s.suspendRun r).pending = s.pending := by
  unfold State.suspendRun
  simp

@[simp] theorem State.setForces_frame (s : State) (l : List Force) :
    (s.setForces l).slot = s.slot ∧ (s.setForces l).clk = s.clk ∧ (s.setForces l).cyc = s.cyc ∧ (s.setForces l).lanes = s.lanes ∧
    (s.setForces l).calm = s.calm ∧ (s.setForces l).net = s.net ∧ (s.setForces l).stnM = s.stnM ∧ (s.setForces l).stn = s.stn ∧
    (s.setForces l).act = s.act ∧ (s.setForces l).trk = s.trk ∧ (s.setForces l).lio = s.lio ∧ (s.setForces l).chg = s.chg ∧
    (s.setForces l).host = s.host ∧ (s.setForces l).keys = s.keys ∧ (s.setForces l).wb = s.wb ∧ (s.setForces l).recd = s.recd ∧
    (s.setForces l).rtc = s.rtc ∧ (s.setForces l).pwr = s.pwr ∧ (s.setForces l).mgn = s.mgn ∧ (s.setForces l).mem = s.mem ∧
    (s.setForces l).free = s.free ∧ (s.setForces l).pending = s.pending := by
  unfold State.setForces
  simp

@[simp] theorem State.fixForces_frame (s : State) (n : Nat) :
    (s.fixForces n).slot = s.slot ∧ (s.fixForces n).clk = s.clk ∧ (s.fixForces n).cyc = s.cyc ∧ (s.fixForces n).lanes = s.lanes ∧
    (s.fixForces n).calm = s.calm ∧ (s.fixForces n).net = s.net ∧ (s.fixForces n).stnM = s.stnM ∧ (s.fixForces n).stn = s.stn ∧
    (s.fixForces n).act = s.act ∧ (s.fixForces n).trk = s.trk ∧ (s.fixForces n).lio = s.lio ∧ (s.fixForces n).pair = s.pair ∧
    (s.fixForces n).chg = s.chg ∧ (s.fixForces n).host = s.host ∧ (s.fixForces n).keys = s.keys ∧ (s.fixForces n).wb = s.wb ∧
    (s.fixForces n).recd = s.recd ∧ (s.fixForces n).rtc = s.rtc ∧ (s.fixForces n).pwr = s.pwr ∧ (s.fixForces n).mgn = s.mgn ∧
    (s.fixForces n).mem = s.mem ∧ (s.fixForces n).free = s.free ∧ (s.fixForces n).pending = s.pending := by
  unfold State.fixForces
  simp

@[simp] theorem State.setCal_frame (s : State) (ns : Int) :
    (s.setCal ns).slot = s.slot ∧ (s.setCal ns).clk = s.clk ∧ (s.setCal ns).cyc = s.cyc ∧ (s.setCal ns).lanes = s.lanes ∧
    (s.setCal ns).calm = s.calm ∧ (s.setCal ns).img = s.img ∧ (s.setCal ns).net = s.net ∧ (s.setCal ns).stnM = s.stnM ∧
    (s.setCal ns).stn = s.stn ∧ (s.setCal ns).act = s.act ∧ (s.setCal ns).trk = s.trk ∧ (s.setCal ns).lio = s.lio ∧
    (s.setCal ns).pair = s.pair ∧ (s.setCal ns).chg = s.chg ∧ (s.setCal ns).host = s.host ∧ (s.setCal ns).keys = s.keys ∧
    (s.setCal ns).wb = s.wb ∧ (s.setCal ns).recd = s.recd ∧ (s.setCal ns).pwr = s.pwr ∧ (s.setCal ns).mgn = s.mgn ∧
    (s.setCal ns).mem = s.mem ∧ (s.setCal ns).free = s.free ∧ (s.setCal ns).pending = s.pending := by
  unfold State.setCal
  simp

@[simp] theorem State.adjustRec_frame (s : State) (cause : Nat) (before : Nat) (party : Nat) :
    (s.adjustRec cause before party).slot = s.slot ∧ (s.adjustRec cause before party).clk = s.clk ∧
    (s.adjustRec cause before party).cyc = s.cyc ∧ (s.adjustRec cause before party).lanes = s.lanes ∧
    (s.adjustRec cause before party).calm = s.calm ∧ (s.adjustRec cause before party).img = s.img ∧
    (s.adjustRec cause before party).net = s.net ∧ (s.adjustRec cause before party).stnM = s.stnM ∧
    (s.adjustRec cause before party).stn = s.stn ∧ (s.adjustRec cause before party).act = s.act ∧
    (s.adjustRec cause before party).trk = s.trk ∧ (s.adjustRec cause before party).lio = s.lio ∧
    (s.adjustRec cause before party).pair = s.pair ∧ (s.adjustRec cause before party).chg = s.chg ∧
    (s.adjustRec cause before party).host = s.host ∧ (s.adjustRec cause before party).keys = s.keys ∧
    (s.adjustRec cause before party).wb = s.wb ∧ (s.adjustRec cause before party).rtc = s.rtc ∧
    (s.adjustRec cause before party).pwr = s.pwr ∧ (s.adjustRec cause before party).mgn = s.mgn ∧
    (s.adjustRec cause before party).mem = s.mem ∧ (s.adjustRec cause before party).free = s.free ∧
    (s.adjustRec cause before party).pending = s.pending := by
  unfold State.adjustRec
  simp

@[simp] theorem State.fireAlarm_frame (s : State) (skipped : Bool) :
    (s.fireAlarm skipped).slot = s.slot ∧ (s.fireAlarm skipped).clk = s.clk ∧ (s.fireAlarm skipped).cyc = s.cyc ∧
    (s.fireAlarm skipped).lanes = s.lanes ∧ (s.fireAlarm skipped).calm = s.calm ∧ (s.fireAlarm skipped).img = s.img ∧
    (s.fireAlarm skipped).net = s.net ∧ (s.fireAlarm skipped).stnM = s.stnM ∧ (s.fireAlarm skipped).stn = s.stn ∧
    (s.fireAlarm skipped).act = s.act ∧ (s.fireAlarm skipped).trk = s.trk ∧ (s.fireAlarm skipped).lio = s.lio ∧
    (s.fireAlarm skipped).pair = s.pair ∧ (s.fireAlarm skipped).chg = s.chg ∧ (s.fireAlarm skipped).host = s.host ∧
    (s.fireAlarm skipped).keys = s.keys ∧ (s.fireAlarm skipped).wb = s.wb ∧ (s.fireAlarm skipped).pwr = s.pwr ∧
    (s.fireAlarm skipped).mgn = s.mgn ∧ (s.fireAlarm skipped).mem = s.mem ∧ (s.fireAlarm skipped).free = s.free ∧
    (s.fireAlarm skipped).pending = s.pending := by
  unfold State.fireAlarm
  simp

@[simp] theorem State.afterAdjust_frame (s : State) :
    s.afterAdjust.slot = s.slot ∧ s.afterAdjust.clk = s.clk ∧ s.afterAdjust.cyc = s.cyc ∧ s.afterAdjust.lanes = s.lanes ∧
    s.afterAdjust.calm = s.calm ∧ s.afterAdjust.img = s.img ∧ s.afterAdjust.net = s.net ∧ s.afterAdjust.stnM = s.stnM ∧
    s.afterAdjust.stn = s.stn ∧ s.afterAdjust.act = s.act ∧ s.afterAdjust.trk = s.trk ∧ s.afterAdjust.lio = s.lio ∧
    s.afterAdjust.pair = s.pair ∧ s.afterAdjust.chg = s.chg ∧ s.afterAdjust.host = s.host ∧ s.afterAdjust.keys = s.keys ∧
    s.afterAdjust.wb = s.wb ∧ s.afterAdjust.pwr = s.pwr ∧ s.afterAdjust.mgn = s.mgn ∧ s.afterAdjust.mem = s.mem ∧
    s.afterAdjust.free = s.free ∧ s.afterAdjust.pending = s.pending := by
  unfold State.afterAdjust
  dsimp only; (repeat' split) <;> simp

@[simp] theorem State.calLocked_frame (s : State) :
    s.calLocked.slot = s.slot ∧ s.calLocked.clk = s.clk ∧ s.calLocked.cyc = s.cyc ∧ s.calLocked.lanes = s.lanes ∧
    s.calLocked.calm = s.calm ∧ s.calLocked.img = s.img ∧ s.calLocked.net = s.net ∧ s.calLocked.stnM = s.stnM ∧ s.calLocked.stn = s.stn ∧
    s.calLocked.act = s.act ∧ s.calLocked.trk = s.trk ∧ s.calLocked.lio = s.lio ∧ s.calLocked.pair = s.pair ∧ s.calLocked.chg = s.chg ∧
    s.calLocked.host = s.host ∧ s.calLocked.keys = s.keys ∧ s.calLocked.wb = s.wb ∧ s.calLocked.pwr = s.pwr ∧ s.calLocked.mgn = s.mgn ∧
    s.calLocked.mem = s.mem ∧ s.calLocked.free = s.free ∧ s.calLocked.pending = s.pending := by
  unfold State.calLocked
  dsimp only; (repeat' split) <;> simp

@[simp] theorem State.rtcDone_frame (s : State) (c : Cmd) :
    (s.rtcDone c).slot = s.slot ∧ (s.rtcDone c).clk = s.clk ∧ (s.rtcDone c).calm = s.calm ∧ (s.rtcDone c).net = s.net ∧
    (s.rtcDone c).stnM = s.stnM ∧ (s.rtcDone c).stn = s.stn ∧ (s.rtcDone c).chg = s.chg ∧ (s.rtcDone c).keys = s.keys ∧
    (s.rtcDone c).wb = s.wb ∧ (s.rtcDone c).rtc = s.rtc ∧ (s.rtcDone c).pwr = s.pwr ∧ (s.rtcDone c).mgn = s.mgn ∧
    (s.rtcDone c).mem = s.mem ∧ (s.rtcDone c).free = s.free ∧ (s.rtcDone c).pending = s.pending := by
  unfold State.rtcDone
  simp

@[simp] theorem State.lateRelease_frame (s : State) (p : Point) (time : Nat) (reason : Nat) :
    (s.lateRelease p time reason).slot = s.slot ∧ (s.lateRelease p time reason).clk = s.clk ∧ (s.lateRelease p time reason).calm = s.calm ∧
    (s.lateRelease p time reason).img = s.img ∧ (s.lateRelease p time reason).net = s.net ∧ (s.lateRelease p time reason).stnM = s.stnM ∧
    (s.lateRelease p time reason).stn = s.stn ∧ (s.lateRelease p time reason).act = s.act ∧ (s.lateRelease p time reason).trk = s.trk ∧
    (s.lateRelease p time reason).lio = s.lio ∧ (s.lateRelease p time reason).pair = s.pair ∧ (s.lateRelease p time reason).chg = s.chg ∧
    (s.lateRelease p time reason).host = s.host ∧ (s.lateRelease p time reason).keys = s.keys ∧ (s.lateRelease p time reason).wb = s.wb ∧
    (s.lateRelease p time reason).rtc = s.rtc ∧ (s.lateRelease p time reason).pwr = s.pwr ∧ (s.lateRelease p time reason).mgn = s.mgn ∧
    (s.lateRelease p time reason).mem = s.mem ∧ (s.lateRelease p time reason).free = s.free ∧
    (s.lateRelease p time reason).pending = s.pending := by
  unfold State.lateRelease
  simp

@[simp] theorem State.suppress_frame (s : State) (p : Point) :
    (s.suppress p).slot = s.slot ∧ (s.suppress p).clk = s.clk ∧ (s.suppress p).cyc = s.cyc ∧ (s.suppress p).lanes = s.lanes ∧
    (s.suppress p).calm = s.calm ∧ (s.suppress p).net = s.net ∧ (s.suppress p).stnM = s.stnM ∧ (s.suppress p).stn = s.stn ∧
    (s.suppress p).act = s.act ∧ (s.suppress p).trk = s.trk ∧ (s.suppress p).lio = s.lio ∧ (s.suppress p).pair = s.pair ∧
    (s.suppress p).chg = s.chg ∧ (s.suppress p).host = s.host ∧ (s.suppress p).keys = s.keys ∧ (s.suppress p).wb = s.wb ∧
    (s.suppress p).rtc = s.rtc ∧ (s.suppress p).pwr = s.pwr ∧ (s.suppress p).mgn = s.mgn ∧ (s.suppress p).mem = s.mem ∧
    (s.suppress p).free = s.free ∧ (s.suppress p).pending = s.pending := by
  unfold State.suppress
  simp

@[simp] theorem State.applyLocal_frame (s : State) (e : ActEnt) :
    (s.applyLocal e).slot = s.slot ∧ (s.applyLocal e).clk = s.clk ∧ (s.applyLocal e).cyc = s.cyc ∧ (s.applyLocal e).lanes = s.lanes ∧
    (s.applyLocal e).calm = s.calm ∧ (s.applyLocal e).img = s.img ∧ (s.applyLocal e).net = s.net ∧ (s.applyLocal e).stnM = s.stnM ∧
    (s.applyLocal e).stn = s.stn ∧ (s.applyLocal e).act = s.act ∧ (s.applyLocal e).trk = s.trk ∧ (s.applyLocal e).pair = s.pair ∧
    (s.applyLocal e).chg = s.chg ∧ (s.applyLocal e).host = s.host ∧ (s.applyLocal e).keys = s.keys ∧ (s.applyLocal e).wb = s.wb ∧
    (s.applyLocal e).recd = s.recd ∧ (s.applyLocal e).rtc = s.rtc ∧ (s.applyLocal e).pwr = s.pwr ∧ (s.applyLocal e).mgn = s.mgn ∧
    (s.applyLocal e).mem = s.mem ∧ (s.applyLocal e).free = s.free ∧ (s.applyLocal e).pending = s.pending := by
  unfold State.applyLocal
  simp

@[simp] theorem State.acceptLocal_frame (s : State) (e : ActEnt) :
    (s.acceptLocal e).slot = s.slot ∧ (s.acceptLocal e).clk = s.clk ∧ (s.acceptLocal e).calm = s.calm ∧ (s.acceptLocal e).net = s.net ∧
    (s.acceptLocal e).stnM = s.stnM ∧ (s.acceptLocal e).stn = s.stn ∧ (s.acceptLocal e).trk = s.trk ∧ (s.acceptLocal e).pair = s.pair ∧
    (s.acceptLocal e).chg = s.chg ∧ (s.acceptLocal e).host = s.host ∧ (s.acceptLocal e).keys = s.keys ∧ (s.acceptLocal e).wb = s.wb ∧
    (s.acceptLocal e).rtc = s.rtc ∧ (s.acceptLocal e).pwr = s.pwr ∧ (s.acceptLocal e).mgn = s.mgn ∧ (s.acceptLocal e).mem = s.mem ∧
    (s.acceptLocal e).free = s.free ∧ (s.acceptLocal e).pending = s.pending := by
  unfold State.acceptLocal
  dsimp only; (repeat' split) <;> simp

@[simp] theorem State.acceptNet_frame (s : State) (e : ActEnt) :
    (s.acceptNet e).slot = s.slot ∧ (s.acceptNet e).clk = s.clk ∧ (s.acceptNet e).cyc = s.cyc ∧ (s.acceptNet e).lanes = s.lanes ∧
    (s.acceptNet e).calm = s.calm ∧ (s.acceptNet e).img = s.img ∧ (s.acceptNet e).net = s.net ∧ (s.acceptNet e).stnM = s.stnM ∧
    (s.acceptNet e).stn = s.stn ∧ (s.acceptNet e).trk = s.trk ∧ (s.acceptNet e).lio = s.lio ∧ (s.acceptNet e).pair = s.pair ∧
    (s.acceptNet e).chg = s.chg ∧ (s.acceptNet e).host = s.host ∧ (s.acceptNet e).keys = s.keys ∧ (s.acceptNet e).wb = s.wb ∧
    (s.acceptNet e).recd = s.recd ∧ (s.acceptNet e).rtc = s.rtc ∧ (s.acceptNet e).pwr = s.pwr ∧ (s.acceptNet e).mgn = s.mgn ∧
    (s.acceptNet e).mem = s.mem ∧ (s.acceptNet e).free = s.free ∧ (s.acceptNet e).pending = s.pending := by
  unfold State.acceptNet
  simp

@[simp] theorem State.acceptAct_frame (s : State) (e : ActEnt) :
    (s.acceptAct e).slot = s.slot ∧ (s.acceptAct e).clk = s.clk ∧ (s.acceptAct e).calm = s.calm ∧ (s.acceptAct e).net = s.net ∧
    (s.acceptAct e).stnM = s.stnM ∧ (s.acceptAct e).stn = s.stn ∧ (s.acceptAct e).trk = s.trk ∧ (s.acceptAct e).pair = s.pair ∧
    (s.acceptAct e).chg = s.chg ∧ (s.acceptAct e).host = s.host ∧ (s.acceptAct e).keys = s.keys ∧ (s.acceptAct e).wb = s.wb ∧
    (s.acceptAct e).rtc = s.rtc ∧ (s.acceptAct e).pwr = s.pwr ∧ (s.acceptAct e).mgn = s.mgn ∧ (s.acceptAct e).mem = s.mem ∧
    (s.acceptAct e).free = s.free ∧ (s.acceptAct e).pending = s.pending := by
  unfold State.acceptAct
  (repeat' split) <;> simp

@[simp] theorem State.logAct_frame (s : State) (e : ActEnt) :
    (s.logAct e).slot = s.slot ∧ (s.logAct e).clk = s.clk ∧ (s.logAct e).cyc = s.cyc ∧ (s.logAct e).lanes = s.lanes ∧
    (s.logAct e).calm = s.calm ∧ (s.logAct e).img = s.img ∧ (s.logAct e).net = s.net ∧ (s.logAct e).stnM = s.stnM ∧
    (s.logAct e).stn = s.stn ∧ (s.logAct e).lio = s.lio ∧ (s.logAct e).chg = s.chg ∧ (s.logAct e).host = s.host ∧
    (s.logAct e).keys = s.keys ∧ (s.logAct e).wb = s.wb ∧ (s.logAct e).recd = s.recd ∧ (s.logAct e).rtc = s.rtc ∧ (s.logAct e).pwr = s.pwr ∧
    (s.logAct e).mgn = s.mgn ∧ (s.logAct e).mem = s.mem ∧ (s.logAct e).free = s.free ∧ (s.logAct e).pending = s.pending := by
  unfold State.logAct
  simp

@[simp] theorem State.rejectAct_frame (s : State) (task : Option Nat) :
    (s.rejectAct task).slot = s.slot ∧ (s.rejectAct task).clk = s.clk ∧ (s.rejectAct task).cyc = s.cyc ∧ (s.rejectAct task).calm = s.calm ∧
    (s.rejectAct task).img = s.img ∧ (s.rejectAct task).net = s.net ∧ (s.rejectAct task).stnM = s.stnM ∧ (s.rejectAct task).stn = s.stn ∧
    (s.rejectAct task).trk = s.trk ∧ (s.rejectAct task).lio = s.lio ∧ (s.rejectAct task).pair = s.pair ∧ (s.rejectAct task).chg = s.chg ∧
    (s.rejectAct task).host = s.host ∧ (s.rejectAct task).keys = s.keys ∧ (s.rejectAct task).wb = s.wb ∧ (s.rejectAct task).rtc = s.rtc ∧
    (s.rejectAct task).pwr = s.pwr ∧ (s.rejectAct task).mgn = s.mgn ∧ (s.rejectAct task).mem = s.mem ∧ (s.rejectAct task).free = s.free ∧
    (s.rejectAct task).pending = s.pending := by
  unfold State.rejectAct
  (repeat' split) <;> simp

@[simp] theorem State.commitAct_frame (s : State) (task : Option Nat) (e : ActEnt) (rsvd : Bool) :
    (s.commitAct task e rsvd).2.slot = s.slot ∧ (s.commitAct task e rsvd).2.clk = s.clk ∧ (s.commitAct task e rsvd).2.calm = s.calm ∧
    (s.commitAct task e rsvd).2.net = s.net ∧ (s.commitAct task e rsvd).2.stnM = s.stnM ∧ (s.commitAct task e rsvd).2.stn = s.stn ∧
    (s.commitAct task e rsvd).2.chg = s.chg ∧ (s.commitAct task e rsvd).2.host = s.host ∧ (s.commitAct task e rsvd).2.keys = s.keys ∧
    (s.commitAct task e rsvd).2.wb = s.wb ∧ (s.commitAct task e rsvd).2.rtc = s.rtc ∧ (s.commitAct task e rsvd).2.pwr = s.pwr ∧
    (s.commitAct task e rsvd).2.mgn = s.mgn ∧ (s.commitAct task e rsvd).2.mem = s.mem ∧ (s.commitAct task e rsvd).2.free = s.free ∧
    (s.commitAct task e rsvd).2.pending = s.pending := by
  unfold State.commitAct
  dsimp only; (repeat' split) <;> simp

@[simp] theorem State.push_frame (s : State) (lane : Nat) (a : Word) (time : Word) :
    (s.push lane a time).slot = s.slot ∧ (s.push lane a time).clk = s.clk ∧ (s.push lane a time).calm = s.calm ∧
    (s.push lane a time).net = s.net ∧ (s.push lane a time).stnM = s.stnM ∧ (s.push lane a time).stn = s.stn ∧
    (s.push lane a time).chg = s.chg ∧ (s.push lane a time).host = s.host ∧ (s.push lane a time).keys = s.keys ∧
    (s.push lane a time).wb = s.wb ∧ (s.push lane a time).rtc = s.rtc ∧ (s.push lane a time).pwr = s.pwr ∧
    (s.push lane a time).mgn = s.mgn ∧ (s.push lane a time).mem = s.mem ∧ (s.push lane a time).free = s.free ∧
    (s.push lane a time).pending = s.pending := by
  unfold State.push
  simp

@[simp] theorem State.setRate_frame (s : State) (r : Int) :
    (s.setRate r).slot = s.slot ∧ (s.setRate r).cyc = s.cyc ∧ (s.setRate r).lanes = s.lanes ∧ (s.setRate r).calm = s.calm ∧
    (s.setRate r).img = s.img ∧ (s.setRate r).net = s.net ∧ (s.setRate r).stnM = s.stnM ∧ (s.setRate r).stn = s.stn ∧
    (s.setRate r).act = s.act ∧ (s.setRate r).trk = s.trk ∧ (s.setRate r).lio = s.lio ∧ (s.setRate r).pair = s.pair ∧
    (s.setRate r).chg = s.chg ∧ (s.setRate r).host = s.host ∧ (s.setRate r).keys = s.keys ∧ (s.setRate r).wb = s.wb ∧
    (s.setRate r).recd = s.recd ∧ (s.setRate r).rtc = s.rtc ∧ (s.setRate r).pwr = s.pwr ∧ (s.setRate r).mgn = s.mgn ∧
    (s.setRate r).mem = s.mem ∧ (s.setRate r).free = s.free ∧ (s.setRate r).pending = s.pending := by
  unfold State.setRate
  simp

@[simp] theorem State.steer_frame (s : State) (elapsed : Nat) :
    (s.steer elapsed).slot = s.slot ∧ (s.steer elapsed).cyc = s.cyc ∧ (s.steer elapsed).lanes = s.lanes ∧ (s.steer elapsed).calm = s.calm ∧
    (s.steer elapsed).img = s.img ∧ (s.steer elapsed).net = s.net ∧ (s.steer elapsed).stnM = s.stnM ∧ (s.steer elapsed).stn = s.stn ∧
    (s.steer elapsed).act = s.act ∧ (s.steer elapsed).trk = s.trk ∧ (s.steer elapsed).lio = s.lio ∧ (s.steer elapsed).pair = s.pair ∧
    (s.steer elapsed).chg = s.chg ∧ (s.steer elapsed).host = s.host ∧ (s.steer elapsed).keys = s.keys ∧ (s.steer elapsed).wb = s.wb ∧
    (s.steer elapsed).recd = s.recd ∧ (s.steer elapsed).rtc = s.rtc ∧ (s.steer elapsed).pwr = s.pwr ∧ (s.steer elapsed).mgn = s.mgn ∧
    (s.steer elapsed).mem = s.mem ∧ (s.steer elapsed).pending = s.pending := by
  unfold State.steer
  dsimp only; (repeat' split) <;> simp

@[simp] theorem State.pullRate_frame (s : State) :
    s.pullRate.slot = s.slot ∧ s.pullRate.cyc = s.cyc ∧ s.pullRate.lanes = s.lanes ∧ s.pullRate.calm = s.calm ∧ s.pullRate.img = s.img ∧
    s.pullRate.net = s.net ∧ s.pullRate.stnM = s.stnM ∧ s.pullRate.stn = s.stn ∧ s.pullRate.act = s.act ∧ s.pullRate.trk = s.trk ∧
    s.pullRate.lio = s.lio ∧ s.pullRate.pair = s.pair ∧ s.pullRate.chg = s.chg ∧ s.pullRate.host = s.host ∧ s.pullRate.keys = s.keys ∧
    s.pullRate.wb = s.wb ∧ s.pullRate.recd = s.recd ∧ s.pullRate.rtc = s.rtc ∧ s.pullRate.pwr = s.pwr ∧ s.pullRate.mgn = s.mgn ∧
    s.pullRate.mem = s.mem ∧ s.pullRate.free = s.free ∧ s.pullRate.pending = s.pending := by
  unfold State.pullRate
  dsimp only; (repeat' split) <;> simp

@[simp] theorem State.loseRef_frame (s : State) :
    s.loseRef.slot = s.slot ∧ s.loseRef.clk = s.clk ∧ s.loseRef.cyc = s.cyc ∧ s.loseRef.lanes = s.lanes ∧ s.loseRef.calm = s.calm ∧
    s.loseRef.img = s.img ∧ s.loseRef.net = s.net ∧ s.loseRef.stnM = s.stnM ∧ s.loseRef.stn = s.stn ∧ s.loseRef.trk = s.trk ∧
    s.loseRef.lio = s.lio ∧ s.loseRef.pair = s.pair ∧ s.loseRef.chg = s.chg ∧ s.loseRef.host = s.host ∧ s.loseRef.keys = s.keys ∧
    s.loseRef.wb = s.wb ∧ s.loseRef.rtc = s.rtc ∧ s.loseRef.pwr = s.pwr ∧ s.loseRef.mgn = s.mgn ∧ s.loseRef.mem = s.mem ∧
    s.loseRef.free = s.free ∧ s.loseRef.pending = s.pending := by
  unfold State.loseRef
  simp

@[simp] theorem State.freeRef_frame (s : State) :
    s.freeRef.slot = s.slot ∧ s.freeRef.clk = s.clk ∧ s.freeRef.cyc = s.cyc ∧ s.freeRef.lanes = s.lanes ∧ s.freeRef.calm = s.calm ∧
    s.freeRef.img = s.img ∧ s.freeRef.net = s.net ∧ s.freeRef.stnM = s.stnM ∧ s.freeRef.stn = s.stn ∧ s.freeRef.trk = s.trk ∧
    s.freeRef.lio = s.lio ∧ s.freeRef.pair = s.pair ∧ s.freeRef.chg = s.chg ∧ s.freeRef.host = s.host ∧ s.freeRef.keys = s.keys ∧
    s.freeRef.wb = s.wb ∧ s.freeRef.recd = s.recd ∧ s.freeRef.rtc = s.rtc ∧ s.freeRef.pwr = s.pwr ∧ s.freeRef.mgn = s.mgn ∧
    s.freeRef.mem = s.mem ∧ s.freeRef.free = s.free ∧ s.freeRef.pending = s.pending := by
  unfold State.freeRef
  simp

@[simp] theorem State.utcFromRef_frame (s : State) :
    s.utcFromRef.slot = s.slot ∧ s.utcFromRef.clk = s.clk ∧ s.utcFromRef.cyc = s.cyc ∧ s.utcFromRef.lanes = s.lanes ∧
    s.utcFromRef.calm = s.calm ∧ s.utcFromRef.img = s.img ∧ s.utcFromRef.net = s.net ∧ s.utcFromRef.stnM = s.stnM ∧
    s.utcFromRef.stn = s.stn ∧ s.utcFromRef.act = s.act ∧ s.utcFromRef.trk = s.trk ∧ s.utcFromRef.lio = s.lio ∧ s.utcFromRef.pair = s.pair ∧
    s.utcFromRef.chg = s.chg ∧ s.utcFromRef.host = s.host ∧ s.utcFromRef.keys = s.keys ∧ s.utcFromRef.wb = s.wb ∧
    s.utcFromRef.recd = s.recd ∧ s.utcFromRef.pwr = s.pwr ∧ s.utcFromRef.mgn = s.mgn ∧ s.utcFromRef.mem = s.mem ∧
    s.utcFromRef.free = s.free ∧ s.utcFromRef.pending = s.pending := by
  unfold State.utcFromRef
  (repeat' split) <;> simp

@[simp] theorem State.selectMaster_frame (s : State) :
    s.selectMaster.slot = s.slot ∧ s.selectMaster.clk = s.clk ∧ s.selectMaster.cyc = s.cyc ∧ s.selectMaster.lanes = s.lanes ∧
    s.selectMaster.calm = s.calm ∧ s.selectMaster.img = s.img ∧ s.selectMaster.net = s.net ∧ s.selectMaster.stnM = s.stnM ∧
    s.selectMaster.stn = s.stn ∧ s.selectMaster.trk = s.trk ∧ s.selectMaster.lio = s.lio ∧ s.selectMaster.pair = s.pair ∧
    s.selectMaster.chg = s.chg ∧ s.selectMaster.host = s.host ∧ s.selectMaster.keys = s.keys ∧ s.selectMaster.wb = s.wb ∧
    s.selectMaster.pwr = s.pwr ∧ s.selectMaster.mgn = s.mgn ∧ s.selectMaster.mem = s.mem ∧ s.selectMaster.free = s.free ∧
    s.selectMaster.pending = s.pending := by
  unfold State.selectMaster
  dsimp only; (repeat' split) <;> simp

@[simp] theorem State.measured_frame (s : State) (theta : Int) :
    (s.measured theta).slot = s.slot ∧ (s.measured theta).cyc = s.cyc ∧ (s.measured theta).lanes = s.lanes ∧
    (s.measured theta).calm = s.calm ∧ (s.measured theta).img = s.img ∧ (s.measured theta).net = s.net ∧ (s.measured theta).stnM = s.stnM ∧
    (s.measured theta).stn = s.stn ∧ (s.measured theta).trk = s.trk ∧ (s.measured theta).lio = s.lio ∧ (s.measured theta).pair = s.pair ∧
    (s.measured theta).chg = s.chg ∧ (s.measured theta).host = s.host ∧ (s.measured theta).keys = s.keys ∧ (s.measured theta).wb = s.wb ∧
    (s.measured theta).pwr = s.pwr ∧ (s.measured theta).mgn = s.mgn ∧ (s.measured theta).mem = s.mem ∧
    (s.measured theta).pending = s.pending := by
  unfold State.measured
  dsimp only; (repeat' split) <;> simp

@[simp] theorem State.onMargins_frame (s : State) (f : Nat → Margin → Margin) :
    (s.onMargins f).slot = s.slot ∧ (s.onMargins f).clk = s.clk ∧ (s.onMargins f).cyc = s.cyc ∧ (s.onMargins f).lanes = s.lanes ∧
    (s.onMargins f).calm = s.calm ∧ (s.onMargins f).img = s.img ∧ (s.onMargins f).net = s.net ∧ (s.onMargins f).stnM = s.stnM ∧
    (s.onMargins f).stn = s.stn ∧ (s.onMargins f).act = s.act ∧ (s.onMargins f).trk = s.trk ∧ (s.onMargins f).lio = s.lio ∧
    (s.onMargins f).pair = s.pair ∧ (s.onMargins f).chg = s.chg ∧ (s.onMargins f).host = s.host ∧ (s.onMargins f).keys = s.keys ∧
    (s.onMargins f).wb = s.wb ∧ (s.onMargins f).recd = s.recd ∧ (s.onMargins f).rtc = s.rtc ∧ (s.onMargins f).pwr = s.pwr ∧
    (s.onMargins f).mem = s.mem ∧ (s.onMargins f).free = s.free ∧ (s.onMargins f).pending = s.pending := by
  unfold State.onMargins
  simp

@[simp] theorem State.chFault_frame (s : State) (ch : Nat) (code : Nat) (rel : Bool) :
    (s.chFault ch code rel).slot = s.slot ∧ (s.chFault ch code rel).clk = s.clk ∧ (s.chFault ch code rel).calm = s.calm ∧
    (s.chFault ch code rel).img = s.img ∧ (s.chFault ch code rel).net = s.net ∧ (s.chFault ch code rel).stnM = s.stnM ∧
    (s.chFault ch code rel).stn = s.stn ∧ (s.chFault ch code rel).act = s.act ∧ (s.chFault ch code rel).trk = s.trk ∧
    (s.chFault ch code rel).pair = s.pair ∧ (s.chFault ch code rel).chg = s.chg ∧ (s.chFault ch code rel).host = s.host ∧
    (s.chFault ch code rel).keys = s.keys ∧ (s.chFault ch code rel).wb = s.wb ∧ (s.chFault ch code rel).rtc = s.rtc ∧
    (s.chFault ch code rel).pwr = s.pwr ∧ (s.chFault ch code rel).mgn = s.mgn ∧ (s.chFault ch code rel).mem = s.mem ∧
    (s.chFault ch code rel).free = s.free ∧ (s.chFault ch code rel).pending = s.pending := by
  unfold State.chFault
  (repeat' split) <;> simp

@[simp] theorem State.clearTrip_frame (s : State) (ch : Nat) :
    (s.clearTrip ch).slot = s.slot ∧ (s.clearTrip ch).clk = s.clk ∧ (s.clearTrip ch).cyc = s.cyc ∧ (s.clearTrip ch).lanes = s.lanes ∧
    (s.clearTrip ch).calm = s.calm ∧ (s.clearTrip ch).img = s.img ∧ (s.clearTrip ch).net = s.net ∧ (s.clearTrip ch).stnM = s.stnM ∧
    (s.clearTrip ch).stn = s.stn ∧ (s.clearTrip ch).act = s.act ∧ (s.clearTrip ch).trk = s.trk ∧ (s.clearTrip ch).pair = s.pair ∧
    (s.clearTrip ch).chg = s.chg ∧ (s.clearTrip ch).host = s.host ∧ (s.clearTrip ch).keys = s.keys ∧ (s.clearTrip ch).wb = s.wb ∧
    (s.clearTrip ch).recd = s.recd ∧ (s.clearTrip ch).rtc = s.rtc ∧ (s.clearTrip ch).pwr = s.pwr ∧ (s.clearTrip ch).mgn = s.mgn ∧
    (s.clearTrip ch).mem = s.mem ∧ (s.clearTrip ch).free = s.free ∧ (s.clearTrip ch).pending = s.pending := by
  unfold State.clearTrip
  dsimp only; (repeat' split) <;> simp

@[simp] theorem State.supplyRec_frame (s : State) (code : Nat) (g : Side) :
    (s.supplyRec code g).slot = s.slot ∧ (s.supplyRec code g).clk = s.clk ∧ (s.supplyRec code g).cyc = s.cyc ∧
    (s.supplyRec code g).lanes = s.lanes ∧ (s.supplyRec code g).calm = s.calm ∧ (s.supplyRec code g).img = s.img ∧
    (s.supplyRec code g).net = s.net ∧ (s.supplyRec code g).stnM = s.stnM ∧ (s.supplyRec code g).stn = s.stn ∧
    (s.supplyRec code g).act = s.act ∧ (s.supplyRec code g).trk = s.trk ∧ (s.supplyRec code g).lio = s.lio ∧
    (s.supplyRec code g).pair = s.pair ∧ (s.supplyRec code g).chg = s.chg ∧ (s.supplyRec code g).host = s.host ∧
    (s.supplyRec code g).keys = s.keys ∧ (s.supplyRec code g).wb = s.wb ∧ (s.supplyRec code g).rtc = s.rtc ∧
    (s.supplyRec code g).pwr = s.pwr ∧ (s.supplyRec code g).mgn = s.mgn ∧ (s.supplyRec code g).mem = s.mem ∧
    (s.supplyRec code g).free = s.free ∧ (s.supplyRec code g).pending = s.pending := by
  unfold State.supplyRec
  simp

@[simp] theorem State.onTrk_frame (s : State) (f : Trk → Trk) :
    (s.onTrk f).slot = s.slot ∧ (s.onTrk f).clk = s.clk ∧ (s.onTrk f).cyc = s.cyc ∧ (s.onTrk f).lanes = s.lanes ∧
    (s.onTrk f).calm = s.calm ∧ (s.onTrk f).img = s.img ∧ (s.onTrk f).net = s.net ∧ (s.onTrk f).stnM = s.stnM ∧ (s.onTrk f).stn = s.stn ∧
    (s.onTrk f).act = s.act ∧ (s.onTrk f).lio = s.lio ∧ (s.onTrk f).pair = s.pair ∧ (s.onTrk f).chg = s.chg ∧ (s.onTrk f).host = s.host ∧
    (s.onTrk f).keys = s.keys ∧ (s.onTrk f).wb = s.wb ∧ (s.onTrk f).recd = s.recd ∧ (s.onTrk f).rtc = s.rtc ∧ (s.onTrk f).pwr = s.pwr ∧
    (s.onTrk f).mgn = s.mgn ∧ (s.onTrk f).mem = s.mem ∧ (s.onTrk f).free = s.free ∧ (s.onTrk f).pending = s.pending := by
  unfold State.onTrk
  simp

@[simp] theorem State.markTrk_frame (s : State) (table : Nat) (n : Nat) :
    (s.markTrk table n).slot = s.slot ∧ (s.markTrk table n).clk = s.clk ∧ (s.markTrk table n).cyc = s.cyc ∧
    (s.markTrk table n).lanes = s.lanes ∧ (s.markTrk table n).calm = s.calm ∧ (s.markTrk table n).img = s.img ∧
    (s.markTrk table n).net = s.net ∧ (s.markTrk table n).stnM = s.stnM ∧ (s.markTrk table n).stn = s.stn ∧
    (s.markTrk table n).act = s.act ∧ (s.markTrk table n).trk = s.trk ∧ (s.markTrk table n).lio = s.lio ∧ (s.markTrk table n).chg = s.chg ∧
    (s.markTrk table n).host = s.host ∧ (s.markTrk table n).keys = s.keys ∧ (s.markTrk table n).wb = s.wb ∧
    (s.markTrk table n).recd = s.recd ∧ (s.markTrk table n).rtc = s.rtc ∧ (s.markTrk table n).pwr = s.pwr ∧
    (s.markTrk table n).mgn = s.mgn ∧ (s.markTrk table n).mem = s.mem ∧ (s.markTrk table n).free = s.free ∧
    (s.markTrk table n).pending = s.pending := by
  unfold State.markTrk
  (repeat' split) <;> simp

@[simp] theorem State.trkFault_frame (s : State) (seg : Nat) (code : Nat) :
    (s.trkFault seg code).slot = s.slot ∧ (s.trkFault seg code).clk = s.clk ∧ (s.trkFault seg code).calm = s.calm ∧
    (s.trkFault seg code).img = s.img ∧ (s.trkFault seg code).net = s.net ∧ (s.trkFault seg code).stnM = s.stnM ∧
    (s.trkFault seg code).stn = s.stn ∧ (s.trkFault seg code).act = s.act ∧ (s.trkFault seg code).lio = s.lio ∧
    (s.trkFault seg code).chg = s.chg ∧ (s.trkFault seg code).host = s.host ∧ (s.trkFault seg code).keys = s.keys ∧
    (s.trkFault seg code).wb = s.wb ∧ (s.trkFault seg code).rtc = s.rtc ∧ (s.trkFault seg code).pwr = s.pwr ∧
    (s.trkFault seg code).mgn = s.mgn ∧ (s.trkFault seg code).mem = s.mem ∧ (s.trkFault seg code).free = s.free ∧
    (s.trkFault seg code).pending = s.pending := by
  unfold State.trkFault
  simp

@[simp] theorem State.loadTable_frame (s : State) (img : Option AppImage) :
    (s.loadTable img).slot = s.slot ∧ (s.loadTable img).cyc = s.cyc ∧ (s.loadTable img).lanes = s.lanes ∧ (s.loadTable img).calm = s.calm ∧
    (s.loadTable img).img = s.img ∧ (s.loadTable img).net = s.net ∧ (s.loadTable img).stnM = s.stnM ∧ (s.loadTable img).stn = s.stn ∧
    (s.loadTable img).act = s.act ∧ (s.loadTable img).trk = s.trk ∧ (s.loadTable img).lio = s.lio ∧ (s.loadTable img).pair = s.pair ∧
    (s.loadTable img).chg = s.chg ∧ (s.loadTable img).host = s.host ∧ (s.loadTable img).keys = s.keys ∧ (s.loadTable img).recd = s.recd ∧
    (s.loadTable img).rtc = s.rtc ∧ (s.loadTable img).pwr = s.pwr ∧ (s.loadTable img).mgn = s.mgn ∧ (s.loadTable img).mem = s.mem ∧
    (s.loadTable img).pending = s.pending := by
  unfold State.loadTable
  simp

@[simp] theorem State.setCur_frame (s : State) (l : Nat) (c : Side) (task : Nat) (idle : Bool) :
    (s.setCur l c task idle).slot = s.slot ∧ (s.setCur l c task idle).clk = s.clk ∧ (s.setCur l c task idle).cyc = s.cyc ∧
    (s.setCur l c task idle).calm = s.calm ∧ (s.setCur l c task idle).img = s.img ∧ (s.setCur l c task idle).net = s.net ∧
    (s.setCur l c task idle).stnM = s.stnM ∧ (s.setCur l c task idle).stn = s.stn ∧ (s.setCur l c task idle).act = s.act ∧
    (s.setCur l c task idle).trk = s.trk ∧ (s.setCur l c task idle).lio = s.lio ∧ (s.setCur l c task idle).pair = s.pair ∧
    (s.setCur l c task idle).chg = s.chg ∧ (s.setCur l c task idle).host = s.host ∧ (s.setCur l c task idle).keys = s.keys ∧
    (s.setCur l c task idle).wb = s.wb ∧ (s.setCur l c task idle).recd = s.recd ∧ (s.setCur l c task idle).rtc = s.rtc ∧
    (s.setCur l c task idle).pwr = s.pwr ∧ (s.setCur l c task idle).mgn = s.mgn ∧ (s.setCur l c task idle).mem = s.mem ∧
    (s.setCur l c task idle).free = s.free ∧ (s.setCur l c task idle).pending = s.pending := by
  unfold State.setCur
  simp

@[simp] theorem State.restart_frame (s : State) (t : TaskCfg) :
    (s.restart t).slot = s.slot ∧ (s.restart t).clk = s.clk ∧ (s.restart t).cyc = s.cyc ∧ (s.restart t).calm = s.calm ∧
    (s.restart t).img = s.img ∧ (s.restart t).net = s.net ∧ (s.restart t).stnM = s.stnM ∧ (s.restart t).stn = s.stn ∧
    (s.restart t).act = s.act ∧ (s.restart t).trk = s.trk ∧ (s.restart t).lio = s.lio ∧ (s.restart t).pair = s.pair ∧
    (s.restart t).chg = s.chg ∧ (s.restart t).host = s.host ∧ (s.restart t).keys = s.keys ∧ (s.restart t).wb = s.wb ∧
    (s.restart t).recd = s.recd ∧ (s.restart t).rtc = s.rtc ∧ (s.restart t).pwr = s.pwr ∧ (s.restart t).mgn = s.mgn ∧
    (s.restart t).mem = s.mem ∧ (s.restart t).free = s.free ∧ (s.restart t).pending = s.pending := by
  unfold State.restart
  simp

@[simp] theorem State.complete_frame (s : State) (l : Nat) (c : Side) (t : TaskCfg) :
    (s.complete l c t).slot = s.slot ∧ (s.complete l c t).clk = s.clk ∧ (s.complete l c t).cyc = s.cyc ∧ (s.complete l c t).calm = s.calm ∧
    (s.complete l c t).img = s.img ∧ (s.complete l c t).net = s.net ∧ (s.complete l c t).stnM = s.stnM ∧ (s.complete l c t).stn = s.stn ∧
    (s.complete l c t).act = s.act ∧ (s.complete l c t).trk = s.trk ∧ (s.complete l c t).lio = s.lio ∧ (s.complete l c t).pair = s.pair ∧
    (s.complete l c t).chg = s.chg ∧ (s.complete l c t).host = s.host ∧ (s.complete l c t).keys = s.keys ∧ (s.complete l c t).wb = s.wb ∧
    (s.complete l c t).recd = s.recd ∧ (s.complete l c t).rtc = s.rtc ∧ (s.complete l c t).pwr = s.pwr ∧ (s.complete l c t).mgn = s.mgn ∧
    (s.complete l c t).mem = s.mem ∧ (s.complete l c t).free = s.free ∧ (s.complete l c t).pending = s.pending := by
  unfold State.complete
  dsimp only; (repeat' split) <;> simp

@[simp] theorem State.closeConn_frame (s : State) (k : Fin 4) :
    (s.closeConn k).slot = s.slot ∧ (s.closeConn k).clk = s.clk ∧ (s.closeConn k).calm = s.calm ∧ (s.closeConn k).net = s.net ∧
    (s.closeConn k).stnM = s.stnM ∧ (s.closeConn k).stn = s.stn ∧ (s.closeConn k).chg = s.chg ∧ (s.closeConn k).keys = s.keys ∧
    (s.closeConn k).wb = s.wb ∧ (s.closeConn k).rtc = s.rtc ∧ (s.closeConn k).pwr = s.pwr ∧ (s.closeConn k).mgn = s.mgn ∧
    (s.closeConn k).mem = s.mem ∧ (s.closeConn k).free = s.free ∧ (s.closeConn k).pending = s.pending := by
  unfold State.closeConn
  (repeat' split) <;> simp

@[simp] theorem State.refuse_frame (s : State) :
    s.refuse.slot = s.slot ∧ s.refuse.clk = s.clk ∧ s.refuse.cyc = s.cyc ∧ s.refuse.lanes = s.lanes ∧ s.refuse.calm = s.calm ∧
    s.refuse.img = s.img ∧ s.refuse.net = s.net ∧ s.refuse.stnM = s.stnM ∧ s.refuse.stn = s.stn ∧ s.refuse.act = s.act ∧
    s.refuse.trk = s.trk ∧ s.refuse.lio = s.lio ∧ s.refuse.pair = s.pair ∧ s.refuse.chg = s.chg ∧ s.refuse.host = s.host ∧
    s.refuse.keys = s.keys ∧ s.refuse.recd = s.recd ∧ s.refuse.rtc = s.rtc ∧ s.refuse.pwr = s.pwr ∧ s.refuse.mgn = s.mgn ∧
    s.refuse.mem = s.mem ∧ s.refuse.free = s.free ∧ s.refuse.pending = s.pending := by
  unfold State.refuse
  simp

@[simp] theorem State.done_frame (s : State) (h : Held) :
    (s.done h).slot = s.slot ∧ (s.done h).clk = s.clk ∧ (s.done h).cyc = s.cyc ∧ (s.done h).calm = s.calm ∧ (s.done h).img = s.img ∧
    (s.done h).net = s.net ∧ (s.done h).stnM = s.stnM ∧ (s.done h).stn = s.stn ∧ (s.done h).act = s.act ∧ (s.done h).trk = s.trk ∧
    (s.done h).lio = s.lio ∧ (s.done h).pair = s.pair ∧ (s.done h).chg = s.chg ∧ (s.done h).host = s.host ∧ (s.done h).keys = s.keys ∧
    (s.done h).wb = s.wb ∧ (s.done h).recd = s.recd ∧ (s.done h).rtc = s.rtc ∧ (s.done h).pwr = s.pwr ∧ (s.done h).mgn = s.mgn ∧
    (s.done h).mem = s.mem ∧ (s.done h).free = s.free ∧ (s.done h).pending = s.pending := by
  unfold State.done
  (repeat' split) <;> simp

@[simp] theorem State.repair_frame (s : State) (lane : Nat) (copy : Side) (line : Nat) :
    (s.repair lane copy line).slot = s.slot ∧ (s.repair lane copy line).clk = s.clk ∧ (s.repair lane copy line).cyc = s.cyc ∧
    (s.repair lane copy line).calm = s.calm ∧ (s.repair lane copy line).img = s.img ∧ (s.repair lane copy line).net = s.net ∧
    (s.repair lane copy line).stnM = s.stnM ∧ (s.repair lane copy line).stn = s.stn ∧ (s.repair lane copy line).act = s.act ∧
    (s.repair lane copy line).trk = s.trk ∧ (s.repair lane copy line).lio = s.lio ∧ (s.repair lane copy line).pair = s.pair ∧
    (s.repair lane copy line).chg = s.chg ∧ (s.repair lane copy line).host = s.host ∧ (s.repair lane copy line).keys = s.keys ∧
    (s.repair lane copy line).wb = s.wb ∧ (s.repair lane copy line).rtc = s.rtc ∧ (s.repair lane copy line).pwr = s.pwr ∧
    (s.repair lane copy line).mgn = s.mgn ∧ (s.repair lane copy line).mem = s.mem ∧ (s.repair lane copy line).free = s.free ∧
    (s.repair lane copy line).pending = s.pending := by
  unfold State.repair
  dsimp only; (repeat' split) <;> simp

@[simp] theorem State.parkLanes_frame (s : State) :
    s.parkLanes.slot = s.slot ∧ s.parkLanes.clk = s.clk ∧ s.parkLanes.cyc = s.cyc ∧ s.parkLanes.calm = s.calm ∧ s.parkLanes.img = s.img ∧
    s.parkLanes.net = s.net ∧ s.parkLanes.stnM = s.stnM ∧ s.parkLanes.stn = s.stn ∧ s.parkLanes.act = s.act ∧ s.parkLanes.trk = s.trk ∧
    s.parkLanes.lio = s.lio ∧ s.parkLanes.pair = s.pair ∧ s.parkLanes.chg = s.chg ∧ s.parkLanes.host = s.host ∧ s.parkLanes.keys = s.keys ∧
    s.parkLanes.wb = s.wb ∧ s.parkLanes.recd = s.recd ∧ s.parkLanes.rtc = s.rtc ∧ s.parkLanes.mgn = s.mgn ∧ s.parkLanes.mem = s.mem ∧
    s.parkLanes.free = s.free ∧ s.parkLanes.pending = s.pending := by
  unfold State.parkLanes
  simp

@[simp] theorem State.volume_frame (s : State) (lines : Nat) :
    (s.volume lines).slot = s.slot ∧ (s.volume lines).clk = s.clk ∧ (s.volume lines).cyc = s.cyc ∧ (s.volume lines).lanes = s.lanes ∧
    (s.volume lines).calm = s.calm ∧ (s.volume lines).img = s.img ∧ (s.volume lines).net = s.net ∧ (s.volume lines).stnM = s.stnM ∧
    (s.volume lines).stn = s.stn ∧ (s.volume lines).act = s.act ∧ (s.volume lines).trk = s.trk ∧ (s.volume lines).lio = s.lio ∧
    (s.volume lines).chg = s.chg ∧ (s.volume lines).host = s.host ∧ (s.volume lines).keys = s.keys ∧ (s.volume lines).wb = s.wb ∧
    (s.volume lines).recd = s.recd ∧ (s.volume lines).rtc = s.rtc ∧ (s.volume lines).pwr = s.pwr ∧ (s.volume lines).mgn = s.mgn ∧
    (s.volume lines).mem = s.mem ∧ (s.volume lines).free = s.free ∧ (s.volume lines).pending = s.pending := by
  unfold State.volume
  simp

@[simp] theorem State.handoverEnd_frame (s : State) (status : Nat) (detail : Nat) (r0 : Word) :
    (s.handoverEnd status detail r0).slot = s.slot ∧ (s.handoverEnd status detail r0).clk = s.clk ∧
    (s.handoverEnd status detail r0).calm = s.calm ∧ (s.handoverEnd status detail r0).net = s.net ∧
    (s.handoverEnd status detail r0).stnM = s.stnM ∧ (s.handoverEnd status detail r0).stn = s.stn ∧
    (s.handoverEnd status detail r0).keys = s.keys ∧ (s.handoverEnd status detail r0).wb = s.wb ∧
    (s.handoverEnd status detail r0).rtc = s.rtc ∧ (s.handoverEnd status detail r0).pwr = s.pwr ∧
    (s.handoverEnd status detail r0).mgn = s.mgn ∧ (s.handoverEnd status detail r0).mem = s.mem ∧
    (s.handoverEnd status detail r0).free = s.free ∧ (s.handoverEnd status detail r0).pending = s.pending := by
  unfold State.handoverEnd
  dsimp only; (repeat' split) <;> simp

@[simp] theorem State.handoverFail_frame (s : State) :
    s.handoverFail.slot = s.slot ∧ s.handoverFail.clk = s.clk ∧ s.handoverFail.calm = s.calm ∧ s.handoverFail.net = s.net ∧
    s.handoverFail.stnM = s.stnM ∧ s.handoverFail.stn = s.stn ∧ s.handoverFail.keys = s.keys ∧ s.handoverFail.wb = s.wb ∧
    s.handoverFail.rtc = s.rtc ∧ s.handoverFail.pwr = s.pwr ∧ s.handoverFail.mgn = s.mgn ∧ s.handoverFail.mem = s.mem ∧
    s.handoverFail.free = s.free ∧ s.handoverFail.pending = s.pending := by
  unfold State.handoverFail
  simp

@[simp] theorem State.switchFail_frame (s : State) :
    s.switchFail.slot = s.slot ∧ s.switchFail.clk = s.clk ∧ s.switchFail.calm = s.calm ∧ s.switchFail.net = s.net ∧
    s.switchFail.stnM = s.stnM ∧ s.switchFail.stn = s.stn ∧ s.switchFail.keys = s.keys ∧ s.switchFail.wb = s.wb ∧ s.switchFail.rtc = s.rtc ∧
    s.switchFail.mgn = s.mgn ∧ s.switchFail.mem = s.mem ∧ s.switchFail.free = s.free ∧ s.switchFail.pending = s.pending := by
  unfold State.switchFail
  dsimp only; (repeat' split) <;> simp

@[simp] theorem State.laneModes_frame (s : State) (b : AppBody) :
    (s.laneModes b).slot = s.slot ∧ (s.laneModes b).clk = s.clk ∧ (s.laneModes b).cyc = s.cyc ∧ (s.laneModes b).calm = s.calm ∧
    (s.laneModes b).img = s.img ∧ (s.laneModes b).net = s.net ∧ (s.laneModes b).stnM = s.stnM ∧ (s.laneModes b).stn = s.stn ∧
    (s.laneModes b).act = s.act ∧ (s.laneModes b).trk = s.trk ∧ (s.laneModes b).lio = s.lio ∧ (s.laneModes b).pair = s.pair ∧
    (s.laneModes b).chg = s.chg ∧ (s.laneModes b).host = s.host ∧ (s.laneModes b).keys = s.keys ∧ (s.laneModes b).wb = s.wb ∧
    (s.laneModes b).recd = s.recd ∧ (s.laneModes b).rtc = s.rtc ∧ (s.laneModes b).pwr = s.pwr ∧ (s.laneModes b).mgn = s.mgn ∧
    (s.laneModes b).mem = s.mem ∧ (s.laneModes b).free = s.free ∧ (s.laneModes b).pending = s.pending := by
  unfold State.laneModes
  simp

@[simp] theorem State.clearBlock_frame (s : State) (base : Nat) :
    (s.clearBlock base).slot = s.slot ∧ (s.clearBlock base).clk = s.clk ∧ (s.clearBlock base).cyc = s.cyc ∧
    (s.clearBlock base).lanes = s.lanes ∧ (s.clearBlock base).calm = s.calm ∧ (s.clearBlock base).img = s.img ∧
    (s.clearBlock base).net = s.net ∧ (s.clearBlock base).stnM = s.stnM ∧ (s.clearBlock base).stn = s.stn ∧
    (s.clearBlock base).act = s.act ∧ (s.clearBlock base).trk = s.trk ∧ (s.clearBlock base).lio = s.lio ∧ (s.clearBlock base).chg = s.chg ∧
    (s.clearBlock base).host = s.host ∧ (s.clearBlock base).keys = s.keys ∧ (s.clearBlock base).wb = s.wb ∧
    (s.clearBlock base).recd = s.recd ∧ (s.clearBlock base).rtc = s.rtc ∧ (s.clearBlock base).pwr = s.pwr ∧
    (s.clearBlock base).mgn = s.mgn ∧ (s.clearBlock base).free = s.free ∧ (s.clearBlock base).pending = s.pending := by
  unfold State.clearBlock
  and_intros <;> (apply foldl_kept; intro s a; (try dsimp only); (repeat' split) <;> simp)

@[simp] theorem State.layTable_frame (s : State) (base : Nat) (l : List PtCfg) :
    (s.layTable base l).slot = s.slot ∧ (s.layTable base l).clk = s.clk ∧ (s.layTable base l).cyc = s.cyc ∧
    (s.layTable base l).lanes = s.lanes ∧ (s.layTable base l).calm = s.calm ∧ (s.layTable base l).img = s.img ∧
    (s.layTable base l).net = s.net ∧ (s.layTable base l).stnM = s.stnM ∧ (s.layTable base l).stn = s.stn ∧
    (s.layTable base l).act = s.act ∧ (s.layTable base l).trk = s.trk ∧ (s.layTable base l).lio = s.lio ∧ (s.layTable base l).chg = s.chg ∧
    (s.layTable base l).host = s.host ∧ (s.layTable base l).keys = s.keys ∧ (s.layTable base l).wb = s.wb ∧
    (s.layTable base l).recd = s.recd ∧ (s.layTable base l).rtc = s.rtc ∧ (s.layTable base l).pwr = s.pwr ∧
    (s.layTable base l).mgn = s.mgn ∧ (s.layTable base l).free = s.free ∧ (s.layTable base l).pending = s.pending := by
  unfold State.layTable
  refine ⟨(foldl_kept (·.slot) _ (fun s a => ?_) _ _).trans ?_, (foldl_kept (·.clk) _ (fun s a => ?_) _ _).trans ?_,
    (foldl_kept (·.cyc) _ (fun s a => ?_) _ _).trans ?_, (foldl_kept (·.lanes) _ (fun s a => ?_) _ _).trans ?_,
    (foldl_kept (·.calm) _ (fun s a => ?_) _ _).trans ?_, (foldl_kept (·.img) _ (fun s a => ?_) _ _).trans ?_,
    (foldl_kept (·.net) _ (fun s a => ?_) _ _).trans ?_, (foldl_kept (·.stnM) _ (fun s a => ?_) _ _).trans ?_,
    (foldl_kept (·.stn) _ (fun s a => ?_) _ _).trans ?_, (foldl_kept (·.act) _ (fun s a => ?_) _ _).trans ?_,
    (foldl_kept (·.trk) _ (fun s a => ?_) _ _).trans ?_, (foldl_kept (·.lio) _ (fun s a => ?_) _ _).trans ?_,
    (foldl_kept (·.chg) _ (fun s a => ?_) _ _).trans ?_, (foldl_kept (·.host) _ (fun s a => ?_) _ _).trans ?_,
    (foldl_kept (·.keys) _ (fun s a => ?_) _ _).trans ?_, (foldl_kept (·.wb) _ (fun s a => ?_) _ _).trans ?_,
    (foldl_kept (·.recd) _ (fun s a => ?_) _ _).trans ?_, (foldl_kept (·.rtc) _ (fun s a => ?_) _ _).trans ?_,
    (foldl_kept (·.pwr) _ (fun s a => ?_) _ _).trans ?_, (foldl_kept (·.mgn) _ (fun s a => ?_) _ _).trans ?_,
    (foldl_kept (·.free) _ (fun s a => ?_) _ _).trans ?_, (foldl_kept (·.pending) _ (fun s a => ?_) _ _).trans ?_⟩ <;>
    ((try dsimp only); (repeat' split) <;> simp)

@[simp] theorem State.layTables_frame (s : State) (b : AppBody) :
    (s.layTables b).slot = s.slot ∧ (s.layTables b).clk = s.clk ∧ (s.layTables b).cyc = s.cyc ∧ (s.layTables b).lanes = s.lanes ∧
    (s.layTables b).calm = s.calm ∧ (s.layTables b).img = s.img ∧ (s.layTables b).net = s.net ∧ (s.layTables b).stnM = s.stnM ∧
    (s.layTables b).stn = s.stn ∧ (s.layTables b).act = s.act ∧ (s.layTables b).trk = s.trk ∧ (s.layTables b).lio = s.lio ∧
    (s.layTables b).chg = s.chg ∧ (s.layTables b).host = s.host ∧ (s.layTables b).keys = s.keys ∧ (s.layTables b).wb = s.wb ∧
    (s.layTables b).recd = s.recd ∧ (s.layTables b).rtc = s.rtc ∧ (s.layTables b).pwr = s.pwr ∧ (s.layTables b).mgn = s.mgn ∧
    (s.layTables b).free = s.free ∧ (s.layTables b).pending = s.pending := by
  unfold State.layTables
  simp

@[simp] theorem State.endRollback_frame (s : State) :
    s.endRollback.slot = s.slot ∧ s.endRollback.clk = s.clk ∧ s.endRollback.cyc = s.cyc ∧ s.endRollback.lanes = s.lanes ∧
    s.endRollback.calm = s.calm ∧ s.endRollback.img = s.img ∧ s.endRollback.net = s.net ∧ s.endRollback.stnM = s.stnM ∧
    s.endRollback.stn = s.stn ∧ s.endRollback.act = s.act ∧ s.endRollback.trk = s.trk ∧ s.endRollback.lio = s.lio ∧
    s.endRollback.pair = s.pair ∧ s.endRollback.host = s.host ∧ s.endRollback.keys = s.keys ∧ s.endRollback.wb = s.wb ∧
    s.endRollback.recd = s.recd ∧ s.endRollback.rtc = s.rtc ∧ s.endRollback.pwr = s.pwr ∧ s.endRollback.mgn = s.mgn ∧
    s.endRollback.mem = s.mem ∧ s.endRollback.free = s.free ∧ s.endRollback.pending = s.pending := by
  unfold State.endRollback
  (repeat' split) <;> simp

@[simp] theorem State.changeStep_frame (s : State) (k : Nat) :
    (s.changeStep k).slot = s.slot ∧ (s.changeStep k).clk = s.clk ∧ (s.changeStep k).calm = s.calm ∧ (s.changeStep k).net = s.net ∧
    (s.changeStep k).stnM = s.stnM ∧ (s.changeStep k).stn = s.stn ∧ (s.changeStep k).chg = s.chg ∧ (s.changeStep k).keys = s.keys ∧
    (s.changeStep k).wb = s.wb ∧ (s.changeStep k).rtc = s.rtc ∧ (s.changeStep k).pwr = s.pwr ∧ (s.changeStep k).mgn = s.mgn ∧
    (s.changeStep k).mem = s.mem ∧ (s.changeStep k).pending = s.pending := by
  unfold State.changeStep
  (repeat' split) <;> simp

@[simp] theorem State.announce_frame (s : State) (i : AppImage) (back : Bool) :
    (s.announce i back).slot = s.slot ∧ (s.announce i back).clk = s.clk ∧ (s.announce i back).calm = s.calm ∧
    (s.announce i back).net = s.net ∧ (s.announce i back).stnM = s.stnM ∧ (s.announce i back).stn = s.stn ∧
    (s.announce i back).keys = s.keys ∧ (s.announce i back).wb = s.wb ∧ (s.announce i back).rtc = s.rtc ∧ (s.announce i back).pwr = s.pwr ∧
    (s.announce i back).mgn = s.mgn ∧ (s.announce i back).mem = s.mem ∧ (s.announce i back).pending = s.pending := by
  unfold State.announce
  simp

@[simp] theorem State.discardStaged_frame (s : State) :
    s.discardStaged.slot = s.slot ∧ s.discardStaged.clk = s.clk ∧ s.discardStaged.cyc = s.cyc ∧ s.discardStaged.lanes = s.lanes ∧
    s.discardStaged.calm = s.calm ∧ s.discardStaged.img = s.img ∧ s.discardStaged.net = s.net ∧ s.discardStaged.stnM = s.stnM ∧
    s.discardStaged.stn = s.stn ∧ s.discardStaged.act = s.act ∧ s.discardStaged.trk = s.trk ∧ s.discardStaged.lio = s.lio ∧
    s.discardStaged.pair = s.pair ∧ s.discardStaged.host = s.host ∧ s.discardStaged.keys = s.keys ∧ s.discardStaged.wb = s.wb ∧
    s.discardStaged.recd = s.recd ∧ s.discardStaged.rtc = s.rtc ∧ s.discardStaged.pwr = s.pwr ∧ s.discardStaged.mgn = s.mgn ∧
    s.discardStaged.mem = s.mem ∧ s.discardStaged.free = s.free ∧ s.discardStaged.pending = s.pending := by
  unfold State.discardStaged
  simp

@[simp] theorem State.tellFw_frame (s : State) :
    s.tellFw.slot = s.slot ∧ s.tellFw.clk = s.clk ∧ s.tellFw.cyc = s.cyc ∧ s.tellFw.lanes = s.lanes ∧ s.tellFw.calm = s.calm ∧
    s.tellFw.img = s.img ∧ s.tellFw.net = s.net ∧ s.tellFw.stnM = s.stnM ∧ s.tellFw.stn = s.stn ∧ s.tellFw.act = s.act ∧
    s.tellFw.trk = s.trk ∧ s.tellFw.lio = s.lio ∧ s.tellFw.chg = s.chg ∧ s.tellFw.host = s.host ∧ s.tellFw.keys = s.keys ∧
    s.tellFw.wb = s.wb ∧ s.tellFw.recd = s.recd ∧ s.tellFw.rtc = s.rtc ∧ s.tellFw.pwr = s.pwr ∧ s.tellFw.mgn = s.mgn ∧
    s.tellFw.mem = s.mem ∧ s.tellFw.free = s.free ∧ s.tellFw.pending = s.pending := by
  unfold State.tellFw
  (repeat' split) <;> simp

@[simp] theorem State.setFw_frame (s : State) (v : Vector FwSlot 2) :
    (s.setFw v).slot = s.slot ∧ (s.setFw v).clk = s.clk ∧ (s.setFw v).cyc = s.cyc ∧ (s.setFw v).lanes = s.lanes ∧
    (s.setFw v).calm = s.calm ∧ (s.setFw v).img = s.img ∧ (s.setFw v).net = s.net ∧ (s.setFw v).stnM = s.stnM ∧ (s.setFw v).stn = s.stn ∧
    (s.setFw v).act = s.act ∧ (s.setFw v).trk = s.trk ∧ (s.setFw v).lio = s.lio ∧ (s.setFw v).host = s.host ∧ (s.setFw v).keys = s.keys ∧
    (s.setFw v).wb = s.wb ∧ (s.setFw v).recd = s.recd ∧ (s.setFw v).rtc = s.rtc ∧ (s.setFw v).pwr = s.pwr ∧ (s.setFw v).mgn = s.mgn ∧
    (s.setFw v).mem = s.mem ∧ (s.setFw v).free = s.free ∧ (s.setFw v).pending = s.pending := by
  unfold State.setFw
  simp

@[simp] theorem State.discardFw_frame (s : State) :
    s.discardFw.slot = s.slot ∧ s.discardFw.clk = s.clk ∧ s.discardFw.cyc = s.cyc ∧ s.discardFw.lanes = s.lanes ∧
    s.discardFw.calm = s.calm ∧ s.discardFw.img = s.img ∧ s.discardFw.net = s.net ∧ s.discardFw.stnM = s.stnM ∧ s.discardFw.stn = s.stn ∧
    s.discardFw.act = s.act ∧ s.discardFw.trk = s.trk ∧ s.discardFw.lio = s.lio ∧ s.discardFw.host = s.host ∧ s.discardFw.keys = s.keys ∧
    s.discardFw.wb = s.wb ∧ s.discardFw.recd = s.recd ∧ s.discardFw.rtc = s.rtc ∧ s.discardFw.pwr = s.pwr ∧ s.discardFw.mgn = s.mgn ∧
    s.discardFw.mem = s.mem ∧ s.discardFw.free = s.free ∧ s.discardFw.pending = s.pending := by
  unfold State.discardFw
  simp

@[simp] theorem State.tellDiscard_frame (s : State) :
    s.tellDiscard.slot = s.slot ∧ s.tellDiscard.clk = s.clk ∧ s.tellDiscard.cyc = s.cyc ∧ s.tellDiscard.lanes = s.lanes ∧
    s.tellDiscard.calm = s.calm ∧ s.tellDiscard.img = s.img ∧ s.tellDiscard.net = s.net ∧ s.tellDiscard.stnM = s.stnM ∧
    s.tellDiscard.stn = s.stn ∧ s.tellDiscard.act = s.act ∧ s.tellDiscard.trk = s.trk ∧ s.tellDiscard.lio = s.lio ∧
    s.tellDiscard.chg = s.chg ∧ s.tellDiscard.host = s.host ∧ s.tellDiscard.keys = s.keys ∧ s.tellDiscard.wb = s.wb ∧
    s.tellDiscard.recd = s.recd ∧ s.tellDiscard.rtc = s.rtc ∧ s.tellDiscard.pwr = s.pwr ∧ s.tellDiscard.mgn = s.mgn ∧
    s.tellDiscard.mem = s.mem ∧ s.tellDiscard.free = s.free ∧ s.tellDiscard.pending = s.pending := by
  unfold State.tellDiscard
  (repeat' split) <;> simp

@[simp] theorem State.stagingFails_frame (s : State) (r : Run) (status : Nat) (detail : Nat) :
    (s.stagingFails r status detail).slot = s.slot ∧ (s.stagingFails r status detail).clk = s.clk ∧
    (s.stagingFails r status detail).calm = s.calm ∧ (s.stagingFails r status detail).net = s.net ∧
    (s.stagingFails r status detail).stnM = s.stnM ∧ (s.stagingFails r status detail).stn = s.stn ∧
    (s.stagingFails r status detail).keys = s.keys ∧ (s.stagingFails r status detail).wb = s.wb ∧
    (s.stagingFails r status detail).rtc = s.rtc ∧ (s.stagingFails r status detail).pwr = s.pwr ∧
    (s.stagingFails r status detail).mgn = s.mgn ∧ (s.stagingFails r status detail).mem = s.mem ∧
    (s.stagingFails r status detail).free = s.free ∧ (s.stagingFails r status detail).pending = s.pending := by
  unfold State.stagingFails
  (repeat' split) <;> simp

@[simp] theorem State.layMap_frame (s : State) (c : NetCfg) :
    (s.layMap c).slot = s.slot ∧ (s.layMap c).clk = s.clk ∧ (s.layMap c).cyc = s.cyc ∧ (s.layMap c).lanes = s.lanes ∧
    (s.layMap c).calm = s.calm ∧ (s.layMap c).img = s.img ∧ (s.layMap c).net = s.net ∧ (s.layMap c).stnM = s.stnM ∧
    (s.layMap c).stn = s.stn ∧ (s.layMap c).act = s.act ∧ (s.layMap c).trk = s.trk ∧ (s.layMap c).lio = s.lio ∧ (s.layMap c).chg = s.chg ∧
    (s.layMap c).host = s.host ∧ (s.layMap c).keys = s.keys ∧ (s.layMap c).wb = s.wb ∧ (s.layMap c).recd = s.recd ∧
    (s.layMap c).rtc = s.rtc ∧ (s.layMap c).pwr = s.pwr ∧ (s.layMap c).mgn = s.mgn ∧ (s.layMap c).free = s.free ∧
    (s.layMap c).pending = s.pending := by
  unfold State.layMap
  simp

@[simp] theorem State.alignStns_frame (s : State) (c : NetCfg) :
    (s.alignStns c).slot = s.slot ∧ (s.alignStns c).clk = s.clk ∧ (s.alignStns c).cyc = s.cyc ∧ (s.alignStns c).lanes = s.lanes ∧
    (s.alignStns c).calm = s.calm ∧ (s.alignStns c).img = s.img ∧ (s.alignStns c).net = s.net ∧ (s.alignStns c).stn = s.stn ∧
    (s.alignStns c).act = s.act ∧ (s.alignStns c).trk = s.trk ∧ (s.alignStns c).lio = s.lio ∧ (s.alignStns c).pair = s.pair ∧
    (s.alignStns c).chg = s.chg ∧ (s.alignStns c).host = s.host ∧ (s.alignStns c).keys = s.keys ∧ (s.alignStns c).wb = s.wb ∧
    (s.alignStns c).recd = s.recd ∧ (s.alignStns c).rtc = s.rtc ∧ (s.alignStns c).pwr = s.pwr ∧ (s.alignStns c).mgn = s.mgn ∧
    (s.alignStns c).mem = s.mem ∧ (s.alignStns c).free = s.free ∧ (s.alignStns c).pending = s.pending := by
  unfold State.alignStns
  simp

@[simp] theorem State.setCfg_frame (s : State) (c : NetCfg) :
    (s.setCfg c).slot = s.slot ∧ (s.setCfg c).clk = s.clk ∧ (s.setCfg c).cyc = s.cyc ∧ (s.setCfg c).lanes = s.lanes ∧
    (s.setCfg c).calm = s.calm ∧ (s.setCfg c).img = s.img ∧ (s.setCfg c).stn = s.stn ∧ (s.setCfg c).act = s.act ∧ (s.setCfg c).trk = s.trk ∧
    (s.setCfg c).lio = s.lio ∧ (s.setCfg c).chg = s.chg ∧ (s.setCfg c).host = s.host ∧ (s.setCfg c).keys = s.keys ∧ (s.setCfg c).wb = s.wb ∧
    (s.setCfg c).recd = s.recd ∧ (s.setCfg c).rtc = s.rtc ∧ (s.setCfg c).pwr = s.pwr ∧ (s.setCfg c).mgn = s.mgn ∧
    (s.setCfg c).free = s.free ∧ (s.setCfg c).pending = s.pending := by
  unfold State.setCfg
  dsimp only; (repeat' split) <;> simp

@[simp] theorem State.setSrc_frame (s : State) (x : TimeSrc) :
    (s.setSrc x).slot = s.slot ∧ (s.setSrc x).clk = s.clk ∧ (s.setSrc x).cyc = s.cyc ∧ (s.setSrc x).lanes = s.lanes ∧
    (s.setSrc x).calm = s.calm ∧ (s.setSrc x).img = s.img ∧ (s.setSrc x).stnM = s.stnM ∧ (s.setSrc x).stn = s.stn ∧
    (s.setSrc x).trk = s.trk ∧ (s.setSrc x).lio = s.lio ∧ (s.setSrc x).pair = s.pair ∧ (s.setSrc x).chg = s.chg ∧
    (s.setSrc x).host = s.host ∧ (s.setSrc x).keys = s.keys ∧ (s.setSrc x).wb = s.wb ∧ (s.setSrc x).pwr = s.pwr ∧ (s.setSrc x).mgn = s.mgn ∧
    (s.setSrc x).mem = s.mem ∧ (s.setSrc x).free = s.free ∧ (s.setSrc x).pending = s.pending := by
  unfold State.setSrc
  dsimp only; (repeat' split) <;> simp

@[simp] theorem State.netDone_frame (s : State) :
    s.netDone.slot = s.slot ∧ s.netDone.clk = s.clk ∧ s.netDone.calm = s.calm ∧ s.netDone.net = s.net ∧ s.netDone.stnM = s.stnM ∧
    s.netDone.stn = s.stn ∧ s.netDone.chg = s.chg ∧ s.netDone.keys = s.keys ∧ s.netDone.wb = s.wb ∧ s.netDone.rtc = s.rtc ∧
    s.netDone.pwr = s.pwr ∧ s.netDone.mgn = s.mgn ∧ s.netDone.mem = s.mem ∧ s.netDone.free = s.free ∧ s.netDone.pending = s.pending := by
  unfold State.netDone
  and_intros <;> (apply foldl_kept; intro s a; (try dsimp only); (repeat' split) <;> simp)

@[simp] theorem State.announceSched_frame (s : State) (n : Nat) :
    (s.announceSched n).slot = s.slot ∧ (s.announceSched n).clk = s.clk ∧ (s.announceSched n).cyc = s.cyc ∧
    (s.announceSched n).lanes = s.lanes ∧ (s.announceSched n).calm = s.calm ∧ (s.announceSched n).img = s.img ∧
    (s.announceSched n).stnM = s.stnM ∧ (s.announceSched n).stn = s.stn ∧ (s.announceSched n).act = s.act ∧
    (s.announceSched n).trk = s.trk ∧ (s.announceSched n).lio = s.lio ∧ (s.announceSched n).chg = s.chg ∧
    (s.announceSched n).host = s.host ∧ (s.announceSched n).keys = s.keys ∧ (s.announceSched n).wb = s.wb ∧
    (s.announceSched n).recd = s.recd ∧ (s.announceSched n).rtc = s.rtc ∧ (s.announceSched n).pwr = s.pwr ∧
    (s.announceSched n).mgn = s.mgn ∧ (s.announceSched n).mem = s.mem ∧ (s.announceSched n).free = s.free ∧
    (s.announceSched n).pending = s.pending := by
  unfold State.announceSched
  (repeat' split) <;> simp

@[simp] theorem State.silence_frame (s : State) :
    s.silence.slot = s.slot ∧ s.silence.lanes = s.lanes ∧ s.silence.calm = s.calm ∧ s.silence.stnM = s.stnM ∧ s.silence.stn = s.stn ∧
    s.silence.act = s.act ∧ s.silence.trk = s.trk ∧ s.silence.lio = s.lio ∧ s.silence.pair = s.pair ∧ s.silence.chg = s.chg ∧
    s.silence.host = s.host ∧ s.silence.keys = s.keys ∧ s.silence.wb = s.wb ∧ s.silence.recd = s.recd ∧ s.silence.rtc = s.rtc ∧
    s.silence.pwr = s.pwr ∧ s.silence.mgn = s.mgn ∧ s.silence.mem = s.mem ∧ s.silence.free = s.free ∧ s.silence.pending = s.pending := by
  unfold State.silence
  simp

@[simp] theorem State.listen_frame (s : State) :
    s.listen.slot = s.slot ∧ s.listen.clk = s.clk ∧ s.listen.cyc = s.cyc ∧ s.listen.lanes = s.lanes ∧ s.listen.calm = s.calm ∧
    s.listen.img = s.img ∧ s.listen.stnM = s.stnM ∧ s.listen.stn = s.stn ∧ s.listen.act = s.act ∧ s.listen.trk = s.trk ∧
    s.listen.lio = s.lio ∧ s.listen.pair = s.pair ∧ s.listen.chg = s.chg ∧ s.listen.host = s.host ∧ s.listen.keys = s.keys ∧
    s.listen.wb = s.wb ∧ s.listen.recd = s.recd ∧ s.listen.rtc = s.rtc ∧ s.listen.pwr = s.pwr ∧ s.listen.mgn = s.mgn ∧
    s.listen.mem = s.mem ∧ s.listen.free = s.free ∧ s.listen.pending = s.pending := by
  unfold State.listen
  simp

@[simp] theorem State.startTrigger_frame (s : State) (c : NetCfg) :
    (s.startTrigger c).slot = s.slot ∧ (s.startTrigger c).calm = s.calm ∧ (s.startTrigger c).stn = s.stn ∧ (s.startTrigger c).chg = s.chg ∧
    (s.startTrigger c).keys = s.keys ∧ (s.startTrigger c).wb = s.wb ∧ (s.startTrigger c).pwr = s.pwr ∧ (s.startTrigger c).mgn = s.mgn ∧
    (s.startTrigger c).free = s.free ∧ (s.startTrigger c).pending = s.pending := by
  unfold State.startTrigger
  simp

@[simp] theorem State.handoverStep_frame (s : State) (k : Nat) :
    (s.handoverStep k).slot = s.slot ∧ (s.handoverStep k).clk = s.clk ∧ (s.handoverStep k).calm = s.calm ∧ (s.handoverStep k).net = s.net ∧
    (s.handoverStep k).stnM = s.stnM ∧ (s.handoverStep k).stn = s.stn ∧ (s.handoverStep k).keys = s.keys ∧ (s.handoverStep k).wb = s.wb ∧
    (s.handoverStep k).rtc = s.rtc ∧ (s.handoverStep k).pwr = s.pwr ∧ (s.handoverStep k).mgn = s.mgn ∧ (s.handoverStep k).mem = s.mem ∧
    (s.handoverStep k).pending = s.pending := by
  unfold State.handoverStep
  dsimp only; (repeat' split) <;> simp

@[simp] theorem State.rejoinEnd_frame (s : State) (status : Nat) (detail : Nat) :
    (s.rejoinEnd status detail).slot = s.slot ∧ (s.rejoinEnd status detail).clk = s.clk ∧ (s.rejoinEnd status detail).calm = s.calm ∧
    (s.rejoinEnd status detail).net = s.net ∧ (s.rejoinEnd status detail).stnM = s.stnM ∧ (s.rejoinEnd status detail).stn = s.stn ∧
    (s.rejoinEnd status detail).keys = s.keys ∧ (s.rejoinEnd status detail).wb = s.wb ∧ (s.rejoinEnd status detail).rtc = s.rtc ∧
    (s.rejoinEnd status detail).pwr = s.pwr ∧ (s.rejoinEnd status detail).mgn = s.mgn ∧ (s.rejoinEnd status detail).mem = s.mem ∧
    (s.rejoinEnd status detail).free = s.free ∧ (s.rejoinEnd status detail).pending = s.pending := by
  unfold State.rejoinEnd
  dsimp only; (repeat' split) <;> simp

@[simp] theorem State.placeCfg_frame (s : State) (b : Nat) (at_ : Nat) (f : Frame) :
    (s.placeCfg b at_ f).slot = s.slot ∧ (s.placeCfg b at_ f).clk = s.clk ∧ (s.placeCfg b at_ f).cyc = s.cyc ∧
    (s.placeCfg b at_ f).lanes = s.lanes ∧ (s.placeCfg b at_ f).calm = s.calm ∧ (s.placeCfg b at_ f).img = s.img ∧
    (s.placeCfg b at_ f).stnM = s.stnM ∧ (s.placeCfg b at_ f).stn = s.stn ∧ (s.placeCfg b at_ f).act = s.act ∧
    (s.placeCfg b at_ f).trk = s.trk ∧ (s.placeCfg b at_ f).lio = s.lio ∧ (s.placeCfg b at_ f).pair = s.pair ∧
    (s.placeCfg b at_ f).chg = s.chg ∧ (s.placeCfg b at_ f).host = s.host ∧ (s.placeCfg b at_ f).keys = s.keys ∧
    (s.placeCfg b at_ f).wb = s.wb ∧ (s.placeCfg b at_ f).recd = s.recd ∧ (s.placeCfg b at_ f).rtc = s.rtc ∧
    (s.placeCfg b at_ f).pwr = s.pwr ∧ (s.placeCfg b at_ f).mgn = s.mgn ∧ (s.placeCfg b at_ f).mem = s.mem ∧
    (s.placeCfg b at_ f).free = s.free ∧ (s.placeCfg b at_ f).pending = s.pending := by
  unfold State.placeCfg
  simp

@[simp] theorem State.pumpOne_frame (s : State) (i : Nat) :
    (s.pumpOne i).slot = s.slot ∧ (s.pumpOne i).clk = s.clk ∧ (s.pumpOne i).cyc = s.cyc ∧ (s.pumpOne i).lanes = s.lanes ∧
    (s.pumpOne i).calm = s.calm ∧ (s.pumpOne i).img = s.img ∧ (s.pumpOne i).stnM = s.stnM ∧ (s.pumpOne i).stn = s.stn ∧
    (s.pumpOne i).act = s.act ∧ (s.pumpOne i).trk = s.trk ∧ (s.pumpOne i).lio = s.lio ∧ (s.pumpOne i).chg = s.chg ∧
    (s.pumpOne i).host = s.host ∧ (s.pumpOne i).keys = s.keys ∧ (s.pumpOne i).wb = s.wb ∧ (s.pumpOne i).recd = s.recd ∧
    (s.pumpOne i).rtc = s.rtc ∧ (s.pumpOne i).pwr = s.pwr ∧ (s.pumpOne i).mgn = s.mgn ∧ (s.pumpOne i).mem = s.mem ∧
    (s.pumpOne i).free = s.free ∧ (s.pumpOne i).pending = s.pending := by
  unfold State.pumpOne
  dsimp only; (repeat' split) <;> simp

@[simp] theorem State.pumpCfg_frame (s : State) :
    s.pumpCfg.slot = s.slot ∧ s.pumpCfg.clk = s.clk ∧ s.pumpCfg.cyc = s.cyc ∧ s.pumpCfg.lanes = s.lanes ∧ s.pumpCfg.calm = s.calm ∧
    s.pumpCfg.img = s.img ∧ s.pumpCfg.stnM = s.stnM ∧ s.pumpCfg.stn = s.stn ∧ s.pumpCfg.act = s.act ∧ s.pumpCfg.trk = s.trk ∧
    s.pumpCfg.lio = s.lio ∧ s.pumpCfg.chg = s.chg ∧ s.pumpCfg.host = s.host ∧ s.pumpCfg.keys = s.keys ∧ s.pumpCfg.wb = s.wb ∧
    s.pumpCfg.recd = s.recd ∧ s.pumpCfg.rtc = s.rtc ∧ s.pumpCfg.pwr = s.pwr ∧ s.pumpCfg.mgn = s.mgn ∧ s.pumpCfg.mem = s.mem ∧
    s.pumpCfg.free = s.free ∧ s.pumpCfg.pending = s.pending := by
  unfold State.pumpCfg
  and_intros <;> first | rfl | (simp; done) | ((repeat' split) <;> first | rfl | (simp; done) |
      (apply foldl_kept; intro s a; (try dsimp only); (repeat' split) <;> first | rfl | (simp; done)))

@[simp] theorem State.ask_frame (s : State) (l : List CfgReq) :
    (s.ask l).slot = s.slot ∧ (s.ask l).clk = s.clk ∧ (s.ask l).cyc = s.cyc ∧ (s.ask l).lanes = s.lanes ∧ (s.ask l).calm = s.calm ∧
    (s.ask l).img = s.img ∧ (s.ask l).stnM = s.stnM ∧ (s.ask l).stn = s.stn ∧ (s.ask l).act = s.act ∧ (s.ask l).trk = s.trk ∧
    (s.ask l).lio = s.lio ∧ (s.ask l).chg = s.chg ∧ (s.ask l).host = s.host ∧ (s.ask l).keys = s.keys ∧ (s.ask l).wb = s.wb ∧
    (s.ask l).recd = s.recd ∧ (s.ask l).rtc = s.rtc ∧ (s.ask l).pwr = s.pwr ∧ (s.ask l).mgn = s.mgn ∧ (s.ask l).mem = s.mem ∧
    (s.ask l).free = s.free ∧ (s.ask l).pending = s.pending := by
  unfold State.ask
  simp

@[simp] theorem State.dropReqs_frame (s : State) (p : CfgReq → Bool) :
    (s.dropReqs p).slot = s.slot ∧ (s.dropReqs p).clk = s.clk ∧ (s.dropReqs p).cyc = s.cyc ∧ (s.dropReqs p).lanes = s.lanes ∧
    (s.dropReqs p).calm = s.calm ∧ (s.dropReqs p).img = s.img ∧ (s.dropReqs p).stnM = s.stnM ∧ (s.dropReqs p).stn = s.stn ∧
    (s.dropReqs p).act = s.act ∧ (s.dropReqs p).trk = s.trk ∧ (s.dropReqs p).lio = s.lio ∧ (s.dropReqs p).pair = s.pair ∧
    (s.dropReqs p).chg = s.chg ∧ (s.dropReqs p).host = s.host ∧ (s.dropReqs p).keys = s.keys ∧ (s.dropReqs p).wb = s.wb ∧
    (s.dropReqs p).recd = s.recd ∧ (s.dropReqs p).rtc = s.rtc ∧ (s.dropReqs p).pwr = s.pwr ∧ (s.dropReqs p).mgn = s.mgn ∧
    (s.dropReqs p).mem = s.mem ∧ (s.dropReqs p).free = s.free ∧ (s.dropReqs p).pending = s.pending := by
  unfold State.dropReqs
  simp

@[simp] theorem State.tellStn_frame (s : State) (code : Nat) :
    (s.tellStn code).slot = s.slot ∧ (s.tellStn code).clk = s.clk ∧ (s.tellStn code).cyc = s.cyc ∧ (s.tellStn code).lanes = s.lanes ∧
    (s.tellStn code).calm = s.calm ∧ (s.tellStn code).img = s.img ∧ (s.tellStn code).net = s.net ∧ (s.tellStn code).stnM = s.stnM ∧
    (s.tellStn code).stn = s.stn ∧ (s.tellStn code).act = s.act ∧ (s.tellStn code).trk = s.trk ∧ (s.tellStn code).lio = s.lio ∧
    (s.tellStn code).chg = s.chg ∧ (s.tellStn code).host = s.host ∧ (s.tellStn code).keys = s.keys ∧ (s.tellStn code).wb = s.wb ∧
    (s.tellStn code).recd = s.recd ∧ (s.tellStn code).rtc = s.rtc ∧ (s.tellStn code).pwr = s.pwr ∧ (s.tellStn code).mgn = s.mgn ∧
    (s.tellStn code).mem = s.mem ∧ (s.tellStn code).free = s.free ∧ (s.tellStn code).pending = s.pending := by
  unfold State.tellStn
  (repeat' split) <;> simp

@[simp] theorem State.moveStn_frame (s : State) (code : Nat) (f : StnM → StnM) :
    (s.moveStn code f).slot = s.slot ∧ (s.moveStn code f).clk = s.clk ∧ (s.moveStn code f).cyc = s.cyc ∧
    (s.moveStn code f).lanes = s.lanes ∧ (s.moveStn code f).calm = s.calm ∧ (s.moveStn code f).img = s.img ∧
    (s.moveStn code f).net = s.net ∧ (s.moveStn code f).stn = s.stn ∧ (s.moveStn code f).act = s.act ∧ (s.moveStn code f).trk = s.trk ∧
    (s.moveStn code f).lio = s.lio ∧ (s.moveStn code f).chg = s.chg ∧ (s.moveStn code f).host = s.host ∧ (s.moveStn code f).keys = s.keys ∧
    (s.moveStn code f).wb = s.wb ∧ (s.moveStn code f).recd = s.recd ∧ (s.moveStn code f).rtc = s.rtc ∧ (s.moveStn code f).pwr = s.pwr ∧
    (s.moveStn code f).mgn = s.mgn ∧ (s.moveStn code f).mem = s.mem ∧ (s.moveStn code f).free = s.free ∧
    (s.moveStn code f).pending = s.pending := by
  unfold State.moveStn
  simp

@[simp] theorem State.readIdentity_frame (s : State) (code : Nat) :
    (s.readIdentity code).slot = s.slot ∧ (s.readIdentity code).clk = s.clk ∧ (s.readIdentity code).cyc = s.cyc ∧
    (s.readIdentity code).lanes = s.lanes ∧ (s.readIdentity code).calm = s.calm ∧ (s.readIdentity code).img = s.img ∧
    (s.readIdentity code).stn = s.stn ∧ (s.readIdentity code).act = s.act ∧ (s.readIdentity code).trk = s.trk ∧
    (s.readIdentity code).lio = s.lio ∧ (s.readIdentity code).chg = s.chg ∧ (s.readIdentity code).host = s.host ∧
    (s.readIdentity code).keys = s.keys ∧ (s.readIdentity code).wb = s.wb ∧ (s.readIdentity code).recd = s.recd ∧
    (s.readIdentity code).rtc = s.rtc ∧ (s.readIdentity code).pwr = s.pwr ∧ (s.readIdentity code).mgn = s.mgn ∧
    (s.readIdentity code).mem = s.mem ∧ (s.readIdentity code).free = s.free ∧ (s.readIdentity code).pending = s.pending := by
  unfold State.readIdentity
  simp

@[simp] theorem State.writeIncl_frame (s : State) (c : NetCfg) (code : Nat) (p : StnPar) :
    (s.writeIncl c code p).slot = s.slot ∧ (s.writeIncl c code p).clk = s.clk ∧ (s.writeIncl c code p).cyc = s.cyc ∧
    (s.writeIncl c code p).lanes = s.lanes ∧ (s.writeIncl c code p).calm = s.calm ∧ (s.writeIncl c code p).img = s.img ∧
    (s.writeIncl c code p).stn = s.stn ∧ (s.writeIncl c code p).act = s.act ∧ (s.writeIncl c code p).trk = s.trk ∧
    (s.writeIncl c code p).lio = s.lio ∧ (s.writeIncl c code p).chg = s.chg ∧ (s.writeIncl c code p).host = s.host ∧
    (s.writeIncl c code p).keys = s.keys ∧ (s.writeIncl c code p).wb = s.wb ∧ (s.writeIncl c code p).recd = s.recd ∧
    (s.writeIncl c code p).rtc = s.rtc ∧ (s.writeIncl c code p).pwr = s.pwr ∧ (s.writeIncl c code p).mgn = s.mgn ∧
    (s.writeIncl c code p).mem = s.mem ∧ (s.writeIncl c code p).free = s.free ∧ (s.writeIncl c code p).pending = s.pending := by
  unfold State.writeIncl
  simp

@[simp] theorem State.onBr_frame (s : State) (i : Nat) (f : Branch → Branch) :
    (s.onBr i f).slot = s.slot ∧ (s.onBr i f).clk = s.clk ∧ (s.onBr i f).cyc = s.cyc ∧ (s.onBr i f).lanes = s.lanes ∧
    (s.onBr i f).calm = s.calm ∧ (s.onBr i f).img = s.img ∧ (s.onBr i f).stnM = s.stnM ∧ (s.onBr i f).stn = s.stn ∧
    (s.onBr i f).act = s.act ∧ (s.onBr i f).trk = s.trk ∧ (s.onBr i f).lio = s.lio ∧ (s.onBr i f).pair = s.pair ∧ (s.onBr i f).chg = s.chg ∧
    (s.onBr i f).host = s.host ∧ (s.onBr i f).keys = s.keys ∧ (s.onBr i f).wb = s.wb ∧ (s.onBr i f).recd = s.recd ∧
    (s.onBr i f).rtc = s.rtc ∧ (s.onBr i f).pwr = s.pwr ∧ (s.onBr i f).mgn = s.mgn ∧ (s.onBr i f).mem = s.mem ∧ (s.onBr i f).free = s.free ∧
    (s.onBr i f).pending = s.pending := by
  unfold State.onBr
  simp

@[simp] theorem State.judge_frame (s : State) (c : NetCfg) (branch : Nat) (seen : Seen) (f : Frame) :
    (s.judge c branch seen f).2.slot = s.slot ∧ (s.judge c branch seen f).2.clk = s.clk ∧ (s.judge c branch seen f).2.cyc = s.cyc ∧
    (s.judge c branch seen f).2.lanes = s.lanes ∧ (s.judge c branch seen f).2.calm = s.calm ∧ (s.judge c branch seen f).2.img = s.img ∧
    (s.judge c branch seen f).2.net = s.net ∧ (s.judge c branch seen f).2.stnM = s.stnM ∧ (s.judge c branch seen f).2.stn = s.stn ∧
    (s.judge c branch seen f).2.act = s.act ∧ (s.judge c branch seen f).2.trk = s.trk ∧ (s.judge c branch seen f).2.lio = s.lio ∧
    (s.judge c branch seen f).2.pair = s.pair ∧ (s.judge c branch seen f).2.chg = s.chg ∧ (s.judge c branch seen f).2.host = s.host ∧
    (s.judge c branch seen f).2.keys = s.keys ∧ (s.judge c branch seen f).2.wb = s.wb ∧ (s.judge c branch seen f).2.recd = s.recd ∧
    (s.judge c branch seen f).2.rtc = s.rtc ∧ (s.judge c branch seen f).2.pwr = s.pwr ∧ (s.judge c branch seen f).2.mgn = s.mgn ∧
    (s.judge c branch seen f).2.mem = s.mem ∧ (s.judge c branch seen f).2.pending = s.pending := by
  unfold State.judge
  dsimp only; (repeat' split) <;> simp

@[simp] theorem State.admitted_frame (s : State) (c : NetCfg) (branch : Nat) (room : Nat) (f : Frame) :
    (s.admitted c branch room f).slot = s.slot ∧ (s.admitted c branch room f).clk = s.clk ∧ (s.admitted c branch room f).cyc = s.cyc ∧
    (s.admitted c branch room f).lanes = s.lanes ∧ (s.admitted c branch room f).calm = s.calm ∧ (s.admitted c branch room f).img = s.img ∧
    (s.admitted c branch room f).stnM = s.stnM ∧ (s.admitted c branch room f).stn = s.stn ∧ (s.admitted c branch room f).act = s.act ∧
    (s.admitted c branch room f).trk = s.trk ∧ (s.admitted c branch room f).lio = s.lio ∧ (s.admitted c branch room f).chg = s.chg ∧
    (s.admitted c branch room f).host = s.host ∧ (s.admitted c branch room f).keys = s.keys ∧ (s.admitted c branch room f).wb = s.wb ∧
    (s.admitted c branch room f).recd = s.recd ∧ (s.admitted c branch room f).rtc = s.rtc ∧ (s.admitted c branch room f).pwr = s.pwr ∧
    (s.admitted c branch room f).mgn = s.mgn ∧ (s.admitted c branch room f).mem = s.mem ∧ (s.admitted c branch room f).free = s.free ∧
    (s.admitted c branch room f).pending = s.pending := by
  unfold State.admitted
  (repeat' split) <;> simp

@[simp] theorem State.writeDelays_frame (s : State) (code : Nat) (ch : Side) (down : Nat) (up : Nat) :
    (s.writeDelays code ch down up).slot = s.slot ∧ (s.writeDelays code ch down up).clk = s.clk ∧
    (s.writeDelays code ch down up).cyc = s.cyc ∧ (s.writeDelays code ch down up).lanes = s.lanes ∧
    (s.writeDelays code ch down up).calm = s.calm ∧ (s.writeDelays code ch down up).img = s.img ∧
    (s.writeDelays code ch down up).stn = s.stn ∧ (s.writeDelays code ch down up).act = s.act ∧
    (s.writeDelays code ch down up).trk = s.trk ∧ (s.writeDelays code ch down up).lio = s.lio ∧
    (s.writeDelays code ch down up).chg = s.chg ∧ (s.writeDelays code ch down up).host = s.host ∧
    (s.writeDelays code ch down up).keys = s.keys ∧ (s.writeDelays code ch down up).wb = s.wb ∧
    (s.writeDelays code ch down up).recd = s.recd ∧ (s.writeDelays code ch down up).rtc = s.rtc ∧
    (s.writeDelays code ch down up).pwr = s.pwr ∧ (s.writeDelays code ch down up).mgn = s.mgn ∧
    (s.writeDelays code ch down up).mem = s.mem ∧ (s.writeDelays code ch down up).free = s.free ∧
    (s.writeDelays code ch down up).pending = s.pending := by
  unfold State.writeDelays
  simp

@[simp] theorem State.measure_frame (s : State) (x : StnM) (ch : Side) :
    (s.measure x ch).slot = s.slot ∧ (s.measure x ch).clk = s.clk ∧ (s.measure x ch).cyc = s.cyc ∧ (s.measure x ch).lanes = s.lanes ∧
    (s.measure x ch).calm = s.calm ∧ (s.measure x ch).img = s.img ∧ (s.measure x ch).stn = s.stn ∧ (s.measure x ch).act = s.act ∧
    (s.measure x ch).trk = s.trk ∧ (s.measure x ch).lio = s.lio ∧ (s.measure x ch).chg = s.chg ∧ (s.measure x ch).host = s.host ∧
    (s.measure x ch).keys = s.keys ∧ (s.measure x ch).wb = s.wb ∧ (s.measure x ch).rtc = s.rtc ∧ (s.measure x ch).pwr = s.pwr ∧
    (s.measure x ch).mgn = s.mgn ∧ (s.measure x ch).mem = s.mem ∧ (s.measure x ch).free = s.free ∧
    (s.measure x ch).pending = s.pending := by
  unfold State.measure
  dsimp only; (repeat' split) <;> simp

@[simp] theorem State.pairLate_frame (s : State) (win : Nat) (w : WinEnt) :
    (s.pairLate win w).slot = s.slot ∧ (s.pairLate win w).clk = s.clk ∧ (s.pairLate win w).cyc = s.cyc ∧
    (s.pairLate win w).lanes = s.lanes ∧ (s.pairLate win w).calm = s.calm ∧ (s.pairLate win w).img = s.img ∧
    (s.pairLate win w).stnM = s.stnM ∧ (s.pairLate win w).stn = s.stn ∧ (s.pairLate win w).act = s.act ∧ (s.pairLate win w).trk = s.trk ∧
    (s.pairLate win w).lio = s.lio ∧ (s.pairLate win w).pair = s.pair ∧ (s.pairLate win w).chg = s.chg ∧ (s.pairLate win w).host = s.host ∧
    (s.pairLate win w).keys = s.keys ∧ (s.pairLate win w).wb = s.wb ∧ (s.pairLate win w).recd = s.recd ∧ (s.pairLate win w).rtc = s.rtc ∧
    (s.pairLate win w).pwr = s.pwr ∧ (s.pairLate win w).mgn = s.mgn ∧ (s.pairLate win w).mem = s.mem ∧ (s.pairLate win w).free = s.free ∧
    (s.pairLate win w).pending = s.pending := by
  unfold State.pairLate
  (repeat' split) <;> simp

@[simp] theorem State.domainsOff_frame (s : State) (m : BitVec 12) :
    (s.domainsOff m).slot = s.slot ∧ (s.domainsOff m).clk = s.clk ∧ (s.domainsOff m).cyc = s.cyc ∧ (s.domainsOff m).lanes = s.lanes ∧
    (s.domainsOff m).calm = s.calm ∧ (s.domainsOff m).img = s.img ∧ (s.domainsOff m).net = s.net ∧ (s.domainsOff m).stnM = s.stnM ∧
    (s.domainsOff m).stn = s.stn ∧ (s.domainsOff m).act = s.act ∧ (s.domainsOff m).trk = s.trk ∧ (s.domainsOff m).lio = s.lio ∧
    (s.domainsOff m).pair = s.pair ∧ (s.domainsOff m).chg = s.chg ∧ (s.domainsOff m).host = s.host ∧ (s.domainsOff m).keys = s.keys ∧
    (s.domainsOff m).wb = s.wb ∧ (s.domainsOff m).recd = s.recd ∧ (s.domainsOff m).rtc = s.rtc ∧ (s.domainsOff m).mgn = s.mgn ∧
    (s.domainsOff m).mem = s.mem ∧ (s.domainsOff m).free = s.free ∧ (s.domainsOff m).pending = s.pending := by
  unfold State.domainsOff
  simp

@[simp] theorem State.sendSync_frame (s : State) (c : NetCfg) :
    (s.sendSync c).slot = s.slot ∧ (s.sendSync c).clk = s.clk ∧ (s.sendSync c).cyc = s.cyc ∧ (s.sendSync c).lanes = s.lanes ∧
    (s.sendSync c).calm = s.calm ∧ (s.sendSync c).img = s.img ∧ (s.sendSync c).stnM = s.stnM ∧ (s.sendSync c).stn = s.stn ∧
    (s.sendSync c).act = s.act ∧ (s.sendSync c).trk = s.trk ∧ (s.sendSync c).lio = s.lio ∧ (s.sendSync c).pair = s.pair ∧
    (s.sendSync c).chg = s.chg ∧ (s.sendSync c).host = s.host ∧ (s.sendSync c).keys = s.keys ∧ (s.sendSync c).wb = s.wb ∧
    (s.sendSync c).recd = s.recd ∧ (s.sendSync c).rtc = s.rtc ∧ (s.sendSync c).pwr = s.pwr ∧ (s.sendSync c).mgn = s.mgn ∧
    (s.sendSync c).mem = s.mem ∧ (s.sendSync c).free = s.free ∧ (s.sendSync c).pending = s.pending := by
  unfold State.sendSync
  simp

@[simp] theorem State.guardMatrix_frame (s : State) :
    s.guardMatrix.slot = s.slot ∧ s.guardMatrix.clk = s.clk ∧ s.guardMatrix.cyc = s.cyc ∧ s.guardMatrix.lanes = s.lanes ∧
    s.guardMatrix.calm = s.calm ∧ s.guardMatrix.img = s.img ∧ s.guardMatrix.stnM = s.stnM ∧ s.guardMatrix.stn = s.stn ∧
    s.guardMatrix.act = s.act ∧ s.guardMatrix.trk = s.trk ∧ s.guardMatrix.lio = s.lio ∧ s.guardMatrix.pair = s.pair ∧
    s.guardMatrix.chg = s.chg ∧ s.guardMatrix.host = s.host ∧ s.guardMatrix.keys = s.keys ∧ s.guardMatrix.wb = s.wb ∧
    s.guardMatrix.rtc = s.rtc ∧ s.guardMatrix.pwr = s.pwr ∧ s.guardMatrix.mgn = s.mgn ∧ s.guardMatrix.mem = s.mem ∧
    s.guardMatrix.free = s.free ∧ s.guardMatrix.pending = s.pending := by
  unfold State.guardMatrix
  and_intros <;> (apply foldl_kept; intro s a; (try dsimp only); (repeat' split) <;> simp)

@[simp] theorem State.loadMatrix_frame (s : State) :
    s.loadMatrix.slot = s.slot ∧ s.loadMatrix.clk = s.clk ∧ s.loadMatrix.cyc = s.cyc ∧ s.loadMatrix.calm = s.calm ∧
    s.loadMatrix.img = s.img ∧ s.loadMatrix.stn = s.stn ∧ s.loadMatrix.act = s.act ∧ s.loadMatrix.trk = s.trk ∧ s.loadMatrix.lio = s.lio ∧
    s.loadMatrix.chg = s.chg ∧ s.loadMatrix.host = s.host ∧ s.loadMatrix.keys = s.keys ∧ s.loadMatrix.wb = s.wb ∧ s.loadMatrix.rtc = s.rtc ∧
    s.loadMatrix.pwr = s.pwr ∧ s.loadMatrix.mgn = s.mgn ∧ s.loadMatrix.mem = s.mem ∧ s.loadMatrix.free = s.free ∧
    s.loadMatrix.pending = s.pending := by
  unfold State.loadMatrix
  simp

@[simp] theorem State.schedSwitch_frame (s : State) :
    s.schedSwitch.slot = s.slot ∧ s.schedSwitch.clk = s.clk ∧ s.schedSwitch.calm = s.calm ∧ s.schedSwitch.stn = s.stn ∧
    s.schedSwitch.chg = s.chg ∧ s.schedSwitch.keys = s.keys ∧ s.schedSwitch.wb = s.wb ∧ s.schedSwitch.rtc = s.rtc ∧
    s.schedSwitch.pwr = s.pwr ∧ s.schedSwitch.mgn = s.mgn ∧ s.schedSwitch.free = s.free ∧ s.schedSwitch.pending = s.pending := by
  unfold State.schedSwitch
  (repeat' split) <;> simp

@[simp] theorem State.switchCycle_frame (s : State) :
    s.switchCycle.slot = s.slot ∧ s.switchCycle.clk = s.clk ∧ s.switchCycle.calm = s.calm ∧ s.switchCycle.net = s.net ∧
    s.switchCycle.stnM = s.stnM ∧ s.switchCycle.stn = s.stn ∧ s.switchCycle.keys = s.keys ∧ s.switchCycle.wb = s.wb ∧
    s.switchCycle.rtc = s.rtc ∧ s.switchCycle.mgn = s.mgn ∧ s.switchCycle.mem = s.mem ∧ s.switchCycle.free = s.free ∧
    s.switchCycle.pending = s.pending := by
  unfold State.switchCycle
  (repeat' split) <;> simp

@[simp] theorem State.sendSafe_frame (s : State) (c : NetCfg) :
    (s.sendSafe c).slot = s.slot ∧ (s.sendSafe c).clk = s.clk ∧ (s.sendSafe c).cyc = s.cyc ∧ (s.sendSafe c).lanes = s.lanes ∧
    (s.sendSafe c).calm = s.calm ∧ (s.sendSafe c).img = s.img ∧ (s.sendSafe c).stn = s.stn ∧ (s.sendSafe c).act = s.act ∧
    (s.sendSafe c).trk = s.trk ∧ (s.sendSafe c).lio = s.lio ∧ (s.sendSafe c).chg = s.chg ∧ (s.sendSafe c).host = s.host ∧
    (s.sendSafe c).keys = s.keys ∧ (s.sendSafe c).wb = s.wb ∧ (s.sendSafe c).recd = s.recd ∧ (s.sendSafe c).rtc = s.rtc ∧
    (s.sendSafe c).pwr = s.pwr ∧ (s.sendSafe c).mgn = s.mgn ∧ (s.sendSafe c).mem = s.mem ∧ (s.sendSafe c).free = s.free ∧
    (s.sendSafe c).pending = s.pending := by
  unfold State.sendSafe
  refine ⟨(foldl_kept (·.slot) _ (fun s a => ?_) _ _).trans ?_, (foldl_kept (·.clk) _ (fun s a => ?_) _ _).trans ?_,
    (foldl_kept (·.cyc) _ (fun s a => ?_) _ _).trans ?_, (foldl_kept (·.lanes) _ (fun s a => ?_) _ _).trans ?_,
    (foldl_kept (·.calm) _ (fun s a => ?_) _ _).trans ?_, (foldl_kept (·.img) _ (fun s a => ?_) _ _).trans ?_,
    (foldl_kept (·.stn) _ (fun s a => ?_) _ _).trans ?_, (foldl_kept (·.act) _ (fun s a => ?_) _ _).trans ?_,
    (foldl_kept (·.trk) _ (fun s a => ?_) _ _).trans ?_, (foldl_kept (·.lio) _ (fun s a => ?_) _ _).trans ?_,
    (foldl_kept (·.chg) _ (fun s a => ?_) _ _).trans ?_, (foldl_kept (·.host) _ (fun s a => ?_) _ _).trans ?_,
    (foldl_kept (·.keys) _ (fun s a => ?_) _ _).trans ?_, (foldl_kept (·.wb) _ (fun s a => ?_) _ _).trans ?_,
    (foldl_kept (·.recd) _ (fun s a => ?_) _ _).trans ?_, (foldl_kept (·.rtc) _ (fun s a => ?_) _ _).trans ?_,
    (foldl_kept (·.pwr) _ (fun s a => ?_) _ _).trans ?_, (foldl_kept (·.mgn) _ (fun s a => ?_) _ _).trans ?_,
    (foldl_kept (·.mem) _ (fun s a => ?_) _ _).trans ?_, (foldl_kept (·.free) _ (fun s a => ?_) _ _).trans ?_,
    (foldl_kept (·.pending) _ (fun s a => ?_) _ _).trans ?_⟩ <;>
    ((try dsimp only); (repeat' split) <;> simp)

@[simp] theorem State.startChecks_frame (s : State) :
    s.startChecks.slot = s.slot ∧ s.startChecks.clk = s.clk ∧ s.startChecks.cyc = s.cyc ∧ s.startChecks.lanes = s.lanes ∧
    s.startChecks.calm = s.calm ∧ s.startChecks.img = s.img ∧ s.startChecks.stn = s.stn ∧ s.startChecks.act = s.act ∧
    s.startChecks.trk = s.trk ∧ s.startChecks.lio = s.lio ∧ s.startChecks.chg = s.chg ∧ s.startChecks.host = s.host ∧
    s.startChecks.keys = s.keys ∧ s.startChecks.wb = s.wb ∧ s.startChecks.recd = s.recd ∧ s.startChecks.rtc = s.rtc ∧
    s.startChecks.pwr = s.pwr ∧ s.startChecks.mgn = s.mgn ∧ s.startChecks.mem = s.mem ∧ s.startChecks.free = s.free ∧
    s.startChecks.pending = s.pending := by
  unfold State.startChecks
  and_intros <;> (apply foldl_kept; intro s a; (try dsimp only); (repeat' split) <;> simp)

@[simp] theorem State.holderAsks_frame (s : State) (c : NetCfg) :
    (s.holderAsks c).slot = s.slot ∧ (s.holderAsks c).clk = s.clk ∧ (s.holderAsks c).cyc = s.cyc ∧ (s.holderAsks c).lanes = s.lanes ∧
    (s.holderAsks c).calm = s.calm ∧ (s.holderAsks c).img = s.img ∧ (s.holderAsks c).stn = s.stn ∧ (s.holderAsks c).act = s.act ∧
    (s.holderAsks c).trk = s.trk ∧ (s.holderAsks c).lio = s.lio ∧ (s.holderAsks c).chg = s.chg ∧ (s.holderAsks c).host = s.host ∧
    (s.holderAsks c).keys = s.keys ∧ (s.holderAsks c).wb = s.wb ∧ (s.holderAsks c).recd = s.recd ∧ (s.holderAsks c).rtc = s.rtc ∧
    (s.holderAsks c).pwr = s.pwr ∧ (s.holderAsks c).mgn = s.mgn ∧ (s.holderAsks c).mem = s.mem ∧ (s.holderAsks c).free = s.free ∧
    (s.holderAsks c).pending = s.pending := by
  unfold State.holderAsks
  (repeat' split) <;> simp

@[simp] theorem State.startDone_frame (s : State) :
    s.startDone.slot = s.slot ∧ s.startDone.clk = s.clk ∧ s.startDone.calm = s.calm ∧ s.startDone.net = s.net ∧ s.startDone.stnM = s.stnM ∧
    s.startDone.stn = s.stn ∧ s.startDone.chg = s.chg ∧ s.startDone.keys = s.keys ∧ s.startDone.wb = s.wb ∧ s.startDone.rtc = s.rtc ∧
    s.startDone.pwr = s.pwr ∧ s.startDone.mgn = s.mgn ∧ s.startDone.mem = s.mem ∧ s.startDone.free = s.free ∧
    s.startDone.pending = s.pending := by
  unfold State.startDone
  simp

@[simp] theorem State.fixFirst_frame (s : State) (c : NetCfg) :
    (s.fixFirst c).slot = s.slot ∧ (s.fixFirst c).clk = s.clk ∧ (s.fixFirst c).lanes = s.lanes ∧ (s.fixFirst c).calm = s.calm ∧
    (s.fixFirst c).img = s.img ∧ (s.fixFirst c).net = s.net ∧ (s.fixFirst c).stnM = s.stnM ∧ (s.fixFirst c).stn = s.stn ∧
    (s.fixFirst c).act = s.act ∧ (s.fixFirst c).trk = s.trk ∧ (s.fixFirst c).lio = s.lio ∧ (s.fixFirst c).pair = s.pair ∧
    (s.fixFirst c).chg = s.chg ∧ (s.fixFirst c).host = s.host ∧ (s.fixFirst c).keys = s.keys ∧ (s.fixFirst c).wb = s.wb ∧
    (s.fixFirst c).recd = s.recd ∧ (s.fixFirst c).rtc = s.rtc ∧ (s.fixFirst c).pwr = s.pwr ∧ (s.fixFirst c).mgn = s.mgn ∧
    (s.fixFirst c).mem = s.mem ∧ (s.fixFirst c).free = s.free ∧ (s.fixFirst c).pending = s.pending := by
  unfold State.fixFirst
  (repeat' split) <;> simp

@[simp] theorem State.beginCycle_frame (s : State) (n : Nat) :
    (s.beginCycle n).slot = s.slot ∧ (s.beginCycle n).calm = s.calm ∧ (s.beginCycle n).stn = s.stn ∧ (s.beginCycle n).keys = s.keys ∧
    (s.beginCycle n).wb = s.wb ∧ (s.beginCycle n).rtc = s.rtc ∧ (s.beginCycle n).mgn = s.mgn ∧ (s.beginCycle n).free = s.free ∧
    (s.beginCycle n).pending = s.pending := by
  unfold State.beginCycle
  dsimp only; (repeat' split) <;> simp

@[simp] theorem State.follow_frame (s : State) (joinAt : Nat) (t : Nat) :
    (s.follow joinAt t).slot = s.slot ∧ (s.follow joinAt t).clk = s.clk ∧ (s.follow joinAt t).cyc = s.cyc ∧
    (s.follow joinAt t).lanes = s.lanes ∧ (s.follow joinAt t).calm = s.calm ∧ (s.follow joinAt t).img = s.img ∧
    (s.follow joinAt t).stnM = s.stnM ∧ (s.follow joinAt t).stn = s.stn ∧ (s.follow joinAt t).act = s.act ∧
    (s.follow joinAt t).trk = s.trk ∧ (s.follow joinAt t).lio = s.lio ∧ (s.follow joinAt t).pair = s.pair ∧
    (s.follow joinAt t).chg = s.chg ∧ (s.follow joinAt t).host = s.host ∧ (s.follow joinAt t).keys = s.keys ∧
    (s.follow joinAt t).wb = s.wb ∧ (s.follow joinAt t).recd = s.recd ∧ (s.follow joinAt t).rtc = s.rtc ∧ (s.follow joinAt t).pwr = s.pwr ∧
    (s.follow joinAt t).mgn = s.mgn ∧ (s.follow joinAt t).mem = s.mem ∧ (s.follow joinAt t).free = s.free ∧
    (s.follow joinAt t).pending = s.pending := by
  unfold State.follow
  simp

@[simp] theorem State.onFeed_frame (s : State) (k : Side) (f : Feed → Feed) :
    (s.onFeed k f).slot = s.slot ∧ (s.onFeed k f).clk = s.clk ∧ (s.onFeed k f).cyc = s.cyc ∧ (s.onFeed k f).lanes = s.lanes ∧
    (s.onFeed k f).calm = s.calm ∧ (s.onFeed k f).img = s.img ∧ (s.onFeed k f).net = s.net ∧ (s.onFeed k f).stnM = s.stnM ∧
    (s.onFeed k f).stn = s.stn ∧ (s.onFeed k f).act = s.act ∧ (s.onFeed k f).trk = s.trk ∧ (s.onFeed k f).lio = s.lio ∧
    (s.onFeed k f).pair = s.pair ∧ (s.onFeed k f).chg = s.chg ∧ (s.onFeed k f).host = s.host ∧ (s.onFeed k f).keys = s.keys ∧
    (s.onFeed k f).wb = s.wb ∧ (s.onFeed k f).recd = s.recd ∧ (s.onFeed k f).rtc = s.rtc ∧ (s.onFeed k f).mgn = s.mgn ∧
    (s.onFeed k f).mem = s.mem ∧ (s.onFeed k f).free = s.free ∧ (s.onFeed k f).pending = s.pending := by
  unfold State.onFeed
  (repeat' split) <;> simp

@[simp] theorem State.setStn_frame (s : State) (x : Stn) :
    (s.setStn x).slot = s.slot ∧ (s.setStn x).clk = s.clk ∧ (s.setStn x).cyc = s.cyc ∧ (s.setStn x).lanes = s.lanes ∧
    (s.setStn x).calm = s.calm ∧ (s.setStn x).img = s.img ∧ (s.setStn x).net = s.net ∧ (s.setStn x).stnM = s.stnM ∧
    (s.setStn x).act = s.act ∧ (s.setStn x).trk = s.trk ∧ (s.setStn x).lio = s.lio ∧ (s.setStn x).pair = s.pair ∧ (s.setStn x).chg = s.chg ∧
    (s.setStn x).host = s.host ∧ (s.setStn x).keys = s.keys ∧ (s.setStn x).wb = s.wb ∧ (s.setStn x).recd = s.recd ∧
    (s.setStn x).rtc = s.rtc ∧ (s.setStn x).pwr = s.pwr ∧ (s.setStn x).mgn = s.mgn ∧ (s.setStn x).mem = s.mem ∧ (s.setStn x).free = s.free ∧
    (s.setStn x).pending = s.pending := by
  unfold State.setStn
  simp

@[simp] theorem State.drawFwd_frame (s : State) (code : Nat) (ch : Side) (up : Bool) :
    (s.drawFwd code ch up).2.slot = s.slot ∧ (s.drawFwd code ch up).2.clk = s.clk ∧ (s.drawFwd code ch up).2.cyc = s.cyc ∧
    (s.drawFwd code ch up).2.lanes = s.lanes ∧ (s.drawFwd code ch up).2.calm = s.calm ∧ (s.drawFwd code ch up).2.img = s.img ∧
    (s.drawFwd code ch up).2.net = s.net ∧ (s.drawFwd code ch up).2.stnM = s.stnM ∧ (s.drawFwd code ch up).2.stn = s.stn ∧
    (s.drawFwd code ch up).2.act = s.act ∧ (s.drawFwd code ch up).2.trk = s.trk ∧ (s.drawFwd code ch up).2.lio = s.lio ∧
    (s.drawFwd code ch up).2.pair = s.pair ∧ (s.drawFwd code ch up).2.chg = s.chg ∧ (s.drawFwd code ch up).2.host = s.host ∧
    (s.drawFwd code ch up).2.keys = s.keys ∧ (s.drawFwd code ch up).2.wb = s.wb ∧ (s.drawFwd code ch up).2.recd = s.recd ∧
    (s.drawFwd code ch up).2.rtc = s.rtc ∧ (s.drawFwd code ch up).2.pwr = s.pwr ∧ (s.drawFwd code ch up).2.mgn = s.mgn ∧
    (s.drawFwd code ch up).2.mem = s.mem ∧ (s.drawFwd code ch up).2.pending = s.pending := by
  unfold State.drawFwd
  simp

@[simp] theorem State.forwarded_frame (s : State) (code : Nat) (ch : Side) (f : Frame) :
    (s.forwarded code ch f).slot = s.slot ∧ (s.forwarded code ch f).clk = s.clk ∧ (s.forwarded code ch f).cyc = s.cyc ∧
    (s.forwarded code ch f).lanes = s.lanes ∧ (s.forwarded code ch f).calm = s.calm ∧ (s.forwarded code ch f).img = s.img ∧
    (s.forwarded code ch f).net = s.net ∧ (s.forwarded code ch f).stnM = s.stnM ∧ (s.forwarded code ch f).act = s.act ∧
    (s.forwarded code ch f).trk = s.trk ∧ (s.forwarded code ch f).lio = s.lio ∧ (s.forwarded code ch f).pair = s.pair ∧
    (s.forwarded code ch f).chg = s.chg ∧ (s.forwarded code ch f).host = s.host ∧ (s.forwarded code ch f).keys = s.keys ∧
    (s.forwarded code ch f).wb = s.wb ∧ (s.forwarded code ch f).recd = s.recd ∧ (s.forwarded code ch f).rtc = s.rtc ∧
    (s.forwarded code ch f).pwr = s.pwr ∧ (s.forwarded code ch f).mgn = s.mgn ∧ (s.forwarded code ch f).mem = s.mem ∧
    (s.forwarded code ch f).pending = s.pending := by
  unfold State.forwarded
  simp

@[simp] theorem State.stnTake_frame (s : State) (code : Nat) (ch : Side) (f : Frame) (room : Nat) (x : Stn) (act : Stn → Stn) :
    (s.stnTake code ch f room x act).slot = s.slot ∧ (s.stnTake code ch f room x act).clk = s.clk ∧
    (s.stnTake code ch f room x act).cyc = s.cyc ∧ (s.stnTake code ch f room x act).lanes = s.lanes ∧
    (s.stnTake code ch f room x act).calm = s.calm ∧ (s.stnTake code ch f room x act).img = s.img ∧
    (s.stnTake code ch f room x act).net = s.net ∧ (s.stnTake code ch f room x act).stnM = s.stnM ∧
    (s.stnTake code ch f room x act).act = s.act ∧ (s.stnTake code ch f room x act).trk = s.trk ∧
    (s.stnTake code ch f room x act).lio = s.lio ∧ (s.stnTake code ch f room x act).pair = s.pair ∧
    (s.stnTake code ch f room x act).chg = s.chg ∧ (s.stnTake code ch f room x act).host = s.host ∧
    (s.stnTake code ch f room x act).keys = s.keys ∧ (s.stnTake code ch f room x act).wb = s.wb ∧
    (s.stnTake code ch f room x act).recd = s.recd ∧ (s.stnTake code ch f room x act).rtc = s.rtc ∧
    (s.stnTake code ch f room x act).pwr = s.pwr ∧ (s.stnTake code ch f room x act).mgn = s.mgn ∧
    (s.stnTake code ch f room x act).mem = s.mem ∧ (s.stnTake code ch f room x act).pending = s.pending := by
  unfold State.stnTake
  dsimp only; (repeat' split) <;> simp

end Sys2Proof.Machine
end

