-- ==== Sys2Proof/Laws/Memory.lean ====
section
/-! SUPPORT. Memory: reading and writing one byte, and the canonical form, which every memory operation keeps. -/

namespace Sys2Proof.Machine
open Sys2Proof

@[simp] theorem memGet_nil (a : Nat) : memGet [] a = 0 := rfl
@[simp] theorem memWf_nil : memWf [] = true := rfl

/-- The canonical form, cell by cell: the first entry is not zero and lies below every other. -/
theorem memWf_cons (i : Nat) (b : Byte) (m : List Host.Cell) :
    memWf ((i, b) :: m) = true ↔ b ≠ 0 ∧ (∀ c ∈ m, i < c.1) ∧ memWf m = true := by
  induction m generalizing i b with
  | nil => simp [memWf]
  | cons c m ih =>
    obtain ⟨j, d⟩ := c
    simp only [memWf, Bool.and_eq_true, bne_iff_ne, decide_eq_true_eq]
    constructor
    · rintro ⟨⟨hb, hij⟩, hm⟩
      refine ⟨hb, ?_, hm⟩
      intro c hc
      rcases List.mem_cons.mp hc with rfl | hc
      · exact hij
      · exact Nat.lt_trans hij (((ih j d).mp hm).2.1 c hc)
    · rintro ⟨hb, hl, hm⟩
      exact ⟨⟨hb, hl _ List.mem_cons_self⟩, hm⟩

/-- Below every entry, memory reads zero. -/
theorem memGet_below (m : List Host.Cell) (a : Nat) (h : ∀ c ∈ m, a < c.1) : memGet m a = 0 := by
  induction m with
  | nil => rfl
  | cons c m ih =>
    obtain ⟨i, b⟩ := c
    have hi : a < i := h _ List.mem_cons_self
    rw [memGet, if_neg (by omega)]
    exact ih fun c hc => h c (List.mem_cons_of_mem _ hc)

/-- A store changes the byte at its address and no other. -/
theorem memGet_memSet (m : List Host.Cell) (a x : Nat) (v : Byte) (h : memWf m = true) :
    memGet (memSet m a v) x = if x = a then v else memGet m x := by
  induction m with
  | nil =>
    by_cases hv : v = 0 <;> by_cases hx : x = a
    · simp only [memSet, if_true, if_pos hx, memGet, hv]
    · simp only [memSet, if_pos hv, if_neg hx]
    · simp only [memSet, if_neg hv, memGet, hx, if_true]
    · simp only [memSet, if_neg hv, if_neg hx, memGet, if_neg (Ne.symm hx)]
  | cons c m ih =>
    obtain ⟨i, b⟩ := c
    obtain ⟨-, hl, hm⟩ := (memWf_cons i b m).mp h
    have h0 : ∀ y, y ≤ i → memGet m y = 0 := fun y hy => memGet_below m y fun c hc => Nat.lt_of_le_of_lt hy (hl c hc)
    by_cases hia : i < a
    · simp only [memSet, if_pos hia, memGet, ih hm]
      by_cases hix : i = x
      · simp only [if_pos hix, if_neg (show ¬x = a by omega)]
      · simp only [if_neg hix]
    · by_cases hea : i = a
      · subst hea
        by_cases hv : v = 0 <;> by_cases hx : x = i
        · subst hx; simp only [memSet, if_neg hia, if_true, h0 x (Nat.le_refl x), hv]
        · simp only [memSet, if_neg hia, if_pos hv, if_true, if_neg hx, memGet, if_neg (Ne.symm hx)]
        · subst hx; simp only [memSet, if_neg hia, if_neg hv, if_true, memGet]
        · simp only [memSet, if_neg hia, if_neg hv, if_true, if_neg hx, memGet, if_neg (Ne.symm hx)]
      · by_cases hv : v = 0 <;> by_cases hx : x = a
        · subst hx; simp only [memSet, if_neg hia, if_neg hea, if_true, memGet, h0 x (by omega), hv]
        · simp only [memSet, if_neg hia, if_neg hea, if_pos hv, if_neg hx]
        · subst hx; simp only [memSet, if_neg hia, if_neg hea, if_neg hv, if_true, memGet]
        · simp only [memSet, if_neg hia, if_neg hea, if_neg hv, if_neg hx]; rw [memGet, if_neg (Ne.symm hx)]

/-- An entry after a store is the stored one or one that stood. -/
theorem mem_memSet (m : List Host.Cell) (a : Nat) (v : Byte) : ∀ c ∈ memSet m a v, c = (a, v) ∨ c ∈ m := by
  induction m with
  | nil => intro c hc; simp only [memSet] at hc; split at hc <;> simp_all
  | cons d m ih =>
    obtain ⟨i, b⟩ := d
    intro c hc
    simp only [memSet] at hc
    split at hc
    · rcases List.mem_cons.mp hc with rfl | hc
      · exact .inr List.mem_cons_self
      · exact (ih c hc).imp_right (List.mem_cons_of_mem _)
    · split at hc <;> split at hc <;> simp_all <;> tauto

/-- A store of one byte keeps the canonical form. -/
theorem memWf_memSet (m : List Host.Cell) (a : Nat) (v : Byte) (h : memWf m = true) : memWf (memSet m a v) = true := by
  induction m with
  | nil => simp only [memSet]; split <;> simp_all [memWf]
  | cons c m ih =>
    obtain ⟨i, b⟩ := c
    obtain ⟨hb, hl, hm⟩ := (memWf_cons i b m).mp h
    simp only [memSet]
    split
    · rw [memWf_cons]
      refine ⟨hb, fun c hc => ?_, ih hm⟩
      rcases mem_memSet m a v c hc with rfl | hc
      · assumption
      · exact hl c hc
    · split
      · split
        · exact hm
        · subst a; rw [memWf_cons]; exact ⟨by assumption, hl, hm⟩
      · split
        · exact h
        · rw [memWf_cons]
          refine ⟨by assumption, fun c hc => ?_, h⟩
          rcases List.mem_cons.mp hc with rfl | hc
          · simp only; omega
          · exact Nat.lt_trans (by omega) (hl c hc)

/-- A store of a run of bytes keeps the canonical form. -/
theorem memWf_memPut (bs : List Byte) (m : List Host.Cell) (a : Nat) (h : memWf m = true) : memWf (memPut m a bs) = true := by
  induction bs generalizing m a with
  | nil => exact h
  | cons b bs ih => exact ih _ _ (memWf_memSet m a b h)

/-- A store of cells keeps the canonical form. -/
theorem memWf_memCells (cs m : List Host.Cell) (h : memWf m = true) : memWf (memCells m cs) = true := by
  induction cs generalizing m with
  | nil => exact h
  | cons c cs ih => exact ih _ (memWf_memSet m c.1 c.2 h)

/-- Dropping entries keeps the canonical form. -/
theorem memWf_filter (p : Host.Cell → Bool) (m : List Host.Cell) (h : memWf m = true) : memWf (m.filter p) = true := by
  induction m with
  | nil => rfl
  | cons c m ih =>
    obtain ⟨i, b⟩ := c
    obtain ⟨hb, hl, hm⟩ := (memWf_cons i b m).mp h
    rw [List.filter_cons]
    split
    · rw [memWf_cons]
      exact ⟨hb, fun c hc => hl c (List.mem_filter.mp hc).1, ih hm⟩
    · exact ih hm

theorem memWf_memClear (m : List Host.Cell) (a k : Nat) (h : memWf m = true) : memWf (memClear m a k) = true :=
  memWf_filter _ m h

theorem memWf_memCopy (m : List Host.Cell) (a b k : Nat) (h : memWf m = true) : memWf (memCopy m a b k) = true :=
  memWf_memCells _ _ (memWf_memClear m b k h)

theorem memWf_ptSet (m : List Host.Cell) (base kind pos : Nat) (v : BitVec 16) (h : memWf m = true) :
    memWf (ptSet m base kind pos v) = true := by
  unfold ptSet; split
  · exact memWf_memSet _ _ _ h
  · exact memWf_memPut _ _ _ h

theorem memWf_qualSet (m : List Host.Cell) (base kind pos : Nat) (q : BitVec 2) (h : memWf m = true) :
    memWf (qualSet m base kind pos q) = true := memWf_memSet _ _ _ h

/-- A run over a list keeps the canonical form if each of its steps does. -/
theorem memWf_foldl {α} (f : List Host.Cell → α → List Host.Cell) (hf : ∀ m a, memWf m = true → memWf (f m a) = true) (l : List α)
    (m : List Host.Cell) (h : memWf m = true) : memWf (l.foldl f m) = true := by
  induction l generalizing m with
  | nil => exact h
  | cons a l ih => exact ih _ (hf m a h)

theorem memWf_layInputs (m : List Host.Cell) (base : Nat) (l : List InPt) (hdr : List Byte) (h : memWf m = true) :
    memWf (layInputs m base l hdr) = true :=
  memWf_memPut _ _ _ (memWf_foldl _ (fun _ _ h => memWf_qualSet _ _ _ _ _ (memWf_ptSet _ _ _ _ _ h)) l m h)

theorem State.memWf_safeImage (s : State) (base : Nat) (m : List Host.Cell) (h : memWf m = true) :
    memWf (s.safeImage base m) = true :=
  memWf_foldl _ (fun _ _ h => memWf_qualSet _ _ _ _ _ (memWf_ptSet _ _ _ _ _ h)) _ m h

/-- A store of the state's memory keeps the canonical form. -/
theorem State.memWf_store (s : State) (a : Nat) (bs : List Byte) (h : memWf s.mem = true) : memWf (s.store a bs).mem = true := by
  unfold State.store State.mark
  split <;> exact memWf_memPut _ _ _ h

end Sys2Proof.Machine
end

