-- ==== Sys2Proof/Laws/Operands.lean ====
section
/-! SUPPORT. Little-endian bytes and association lists: what is written is read. -/

namespace Sys2Proof.Machine
open Sys2Proof

/-- The number that its bytes spell, modulo their width. -/
theorem unle_le (k n : Nat) : unle (le k n) = n % 256 ^ k := by
  induction k generalizing n with
  | zero => simp [le, unle, Nat.mod_one]
  | succ k ih =>
    have h : n % 256 ^ (k + 1) = n % 256 + 256 * (n / 256 % 256 ^ k) := by rw [Nat.pow_succ', Nat.mod_mul]
    simp only [le, unle, ih, h, BitVec.toNat_ofNat]

/-- A number takes as many bytes as it is given. -/
@[simp] theorem length_le (k n : Nat) : (le k n).length = k := by
  induction k generalizing n with
  | zero => rfl
  | succ k ih => simp [le, ih]

/-- A value set under a key is read under it, and every other key reads as before. -/
theorem alook_aset {α : Type} (k j : Nat) (a : α) (l : List (Nat × α)) :
    alook j (aset k a l) = if j = k then some a else alook j l := by
  induction l with
  | nil => simp [aset, alook, eq_comm]
  | cons c l ih =>
    obtain ⟨i, b⟩ := c
    by_cases h1 : i = k
    · subst h1; simp only [aset, alook, if_true]; split <;> simp_all [eq_comm]
    · by_cases h2 : k < i
      · simp only [aset, if_neg h1, if_pos h2, alook]; split <;> simp_all [eq_comm]
      · simp only [aset, if_neg h1, if_neg h2, alook, ih]
        by_cases h3 : i = j
        · simp only [if_pos h3, if_neg (show ¬j = k by omega)]
        · simp only [if_neg h3]

end Sys2Proof.Machine
end

