-- ==== Sys2Proof/WellFormed.lean ====
section
/-! DEFINITION. Well-formed commands: every operand is one that the sender can put on its wire. -/

namespace Sys2Proof

/-- A descriptor: 16 INLINE bytes, a LENGTH of 32 bits, buffer bytes inside LENGTH (13 R344). -/
def Cmd.wf (c : Cmd) : Bool :=
  c.inl.length = 16 && c.length < 2 ^ 32 && c.buf.cells.all fun x => x.1 < c.length

/-- A descriptor in a queue: OPCODE of 16 bits. -/
def Desc.wf (d : Desc) : Bool := d.opcode < 2 ^ 16 && d.cmd.wf

/-- An entry of a submission queue: 48 bytes before the MAC, a buffer within LENGTH. -/
def SqEnt.wf (e : SqEnt) : Bool := e.head.length = 48 && e.buf.cells.all fun x => x.1 < 2 ^ 32

/-- A frame: every header field in its width, at most 1,024 payload bytes (05 R144). -/
def Frame.wf (f : Frame) : Bool :=
  f.ftype < 256 && f.part < 16 && f.last < 16 && f.sched < 2 ^ 16 && f.length < 2 ^ 16 && f.seq < 2 ^ 32 &&
    f.version < 256 && f.payload.length ≤ 1024

/-- An image header: every field in its width (12 R310). -/
def ImgHdr.wf (h : ImgHdr) : Bool :=
  h.magic < 2 ^ 32 && h.hdrVersion < 2 ^ 16 && h.kind < 256 && h.hwType < 2 ^ 16 && h.unitSerial < 2 ^ 64 &&
    h.rollback < 2 ^ 32 && h.gen < 2 ^ 16 && h.settingsFmt < 2 ^ 16 && h.bodyLength < 2 ^ 64

/-- A body: the fields of its section table in their widths; a section that is not carried, or has LENGTH 0, has no content (12 R313). -/
def AppBody.wf (b : AppBody) : Bool :=
  let none_ (t : Nat) : Bool := match t with
    | 1 => b.tasks.isEmpty
    | 2 => b.splitLanes = 0 && b.marks.isEmpty
    | 3 => b.code.isEmpty && b.cacheable.isEmpty
    | 4 => b.data.isEmpty
    | 5 => b.wb.isEmpty
    | 6 => !b.mirrorFull && b.mirror.isEmpty
    | 7 => b.safe.isEmpty
    | 8 => b.subst.isEmpty
    | 9 => b.forceable.isEmpty
    | 10 => b.srcs.isEmpty && b.segs.isEmpty && b.wins.isEmpty && b.hos.isEmpty
    | 11 => b.retained.isEmpty
    | 16 => b.fwd.isEmpty
    | 17 => b.back.isEmpty
    | 18 => b.release.isEmpty
    | _ => true
  b.secs.length < 2 ^ 32 && b.secs.all (fun x => x.stype < 2 ^ 16 && x.offset < 2 ^ 32 && x.length < 2 ^ 32) &&
    (List.range 19).all fun t => none_ t || b.secs.any fun x => x.stype = t && x.length ≠ 0

/-- An image: header and body; of firmware the bytes of its body alone (12 R310, R313). -/
def AppImage.wf (i : AppImage) : Bool :=
  i.hdr.wf && i.body.wf && (if i.hdr.kind = 1 then i.body = {} else i.raw.isEmpty)

/-- A heartbeat: every field in its width (11 R284). -/
def Heartbeat.wf (h : Heartbeat) : Bool :=
  h.cycle < 2 ^ 64 && h.kind < 256 && h.role < 256 && h.calmCause < 256 && h.leaveCause < 256 && h.fwGen < 2 ^ 16 &&
    h.xferSeq < 2 ^ 32 && h.snapSeq < 2 ^ 32 && h.forceVer < 2 ^ 32 && h.lastKib < 2 ^ 32 && h.laneFaults < 256

/-- The rest of a switch's final close block: tasks numbered below 32, every entry of 16 bytes (11 R305). -/
def FinalClose.wf (f : FinalClose) : Bool := f.held.all (fun r => r.1 < 32 && r.2.length = 16) && f.pool.all (·.length = 16)

/-- A transaction: a 40-bit address, at most 64 bytes (15 R406, R408). -/
def Txn.wf (t : Txn) : Bool := t.addr < 2 ^ 40 && t.size ≤ 64 && t.data.length ≤ 64

/-- An Announce: every field in its width (IEEE 1588-2019). -/
def Announce.wf (m : Announce) : Bool :=
  m.domain < 256 && m.transport ≤ 1 && m.prio1 < 256 && m.clockClass < 256 && m.accuracy < 256 && m.variance < 2 ^ 16 && m.prio2 < 256 &&
    m.steps < 2 ^ 16

/-- A Sync: a time stamp of 48 bits of seconds and less than 10^9 ns (IEEE 1588-2019). -/
def PtpSync.wf (m : PtpSync) : Bool := m.domain < 256 && m.transport ≤ 1 && m.sec < 2 ^ 48 && m.ns < 1000000000

/-- A station code, 04 R98. -/
def codeWf (code : Nat) : Bool := code < 1024

/-- The operands of a command are in their ranges. -/
def Instr.wf : Instr → Bool
  | .nop c => c.wf
  | .sessionOpen c => c.wf
  | .sessionProve c _ _ => c.wf
  | .sessionClose c => c.wf
  | .statusGet c => c.wf
  | .rtcGet c => c.wf
  | .setUtc c => c.wf
  | .setCivil c => c.wf
  | .setTrim c => c.wf
  | .clearStamp c => c.wf
  | .writeBackup c => c.wf
  | .rtcShift c => c.wf
  | .alarmSetArm c => c.wf
  | .alarmSetDisarm c => c.wf
  | .logRead c => c.wf
  | .logClearRing c => c.wf
  | .logClearArchive c => c.wf
  | .gustTableReplace c => c.wf
  | .gustTableDefault c => c.wf
  | .logExport c => c.wf
  | .forceSet c => c.wf
  | .forceRelease c => c.wf
  | .forceReleaseAll c => c.wf
  | .forceList c => c.wf
  | .appLoad c img => c.wf && img.wf
  | .appChange c img => c.wf && img.wf
  | .appRollback c => c.wf
  | .appStart c => c.wf
  | .appStop c => c.wf
  | .taskRelease c => c.wf
  | .fwStage c img => c.wf && img.wf
  | .fwHandover c => c.wf
  | .fwConfirm c => c.wf
  | .fwFallback c => c.wf
  | .netConfigure c => c.wf
  | .netConfigureNext c => c.wf
  | .netStart c => c.wf
  | .stationReintegrate c => c.wf
  | .pairSwitch c => c.wf
  | .pairRejoin c => c.wf
  | .attest c => c.wf
  | .lifecycleAdvance c _ => c.wf
  | .enrolIntegrator c _ => c.wf
  | .revokeIntegrator c => c.wf
  | .grantService c _ => c.wf
  | .revokeService c => c.wf
  | .replaceOwner c _ => c.wf
  | .marginReport c => c.wf
  | .marginReplan c => c.wf
  | .scrub c => c.wf
  | .flashVerify c => c.wf
  | .laneInject c => c.wf
  | .opSuspend c => c.wf
  | .opResume c => c.wf
  | .opCancel c => c.wf
  | .trackSnapshot c => c.wf
  | .suspendPointReached _ _ => true
  | .imageStagingDone _ _ => true
  | .hqSqTail _ _ descs _ => descs.all SqEnt.wf
  | .hqCqHead _ _ => true
  | .hqEvHead _ => true
  | .queueEnable => true
  | .queueDisable => true
  | .queueDrained _ => true
  | .eventRingEnable => true
  | .eventRingDisable => true
  | .hifResetHost => true
  | .hifResetWarm => true
  | .pairCtrl _ => true
  | .ethApply _ => true
  | .registerWrite _ _ _ _ => true
  | .interruptHoldoffExpiry _ => true
  | .busyEnter => true
  | .busyEnd => true
  | .sessionTimeout _ => true
  | .tlsConnect _ _ => true
  | .capsuleRx _ cap => cap.desc.wf
  | .tlsClose _ => true
  | .hifLinkReset => true
  | .taskDone _ _ _ => true
  | .taskDispatch _ _ => true
  | .taskTrap _ _ _ _ => true
  | .deliveryRequest _ _ _ => true
  | .laneTimerExpiry _ => true
  | .softwareInterrupt _ _ => true
  | .wfi _ _ _ _ => true
  | .comparedItem _ _ _ _ => true
  | .skewTime _ => true
  | .readReturn _ _ _ => true
  | .interconnectTransaction t => t.wf
  | .l1ParityError _ _ _ => true
  | .laneFaultFlashCommit => true
  | .pairResetRequestTimeout => true
  | .laneWake => true
  | .laneParkTimeout => true
  | .cycleStart => true
  | .netStall => true
  | .stillPoint => true
  | .inputClose _ => true
  | .cycleMark _ => true
  | .outputCutoff => true
  | .downstreamWindow _ _ => true
  | .heartbeatSend => true
  | .mirrorTransferClose => true
  | .mirrorAckDeadline => true
  | .inFrameRx _ f => f.wf
  | .upstreamFrameAtGuardian _ _ f => f.wf
  | .evtFrameRx _ f => f.wf
  | .cfgResponseRx _ f => f.wf
  | .delayReportRx _ _ f => f.wf
  | .cfgRequestTimeout _ _ => true
  | .stationRetryTimer code => codeWf code
  | .joiningTimeout code => codeWf code
  | .countersPoll => true
  | .timeTransfer _ _ _ _ => true
  | .listenTimerExpiry => true
  | .partnerCstartRx _ => true
  | .cstartStartTime => true
  | .contentionEnd => true
  | .transferLossTimer => true
  | .heartbeatRx hb => hb.wf
  | .faultMessageRx hb _ => hb.wf
  | .heartbeatLost => true
  | .pairLaneFail _ => true
  | .pairAuth _ => true
  | .partnerContentRx _ _ f => f.wf
  | .stationStateRx code _ _ _ _ _ _ => codeWf code
  | .pairConfigRx _ _ _ _ => true
  | .pairImageRx img => img.wf
  | .changeAnnounceRx _ => true
  | .mirrorBlockRx _ _ _ _ _ => true
  | .resendRequestRx _ => true
  | .closeBlockRx _ _ _ _ _ fin => fin.all FinalClose.wf
  | .transferAckRx _ => true
  | .snapshotTransferRx _ _ _ => true
  | .baseChunkRx _ => true
  | .baseCopyDone => true
  | .vaneLineChange _ _ => true
  | .takeover => true
  | .sentinelCheck => true
  | .noHolder => true
  | .slotBAssertWait => true
  | .switchFinalClose => true
  | .changeQ => true
  | .rollbackPeriodEnd => true
  | .pairResetIn => true
  | .watchdogRestart => true
  | .watchdogExpiry => true
  | .netActPushT _ _ => true
  | .actCancel _ _ => true
  | .localActInstant _ => true
  | .create _ _ => true
  | .delete _ => true
  | .setTag _ => true
  | .move _ _ => true
  | .unfreeze _ => true
  | .lioTripClr _ _ => true
  | .wbUpdateSet => true
  | .wbUpdateClear => true
  | .wbLoadSet => true
  | .wbRgnWrite _ _ _ => true
  | .wbAbortedClear => true
  | .wbUpdateTimeout => true
  | .lioDebounceDone _ _ _ => true
  | .lioBand _ => true
  | .wireBreak _ _ => true
  | .lioOutputFault _ _ => true
  | .lioFaultClear _ => true
  | .overcurrentTrip _ => true
  | .thermalTrip _ => true
  | .tripRetryExpiry _ => true
  | .supplySag _ => true
  | .supplyLow _ => true
  | .supplyRise _ => true
  | .supplyDip _ => true
  | .recoveringTimerExpiry _ _ => true
  | .ptpAnnounceRx _ m => m.wf
  | .ptpSyncRx _ m => m.wf
  | .ptpSyncTimeout => true
  | .leapSecond _ => true
  | .calendarDiscipline => true
  | .alarmFire => true
  | .calendarEnd => true
  | .batteryTest _ => true
  | .bkpSwitch => true
  | .gustRefill _ => true
  | .archiveCommit => true
  | .holdBufferFlush => true
  | .feedLoss _ _ => true
  | .feedOvervoltage _ _ => true
  | .feedPath _ _ => true
  | .feedReturned _ _ => true
  | .holdupVaneRelease => true
  | .holdupCommit => true
  | .holdupDomainsOff => true
  | .holdupEnd => true
  | .aonPowerLoss => true
  | .powerGood _ _ => true
  | .domainFault _ => true
  | .domainGoodTimeout _ => true
  | .clockFault _ => true
  | .dramWipeDone => true
  | .lullServiceReached _ => true
  | .fullServiceReady _ => true
  | .fwStartTimeout => true
  | .presentSettled => true
  | .presentLost => true
  | .swapPress _ => true
  | .scrubPatrol _ _ => true
  | .rngFail => true
  | .rngRetest _ => true
  | .marginMeasure _ _ _ => true
  | .marginDaily _ => true
  | .debugToken _ => true
  | .debugHaltRequest _ => true
  | .debugResetRequest => true
  | .debugAccess t => t.wf
  | .stationSyncRx code _ f _ _ => codeWf code && f.wf
  | .stationActRx code _ _ f => codeWf code && f.wf
  | .stationActInstant code _ => codeWf code
  | .stationOutApply code => codeWf code
  | .stationWatchdogExpiry code => codeWf code
  | .stationRestart code _ => codeWf code
  | .stationCfgRequest code _ f => codeWf code && f.wf
  | .stationGuardFrame code _ _ f => codeWf code && f.wf
  | .partnerReportRx _ _ => true
  | .stationInSend code _ _ => codeWf code
  | .stationArbSend code _ _ => codeWf code
  | .stationOutRx code _ f => codeWf code && f.wf
  | .stationCstartRx code _ f => codeWf code && f.wf
  | .stationSyncMissed code => codeWf code
  | .phyLinkChange _ _ => true
  | .firmwareWarmRestart => true
  | .laneInjectTimeout => true
  | .longOperationProgress _ _ _ _ _ => true
  | .domainSupplyGood _ => true

end Sys2Proof
end

