-- ==== Sys2Proof/Tests/Slice0.lean ====
section
/-! SUPPORT. Tests of one step or one operation each: figures of the spec's worked examples, the well-formedness checks, and for every clause
of an obligation that has hypotheses a state and operands that meet all of them together. -/

open Sys2Proof Sys2Proof.Machine
namespace Sys2Proof.Tests
set_option Elab.async false

/-! ## Small states and descriptors -/

/-- A module that serves its rings: FIELD, an Owner, queue 1 enabled with a proven Owner session 7. -/
def live : State :=
  let s : State := State.reset.onLane 8 fun l => { l with halted := false }
  { s with
    pwr := { s.pwr with lullService := true, dramOk := true, waitGood := false, on := 0xFFF, good := 0xFFF, stage := 6 }
    keys := { s.keys with life := 2, owner := some 5 }
    host := { s.host with
      sel := 1
      q := s.host.q.set 1 { st := .enabled, size := 16 }
      sess := [{ num := 7, party := 2, slot := 0, proven := true, src := .queue 1, openedAt := 0 }] } }

/-- INLINE bytes, filled up with zeros to 16. -/
def inl (l : List Byte) : List Byte := l ++ List.replicate (16 - l.length) 0

/-- A descriptor of session 7 on queue 1. -/
def hc (l : List Byte := []) (len : Nat := 0) (buf : Buf := {}) : Cmd :=
  { src := .queue 1, cmdId := 1, session := 7, inl := inl l, length := len, bufAddr := if len = 0 then 0 else 4096
    buf := buf }

/-- A descriptor without a session on queue 1. -/
def hc0 (l : List Byte) (len : Nat) : Cmd :=
  { src := .queue 1, cmdId := 1, inl := inl l, length := len, bufAddr := if len = 0 then 0 else 4096 }

/-- The live module as a primary without network. -/
def prim : State := { live with pair := { live.pair with role := .primary, drive := true, own := true } }

/-- A small network configuration: one station, code 5, with 4 inputs and 4 outputs. -/
def net0 : NetCfg :=
  { sched := 1, t := 250000, s := 0, i := 100000, o := 150000, a := 200000
    map := [(5, { diN := 4, doN := 4 })]
    par := [(5, { maker := 1, devType := 1, minFw := 0, serial := 0, lossCount := 1, returnGood := 1, holdCycles := 1, encN := 0 })] }

/-- The primary with cycles running in cycle 64. -/
def netp : State :=
  { prim with net := { prim.net with cfg := some net0, start := .lead }, cyc := { prim.cyc with running := true, n := 64 } }

/-- A section 0x05 entry that grants class U R and W over the first page of shared SRAM. -/
def wbe : WbEntry := { addr := 0x800000000100000C, perm := 0x00C0, lanes := 0x04, tasks := 0x08 }

/-- The content of an application image with one event task, number 3 on lane 2, released by the host's source 0. -/
def appBody : AppBody :=
  { secs := [{ stype := 1, offset := 184, length := 64 }, { stype := 2, offset := 248, length := 32 }, { stype := 3 }, { stype := 4 },
      { stype := 5, offset := 280, length := 16 }, { stype := 6 }, { stype := 7 }, { stype := 8 }, { stype := 9 }, { stype := 10 }, { stype := 11 }]
    tasks := [{ num := 3, kind := .event, lane := 2, prio := 1 }], marks := [(4, 1000)], wb := [wbe] }

/-- An image with that content, as it runs. -/
def app : AppImage := { hdr := { kind := 2, bodyLength := 296, resultDigest := 77, signer := 9 }, body := appBody }

/-- The same with the digests that its content calls for. -/
def appGood : AppImage :=
  { app with hdr := { app.hdr with bodyDigest := Config.bodyDigest appBody, resultDigest := Config.bodyDigest appBody } }

/-- A migration rule that fills four bytes of the first page. -/
def fill : MigRule := { op := 2, count := 4, newAddr := 0x01000000 }

/-- The content of a delta to that image. -/
def deltaBody : AppBody :=
  { secs := [{ stype := 16, offset := 40, length := 40 }, { stype := 17, offset := 80, length := 40 }], fwd := [fill], back := [fill] }

/-- A delta to that image. -/
def delta : AppImage :=
  { hdr := { kind := 3, bodyLength := 120, baseDigest := 77, bodyDigest := Config.bodyDigest deltaBody
             resultDigest := Config.bodyDigest (fullBody (mergeBody appBody deltaBody)), signer := 9 }
    body := deltaBody }

/-- A firmware image of 16 bytes. -/
def fwImg (gen : Nat) : AppImage :=
  { hdr := { kind := 1, gen := gen, bodyLength := 16, bodyDigest := Config.sha512 (List.replicate 16 0)
             resultDigest := Config.sha512 (List.replicate 16 0), signer := 1 }
    raw := List.replicate 16 0 }

/-- The primary with the image running, an enrolled integrator, its lanes at work. -/
def appp : State :=
  let l : Lane := { halted := false, parked := false }
  { netp with
    chg := { netp.chg with running := some app, app := netp.chg.app.set 0 { st := .active, img := some app } }
    keys := { netp.keys with integ := netp.keys.integ.set 0 (some 9) }
    lanes := { netp.lanes with lane := Vector.replicate 9 l, task := netp.lanes.task.set 3 { st := .idle } } }

/-- A partner that stands by, current. -/
def beat2 : Heartbeat := { role := 2, fwGen := 1 }
def pairp : State := { appp with pair := { appp.pair with hb := some beat2, partnerCur := true, lanes := 3, auth := true } }

/-- A buffer with runs of bytes at given offsets. -/
def mkBuf (l : List (Nat × List Byte)) : Buf :=
  { cells := l.flatMap fun r => r.2.zipIdx.map fun x => (r.1 + x.2, x.1) }

/-- A network configuration without stations: T 0.5 ms, S 0, I 100 µs, O 150 µs, A 50 µs, time source ports 0. -/
def netBuf : Buf :=
  mkBuf [(0, [1, 0, 1, 0] ++ le 4 500000 ++ le 4 0 ++ le 4 100000 ++ le 4 150000 ++ le 4 50000), (0x43, [6])]

/-- The primary with one tracking segment, number 1, and object 0 on it. -/
def trkp : State :=
  { appp with trk := { appp.trk with
      segs := [{ num := 1, cfg := { length := mkWord 1000, scale := 65536 }, st := { objects := 1, head := some 0, tail := some 0 } }]
      objs := [{ num := 0, offset := mkWord 0, seg := 1, id := 7 }] } }

/-- The state of a placement that succeeds. -/
def placed (x : State ⊕ Nat) : State :=
  match x with
  | .inl v => v
  | .inr _ => live

/-- Every right over the peripheral slots 0 to 31, to every class, lane and task. -/
def granted (s : State) : State :=
  { s with wb := { s.wb with rgn := s.wb.rgn.set 8 { addr := 0x8000000010000015, perm := 0xFFFFFF, scope := 0xFFFFFFFF000000FF } } }

/-- The primary with station 5 known to its manager; its branch OPEN; `w`: the windows of its configuration. -/
def stmp (x : StnM) (w : List WinEnt := []) : State :=
  State.onBr { netp with net := { netp.net with cfg := some { net0 with wins := w } }, stnM := [x] } 0 fun b => { b with g := .open_ }

/-- A frame of the running schedule in cycle 64 from or to station 5. -/
def frm (ty : Nat) (pay : List Byte) (n : Nat := 64) : Frame :=
  { ftype := ty, sched := 1, addr := 5, length := pay.length, seq := n, payload := pay }

/-- The live module with one station. -/
def stp (x : Stn) : State := { live with stn := [x] }

/-- SYNC content of cycle `n` on a grid of 0.25 ms. -/
def syncN (n : Nat) : SyncContent := { cycle := n, startTime := 250000 * n, tNs := 250000, stillNs := 0, arbNs := 50000, sched := 1 }

/-- A SYNC frame. -/
def syncF (n : Nat) : Frame :=
  { ftype := 0x01, sched := 1, addr := 0x8000, length := 48, seq := n, payload := Machine.syncEnc (syncN n) }

/-- IDENTITY with 4 digital outputs. -/
def idn : List Byte := le 8 0 ++ le 8 1 ++ le 2 5 ++ le 2 0 ++ le 4 4 ++ le 4 4 ++ le 2 0 ++ le 2 0 ++ le 8 0

/-- Station 5 in SYNCED in cycle 64, integrated on channel A with both path delays; `w`: its WINDOWS object. -/
def stn5 (w : List Byte := []) : Stn :=
  { code := 5, nst := .synced, timeOk := true, n := 64, cur := some (syncN 64), sched := 1, objs := [(0x8000, idn), (0x8002, w)]
    a := { integrated := true, pdDown := some 100, pdUp := some 100, good := true, got := true, linkUp := true, upD := [50] } }

/-- An entry of WINDOWS: start, length, type, path, owner. -/
def winB (start len ty path owner : Nat) : List Byte :=
  le 4 start ++ le 2 len ++ le 1 ty ++ le 1 path ++ le 2 owner ++ le 6 0

theorem unstaged {s : State} {i : AppImage} (ht : s.tagOk i = true) (hi : s.imageOk i = false) :
    s.staging i = some (stInvalid, dContent) := by
  simp [State.staging, ht, hi]

theorem staged {s : State} {i : AppImage} (ht : s.tagOk i = true) (hd : s.digestsOk i = true) (hi : s.imageOk i = true) :
    s.staging i = none := by
  simp [State.staging, ht, hd, hi]

/-- The primary with lane 2 split and the task on its copy A. -/
def splp : State :=
  let b : AppBody := { appBody with splitLanes := 4, tasks := [{ num := 3, kind := .event, lane := 2, prio := 1, split := true, copy := .a }] }
  let s : State := { appp with chg := { appp.chg with running := some { app with body := b } } }
  s.onLane 2 fun l => { l with split := true }

/-- A state whose queue has fetched a command and not begun it. -/
def asks (op : Nat) (c : Cmd) (s : State) : State :=
  match c.src with
  | .queue q => s.onHq q.val fun h => { h with backlog := [{ opcode := op, cmd := c }] }
  | _ => s

theorem xor_ne (d : BitVec 128) : d ^^^ 1 ≠ d := by
  intro h
  have := congrArg (BitVec.getLsbD · 0) h
  simp at this

theorem auditNone {s : State} {k : Nat} (h : s.sliceAt k = none) : s.auditDigest k = sha16 [] := by
  simp [State.auditDigest, h]

theorem goArb {x : Stn} {p r g : Nat} {seen : Seen} {f : Frame} (hw : x.wins = []) (ht : x.t ≤ seen.sfd + x.arb)
    (hf : seen.fin + (p + 400) + 500 ≤ x.t + guardNs) : x.judgeUp (p + r % 401) g seen f = .go true x.maxLen := by
  have := Nat.mod_lt r (show 0 < 401 by decide)
  unfold Stn.judgeUp
  rw [hw]
  simp only [List.find?_nil]
  rw [if_pos (by omega), if_pos (by omega)]

/-! ## Figures of the spec's worked examples -/

/-- 04 and 09, worked examples: the diverter of station 9 and the tilt of station 20 (DO index 12). -/
theorem test_point_addresses : mkPoint 9 1 12 = 0x0128000C ∧ mkPoint 20 1 12 = 0x0288000C := by decide

/-- 04, worked example: with DO_BASE 1,176 the diverter of station 9 lies at DO position 1,188. -/
theorem test_point_position :
    posOf (some { net0 with map := [(9, { doBase := 1176, doN := 128 })] }) 0x0128000C = some 1188 := by decide

/-- 05, worked schedule: D(92), D(40), D(208) and the length of a 1,024 byte window. -/
theorem test_frame_lengths : frameNs 92 = 960 ∧ frameNs 40 = 544 ∧ frameNs 208 = 1888 ∧ 737324 + frameNs 1024 = 745740 := by decide

/-- 05, worked schedule: the largest IN streams of induction, chute, drive and monitoring stations. -/
theorem test_in_streams :
    inStreamMax { diN := 128, doN := 136, aiN := 8, aoN := 8 } 2 = 92 ∧ inStreamMax { diN := 128, doN := 128 } 0 = 40 ∧
    inStreamMax { diN := 32, doN := 32, aiN := 32, aoN := 16 } 1 = 100 ∧ inStreamMax { diN := 256, aiN := 64 } 0 = 208 := by decide

/-- 05, worked schedule: the OUT streams of induction, chute and drive stations. -/
theorem test_out_streams :
    outStreamLen { doN := 136, aoN := 8 } = 36 ∧ outStreamLen { doN := 128 } = 16 ∧ outStreamLen { doN := 32, aoN := 16 } = 36 := by
  decide

/-- 06, worked example: PD_MAX(9) = 5,800 ns. -/
theorem test_pd_max : pdMax 9 = 5800 := by decide

/-- The schedule of Hall 3 (05): T 1 ms, S 25 µs, I 340 µs, O 700 µs, A 100 µs, with the windows of stations 9 and 20. -/
def hall : NetCfg :=
  { sched := 1, t := 1000000, s := 25000, i := 340000, o := 700000, a := 100000, matrixExp := 3
    map := [(9, { diN := 128, doN := 128 })]
    par := [(9, { maker := 1, devType := 1, minFw := 0, serial := 0, lossCount := 1, returnGood := 1, holdCycles := 4, encN := 0 })]
    wins := [{ start := 39812, len := 40, ty := 0x10, path := 0, owner := 9 }, { start := 712828, len := 16, ty := 0x20, path := 16, owner := 9 },
      { start := 737324, len := 1024, ty := 0x21, path := 16, owner := 0x8000 }, { start := 746240, len := 1024, ty := 0x21, path := 16, owner := 0x8000 }] }

/-- 05, worked schedule: "Every check of R139 holds", here for station 9 and the two broadcast ACT windows. -/
theorem test_schedule_checks :
    hall.wins.all (State.reset.winEntOk hall) = true ∧ allPairs winPairOk hall.wins = true ∧ hall.par.all (stnWinsOk hall) = true := by
  decide +kernel

/-- 06, worked example: the DELAY report that reaches the star at C + 914,480 ns with 56 bytes is admitted. -/
theorem test_star_admits_report :
    hall.judgeUp 0 1 guardNs { sfd := 914480, fin := 914480 + frameNs 56 } (frm 0x40 (List.replicate 56 0)) = .admitted 1024 := by
  decide +kernel

/-- 06, worked example: eight reports with RT = 9,480 ns give PD_DOWN = PD_UP = 4,740 ns. -/
theorem test_path_delay :
    let x : StnM := { code := 9, da := { fwdDown := 360, fwdUp := 360, rts := List.replicate 8 (0, 9480) } }
    let t := ({ live with stnM := [x] } : State).measure x .a
    (t.stnAt 9).map (fun y => (y.da.down, y.da.up)) = some (some 4740, some 4740) := by decide +kernel

/-- Segment 100 of 09's worked example: one count is 250 µm. -/
def seg100 : SegCfg := { length := mkWord 180000000, scale := 16384000, velShift := 2, velZeroUs := 20000 }
/-- Its state before the commit of the example, with t0 at 1 s. -/
def segSt100 : SegSt :=
  { odo := mkWord 512000012, odoC := mkWord 512000000, vel := mkWord 2500000, lastCount := 1234560, rebase := false
    sampleTime := 999020000, sampleCount := 1234560 }
/-- The source at that commit. -/
def src100 : Src_ := { cfg := { station := 0 }, st := .fresh, count := 1234570, edge := 1000020000, seen := true }

/-- 09, worked example, step 5: ODO_C 512,002,500, VEL 2,500,000 µm/s, EXT 12, ODO 512,002,512. -/
theorem test_segment_advance :
    (advance seg100 segSt100 src100 1000025000 7).map (fun g => (wval g.odoC, wval g.vel, wval g.odo, g.predicted)) =
      .ok (512002500, 2500000, 512002512, false) := by decide +kernel

/-- 09, worked example, cycle n + 1: the lost frame's reading is predicted as 512,005,012. -/
theorem test_segment_prediction :
    (advance seg100 { segSt100 with odoC := mkWord 512002500 } { src100 with st := .missing } 1001025000 8).map
      (fun g => (wval g.odo, g.predicted)) = .ok (512005012, true) := by decide +kernel

/-- 09, worked example, step 6: t_on = t0 + 3,425 µs and t_off = t0 + 163,425 µs. -/
theorem test_window_times :
    windowTimes { num := 100, cfg := seg100, st := { segSt100 with stillTime := 1000025000 } }
      { start := 96220000, stop := 96230000, trig := 96250000, action := 2, leadUs := 8000, offDist := 400 } 0 (.of 96221500) =
      .ok (0, 1003425000, 1163425000) := by decide +kernel

/-- 09, worked example: residues 38, 60 and 37 of the addition of step 5. -/
theorem test_residues : wres (mkWord 512000000) = 38 ∧ wres (mkWord 2500) = 60 ∧ wres (mkWord 512002500) = 37 := by decide +kernel

/-- 15, worked example: the registers of region 11. -/
theorem test_windbreak_region :
    let b : AppBody := { mirror := [{ base := 0x9A000000, pages := 2048 }] }
    entryRgn b false { addr := 0x800000009A000017, perm := 0x00C0, lanes := 0x01, tasks := 0x16 } =
      { addr := 0x800000009A000017, perm := 0x2182C0, scope := 0x0000001600000601 } := by decide +kernel

/-- Hall 3's regions 8 and 11 in an armed module whose lane 7 runs split. -/
def wbHall : State :=
  let s : State := { prim with lanes := { prim.lanes with lane := Vector.replicate 9 { halted := false, parked := false } } }
  let s : State := s.onLane 7 fun l => { l with split := true, a := { l.a with curTask := 5 } }
  let s : State := s.onLane 0 fun l => { l with a := { l.a with curTask := 2 } }
  { s with wb := { s.wb with
      armed := true
      rgn := (s.wb.rgn.set 8 { addr := 0x8000000002080010, perm := 0x00C0, scope := 0x1F00000207 }).set 11
        { addr := 0x800000009A000017, perm := 0x2182C0, scope := 0x0000001600000601 } } }

/-- 15, worked example: the store of task 2 on lane 0 passes; the store of split lane 7 is refused by rule 6 with REGION 8; MGT reads region 11;
its posted write with LOAD clear is refused with REASON 9 and REGION 11. -/
theorem test_windbreak_decisions :
    wbHall.refusal { cls := 2, kind := 1, addr := 0x9A102C40, size := 4, lane := 0 } = none ∧
    wbHall.refusal { cls := 2, kind := 1, addr := 0x02080094, size := 1, lane := 7 } = some (6, 8, 0x02080094, false) ∧
    wbHall.refusal { cls := 3, kind := 0, addr := 0x9A102C40, size := 4 } = none ∧
    wbHall.refusal { cls := 3, kind := 1, addr := 0x9A102C40, size := 4, posted := true } = some (9, 11, 0x9A102C40, false) := by
  decide +kernel

/-- 15, worked example: the fields of the precise WB_VIOLATION up to COPY. -/
theorem test_windbreak_violation :
    (wbHall.violationPay { cls := 2, kind := 1, addr := 0x02080094, size := 1, lane := 7 } 6 8 0x02080094 false).take 6 =
      [2, 1, 6, 0x01, 7, 5] := by decide +kernel

/-- 03, worked example: copies that differ in DATA alone have FIELD 0x08. -/
theorem test_mismatch_field :
    fieldDiff { addr := 0x9A102C40, kind := 1, be := 0xF, data := 0x00000140 } { addr := 0x9A102C40, kind := 1, be := 0xF, data := 0x00000160 } =
      0x08 := by decide +kernel

/-- 19, worked example: sensor 2 in island 8 is entry 34, kind 1. -/
theorem test_margin_index : marginIdx 1 (4 * 8 + 2) = some 34 := by decide

/-- 17 R446, R448: seconds since 2000-01-01; 2000-03-01 follows 29 February; a century without leap day. -/
theorem test_calendar : calSec 2000 1 1 0 0 0 = 0 ∧ calSec 2000 3 1 0 0 1 = 60 * 86400 + 1 ∧ civil 59 = (2000, 2, 29) ∧
    civil 36584 = (2100, 3, 1) := by decide +kernel

/-! ## Well-formed commands: each check refuses an ill-formed term -/

theorem test_wf_command : (hc [1, 2] 8 { cells := [(7, 1)] }).wf = true ∧ (hc [1, 2] 8 { cells := [(8, 1)] }).wf = false ∧
    ({ hc with inl := [] } : Cmd).wf = false ∧ ({ hc with length := 2 ^ 32 } : Cmd).wf = false := by decide
theorem test_wf_descriptor : ({ opcode := 0xFFFF, cmd := hc } : Desc).wf = true ∧ ({ opcode := 0x10000, cmd := hc } : Desc).wf = false := by decide
theorem test_wf_frame : (frm 0x10 [1, 2, 3, 4]).wf = true ∧ ({ frm 0x10 [] with part := 16 } : Frame).wf = false ∧
    ({ frm 0x10 [] with seq := 2 ^ 32 } : Frame).wf = false ∧ (frm 0x10 (List.replicate 1025 0)).wf = false := by decide +kernel
theorem test_wf_image : ({ kind := 1 } : ImgHdr).wf = true ∧ ({ kind := 256 } : ImgHdr).wf = false ∧
    ({ kind := 1, gen := 65536 } : ImgHdr).wf = false := by decide
theorem test_wf_heartbeat : ({ role := 2 } : Heartbeat).wf = true ∧ ({ role := 256 } : Heartbeat).wf = false ∧
    ({ xferSeq := 2 ^ 32 } : Heartbeat).wf = false := by decide
theorem test_wf_transaction : ({ cls := 0, kind := 0, addr := 0xFFFFFFFFFF, size := 64 } : Txn).wf = true ∧
    ({ cls := 0, kind := 0, addr := 2 ^ 40, size := 1 } : Txn).wf = false ∧ ({ cls := 0, kind := 0, addr := 0, size := 65 } : Txn).wf = false := by decide
theorem test_wf_station : (Instr.stationRestart 1023 true).wf = true ∧ (Instr.stationRestart 1024 true).wf = false := by decide
theorem test_wf_final_close : (Instr.closeBlockRx 1 1 none 1 0 (some { held := [(31, List.replicate 16 0)] })).wf = true ∧
    (Instr.closeBlockRx 1 1 none 1 0 (some { held := [(32, List.replicate 16 0)] })).wf = false ∧
    (Instr.closeBlockRx 1 1 none 1 0 (some { pool := [[1]] })).wf = false := by decide +kernel

/-- No row of the table gives bits: no word spells a command. -/
theorem test_no_words : decodeTableWord 16 0x1234 = none := rfl

/-- 05 R143: the check value of CRC-32C over the ASCII digits 1 to 9. -/
theorem test_crc32c : crc32c (ascii "123456789") = 0xE3069283 := by decide +kernel

/-- Clause by clause, what `Obligations.MemoryReadsBack` assumes is met. -/
theorem memoryReadsBack_met :
    (∃ (m : List Host.Cell) (a : Nat) (bs : List Byte), memWf m = true ∧ bs.length = 2 ∧ a = 5) ∧
    (∃ (m : List Host.Cell) (a k : Nat), memWf m = true ∧ a < a + k) ∧ ∃ (m : List Host.Cell) (a b k : Nat), memWf m = true ∧ b < b + k ∧ a ≠ b :=
  ⟨⟨[(4, 1)], 5, [2, 0], by decide +kernel, rfl, rfl⟩, ⟨[(4, 1)], 4, 2, by decide +kernel, by decide⟩,
   ⟨[(4, 1)], 4, 8, 1, by decide +kernel, by decide, by decide⟩⟩

/-! ## The hypotheses of the obligations are met: one state and operands for every clause that has any -/

theorem sessionCommandsComplete_met :
    (∃ (c : Cmd) (s : State), passes s 0x0001 c 0 (c.inlZero 0) = true) ∧
    (∃ (c : Cmd) (s b : State) (k : Key × Nat) (d : State) (e : Key), b = begun s 0x0010 c 2 (c.inlZero 4) ∧ passes s 0x0010 c 2 (c.inlZero 4) = true ∧ c.length = 240 ∧ c.inf 2 2 ≠ 0 ∧ b.keyAt (c.inf 0 1) (c.inf 1 1) = some k ∧ b.sessOf (c.inf 2 2) = none ∧ b.host.sess.length < 32 ∧ b.keys.rngFail = false ∧ d = b.draw.2 ∧ e = first32 b.draw.1) ∧
    (∃ (c : Cmd) (s b : State) (x : Sess) (shared : Key) (k : BitVec 512), b = begun s 0x0011 c 1 (c.inlZero 0) ∧ passes s 0x0011 c 1 (c.inlZero 0) = true ∧ b.sessOf c.session.toNat = some x ∧ proveOk b c x = true ∧ shared ≠ 0 ∧ k = commandKey shared (Config.x25519Base x.eph) (BitVec.ofNat 256 (c.buf.field 0 32)) b.keys.serial x.num) ∧
    (∃ (c : Cmd) (s : State), passes s 0x0012 c 0 (c.inlZero 0) = true) ∧
    (∃ (n : BitVec 16) (s : State) (x : Sess), s.sessOf (BitVec.toNat n) = some x ∧ x.proven = false) :=
  ⟨⟨hc, asks 0x0001 (hc) (live), by decide +kernel⟩,
   ⟨hc0 [2, 0, 9, 0] 240, asks 0x0010 (hc0 [2, 0, 9, 0] 240) (live), _, (5, 0), _, _, rfl, by decide +kernel, by decide +kernel, (by decide +kernel), by decide +kernel, by decide +kernel, (by decide +kernel), by decide +kernel, rfl, rfl⟩,
   ⟨{ hc [] 96 with session := 9 }, asks 0x0011 ({ hc [] 96 with session := 9 }) ({ live with host := { live.host with sess := [{ num := 9, party := 2, slot := 0, proven := false, src := .queue 1, openedAt := 0 }] } }), _, _, 1, _, rfl, by decide +kernel, rfl, by decide +kernel, by decide +kernel, rfl⟩,
   ⟨hc, asks 0x0012 (hc) (live), by decide +kernel⟩,
   ⟨9, { live with host := { live.host with sess := [{ num := 9, party := 2, slot := 0, proven := false, src := .queue 1, openedAt := 0 }] } }, _, rfl, by decide +kernel⟩⟩

theorem ringsComplete_met :
    (∃ (q : Fin 8) (v : BitVec 32) (descs : List SqEnt) (h : HQ) (s : State), h = s.hq q.val ∧ h.st = .enabled ∧ BitVec.toNat v < 4096 ∧ BitVec.toNat v < h.size ∧ (BitVec.toNat v + h.size - h.sqHead) % h.size ≤ h.posted.length + descs.length) ∧
    (∃ (q : Fin 8) (v : BitVec 32) (descs : List SqEnt) (ok : Dma) (s : State), (s.hq q.val).st = .enabled ∧ (s.hq q.val).size ≤ BitVec.toNat v) ∧
    (∃ (q : Fin 8) (v : BitVec 32) (d : Nat) (s : State), (s.hq q.val).st = .enabled ∧ BitVec.toNat v < (s.hq q.val).size ∧ d = (BitVec.toNat v + (s.hq q.val).size - (s.hq q.val).cqHead) % (s.hq q.val).size ∧ d ≤ (s.hq q.val).used) ∧
    (∃ (q : Fin 8) (v : BitVec 32) (s : State), (s.hq q.val).st = .enabled ∧ (s.hq q.val).size ≤ BitVec.toNat v) ∧
    (∃ (v : BitVec 32) (d : Nat) (s : State), s.host.ev.st = .enabled ∧ s.host.ev.lostNow = 0 ∧ BitVec.toNat v < s.host.ev.size ∧ d = (BitVec.toNat v + s.host.ev.size - s.host.ev.head) % s.host.ev.size ∧ d ≤ s.host.ev.used) ∧
    (∃ (s : State), (s.hq s.host.sel).st = .disabled ∧ 0 < (s.hq s.host.sel).size) ∧
    (∃ (s : State), (s.hq s.host.sel).st = .disabled ∧ (s.hq s.host.sel).size = 0) ∧
    (∃ (q : Fin 8) (s : State), s.host.sel = q.val ∧ (s.hq q.val).st = .enabled) ∧
    (∃ (q : Fin 8) (s : State), (s.hq q.val).st = .draining) ∧
    (∃ (s : State), s.host.ev.st = .disabled ∧ 0 < s.host.ev.size) ∧
    (∃ (s : State), (s.host.ev.st = .enabled ∨ s.host.ev.st = .error)) ∧
    (∃ (r : EvRing) (t : Nat), r.st = .draining) ∧
    (∃ (v : Fin 16) (s : State), (s.host.msi[v]).due = true ∧ (s.host.msi[v]).masked = false) ∧
    (∃ (v : Fin 16) (s : State), (s.host.msi[v]).due = true ∧ (s.host.msi[v]).masked = true) ∧
    (∃ (s : State), s.host.busy = false) ∧
    (∃ (s : State) (u : Nat), s.host.busy = true ∧ s.host.lowSince = some u ∧ s.backlog ≤ 16) :=
  ⟨⟨1, 1, [{ head := le 2 1 }], _, live, rfl, by decide +kernel⟩,
   ⟨1, 16, [], .ok, live, by decide +kernel⟩,
   ⟨1, 3, _, live.onHq 1 fun h => { h with used := 3, cqPost := 3 }, by decide +kernel, by decide +kernel, rfl, by decide +kernel⟩,
   ⟨1, 16, live, by decide +kernel⟩,
   ⟨2, _, { live with host := { live.host with ev := { st := .enabled, size := 4, used := 2, post := 2 } } }, by decide +kernel, by decide +kernel, by decide +kernel, rfl, by decide +kernel⟩,
   ⟨live.onHq 1 fun h => { h with st := .disabled }, by decide +kernel⟩,
   ⟨live.onHq 1 fun _ => {}, by decide +kernel⟩,
   ⟨1, live, by decide +kernel⟩,
   ⟨1, live.onHq 1 fun h => { h with st := .draining }, by decide +kernel⟩,
   ⟨{ live with host := { live.host with ev := { size := 4 } } }, by decide +kernel⟩,
   ⟨{ live with host := { live.host with ev := { st := .enabled, size := 4 } } }, by decide +kernel⟩,
   ⟨{ st := .draining, drainEnd := 5 }, 5, by decide +kernel⟩,
   ⟨3, { live with host := { live.host with msi := live.host.msi.set 3 { due := true } } }, by decide +kernel⟩,
   ⟨3, { live with host := { live.host with msi := live.host.msi.set 3 { due := true, masked := true } } }, by decide +kernel⟩,
   ⟨live, by decide +kernel⟩,
   ⟨{ live with host := { live.host with busy := true, lowSince := some 5 } }, 5, by decide +kernel⟩⟩

theorem hostResetsComplete_met :
    (∃ (s : State), s.resetOk 5 = true ∧ s.host.resetReq = none) ∧
    (∃ (s : State) (u : Nat), s.resetOk 5 = true ∧ s.host.resetReq = some (1, u) ∧ s.clk.now ≤ u + 1000000) ∧
    (∃ (s : State), s.resetOk 8 = true ∧ s.host.resetReq = none) ∧
    (∃ (s : State) (u : Nat), s.resetOk 8 = true ∧ s.host.resetReq = some (2, u) ∧ s.clk.now ≤ u + 1000000) ∧
    (∃ (s : State), s.resetOk 8 = true) :=
  ⟨⟨live, by decide +kernel⟩,
   ⟨{ { live with host := { live.host with resetReq := some (1, 0) } } with clk := { now := 1000000 } }, 0, by decide +kernel⟩,
   ⟨live, by decide +kernel⟩,
   ⟨{ live with host := { live.host with resetReq := some (2, 0) } }, 0, by decide +kernel⟩,
   ⟨live, by decide +kernel⟩⟩

theorem serviceChannelCompletes_met :
    (∃ (p : Fin 2) (k : Fin 4) (s : State), s.freeConn = some k ∧ (s.host.eth[p]).inService = true ∧ (s.host.eth[p]).linkUp = true ∧ s.serves = true) ∧
    (∃ (k : Fin 4) (s : State), (s.host.conn[k]).isSome = true) ∧
    (∃ (k : Fin 4) (cap : Capsule) (x : Conn) (s : State), s.host.conn[k] = some x ∧ s.host.busy = false ∧ capsuleOk cap = true ∧ knownOp cap.desc.opcode = true) ∧
    (∃ (v : Word) (s : State), s.fits 2 (le 8 (BitVec.toNat v)) = true) ∧
    (∃ (p : Fin 2) (e : Eth) (l : Vector Eth 2) (s : State), e = s.host.eth[p] ∧ (e.service && e.addr = 0) = false ∧ inPrefix e.addr e.gw e.pre = true ∧ s.fits 5 (ethBytes s) = true ∧ e.inService = e.service ∧ e.inAddr = e.addr ∧ l = s.host.eth.set p.val { e with inPre := e.pre, inGw := e.gw }) ∧
    (∃ (p : Fin 2) (e : Eth) (l : Vector Eth 2) (s : State), e = s.host.eth[p] ∧ (e.service && e.addr = 0) = false ∧ inPrefix e.addr e.gw e.pre = true ∧ s.fits 5 (ethBytes s) = true ∧ l = s.host.eth.set p.val { e with inService := e.service, inAddr := e.addr, inPre := e.pre, inGw := e.gw }) :=
  ⟨⟨0, 0, { live with host := { live.host with eth := live.host.eth.set 0 { inService := true, linkUp := true, service := true, addr := 0x0A000001, pre := 8, gw := 0x0A000002 } } }, by decide +kernel⟩,
   ⟨2, { live with host := { live.host with conn := live.host.conn.set 2 (some { port := 0 }) } }, by decide +kernel⟩,
   ⟨2, { ctype := 1, rsvd := 0, dlen := 0, desc := { opcode := 1, cmd := hc } }, { port := 0 }, { live with host := { live.host with conn := live.host.conn.set 2 (some { port := 0 }) } }, by decide +kernel⟩,
   ⟨3, live, by decide +kernel⟩,
   ⟨0, _, _, { live with host := { live.host with eth := live.host.eth.set 0 { inService := true, inAddr := 0x0A000001, linkUp := true, service := true, addr := 0x0A000001, pre := 8, gw := 0x0A000002 } } }, rfl, by decide +kernel, by decide +kernel, (by decide +kernel), by decide +kernel, by decide +kernel, rfl⟩,
   ⟨0, _, _, { live with host := { live.host with eth := live.host.eth.set 0 { inService := true, linkUp := true, service := true, addr := 0x0A000001, pre := 8, gw := 0x0A000002 } } }, rfl, by decide +kernel, by decide +kernel, by decide +kernel, rfl⟩⟩

theorem reportsComplete_met :
    (∃ (c : Cmd) (s b : State) (r : State × List Byte × Bool), b = begun s 0x0020 c 2 (c.inf 0 4 < 1024 && c.inlZero 4) ∧ passes s 0x0020 c 2 (c.inf 0 4 < 1024 && c.inlZero 4) = true ∧ c.inf 0 4 ≠ 0 ∧ r = ((List.range 10).filter fun k => (c.inf 0 4).testBit k).foldl (fun x k => State.addSection x c.length k) (b, [], false)) ∧
    (∃ (c : Cmd) (s b : State), b = begun s 0x0020 c 2 (c.inf 0 4 < 1024 && c.inlZero 4) ∧ passes s 0x0020 c 2 (c.inf 0 4 < 1024 && c.inlZero 4) = true ∧ c.inf 0 4 = 1 ∧ 72 ≤ c.length) ∧
    (∃ (c : Cmd) (s b : State), b = begun s 0x0030 c 2 (c.inlZero 0) ∧ passes s 0x0030 c 2 (c.inlZero 0) = true ∧ c.length = 128) ∧
    (∃ (c : Cmd) (s b : State), b = begun s 0x0030 c 2 (c.inlZero 0) ∧ passes s 0x0030 c 2 (c.inlZero 0) = true ∧ c.length = 128 ∧ 0 ≤ b.rtc.localSec b.clk.now) :=
  ⟨⟨hc [3, 1, 0, 0] 72, asks 0x0020 (hc [3, 1, 0, 0] 72) (live), _, _, rfl, by decide +kernel, by decide +kernel, rfl⟩,
   ⟨hc [1, 0, 0, 0] 72, asks 0x0020 (hc [1, 0, 0, 0] 72) (live), _, rfl, by decide +kernel⟩,
   ⟨hc [] 128, asks 0x0030 (hc [] 128) ({ live with rtc := { live.rtc with zone := -48 } }), _, rfl, by decide +kernel⟩,
   ⟨hc [] 128, asks 0x0030 (hc [] 128) (live), _, rfl, by decide +kernel⟩⟩

theorem calendarCommandsComplete_met :
    (∃ (c : Cmd) (s b k u : State), b = begun s 0x0031 c 0 (c.inf 1 1 = 0 && c.inlZero 9) ∧ passes s 0x0031 c 0 (c.inf 1 1 = 0 && c.inlZero 9) = true ∧ c.inf 0 1 = 1 ∧ inlValid c = true ∧ b.act.ref ≠ .locked ∧ k = b.setCal ((inlSec c : Int) * 1000000000) ∧ u = ({ k with rtc := { k.rtc with invalid := false, ended := false, calOfs := if k.timeHeld then k.calNs - k.netCalNs else k.rtc.calOfs } } : State)) ∧
    (∃ (c : Cmd) (s b u : State), b = begun s 0x0031 c 0 (c.inf 1 1 = 0 && c.inlZero 6) ∧ passes s 0x0031 c 0 (c.inf 1 1 = 0 && c.inlZero 6) = true ∧ c.inf 0 1 = 2 ∧ -48 ≤ int8 (c.inf 4 1) ∧ int8 (c.inf 4 1) ≤ 56 ∧ c.inf 5 1 ≤ 1 ∧ u = ({ b with rtc := { b.rtc with taiUtc := if b.act.ref = .locked && b.act.utc.isSome then b.rtc.taiUtc else int16 (c.inf 2 2), zone := int8 (c.inf 4 1), dst := c.inf 5 1 = 1 } } : State)) ∧
    (∃ (c : Cmd) (s b : State), b = begun s 0x0031 c 0 (c.inf 1 1 = 0 && c.inlZero 3) ∧ passes s 0x0031 c 0 (c.inf 1 1 = 0 && c.inlZero 3) = true ∧ c.inf 0 1 = 3 ∧ -127 ≤ int8 (c.inf 2 1) ∧ b.timeHeld = false) ∧
    (∃ (c : Cmd) (s b u : State), b = begun s 0x0031 c 0 (c.inlZero 1) ∧ passes s 0x0031 c 0 (c.inlZero 1) = true ∧ c.inf 0 1 = 4 ∧ b.partyOf c = 2 ∧ u = b.recordBy 0x0E06 (srcOf 13 0) (items [b.rtc.stampSec]) 2 false) ∧
    (∃ (c : Cmd) (s b : State) (v : Vector Byte 64), b = begun s 0x0031 c 1 (c.inf 1 1 = 0 && c.inlZero 3) ∧ passes s 0x0031 c 1 (c.inf 1 1 = 0 && c.inlZero 3) = true ∧ c.inf 0 1 = 5 ∧ c.inf 2 1 + c.length ≤ 64 ∧ 0 < c.length ∧ v = (Vector.ofFn fun i : Fin 64 => if c.inf 2 1 ≤ i.val ∧ i.val < c.inf 2 1 + c.length then c.buf.byte (i.val - c.inf 2 1) else b.rtc.bkp[i])) ∧
    (∃ (c : Cmd) (s b : State), b = begun s 0x0032 c 0 (c.inlZero 1) ∧ passes s 0x0032 c 0 (c.inlZero 1) = true ∧ (c.inf 0 1 = 1 ∨ c.inf 0 1 = 2) ∧ b.rtc.dst = decide (c.inf 0 1 = 2)) ∧
    (∃ (c : Cmd) (s b : State), b = begun s 0x0033 c 0 (c.inf 1 1 = 0 && c.inlZero 9) ∧ passes s 0x0033 c 0 (c.inf 1 1 = 0 && c.inlZero 9) = true ∧ c.inf 0 1 = 1 ∧ inlValid c = true ∧ b.rtc.localSec b.clk.now < (inlSec c : Int) ∧ 0 ≤ (inlSec c : Int) - b.rtc.localOfs ∧ (inlSec c : Int) - b.rtc.localOfs ≤ calMax) ∧
    (∃ (c : Cmd) (s b : State), b = begun s 0x0033 c 0 (c.inlZero 1) ∧ passes s 0x0033 c 0 (c.inlZero 1) = true ∧ c.inf 0 1 = 0 ∧ b.rtc.armed = true) :=
  ⟨⟨hc ([1, 0] ++ le 2 2399 ++ [12, 31, 23, 59, 59]), asks 0x0031 (hc ([1, 0] ++ le 2 2399 ++ [12, 31, 23, 59, 59])) (live), _, _, _, rfl, by decide +kernel, by decide +kernel, by decide +kernel, by decide +kernel, rfl, rfl⟩,
   ⟨hc [2, 0, 0, 0, 56, 1], asks 0x0031 (hc [2, 0, 0, 0, 56, 1]) (live), _, _, rfl, by decide +kernel, by decide +kernel, (by decide +kernel), by decide +kernel, by decide +kernel, rfl⟩,
   ⟨hc [3, 0, 0x81], asks 0x0031 (hc [3, 0, 0x81]) (live), _, rfl, by decide +kernel⟩,
   ⟨hc [4], asks 0x0031 (hc [4]) ({ live with rtc := { live.rtc with stampSet := true } }), _, _, rfl, by decide +kernel, by decide +kernel, by decide +kernel, rfl⟩,
   ⟨hc [5, 0, 63] 1 { cells := [(0, 9)] }, asks 0x0031 (hc [5, 0, 63] 1 { cells := [(0, 9)] }) (live), _, _, rfl, by decide +kernel, by decide +kernel, by decide +kernel, by decide +kernel, rfl⟩,
   ⟨hc [1], asks 0x0032 (hc [1]) (live), _, rfl, by decide +kernel⟩,
   ⟨hc ([1, 0] ++ le 2 2000 ++ [1, 2, 0, 0, 0]), asks 0x0033 (hc ([1, 0] ++ le 2 2000 ++ [1, 2, 0, 0, 0])) (live), _, rfl, by decide +kernel⟩,
   ⟨hc [0], asks 0x0033 (hc [0]) ({ live with rtc := { live.rtc with armed := true } }), _, rfl, by decide +kernel⟩⟩

theorem calendarHappeningsComplete_met :
    (∃ (ins : Bool) (s k : State) (d : Int), d = (if ins then 1 else -1 : Int) ∧ k = s.setCal (s.calNs - d * 1000000000)) ∧
    (∃ (s : State), s.timeHeld = true ∧ s.rtc.ended = false ∧ (s.calNs - (s.netCalNs + s.rtc.calOfs)).natAbs < 1000000) ∧
    (∃ (s k : State), s.timeHeld = true ∧ s.rtc.ended = false ∧ 1000000 ≤ (s.calNs - (s.netCalNs + s.rtc.calOfs)).natAbs ∧ s.rtc.units s.clk.now % 32768 ≠ 0 ∧ k = s.reach (s.rtc.instant ((s.rtc.units s.clk.now / 32768 + 1) * 32768))) ∧
    (∃ (s : State), s.rtc.armed = true) ∧
    (∃ (s k : State), s.rtc.ended = false ∧ k = (s.reach (s.rtc.instant (calMax * 32768))).setCal ((calMax : Int) * 1000000000)) ∧
    (∃ (mv : Nat) (s : State), mv < 2500 ∧ s.rtc.battLow = false) ∧
    (∃ (mv : Nat) (s : State), 2600 ≤ mv ∧ s.rtc.battLow = true) ∧
    (∃ (s : State), s.rtc.stampSet = false) ∧
    (∃ (s : State), s.rtc.stampSet = true) :=
  ⟨⟨true, live, _, _, rfl, rfl⟩,
   ⟨(let s : State := { live with net := { live.net with start := .lead }, clk := { netOn := true, now := 7 } }; { s with rtc := { s.rtc with calOfs := s.calNs - s.netCalNs } }), by decide +kernel⟩,
   ⟨(let s : State := { live with net := { live.net with start := .lead }, clk := { netOn := true, now := 100000000 } }; { s with rtc := { s.rtc with calOfs := s.calNs - s.netCalNs - 1000000 } }), _, by decide +kernel, by decide +kernel, by decide +kernel, by decide +kernel, rfl⟩,
   ⟨{ live with rtc := { live.rtc with armed := true } }, by decide +kernel⟩,
   ⟨live, _, by decide +kernel, rfl⟩,
   ⟨2499, live, by decide +kernel⟩,
   ⟨2600, { live with rtc := { live.rtc with battLow := true } }, by decide +kernel⟩,
   ⟨live, by decide +kernel⟩,
   ⟨{ live with rtc := { live.rtc with stampSet := true } }, by decide +kernel⟩⟩

theorem recorderCompletes_met :
    (∃ (c : Cmd) (s b : State) (r : List Rec × Nat × Nat × Nat), b = begun s 0x0040 c 2 (logRes c) ∧ passes s 0x0040 c 2 (logRes c) = true ∧ logInl c = true ∧ logAt b c = true ∧ r = logGot b c ∧ r.1 = [] ∧ r.2.2.2 % 2 = 0) ∧
    (∃ (c : Cmd) (s b : State) (r : List Rec × Nat × Nat × Nat) (k : State), b = begun s 0x0040 c 2 (logRes c) ∧ passes s 0x0040 c 2 (logRes c) = true ∧ logInl c = true ∧ logAt b c = true ∧ r = logGot b c ∧ r.1.isEmpty = false ∧ k = b.onSess c.session.toNat (fun x => if c.inf 1 1 = 0 then { x with curRing := r.2.1 } else { x with curArch := r.2.1 })) ∧
    (∃ (c : Cmd) (s b : State), b = begun s 0x0042 c 2 (logRes c) ∧ passes s 0x0042 c 2 (logRes c) = true ∧ logInl c = true ∧ logAt b c = true) ∧
    (∃ (c : Cmd) (s b k : State), b = begun s 0x0041 c 0 (c.inlZero 1) ∧ passes s 0x0041 c 0 (c.inlZero 1) = true ∧ c.inf 0 1 = 1 ∧ b.running 0x0042 = false ∧ k = ({ b.clearedSpan.2.2 with recd := { b.recd with ring := [] } } : State)) ∧
    (∃ (c : Cmd) (s b k : State), b = begun s 0x0041 c 0 (c.inlZero 1) ∧ passes s 0x0041 c 0 (c.inlZero 1) = true ∧ c.inf 0 1 = 2 ∧ b.running 0x0042 = false ∧ k = ({ b.clearedSpan.2.2 with recd := { b.recd with ring := [], archive := [], due := [] } } : State)) ∧
    (∃ (c : Cmd) (s b : State) (l : List (Nat × Nat × Nat × Nat)), b = begun s 0x0041 c 1 (c.inlZero 1) ∧ passes s 0x0041 c 1 (c.inlZero 1) = true ∧ c.inf 0 1 = 3 ∧ c.length % 8 = 0 ∧ 8 ≤ c.length ∧ c.length ≤ 4096 ∧ l = parseGust c.buf (c.length / 8) ∧ l.all gustOk = true ∧ noTwice (l.map (·.1)) = true ∧ b.fits 3 (c.buf.bytes 0 c.length) = true) ∧
    (∃ (c : Cmd) (s b : State) (d : Recd), b = begun s 0x0041 c 0 (c.inlZero 1) ∧ passes s 0x0041 c 0 (c.inlZero 1) = true ∧ c.inf 0 1 = 4 ∧ b.fits 3 [] = true ∧ d = b.recd.gust.foldl (fun d g => d.setGust g.1 100 1000 b.clk.now) b.recd) ∧
    (∃ (code : Nat) (b : Bucket) (k : State) (d : Bucket) (s : State), s.recd.buckets.find? (·.code = code) = some b ∧ b.sup ≠ 0 ∧ (s.recd.limit code).1 ≠ 0 ∧ k = s.reach (b.at_ + (1000000000 - b.tokens + (s.recd.limit code).1 - 1) / (s.recd.limit code).1) ∧ d = s.recd.fill b k.clk.now) ∧
    (∃ (r : Rec) (l : List Rec) (s : State), s.recd.due = r :: l ∧ recBytes s.recd.archive + r.len ≤ 0x10000000) ∧
    (∃ (s : State), s.pwr.dramOk = true ∧ s.serves = true) :=
  ⟨⟨hc [0, 1] 4096, asks 0x0040 (hc [0, 1] 4096) (live), _, _, rfl, by decide +kernel, by decide +kernel, by decide +kernel, rfl, by decide +kernel⟩,
   ⟨hc [0, 0] 4096, asks 0x0040 (hc [0, 0] 4096) ({ live with recd := { live.recd with served := true, ring := [{ seq := 3, code := 1, time := 0, src := 0 }], seq := 4 } }), _, _, _, rfl, by decide +kernel, by decide +kernel, by decide +kernel, rfl, by decide +kernel, rfl⟩,
   ⟨hc [0, 1] 4096, asks 0x0042 (hc [0, 1] 4096) (live), _, rfl, by decide +kernel⟩,
   ⟨hc [1], asks 0x0041 (hc [1]) (live), _, _, rfl, by decide +kernel, by decide +kernel, by decide +kernel, rfl⟩,
   ⟨hc [2], asks 0x0041 (hc [2]) (live), _, _, rfl, by decide +kernel, by decide +kernel, by decide +kernel, rfl⟩,
   ⟨hc [3] 8 { cells := [(0, 0), (1, 5), (2, 1), (4, 1)] }, asks 0x0041 (hc [3] 8 { cells := [(0, 0), (1, 5), (2, 1), (4, 1)] }) (live), _, _, rfl, by decide +kernel, by decide +kernel, (by decide +kernel), by decide +kernel, by decide +kernel, rfl, by decide +kernel⟩,
   ⟨hc [4], asks 0x0041 (hc [4]) (live), _, _, rfl, by decide +kernel, by decide +kernel, by decide +kernel, rfl⟩,
   ⟨0x0500, { code := 0x0500, tokens := 0, at_ := 0, sup := 3, first := 1, last := 2 }, _, _, { live with recd := { live.recd with buckets := [{ code := 0x0500, tokens := 0, at_ := 0, sup := 3, first := 1, last := 2 }] } }, by decide +kernel, by decide +kernel, by decide +kernel, rfl, rfl⟩,
   ⟨{ code := 1, time := 0, src := 0 }, [], { live with recd := { live.recd with due := [{ code := 1, time := 0, src := 0 }] } }, by decide +kernel⟩,
   ⟨live, by decide +kernel⟩⟩

theorem forceCommandsComplete_met :
    (∃ (c : Cmd) (s b k : State), b = begun s 0x0050 c 1 (c.inlZero 0) ∧ passes s 0x0050 c 1 (c.inlZero 0) = true ∧ c.length % 8 = 0 ∧ 8 ≤ c.length ∧ c.length ≤ 2048 ∧ b.primary = true ∧ b.forcesOk (parseForces c.buf (c.length / 8)) = true ∧ k = (parseForces c.buf (c.length / 8)).foldl (fun s e => s.acceptForce e.1 e.2.1 (b.partyOf c) b.nextVer) b) ∧
    (∃ (c : Cmd) (s b : State), b = begun s 0x0050 c 1 (c.inlZero 0) ∧ passes s 0x0050 c 1 (c.inlZero 0) = true ∧ c.length = 8 ∧ b.primary = true ∧ b.forcesOk (parseForces c.buf 1) = true ∧ b.cyc.running = true) ∧
    (∃ (c : Cmd) (s b : State) (n : Nat) (k : Force → Bool), b = begun s 0x0051 c 1 (c.inf 0 4 / 2 = 0 && c.inlZero 4) ∧ passes s 0x0051 c 1 (c.inf 0 4 / 2 = 0 && c.inlZero 4) = true ∧ c.inf 0 4 % 2 = 0 ∧ c.length % 4 = 0 ∧ 4 ≤ c.length ∧ c.length ≤ 1024 ∧ b.primary = true ∧ (parsePoints c.buf (c.length / 4)).all (pointR97 b.mapCfg) = true ∧ k = freedBy b (fun f => (parsePoints c.buf (c.length / 4)).contains f.point) ∧ n = b.img.force.countP k ∧ n ≠ 0) ∧
    (∃ (c : Cmd) (s b : State) (n : Nat) (k : Force → Bool), b = begun s 0x0051 c 0 (c.inf 0 4 / 2 = 0 && c.inlZero 4) ∧ passes s 0x0051 c 0 (c.inf 0 4 / 2 = 0 && c.inlZero 4) = true ∧ c.inf 0 4 % 2 = 1 ∧ b.primary = true ∧ k = freedBy b (fun _ => true) ∧ n = b.img.force.countP k ∧ n ≠ 0) ∧
    (∃ (c : Cmd) (s b : State), b = begun s 0x0051 c 0 (c.inf 0 4 / 2 = 0 && c.inlZero 4) ∧ passes s 0x0051 c 0 (c.inf 0 4 / 2 = 0 && c.inlZero 4) = true ∧ c.inf 0 4 % 2 = 1 ∧ b.primary = true ∧ b.img.force.countP (freedBy b fun _ => true) = 0) ∧
    (∃ (c : Cmd) (s b : State), b = begun s 0x0052 c 2 (c.inlZero 4) ∧ passes s 0x0052 c 2 (c.inlZero 4) = true ∧ c.inf 0 4 < b.img.force.length) :=
  ⟨⟨hc [] 8 { cells := [(2, 0xA0), (4, 1)] }, asks 0x0050 (hc [] 8 { cells := [(2, 0xA0), (4, 1)] }) (netp), _, _, rfl, by decide +kernel, by decide +kernel, (by decide +kernel), by decide +kernel, by decide +kernel, (by decide +kernel), rfl⟩,
   ⟨hc [] 8 { cells := [(2, 0xA0), (4, 1)] }, asks 0x0050 (hc [] 8 { cells := [(2, 0xA0), (4, 1)] }) (netp), _, rfl, by decide +kernel⟩,
   ⟨hc [0] 4 { cells := [(2, 0xA0)] }, asks 0x0051 (hc [0] 4 { cells := [(2, 0xA0)] }) ({ netp with img := { netp.img with force := [{ point := 0xA00000, value := 1, pending := false, effectN := some 60 }] }, pair := { netp.pair with forceVer := 4 } }), _, _, _, rfl, by decide +kernel, by decide +kernel, (by decide +kernel), by decide +kernel, by decide +kernel, (by decide +kernel), by decide +kernel, rfl, rfl, by decide +kernel⟩,
   ⟨hc [1], asks 0x0051 (hc [1]) ({ netp with img := { netp.img with force := [{ point := 0xA00000, value := 1, pending := false, effectN := some 60 }] }, pair := { netp.pair with forceVer := 4 } }), _, _, _, rfl, by decide +kernel, by decide +kernel, by decide +kernel, rfl, rfl, by decide +kernel⟩,
   ⟨hc [1], asks 0x0051 (hc [1]) (netp), _, rfl, by decide +kernel⟩,
   ⟨hc [] 64, asks 0x0052 (hc [] 64) ({ netp with img := { netp.img with force := [{ point := 0xA00000, value := 1, pending := false, effectN := some 60 }] }, pair := { netp.pair with forceVer := 4 } }), _, rfl, by decide +kernel⟩⟩

theorem imageCommandsComplete_met :
    (∃ (c : Cmd) (img : AppImage) (s b : State), b = begun s 0x0060 c 1 (c.inlZero 0) ∧ passes s 0x0060 c 1 (c.inlZero 0) = true ∧ b.primary = true ∧ b.busyTask = false ∧ b.appHdr img 2 c.length = none ∧ b.longOps < 8) ∧
    (∃ (c : Cmd) (img : AppImage) (s b k : State), b = begun s 0x0061 c 1 (cflagsOk c) ∧ passes s 0x0061 c 1 (cflagsOk c) = true ∧ b.primary = true ∧ c.inf 0 4 = 0 ∧ b.changeBusy = false ∧ b.appHdr img 3 c.length = none ∧ b.longOps < 8 ∧ k = b.endRollback.accept (mkRun 0x0061 c (b.endRollback.partyOf c) true c.length (.appChange img)) 0x0061 c ∧ k.partnerDuty = false) ∧
    (∃ (c : Cmd) (img : AppImage) (s b k : State), b = begun s 0x0061 c 1 (cflagsOk c) ∧ passes s 0x0061 c 1 (cflagsOk c) = true ∧ b.primary = true ∧ c.inf 0 4 = 0 ∧ b.changeBusy = false ∧ b.appHdr img 3 c.length = none ∧ b.longOps < 8 ∧ k = b.endRollback.accept (mkRun 0x0061 c (b.endRollback.partyOf c) true c.length (.appChange img)) 0x0061 c ∧ k.partnerDuty = true) ∧
    (∃ (c : Cmd) (s b : State) (u : Nat) (p : AppSlot) (i : AppImage), b = begun s 0x0061 c 0 (cflagsOk c) ∧ passes s 0x0061 c 0 (cflagsOk c) = true ∧ b.primary = true ∧ c.inf 0 4 = 1 ∧ b.changeBusy = false ∧ b.chg.rollback = some u ∧ b.chg.app.toList.find? (·.st = .previous) = some p ∧ p.img = some i ∧ b.stamp ≤ u ∧ b.longOps < 8) ∧
    (∃ (u : Nat) (s k : State), s.chg.rollback = some u ∧ k = s.reach ((u : Int) - ((s.stamp : Int) - (s.clk.now : Int))).toNat ∧ k.chg.rollback = some u) ∧
    (∃ (sess : BitVec 16) (id : BitVec 32) (img : AppImage) (r : Run) (s : State), s.runOf (BitVec.toNat sess) id = some r ∧ r.suspended = false ∧ s.serves = true ∧ r.work = .appLoad img false ∧ s.staging img = none ∧ s.partnerDuty = false) ∧
    (∃ (sess : BitVec 16) (id : BitVec 32) (img : AppImage) (r : Run) (s k : State), s.runOf (BitVec.toNat sess) id = some r ∧ r.suspended = false ∧ s.serves = true ∧ r.work = .appLoad img false ∧ s.staging img = none ∧ s.partnerDuty = true ∧ k = ((s.stageApp img img).keepSecret img).setRun { r with work := .appLoad img true }) ∧
    (∃ (sess : BitVec 16) (id : BitVec 32) (img : AppImage) (r : Run) (s k : State), s.runOf (BitVec.toNat sess) id = some r ∧ r.suspended = false ∧ s.serves = true ∧ r.work = .appChange img ∧ s.chg.ownOk = false ∧ s.staging img = none ∧ k = (s.stageApp img (s.merged img)).keepSecret img) ∧
    (∃ (sess : BitVec 16) (id : BitVec 32) (img : AppImage) (r : Run) (s k : State), s.runOf (BitVec.toNat sess) id = some r ∧ r.suspended = false ∧ s.serves = true ∧ r.work = .fwStage img ∧ s.staging img = none ∧ s.chg.partnerWait = none ∧ k = s.stageFw img) ∧
    (∃ (sess : BitVec 16) (id : BitVec 32) (img : AppImage) (r : Run) (s : State) (st d : Nat), s.runOf (BitVec.toNat sess) id = some r ∧ r.suspended = false ∧ s.serves = true ∧ r.work = .fwStage img ∧ s.staging img = some (st, d)) ∧
    (∃ (img : AppImage) (s : State), s.pair.role = .standby ∧ img.hdr.kind = 1 ∧ s.passedCheck img = none ∧ s.staging img = none) ∧
    (∃ (img : AppImage) (s : State), s.pair.role = .standby ∧ img.hdr.kind = 2 ∧ s.passedCheck img = none ∧ s.staging img = none) ∧
    (∃ (img i : AppImage) (s k : State), s.pair.role = .standby ∧ img.hdr.kind = 3 ∧ s.passedCheck img = none ∧ s.staging img = none ∧ i = s.merged img ∧ k = (s.endRollback.stageApp img i).keepSecret img) ∧
    (∃ (img : AppImage) (s k : State), s.pair.role = .joining ∧ s.hdrCheckAny img img.hdr.kind (img.hdr.bodyLength + 512) = none ∧ s.tagOk img = true ∧ img.hdr.resultDigest = Config.bodyDigest (fullBody img.body) ∧ s.contentOk img.body = true ∧ (s.pair.hb.map (·.appId)) = some (img.hdr.resultDigest.setWidth 128) ∧ k = (s.install img).keepSecret img) ∧
    (∃ (n : Nat) (i : AppImage) (s : State), s.pair.role = .standby ∧ s.chg.change = none ∧ s.chg.staged = some i) ∧
    (∃ (n : Nat) (c : Change) (s : State), s.pair.role = .standby ∧ s.chg.change = some c) :=
  ⟨⟨hc [] 808, app, asks 0x0060 (hc [] 808) (appp), _, rfl, by decide +kernel⟩,
   ⟨hc [] 632, delta, asks 0x0061 (hc [] 632) (appp), _, _, rfl, by decide +kernel, by decide +kernel, (by decide +kernel), by decide +kernel, by decide +kernel, (by decide +kernel), rfl, by decide +kernel⟩,
   ⟨hc [] 632, delta, asks 0x0061 (hc [] 632) (pairp), _, _, rfl, by decide +kernel, by decide +kernel, (by decide +kernel), by decide +kernel, by decide +kernel, (by decide +kernel), rfl, by decide +kernel⟩,
   ⟨hc [1], asks 0x0061 (hc [1]) ({ appp with chg := { appp.chg with rollback := some 60000000000, app := appp.chg.app.set 1 { st := .previous, img := some app } } }), _, 60000000000, { st := .previous, img := some app }, app, rfl, by decide +kernel⟩,
   ⟨5, { appp with chg := { appp.chg with rollback := some 5 } }, _, by decide +kernel, rfl, by decide +kernel⟩,
   ⟨7, 1, appGood, { src := .queue 1, session := 7, cmdId := 1, opcode := 0x0060, party := 2, long := true, work := .appLoad appGood false }, { appp with host := { appp.host with runs := [{ src := .queue 1, session := 7, cmdId := 1, opcode := 0x0060, party := 2, long := true, work := .appLoad appGood false }] } }, rfl, by decide +kernel, by decide +kernel, rfl, (staged (by decide +kernel) (by simp [State.digestsOk, State.merged, fullBody, appp, netp, prim, live, app, appGood, delta, fwImg]) (by decide +kernel)), by decide +kernel⟩,
   ⟨7, 1, appGood, { src := .queue 1, session := 7, cmdId := 1, opcode := 0x0060, party := 2, long := true, work := .appLoad appGood false }, { pairp with host := { pairp.host with runs := [{ src := .queue 1, session := 7, cmdId := 1, opcode := 0x0060, party := 2, long := true, work := .appLoad appGood false }] } }, _, rfl, by decide +kernel, by decide +kernel, rfl, (staged (by decide +kernel) (by simp [State.digestsOk, State.merged, fullBody, appp, netp, prim, live, app, appGood, delta, fwImg]) (by decide +kernel)), by decide +kernel, rfl⟩,
   ⟨7, 1, delta, { src := .queue 1, session := 7, cmdId := 1, opcode := 0x0061, party := 2, long := true, work := .appChange delta }, { appp with host := { appp.host with runs := [{ src := .queue 1, session := 7, cmdId := 1, opcode := 0x0061, party := 2, long := true, work := .appChange delta }] } }, _, rfl, by decide +kernel, by decide +kernel, rfl, by decide +kernel, (staged (by decide +kernel) (by simp [State.digestsOk, State.merged, fullBody, appp, netp, prim, live, app, appGood, delta, fwImg]) (by decide +kernel)), rfl⟩,
   ⟨7, 1, fwImg 2, { src := .queue 1, session := 7, cmdId := 1, opcode := 0x0070, party := 2, long := true, work := .fwStage (fwImg 2) }, { appp with host := { appp.host with runs := [{ src := .queue 1, session := 7, cmdId := 1, opcode := 0x0070, party := 2, long := true, work := .fwStage (fwImg 2) }] } }, _, rfl, by decide +kernel, by decide +kernel, rfl, (staged (by decide +kernel) (by simp [State.digestsOk, State.merged, fullBody, appp, netp, prim, live, app, appGood, delta, fwImg]) (by decide +kernel)), by decide +kernel, rfl⟩,
   ⟨7, 1, { app with body := { secs := [] } }, { src := .queue 1, session := 7, cmdId := 1, opcode := 0x0070, party := 2, long := true, work := .fwStage { app with body := { secs := [] } } }, { appp with host := { appp.host with runs := [{ src := .queue 1, session := 7, cmdId := 1, opcode := 0x0070, party := 2, long := true, work := .fwStage { app with body := { secs := [] } } }] } }, stInvalid, dContent, rfl, by decide +kernel, by decide +kernel, rfl, (unstaged (by decide +kernel) (by decide +kernel))⟩,
   ⟨fwImg 2, { appp with pair := { appp.pair with role := .standby } }, by decide +kernel, by decide +kernel, by decide +kernel, (staged (by decide +kernel) (by simp [State.digestsOk, State.merged, fullBody, appp, netp, prim, live, app, appGood, delta, fwImg]) (by decide +kernel))⟩,
   ⟨appGood, { appp with pair := { appp.pair with role := .standby } }, by decide +kernel, by decide +kernel, by decide +kernel, (staged (by decide +kernel) (by simp [State.digestsOk, State.merged, fullBody, appp, netp, prim, live, app, appGood, delta, fwImg]) (by decide +kernel))⟩,
   ⟨delta, _, { appp with pair := { appp.pair with role := .standby } }, _, by decide +kernel, by decide +kernel, by decide +kernel, (staged (by decide +kernel) (by simp [State.digestsOk, State.merged, fullBody, appp, netp, prim, live, app, appGood, delta, fwImg]) (by decide +kernel)), rfl, rfl⟩,
   ⟨appGood, { appp with pair := { appp.pair with role := .joining, hb := some { beat2 with appId := (Config.bodyDigest appBody).setWidth 128 } } }, _, by decide +kernel, by decide +kernel, by decide +kernel, rfl, by decide +kernel, rfl, rfl⟩,
   ⟨128, app, { appp with pair := { appp.pair with role := .standby }, chg := { appp.chg with staged := some app } }, by decide +kernel⟩,
   ⟨70, { img := app, nc := 66 }, { appp with pair := { appp.pair with role := .standby, own := false, drive := false }, chg := { appp.chg with change := some { img := app, nc := 66 } } }, by decide +kernel⟩⟩

theorem runningImageCompletes_met :
    (∃ (c : Cmd) (s b : State), b = begun s 0x0062 c 0 (c.inlZero 0) ∧ passes s 0x0062 c 0 (c.inlZero 0) = true ∧ b.primary = true ∧ b.chg.running.isSome = true) ∧
    (∃ (c : Cmd) (s b : State), b = begun s 0x0062 c 0 (c.inlZero 0) ∧ passes s 0x0062 c 0 (c.inlZero 0) = true ∧ b.primary = true ∧ b.chg.running.isSome = true) ∧
    (∃ (c : Cmd) (s b : State), b = begun s 0x0063 c 0 (c.inlZero 0) ∧ passes s 0x0063 c 0 (c.inlZero 0) = true ∧ b.primary = true) ∧
    (∃ (c : Cmd) (s b : State), b = begun s 0x0063 c 0 (c.inlZero 0) ∧ passes s 0x0063 c 0 (c.inlZero 0) = true ∧ b.primary = true ∧ b.calm.on = false) ∧
    (∃ (c : Cmd) (s b : State) (x : TaskCfg), b = begun s 0x0064 c 0 true ∧ passes s 0x0064 c 0 true = true ∧ b.primary = true ∧ c.inf 0 1 ≤ 15 ∧ b.calm.on = false ∧ b.hostTasks (c.inf 0 1) = [x] ∧ b.taskCfg x.num = some x ∧ (b.taskAt x.num).st = .idle ∧ x.num < 32 ∧ b.cyc.noRel = false ∧ b.cyc.starting = false ∧ b.cyc.holdRel = false) ∧
    (∃ (c : Change) (s k : State), s.chg.change = some c ∧ s.primary = true ∧ c.done = false ∧ c.abandoned = false ∧ s.cyc.n + 1 = c.nc ∧ s.cyc.snapN = some s.cyc.n ∧ s.comparedIdle = true ∧ s.wb.update = false ∧ s.netTime + 8000 + migNs (s.rulesOf c) + 2000 ≤ s.startOf c.nc + ((s.net.cfg.map (·.i)).getD 0) ∧ k = changedAtQ s c) ∧
    (∃ (c : Change) (s : State), s.chg.change = some c ∧ s.primary = true ∧ c.done = false ∧ c.abandoned = false ∧ s.cyc.n + 1 = c.nc ∧ s.cyc.snapN = some s.cyc.n ∧ s.comparedIdle = true ∧ s.startOf c.nc + ((s.net.cfg.map (·.i)).getD 0) < s.netTime + 8000 + migNs (s.rulesOf c) + 2000) :=
  ⟨⟨hc, asks 0x0062 (hc) ({ appp with calm := { on := true, cause := 4 } }), _, rfl, by decide +kernel⟩,
   ⟨hc, asks 0x0062 (hc) ({ appp with calm := { on := true, cause := 4 } }), _, rfl, by decide +kernel⟩,
   ⟨hc, asks 0x0063 (hc) ({ appp with calm := { on := true, cause := 1 } }), _, rfl, by decide +kernel⟩,
   ⟨hc, asks 0x0063 (hc) (appp), _, rfl, by decide +kernel⟩,
   ⟨hc [0, 0, 0, 0, 5], asks 0x0064 (hc [0, 0, 0, 0, 5]) (appp), _, { num := 3, kind := .event, lane := 2, prio := 1 }, rfl, by decide +kernel⟩,
   ⟨{ img := app, nc := 65 }, { appp with chg := { appp.chg with change := some { img := app, nc := 65 } }, cyc := { appp.cyc with snapN := some 64 } }, _, by decide +kernel, by decide +kernel, (by decide +kernel), by decide +kernel, by decide +kernel, (by decide +kernel), by decide +kernel, by decide +kernel, (by decide +kernel), rfl⟩,
   ⟨{ img := app, nc := 65 }, { appp with chg := { appp.chg with change := some { img := app, nc := 65 } }, cyc := { appp.cyc with snapN := some 64 }, clk := { now := 16350000 } }, by decide +kernel⟩⟩

theorem firmwareCommandsComplete_met :
    (∃ (c : Cmd) (img : AppImage) (s b k : State), b = begun s 0x0070 c 1 (c.inlZero 0) ∧ passes s 0x0070 c 1 (c.inlZero 0) = true ∧ b.primary = true ∧ b.hdrCheck img 1 c.length = none ∧ (img.hdr.gen = b.fwGen ∨ img.hdr.gen = b.fwGen + 1) ∧ b.anyTrial = false ∧ b.longOps < 8 ∧ k = (b.addRun (fwRun b c img)).runPost (fwRun b c img) stAccepted 1 dNone ∧ k.partnerDuty = false) ∧
    (∃ (c : Cmd) (img : AppImage) (s b k : State), b = begun s 0x0070 c 1 (c.inlZero 0) ∧ passes s 0x0070 c 1 (c.inlZero 0) = true ∧ b.primary = true ∧ b.hdrCheck img 1 c.length = none ∧ (img.hdr.gen = b.fwGen ∨ img.hdr.gen = b.fwGen + 1) ∧ b.anyTrial = false ∧ b.longOps < 8 ∧ k = (b.addRun (fwRun b c img)).runPost (fwRun b c img) stAccepted 1 dNone ∧ k.partnerDuty = true) ∧
    (∃ (c : Cmd) (s b : State), b = begun s 0x0071 c 0 (c.inlZero 0) ∧ passes s 0x0071 c 0 (c.inlZero 0) = true ∧ b.primary = true ∧ b.hasTarget = true ∧ b.changeBusy = false ∧ b.partnerStandby = true ∧ b.pair.partnerCur = true ∧ b.partnerFlag 3 = false ∧ b.otherTarget = false ∧ b.longOps < 8) ∧
    (∃ (c : Cmd) (s b : State), b = begun s 0x0072 c 0 (c.inlZero 0) ∧ passes s 0x0072 c 0 (c.inlZero 0) = true ∧ b.runsTrial = true ∧ b.partnerDuty = false) ∧
    (∃ (c : Cmd) (s b : State) (p : FwHeld) (k : State), b = begun s 0x0072 c 0 (c.inlZero 0) ∧ passes s 0x0072 c 0 (c.inlZero 0) = true ∧ b.runsTrial = true ∧ b.partnerDuty = true ∧ b.chg.partner = some p ∧ p.runs = b.fwSlot.hdr.map (·.resultDigest) ∧ k = b.send (.report .fwConfirm true)) ∧
    (∃ (c : Cmd) (s b : State), b = begun s 0x0073 c 0 (c.inlZero 0) ∧ passes s 0x0073 c 0 (c.inlZero 0) = true ∧ b.anyTrial = true ∧ b.linked = false) ∧
    (∃ (c : Cmd) (s b : State), b = begun s 0x0073 c 0 (c.inlZero 0) ∧ passes s 0x0073 c 0 (c.inlZero 0) = true ∧ b.anyTrial = true ∧ b.linked = true) ∧
    (∃ (s : State), s.pwr.lullService = false ∧ s.runsTrial = true ∧ s.chg.fails < 2) ∧
    (∃ (s : State) (k : Nat) (u : State), s.pwr.lullService = false ∧ s.runsTrial = true ∧ 2 ≤ s.chg.fails ∧ k = (s.chg.fw.toList.findIdx? (·.st = .active)).getD s.chg.fwRun ∧ u = (({ s with chg := { s.chg with fwRun := k, fails := 0 } } : State).setFw (failTrials s.chg.fw)).record 0x0A03 (srcOf 9 0) []) ∧
    (∃ (s : State), (s.pwr.lullService = true ∨ s.runsTrial = false)) :=
  ⟨⟨hc [] 528, fwImg 1, asks 0x0070 (hc [] 528) (appp), _, _, rfl, by decide +kernel, by decide +kernel, (by decide +kernel), by decide +kernel, by decide +kernel, (by decide +kernel), rfl, by decide +kernel⟩,
   ⟨hc [] 528, fwImg 2, asks 0x0070 (hc [] 528) ({ pairp with chg := { pairp.chg with fw := pairp.chg.fw.set 0 { st := .active, img := some (fwImg 1) } } }), _, _, rfl, by decide +kernel, by decide +kernel, (by decide +kernel), by decide +kernel, by decide +kernel, (by decide +kernel), rfl, by decide +kernel⟩,
   ⟨hc, asks 0x0071 (hc) ({ pairp with chg := { pairp.chg with fw := pairp.chg.fw.set 1 { st := .staged, img := some (fwImg 2) } } }), _, rfl, by decide +kernel⟩,
   ⟨hc, asks 0x0072 (hc) ({ appp with chg := { appp.chg with fw := #v[{ st := .active, img := some (fwImg 1) }, { st := .trial, img := some (fwImg 2) }], fwRun := 1 } }), _, rfl, by decide +kernel⟩,
   ⟨hc, asks 0x0072 (hc) ({ pairp with chg := { pairp.chg with fw := #v[{ st := .active, img := some (fwImg 1) }, { st := .trial, img := some { hdr := { kind := 1, gen := 2, resultDigest := 5 } } }], fwRun := 1, partner := some { trial := true, runs := some 5 } } }), _, { trial := true, runs := some 5 }, _, rfl, by decide +kernel, by decide +kernel, (by decide +kernel), by decide +kernel, by decide +kernel, rfl⟩,
   ⟨hc, asks 0x0073 (hc) ({ appp with chg := { appp.chg with fw := #v[{ st := .active, img := some (fwImg 1) }, { st := .trial, img := some (fwImg 2) }], fwRun := 1 } }), _, rfl, by decide +kernel⟩,
   ⟨hc, asks 0x0073 (hc) ((let s : State := { pairp with chg := { pairp.chg with fw := #v[{ st := .active, img := some (fwImg 1) }, { st := .trial, img := some (fwImg 2) }], fwRun := 1 } }; { s with pair := { s.pair with hb := some { beat2 with fwGen := 2 } } })), _, rfl, by decide +kernel⟩,
   ⟨(let s : State := { appp with chg := { appp.chg with fw := #v[{ st := .active, img := some (fwImg 1) }, { st := .trial, img := some (fwImg 2) }], fwRun := 1 } }; { s with pwr := { s.pwr with lullService := false }, chg := { s.chg with fails := 1 } }), by decide +kernel⟩,
   ⟨(let s : State := { appp with chg := { appp.chg with fw := #v[{ st := .active, img := some (fwImg 1) }, { st := .trial, img := some (fwImg 2) }], fwRun := 1 } }; { s with pwr := { s.pwr with lullService := false }, chg := { s.chg with fails := 2 } }), _, _, by decide +kernel, by decide +kernel, by decide +kernel, rfl, rfl⟩,
   ⟨appp, by decide +kernel⟩⟩

theorem taskCommandsComplete_met :
    (∃ (l : Fin 8) (cp : Side) (x : TaskCfg) (s t : State), s.copyGoes l.val cp = true ∧ (s.laneAt l.val).split = true ∧ s.nextTask l.val cp = some x ∧ x.num < 32 ∧ reaches s (writeTxn l cp 3 (laneSlot l.val + 0x108) 8 (BitVec.ofNat 64 x.num)) = true ∧ t = (s.curWrite l.val cp (BitVec.ofNat 64 x.num)).answer []) ∧
    (∃ (l : Fin 8) (cp : Side) (x : TaskCfg) (s : State), s.copyGoes l.val cp = true ∧ (s.laneAt l.val).split = false ∧ s.nextTask l.val cp = some x) ∧
    (∃ (l : Fin 8) (cp : Side) (v : Word) (s : State), s.copyGoes l.val cp = true ∧ (s.laneAt l.val).split = true ∧ reaches s (writeTxn l cp 3 (laneSlot l.val + 0x100) 8 v) = true) ∧
    (∃ (l : Fin 8) (cp : Side) (v : Word) (x : TaskCfg) (s t : State), s.copyGoes l.val cp = true ∧ (s.laneAt l.val).split = true ∧ reaches s (writeTxn l cp 3 (laneSlot l.val + 0x100) 8 v) = true ∧ ((s.laneAt l.val).copy cp).idle = false ∧ ((s.laneAt l.val).copy cp).curTask = BitVec.toNat (v &&& 0x1F) ∧ s.taskCfg (BitVec.toNat (v &&& 0x1F)) = some x ∧ x.num = BitVec.toNat (v &&& 0x1F) ∧ x.kind ≠ .background ∧ (s.taskAt x.num).st = .running ∧ (s.taskAt x.num).held = false ∧ (s.taskAt x.num).queue = [] ∧ t = (s.taskDone l.val cp v).answer []) ∧
    (∃ (l : Fin 8) (cp : Side) (v : Word) (s : State), s.copyGoes l.val cp = true ∧ (s.laneAt l.val).split = false) ∧
    (∃ (l : Fin 8) (cp : Side) (cause addr : Nat) (x : TaskCfg) (s u k : State), s.copyGoes l.val cp = true ∧ s.runningOn l.val cp = some x ∧ u = s.onLane l.val (fun y => if y.split then y.onCopy cp LaneCopy.trapped else { y with a := y.a.trapped, b := y.b.trapped }) ∧ k = (u.charge l.val cp x).onTask x.num (fun y => { y with held := true, traps := satAdd 64 y.traps 1 })) :=
  ⟨⟨2, .a, { num := 3, kind := .event, lane := 2, prio := 1, split := true, copy := .a }, (let s : State := splp; s.onTask 3 fun x => { x with st := .ready }), _, by decide +kernel, by decide +kernel, (by decide +kernel), by decide +kernel, by decide +kernel, rfl⟩,
   ⟨2, .a, { num := 3, kind := .event, lane := 2, prio := 1 }, (let s : State := appp; s.onTask 3 fun x => { x with st := .ready }), by decide +kernel⟩,
   ⟨2, .a, 3, (let s : State := splp; s.onTask 3 fun x => { x with st := .running }), by decide +kernel⟩,
   ⟨2, .a, 3, { num := 3, kind := .event, lane := 2, prio := 1, split := true, copy := .a }, (let s : State := (let s : State := splp; s.onTask 3 fun x => { x with st := .running }); s.setCur 2 .a 3 false), _, by decide +kernel, by decide +kernel, (by decide +kernel), by decide +kernel, by decide +kernel, (by decide +kernel), by decide +kernel, by decide +kernel, (by decide +kernel), by decide +kernel, by decide +kernel, rfl⟩,
   ⟨2, .b, 3, appp, by decide +kernel⟩,
   ⟨2, .b, 2, 0x01000000, { num := 3, kind := .event, lane := 2, prio := 1 }, (let s : State := appp; s.onTask 3 fun x => { x with st := .running }), _, _, by decide +kernel, by decide +kernel, rfl, rfl⟩⟩

theorem deliveryCompletes_met :
    (∃ (l : Fin 9) (cA cB : Nat) (s : State) (d : Nat) (evs : List DEv), (s.laneAt l.val).pending ≠ [] ∧ s.laneGoes l.val = true ∧ (s.laneAt l.val).a.countOk cA = true ∧ (s.laneAt l.val).b.countOk cB = true ∧ (s.laneAt l.val).split = false ∧ d = agreed cA cB (s.laneAt l.val).a.waiting (s.laneAt l.val).b.waiting ∧ evs = s.sortDev (s.laneAt l.val).pending) ∧
    (∃ (l : Fin 9) (cA cB : Nat) (s : State) (evs : List DEv), (s.laneAt l.val).pending ≠ [] ∧ s.laneGoes l.val = true ∧ (s.laneAt l.val).a.countOk cA = true ∧ (s.laneAt l.val).b.countOk cB = true ∧ (s.laneAt l.val).split = true ∧ evs = s.sortDev (s.laneAt l.val).pending) ∧
    (∃ (l : Fin 9) (s : State), (s.laneAt l.val).timerEn = true ∧ (s.laneAt l.val).halted = false) ∧
    (∃ (a b : Fin 9) (s : State), s.laneGoes a.val = true ∧ (s.laneAt b.val).halted = false) :=
  ⟨⟨2, 4096, 8191, (let s : State := appp; s.onLane 2 fun l => { l with pending := [.timer, .halt], a := { l.a with checks := 1 }, b := { l.b with checks := 1 } }), _, _, by decide +kernel, by decide +kernel, (by decide +kernel), by decide +kernel, by decide +kernel, rfl, rfl⟩,
   ⟨2, 4096, 8191, (let s : State := splp; s.onLane 2 fun l => { l with pending := [.timer, .halt], a := { l.a with checks := 1 }, b := { l.b with checks := 1 } }), _, by decide +kernel, by decide +kernel, (by decide +kernel), by decide +kernel, by decide +kernel, rfl⟩,
   ⟨8, (let s : State := appp; s.onLane 8 fun l => { l with timerEn := true }), by decide +kernel⟩,
   ⟨2, 8, appp, by decide +kernel⟩⟩

theorem transactionsComplete_met :
    (∃ (t : Txn) (s : State), issues s t = true ∧ reaches s t = true ∧ slotOf t.addr = none ∧ t.err = .none ∧ s.mgn.poison = []) ∧
    (∃ (t : Txn) (s k : State), issues s t = true ∧ reaches s t = true ∧ slotOf t.addr = none ∧ t.err = .none ∧ s.mgn.poison = [] ∧ t.kind = 1 ∧ (0x0160000000 ≤ t.addr && t.addr < 0x017C000000) = false ∧ k = s.breakRes t.addr) ∧
    (∃ (t : Txn) (reason region a : Nat) (straddle : Bool) (s : State), issues s t = true ∧ s.wb.held = false ∧ barBad t = false ∧ s.refusal t = some (reason, region, a, straddle)) ∧
    (∃ (t : Txn) (s : State), issues s t = true ∧ s.wb.held = true ∧ t.cls.val ≠ 3) ∧
    (∃ (t : Txn) (s : State), issues s t = true ∧ s.wb.held = false ∧ barBad t = false ∧ s.refusal t = none ∧ s.powered t.addr = true ∧ (s.atParked t.addr || s.clockHeld t.addr) = true) ∧
    (∃ (l : Fin 8) (cp : Side) (addr size : Nat) (v : Word) (s : State) (p : BitVec 2), s.copyGoes l.val cp = true ∧ (s.laneAt l.val).split = false ∧ p = (if slotOf addr = some (12 + l.val) then 3 else s.lanePriv l.val cp)) ∧
    (∃ (l : Fin 8) (cp : Side) (addr size : Nat) (v : Word) (s : State) (p : BitVec 2), s.copyGoes l.val cp = true ∧ (s.laneAt l.val).split = true ∧ p = (if slotOf addr = some (12 + l.val) then 3 else s.lanePriv l.val cp)) ∧
    (∃ (addr a size : Nat) (v : Word) (s : State), barAddr addr = some a) ∧
    (∃ (addr a : Nat) (v : Word) (s : State) (slot : Nat) (k : State), barAddr addr = some a ∧ slotOf a = some slot ∧ described slot = true ∧ a % 8 = 0 ∧ reaches s (barWrite a 8 v) = true ∧ k = s.regWrite slot .a (a % 0x10000) v State.heldTxn) :=
  ⟨⟨{ cls := 3, kind := 0, addr := 0x01000000, size := 8 }, live, by decide +kernel⟩,
   ⟨{ cls := 3, kind := 1, addr := 0x01000000, size := 8, data := le 8 5 }, live, _, by decide +kernel, by decide +kernel, (by decide +kernel), by decide +kernel, by decide +kernel, (by decide +kernel), by decide +kernel, rfl⟩,
   ⟨{ cls := 4, kind := 0, addr := 0x01000000, size := 8 }, 12, 0xFF, 0x01000000, false, live, by decide +kernel⟩,
   ⟨{ cls := 4, kind := 0, addr := 0x01000000, size := 8 }, { live with wb := { live.wb with held := true } }, by decide +kernel⟩,
   ⟨{ cls := 3, kind := 0, addr := 0x100C0100, size := 8 }, (let s : State := prim; s.onLane 0 fun l => { l with halted := false, parked := true }), by decide +kernel⟩,
   ⟨2, .a, 0x10160000, 8, 7, appp, _, by decide +kernel, by decide +kernel, rfl⟩,
   ⟨2, .b, 0x100E0108, 8, 7, splp, _, by decide +kernel, by decide +kernel, rfl⟩,
   ⟨0x7FFF, 0x101C7FFF, 8, 3, live, by decide +kernel⟩,
   ⟨0x7FF8, 0x101C7FF8, 3, live, 28, _, by decide +kernel, by decide +kernel, (by decide +kernel), by decide +kernel, by decide +kernel, rfl⟩⟩

theorem windbreakUpdateCompletes_met :
    (∃ (s : State), s.wb.update = false ∧ s.updateTime = true) ∧
    (∃ (s : State), s.wb.update = true) ∧
    (∃ (s : State), s.wb.update = false) ∧
    (∃ (s : State), s.wb.update = true) ∧
    (∃ (s : State), s.wb.update = true ∧ s.wb.gate = []) ∧
    (∃ (s k : State), s.wb.update = true ∧ s.wb.gate = [] ∧ k = s.reach (s.wb.since + 8000) ∧ k.wb = s.wb) ∧
    (∃ (r : Fin 64) (v : Word) (s : State), s.wb.aborted = false ∧ s.wb.update = true ∧ s.wb.held = true ∧ rgnBad 0 v = false) ∧
    (∃ (r : Fin 64) (v : Word) (s : State), s.wb.aborted = false ∧ s.wb.update = true ∧ s.wb.held = true) ∧
    (∃ (r : Fin 64) (v : Word) (s : State), s.wb.aborted = false ∧ s.wb.update = true ∧ s.wb.held = true) ∧
    (∃ (r : Fin 64) (g : Fin 3) (v : Word) (s : State), s.wb.aborted = false ∧ s.wb.update = false) :=
  ⟨⟨live, by decide +kernel⟩,
   ⟨{ live with wb := { live.wb with update := true, held := true } }, by decide +kernel⟩,
   ⟨live, by decide +kernel⟩,
   ⟨{ live with wb := { live.wb with update := true, held := true } }, by decide +kernel⟩,
   ⟨{ live with wb := { live.wb with update := true, held := true } }, by decide +kernel⟩,
   ⟨(let s : State := { live with wb := { live.wb with update := true, held := true } }; { s with wb := { s.wb with rgn := s.wb.rgn.set 2 { addr := 5 } } }), _, by decide +kernel, by decide +kernel, rfl, by decide +kernel⟩,
   ⟨63, 0x800000000100000C, { live with wb := { live.wb with update := true, held := true } }, by decide +kernel⟩,
   ⟨63, 0xFFFFFFFF, { live with wb := { live.wb with update := true, held := true } }, by decide +kernel⟩,
   ⟨63, 0xFFFFFFFFFFFFFFFF, { live with wb := { live.wb with update := true, held := true } }, by decide +kernel⟩,
   ⟨63, 2, 7, live, by decide +kernel⟩⟩

theorem comparatorCompletes_met :
    (∃ (l : Fin 9) (cp : Side) (it : Item) (s : State), emits s l.val cp = true ∧ it.kind ≠ 7 ∧ it.kind ≠ 6 ∧ it.kind ≠ 5 ∧ it.size ≠ 7 ∧ (s.laneAt l.val).a.skew = [] ∧ (s.laneAt l.val).b.skew = []) ∧
    (∃ (l : Fin 9) (cp : Side) (it : Item) (s : State), emits s l.val cp = true ∧ (s.laneAt l.val).split = false ∧ (s.laneAt l.val).a.skew = [] ∧ (s.laneAt l.val).b.skew = [] ∧ it.size ≠ 7) ∧
    (∃ (l : Fin 9) (cp : Side) (it : Item) (s : State), (s.laneAt l.val).split = true ∧ s.copyGoes l.val cp = true) ∧
    (∃ (l : Fin 9) (ent : SkewEnt) (it : Item) (e : SkewEnt) (s k : State), emits s l.val .b = true ∧ it.kind.toNat < 5 ∧ it.size ≠ 7 ∧ (s.laneAt l.val).a.skew = [ent] ∧ (s.laneAt l.val).b.skew = [] ∧ s.clk.now ≤ ent.at_ + 2000 ∧ e = skewEntry s l.val .b it ∧ itemEq ent.item e.item = true ∧ k = s.onLane l.val (fun x => { x with a := { x.a with skew := [] }, b := { x.b with items := x.b.items + 1, waiting := false, exc := none, skew := [] } })) ∧
    (∃ (l : Fin 9) (ent : SkewEnt) (it : Item) (e : SkewEnt) (s k : State), emits s l.val .b = true ∧ it.kind.toNat < 5 ∧ it.size ≠ 7 ∧ (s.laneAt l.val).a.skew = [ent] ∧ (s.laneAt l.val).b.skew = [] ∧ s.clk.now ≤ ent.at_ + 2000 ∧ e = skewEntry s l.val .b it ∧ itemEq ent.item e.item = false ∧ k = s.onLane l.val (fun x => { x with a := { x.a with skew := [] }, b := { x.b with items := x.b.items + 1, waiting := false, exc := none, skew := [] } })) ∧
    (∃ (l : Fin 9) (ent : SkewEnt) (rest : List SkewEnt) (s : State) (k : Nat × State), s.comparing l.val = true ∧ (s.laneAt l.val).a.skew = ent :: rest ∧ (s.laneAt l.val).b.skew = [] ∧ k = s.drawNat) ∧
    (∃ (l : Fin 9) (r : Ret) (rest : List Ret) (d : Option (List Byte)) (s : State), s.comparing l.val = true ∧ (s.laneAt l.val).awaiting = r :: rest ∧ r.reply = some d ∧ s.lanes.inject = none) ∧
    (∃ (l : Fin 9) (cp : Side) (line : Nat) (s : State), s.comparing l.val = true ∧ ((s.laneAt l.val).copy cp).dead = false ∧ s.cacheable l.val line = true) ∧
    (∃ (l : Fin 9) (cp : Side) (line : Nat) (s : State), s.comparing l.val = true ∧ ((s.laneAt l.val).copy cp).dead = false ∧ s.cacheable l.val line = true ∧ ((s.laneAt l.val).copy cp).repairAt = []) :=
  ⟨⟨8, .a, { addr := 0x9A000000, kind := 1, size := 2, be := 0xF, data := 7 }, appp, by decide +kernel⟩,
   ⟨2, .b, { addr := 0, kind := 0 }, appp, by decide +kernel⟩,
   ⟨2, .a, { addr := 0, kind := 5 }, splp, by decide +kernel⟩,
   ⟨8, skewEntry appp 8 .a { addr := 0x9A000000, kind := 1, size := 2, be := 0xF, data := 7 }, { addr := 0x9A000000, kind := 1, size := 2, be := 0xF, data := 7 }, _, (let s : State := appp; { (s.onLane 8 fun l => { l with a := { l.a with items := 1, skew := [skewEntry appp 8 .a { addr := 0x9A000000, kind := 1, size := 2, be := 0xF, data := 7 }] } }) with clk := { now := 2000 } }), _, by decide +kernel, by decide +kernel, (by decide +kernel), by decide +kernel, by decide +kernel, (by decide +kernel), rfl, by decide +kernel, rfl⟩,
   ⟨8, skewEntry appp 8 .a { addr := 0x9A000000, kind := 1, size := 2, be := 0xF, data := 7 }, { addr := 0x9A000000, kind := 1, size := 2, be := 0xF, data := 8 }, _, (let s : State := appp; { (s.onLane 8 fun l => { l with a := { l.a with items := 1, skew := [skewEntry appp 8 .a { addr := 0x9A000000, kind := 1, size := 2, be := 0xF, data := 7 }] } }) with clk := { now := 2000 } }), _, by decide +kernel, by decide +kernel, (by decide +kernel), by decide +kernel, by decide +kernel, (by decide +kernel), rfl, by decide +kernel, rfl⟩,
   ⟨8, skewEntry appp 8 .a { addr := 0x9A000000, kind := 1, size := 2, be := 0xF, data := 7 }, [], (let s : State := appp; s.onLane 8 fun l => { l with a := { l.a with items := 1, skew := [skewEntry appp 8 .a { addr := 0x9A000000, kind := 1, size := 2, be := 0xF, data := 7 }] } }), _, by decide +kernel, by decide +kernel, by decide +kernel, rfl⟩,
   ⟨0, { num := 9, lead := 0, item := { addr := 0, kind := 0 }, reply := some (some [1]) }, [], some [1], (let s : State := appp; s.onLane 0 fun l => { l with awaiting := [{ num := 9, lead := 0, item := { addr := 0, kind := 0 }, reply := some (some [1]) }] }), by decide +kernel⟩,
   ⟨8, .a, 0x01000000, live, by decide +kernel⟩,
   ⟨8, .a, 0x01000000, live, by decide +kernel⟩⟩

theorem lanesWakeAndFollowFaults_met :
    (∃ (s k : State), s.pair.role = .standby ∧ s.pair.wokenAt = none ∧ s.pair.hot = false ∧ k = s.wakeLanes) ∧
    (∃ (s : State), s.pair.role = .standby ∧ s.pair.wokenAt = none ∧ s.pair.hot = false ∧ s.wb.crossing = []) ∧
    (∃ (s : State), s.pair.role = .standby ∧ s.pair.wokenAt = none ∧ s.pair.hot = true) ∧
    (∃ (u : Nat) (s k : State), s.pair.wokenAt = some u ∧ k = s.reach (u + 1000000) ∧ k.pair.role = .standby ∧ k.pair.hot = false) ∧
    (∃ (s : State), s.lanes.faulted = true ∧ s.lanes.resetReq = none ∧ s.recd.due = []) ∧
    (∃ (s k : State), k = (s.recd.due.filter (·.code = 0x0200)).foldl State.archiveOne ({ s with recd := { s.recd with due := s.recd.due.filter (·.code ≠ 0x0200) } } : State) ∧ k.lanes.faulted = false) ∧
    (∃ (u : Nat) (s k : State), s.lanes.resetReq = some u ∧ k = s.reach (u + 100000000)) :=
  ⟨⟨(let s : State := { appp with pair := { appp.pair with role := .standby, own := false, drive := false } }; { s with lanes := { s.lanes with lane := Vector.replicate 9 {} } }), _, by decide +kernel, by decide +kernel, by decide +kernel, rfl⟩,
   ⟨(let s : State := { appp with pair := { appp.pair with role := .standby, own := false, drive := false } }; { s with lanes := { s.lanes with lane := Vector.replicate 9 {} } }), by decide +kernel⟩,
   ⟨(let s : State := { appp with pair := { appp.pair with role := .standby, own := false, drive := false } }; { s with pair := { s.pair with hot := true } }), by decide +kernel⟩,
   ⟨5, (let s : State := { appp with pair := { appp.pair with role := .standby, own := false, drive := false } }; { s with pair := { s.pair with wokenAt := some 5 } }), _, by decide +kernel, rfl, by decide +kernel⟩,
   ⟨{ live with lanes := { live.lanes with faulted := true } }, by decide +kernel⟩,
   ⟨{ live with recd := { live.recd with due := [{ code := 0x0200, time := 0, src := 0 }, { code := 1, time := 0, src := 0 }] } }, _, rfl, by decide +kernel⟩,
   ⟨9, { live with lanes := { live.lanes with resetReq := some 9 } }, _, by decide +kernel, rfl⟩⟩

theorem debugPortCompletes_met :
    (∃ (k : Token) (s : State), s.tokenOk k = true) ∧
    (∃ (l : Fin 8) (s : State), s.dbgIsOpen = true ∧ s.dbgRight 2 = true ∧ (s.holder && s.liveTask) = false) ∧
    (∃ (l : Fin 8) (s : State), s.dbgIsOpen = true ∧ s.dbgRight 2 = false) ∧
    (∃ (s : State), s.dbgIsOpen = true ∧ s.dbgRight 2 = true ∧ s.resetOk 6 = true ∧ (s.holder && s.liveTask) = false) ∧
    (∃ (t : Txn) (s : State), s.dbgIsOpen = true ∧ s.dbgRight (if txnWrites t then 1 else 0) = true) ∧
    (∃ (t : Txn) (s : State), s.dbgIsOpen = true ∧ reaches s { t with cls := 5 } = true ∧ s.dbgRight (if txnWrites t then 1 else 0) = true ∧ slotOf t.addr = none ∧ t.err = .none ∧ s.mgn.poison = []) ∧
    (∃ (t : Txn) (s : State), s.dbgIsOpen = true ∧ s.dbgRight (if txnWrites t then 1 else 0) = false) :=
  ⟨⟨{ tscope := 7, serial := 9, bootFirst := 1, bootLast := 256, ownerSigned := true }, { live with keys := { live.keys with serial := 9, boot := 256 } }, by decide +kernel⟩,
   ⟨7, { live with keys := { live.keys with dbgOpen := true } }, by decide +kernel⟩,
   ⟨0, { live with keys := { live.keys with dbgOpen := true, dbgScope := 3 } }, by decide +kernel⟩,
   ⟨{ live with keys := { live.keys with dbgOpen := true } }, by decide +kernel⟩,
   ⟨{ cls := 0, kind := 0, addr := 0x01000000, size := 8 }, { live with keys := { live.keys with dbgOpen := true, dbgScope := 1 } }, by decide +kernel⟩,
   ⟨{ cls := 0, kind := 0, addr := 0x01000000, size := 8 }, (let s : State := { live with keys := { live.keys with dbgOpen := true, dbgScope := 1 } }; { s with wb := { s.wb with rgn := s.wb.rgn.set 20 { addr := 0x800000000100000C, perm := 0x8000 } } }), by decide +kernel⟩,
   ⟨{ cls := 0, kind := 1, addr := 0x01000000, size := 8 }, { live with keys := { live.keys with dbgOpen := true, dbgScope := 5 } }, by decide +kernel⟩⟩

theorem operationControlCompletes_met :
    (∃ (c : Cmd) (s b : State) (r : Run), b = begun s 0x00E0 c 0 (c.inlZero 6) ∧ passesOn s 0x00E0 c = true ∧ b.target c = some r ∧ r.suspended = false ∧ b.noSuspend r = false ∧ suspendsNow r = false) ∧
    (∃ (c : Cmd) (s b : State) (r : Run), b = begun s 0x00E0 c 0 (c.inlZero 6) ∧ passesOn s 0x00E0 c = true ∧ b.target c = some r ∧ r.suspended = false ∧ b.noSuspend r = false ∧ suspendsNow r = true) ∧
    (∃ (c : Cmd) (s b : State) (r q : Run), b = begun s 0x00E1 c 0 (c.inlZero 6) ∧ passesOn s 0x00E1 c = true ∧ b.target c = some r ∧ r.suspended = true ∧ q = ({ r with suspended := false, suspendDue := false } : Run) ∧ isRejoin r = false) ∧
    (∃ (c : Cmd) (s b : State) (r q : Run), b = begun s 0x00E1 c 0 (c.inlZero 6) ∧ passesOn s 0x00E1 c = true ∧ b.target c = some r ∧ r.suspended = true ∧ q = ({ r with suspended := false, suspendDue := false } : Run) ∧ isRejoin r = true) ∧
    (∃ (c : Cmd) (s b : State) (r : Run), b = begun s 0x00E2 c 0 (c.inlZero 6) ∧ passesOn s 0x00E2 c = true ∧ b.target c = some r ∧ b.noCancel r = false ∧ r.work ≠ .handover) ∧
    (∃ (c : Cmd) (s b : State) (r : Run) (x y : Nat), b = begun s 0x00E2 c 0 (c.inlZero 6) ∧ passesOn s 0x00E2 c = true ∧ b.target c = some r ∧ r.work = .scrub x y) ∧
    (∃ (c : Cmd) (s b : State) (r : Run), b = begun s 0x00E2 c 0 (c.inlZero 6) ∧ passesOn s 0x00E2 c = true ∧ b.target c = some r ∧ r.work = .handover ∧ b.chg.handover ≠ 3 ∧ b.noCancel r = false) ∧
    (∃ (sess : BitVec 16) (id : BitVec 32) (r : Run) (s : State), s.runOf (BitVec.toNat sess) id = some r ∧ r.suspendDue = true ∧ r.suspended = false) ∧
    (∃ (sess : BitVec 16) (id : BitVec 32) (done total x y : Nat) (r : Run) (s : State), s.runOf (BitVec.toNat sess) id = some r ∧ r.suspended = false ∧ s.serves = true ∧ r.work = .scrub x y ∧ r.total ≤ done) ∧
    (∃ (sess : BitVec 16) (id : BitVec 32) (done total x y : Nat) (r : Run) (s : State), s.runOf (BitVec.toNat sess) id = some r ∧ r.suspended = false ∧ s.serves = true ∧ r.work = .scrub x y ∧ done < r.total ∧ r.tells done = false) ∧
    (∃ (sess : BitVec 16) (id : BitVec 32) (done total x y : Nat) (r : Run) (s k : State), s.runOf (BitVec.toNat sess) id = some r ∧ r.suspended = false ∧ s.serves = true ∧ r.work = .scrub x y ∧ done < r.total ∧ r.tells done = true ∧ k = s.setRun { r with done := done }) :=
  ⟨⟨hc [1, 0, 0, 0, 7], asks 0x00E0 (hc [1, 0, 0, 0, 7]) ({ live with host := { live.host with runs := [{ src := .queue 1, session := 7, cmdId := 1, opcode := 0x00D0, party := 2, long := true, work := .scrub 0 0 }] } }), _, _, rfl, by decide +kernel, rfl, by decide +kernel⟩,
   ⟨hc [1, 0, 0, 0, 7], asks 0x00E0 (hc [1, 0, 0, 0, 7]) ({ live with host := { live.host with runs := [{ src := .queue 1, session := 7, cmdId := 1, opcode := 0x00B0, party := 2, long := true, work := .lifecycle { target := 3 } }] } }), _, _, rfl, by decide +kernel, rfl, by decide +kernel⟩,
   ⟨hc [1, 0, 0, 0, 7], asks 0x00E1 (hc [1, 0, 0, 0, 7]) ({ live with host := { live.host with runs := [{ src := .queue 1, session := 7, cmdId := 1, opcode := 0x00D0, party := 2, long := true, suspended := true, work := .scrub 0 0 }] } }), _, _, _, rfl, by decide +kernel, rfl, by decide +kernel, rfl, by decide +kernel⟩,
   ⟨hc [1, 0, 0, 0, 7], asks 0x00E1 (hc [1, 0, 0, 0, 7]) ({ live with host := { live.host with runs := [{ src := .queue 1, session := 7, cmdId := 1, opcode := 0x0021, party := 2, long := true, suspended := true, work := .rejoin }] } }), _, _, _, rfl, by decide +kernel, rfl, by decide +kernel, rfl, by decide +kernel⟩,
   ⟨hc [1, 0, 0, 0, 7], asks 0x00E2 (hc [1, 0, 0, 0, 7]) ({ live with host := { live.host with runs := [{ src := .queue 1, session := 7, cmdId := 1, opcode := 0x00D0, party := 2, long := true, work := .scrub 0 0 }] } }), _, _, rfl, by decide +kernel, rfl, by decide +kernel⟩,
   ⟨hc [1, 0, 0, 0, 7], asks 0x00E2 (hc [1, 0, 0, 0, 7]) ({ live with host := { live.host with runs := [{ src := .queue 1, session := 7, cmdId := 1, opcode := 0x00D0, party := 2, long := true, work := .scrub 0 0 }] } }), _, _, 0, 0, rfl, by decide +kernel, rfl, rfl⟩,
   ⟨hc [1, 0, 0, 0, 7], asks 0x00E2 (hc [1, 0, 0, 0, 7]) ({ live with host := { live.host with runs := [{ src := .queue 1, session := 7, cmdId := 1, opcode := 0x0050, party := 2, long := true, work := .handover }] } }), _, _, rfl, by decide +kernel, rfl, rfl, by decide +kernel⟩,
   ⟨7, 1, { src := .queue 1, session := 7, cmdId := 1, opcode := 0x00D0, party := 2, long := true, suspendDue := true, work := .scrub 0 0 }, { live with host := { live.host with runs := [{ src := .queue 1, session := 7, cmdId := 1, opcode := 0x00D0, party := 2, long := true, suspendDue := true, work := .scrub 0 0 }] } }, rfl, by decide +kernel⟩,
   ⟨7, 1, 10, 10, 0, 0, { src := .queue 1, session := 7, cmdId := 1, opcode := 0x00D0, party := 2, long := true, total := 10, work := .scrub 0 0 }, { live with host := { live.host with runs := [{ src := .queue 1, session := 7, cmdId := 1, opcode := 0x00D0, party := 2, long := true, total := 10, work := .scrub 0 0 }] } }, rfl, by decide +kernel, by decide +kernel, rfl, by decide +kernel⟩,
   ⟨7, 1, 5, 10, 0, 0, { src := .queue 1, session := 7, cmdId := 1, opcode := 0x00D0, party := 2, long := true, total := 10, work := .scrub 0 0 }, { live with host := { live.host with runs := [{ src := .queue 1, session := 7, cmdId := 1, opcode := 0x00D0, party := 2, long := true, total := 10, work := .scrub 0 0 }] } }, rfl, by decide +kernel, by decide +kernel, rfl, by decide +kernel⟩,
   ⟨7, 1, 0x10000000, 0x20000000, 0, 0, { src := .queue 1, session := 7, cmdId := 1, opcode := 0x00D0, party := 2, long := true, total := 0x20000000, work := .scrub 0 0 }, { live with host := { live.host with runs := [{ src := .queue 1, session := 7, cmdId := 1, opcode := 0x00D0, party := 2, long := true, total := 0x20000000, work := .scrub 0 0 }] } }, _, rfl, by decide +kernel, by decide +kernel, rfl, by decide +kernel, by decide +kernel, rfl⟩⟩

theorem selfTestsComplete_met :
    (∃ (c : Cmd) (s b : State), b = begun s 0x00D0 c 0 (c.inlZero 1) ∧ passes s 0x00D0 c 0 (c.inlZero 1) = true ∧ c.inf 0 1 = 1) ∧
    (∃ (c : Cmd) (s b : State), b = begun s 0x00D0 c 0 (c.inlZero 1) ∧ passes s 0x00D0 c 0 (c.inlZero 1) = true ∧ c.inf 0 1 = 2) ∧
    (∃ (c : Cmd) (s b k : State), b = begun s 0x00D0 c 0 (c.inf 6 2 = 0 && c.inf 12 4 = 0) ∧ passes s 0x00D0 c 0 (c.inf 6 2 = 0 && c.inf 12 4 = 0) = true ∧ c.inf 0 1 = 0x10 ∧ c.inf 1 1 ≤ 8 ∧ (decide (c.inf 1 1 < 8) && (b.laneAt (c.inf 1 1)).split) = false ∧ c.inf 2 1 ≤ 1 ∧ c.inf 3 1 ≤ 6 ∧ bitOk (c.inf 3 1) (c.inf 4 2) = true ∧ c.inf 8 4 ≠ 0 ∧ b.lanes.inject = none ∧ b.longOps < 8 ∧ k = b.accept (mkRun 0x00D0 c (b.partyOf c) true 0 .inject) 0x00D0 c) ∧
    (∃ (i : Inject) (u n : Nat) (s k : State), s.lanes.inject = some i ∧ i.fired = some (u, n) ∧ k = s.reach (u + 10000000)) ∧
    (∃ (c : Cmd) (s b : State), b = begun s 0x00F0 c 2 (c.inf 0 4 < 128 && c.inf 12 4 = 0) ∧ passes s 0x00F0 c 2 (c.inf 0 4 < 128 && c.inf 12 4 = 0) = true ∧ c.inf 0 4 ≠ 0 ∧ c.inf 4 4 + c.inf 8 4 ≤ objMax ∧ snapLen (c.inf 0 4) (c.inf 8 4) ≤ c.length ∧ b.running 0x00F0 = false) :=
  ⟨⟨hc [1], asks 0x00D0 (hc [1]) (live), _, rfl, by decide +kernel⟩,
   ⟨hc [2], asks 0x00D0 (hc [2]) (live), _, rfl, by decide +kernel⟩,
   ⟨hc [0x10, 7, 1, 6, 0xFE, 1, 0, 0, 5], asks 0x00D0 (hc [0x10, 7, 1, 6, 0xFE, 1, 0, 0, 5]) (live), _, _, rfl, by decide +kernel, by decide +kernel, (by decide +kernel), by decide +kernel, by decide +kernel, (by decide +kernel), by decide +kernel, by decide +kernel, (by decide +kernel), by decide +kernel, rfl⟩,
   ⟨{ lane := 2, copy := .a, kind := 2, bit := 0, left := 0, fired := some (5, 9), session := 7, cmdId := 1 }, 5, 9, { live with lanes := { live.lanes with inject := some { lane := 2, copy := .a, kind := 2, bit := 0, left := 0, fired := some (5, 9), session := 7, cmdId := 1 } }, host := { live.host with runs := [{ src := .queue 1, session := 7, cmdId := 1, opcode := 0x00D0, party := 2, long := true, work := .inject }] } }, _, by decide +kernel, by decide +kernel, rfl⟩,
   ⟨hc [1, 0, 0, 0, 0, 0, 0, 0, 16] 0x100000, asks 0x00F0 (hc [1, 0, 0, 0, 0, 0, 0, 0, 16] 0x100000) (live), _, rfl, by decide +kernel⟩⟩

theorem lifeCycleCompletes_met :
    (∃ (c : Cmd) (s b : State) (p : List Byte), b = begun s 0x00A0 c 2 (c.inlZero 16) ∧ passes s 0x00A0 c 2 (c.inlZero 16) = true ∧ 512 + 8 * b.img.force.length ≤ c.length ∧ p = b.report (slice c.inl 0 16)) ∧
    (∃ (c : Cmd) (ok : Bool) (s b : State) (d : Nat) (k : State), d = (if lifeBuf (c.inf 0 1) s.keys.life = 0 then 0 else 1) ∧ b = begun s 0x00B0 c d (lifeRes c) ∧ lifePasses s c d = true ∧ changeGiven b.keys.life (c.inf 0 1) = true ∧ c.length = lifeBuf (c.inf 0 1) b.keys.life ∧ b.lifeContent c (c.inf 0 1) ok = true ∧ b.lifeCond (c.inf 0 1) = true ∧ b.lifeFree = true ∧ b.keys.rngFail = false ∧ b.running 0x00B0 = false ∧ b.longOps < 8 ∧ c.inf 0 1 ≠ b.keys.life ∧ k = (b.accept (lifeRun b c) 0x00B0 c).lifeRecord (c.inf 0 1) ((b.accept (lifeRun b c) 0x00B0 c).partyOf c)) ∧
    (∃ (sess : BitVec 16) (id : BitVec 32) (done total : Nat) (e : ChunkEnd) (x : StateChange) (r : Run) (s : State), s.runOf (BitVec.toNat sess) id = some r ∧ r.suspended = false ∧ s.serves = true ∧ r.work = .lifecycle x ∧ s.keys.transition = some 1) ∧
    (∃ (sess : BitVec 16) (id : BitVec 32) (done total : Nat) (e : ChunkEnd) (x : StateChange) (r : Run) (s k : State), s.runOf (BitVec.toNat sess) id = some r ∧ r.suspended = false ∧ s.serves = true ∧ r.work = .lifecycle x ∧ s.keys.transition = some 2 ∧ k = s.closeAll (fun _ => true) 3) ∧
    (∃ (sess : BitVec 16) (id : BitVec 32) (done total : Nat) (e : ChunkEnd) (x : StateChange) (r : Run) (s : State), s.runOf (BitVec.toNat sess) id = some r ∧ r.suspended = false ∧ s.serves = true ∧ r.work = .lifecycle x ∧ s.keys.transition = some 3 ∧ s.pair.role ≠ .standby) ∧
    (∃ (c : Cmd) (s b : State), b = begun s 0x00B0 c 1 (lifeRes c) ∧ lifePasses s c 1 = true ∧ c.inf 0 1 = b.keys.life ∧ c.inf 1 1 = 1 ∧ c.length = 96 ∧ c.inf 2 1 < 8 ∧ c.inf 4 4 = 0 ∧ (b.keys.integ.toList.getD (c.inf 2 1) none).isSome = false) ∧
    (∃ (c : Cmd) (s b : State) (x : Option Key), b = begun s 0x00B0 c 0 (lifeRes c) ∧ lifePasses s c 0 = true ∧ c.inf 0 1 = b.keys.life ∧ c.inf 1 1 = 2 ∧ c.length = 0 ∧ c.inf 2 1 < 8 ∧ c.inf 4 4 = 0 ∧ x = b.keys.integ.toList.getD (c.inf 2 1) none ∧ (x.isSome && b.signedHeld x) = false) ∧
    (∃ (c : Cmd) (s b : State), b = begun s 0x00B0 c 1 (lifeRes c) ∧ lifePasses s c 1 = true ∧ c.inf 0 1 = b.keys.life ∧ c.inf 1 1 = 3 ∧ c.length = 96 ∧ c.inf 2 1 < 8 ∧ b.keys.boot ≤ c.inf 4 4 ∧ (b.keys.grant.toList.getD (c.inf 2 1) none).isSome = false) ∧
    (∃ (c : Cmd) (s b : State), b = begun s 0x00B0 c 0 (lifeRes c) ∧ lifePasses s c 0 = true ∧ c.inf 0 1 = b.keys.life ∧ c.inf 1 1 = 4 ∧ c.length = 0 ∧ c.inf 2 1 < 8 ∧ c.inf 4 4 = 0) ∧
    (∃ (c : Cmd) (s b : State), b = begun s 0x00B0 c 1 (lifeRes c) ∧ lifePasses s c 1 = true ∧ c.inf 0 1 = b.keys.life ∧ c.inf 1 1 = 5 ∧ c.length = 96 ∧ c.inf 2 1 = 0 ∧ c.inf 4 4 = 0) :=
  ⟨⟨hc [] 512, asks 0x00A0 (hc [] 512) (live), _, _, rfl, by decide +kernel, by decide +kernel, rfl⟩,
   ⟨hc [3], true, asks 0x00B0 (hc [3]) (live), _, _, _, rfl, rfl, by decide +kernel, by decide +kernel, (by decide +kernel), by decide +kernel, by decide +kernel, (by decide +kernel), by decide +kernel, by decide +kernel, (by decide +kernel), by decide +kernel, rfl⟩,
   ⟨7, 1, 0, 5, .good, { target := 3 }, { src := .queue 1, session := 7, cmdId := 1, opcode := 0x00B0, party := 2, long := true, work := .lifecycle { target := 3 } }, { live with keys := { live.keys with transition := some 1 }, host := { live.host with runs := [{ src := .queue 1, session := 7, cmdId := 1, opcode := 0x00B0, party := 2, long := true, work := .lifecycle { target := 3 } }] } }, rfl, by decide +kernel, by decide +kernel, rfl, by decide +kernel⟩,
   ⟨7, 1, 0, 5, .good, { target := 3 }, { src := .queue 1, session := 7, cmdId := 1, opcode := 0x00B0, party := 2, long := true, work := .lifecycle { target := 3 } }, { live with keys := { live.keys with transition := some 2 }, host := { live.host with runs := [{ src := .queue 1, session := 7, cmdId := 1, opcode := 0x00B0, party := 2, long := true, work := .lifecycle { target := 3 } }] } }, _, rfl, by decide +kernel, by decide +kernel, rfl, by decide +kernel, rfl⟩,
   ⟨7, 1, 0, 5, .good, { target := 3 }, { src := .queue 1, session := 7, cmdId := 1, opcode := 0x00B0, party := 2, long := true, work := .lifecycle { target := 3 } }, { live with keys := { live.keys with transition := some 3 }, host := { live.host with runs := [{ src := .queue 1, session := 7, cmdId := 1, opcode := 0x00B0, party := 2, long := true, work := .lifecycle { target := 3 } }] } }, rfl, by decide +kernel, by decide +kernel, rfl, by decide +kernel⟩,
   ⟨hc [2, 1, 7] 96 { cells := [(0, 3)] }, asks 0x00B0 (hc [2, 1, 7] 96 { cells := [(0, 3)] }) (live), _, rfl, by decide +kernel⟩,
   ⟨hc [2, 2, 7], asks 0x00B0 (hc [2, 2, 7]) ({ live with keys := { live.keys with integ := live.keys.integ.set 7 (some 3) } }), _, _, rfl, by decide +kernel, by decide +kernel, (by decide +kernel), by decide +kernel, by decide +kernel, (by decide +kernel), rfl, by decide +kernel⟩,
   ⟨hc [2, 3, 7, 0, 1] 96 { cells := [(0, 3)] }, asks 0x00B0 (hc [2, 3, 7, 0, 1] 96 { cells := [(0, 3)] }) (live), _, rfl, by decide +kernel⟩,
   ⟨hc [2, 4, 7], asks 0x00B0 (hc [2, 4, 7]) ({ live with keys := { live.keys with grant := live.keys.grant.set 7 (some { key := 3, limit := 9 }) } }), _, rfl, by decide +kernel⟩,
   ⟨hc [2, 5] 96 { cells := [(0, 3)] }, asks 0x00B0 (hc [2, 5] 96 { cells := [(0, 3)] }) (live), _, rfl, by decide +kernel⟩⟩

theorem ageingCompletes_met :
    (∃ (kind inst : Nat) (v : Int) (i : Nat) (s : State), marginIdx kind inst = some i) ∧
    (∃ (kind inst : Nat) (v : Int) (i : Nat) (s : State), marginIdx kind inst = some i) ∧
    (∃ (dates : List (Nat × Nat × Nat)) (s k : State), k = dayKept s) ∧
    (∃ (c : Cmd) (s b : State), b = begun s 0x00C0 c 2 (c.inlZero 0) ∧ passes s 0x00C0 c 2 (c.inlZero 0) = true ∧ 3712 ≤ c.length) ∧
    (∃ (c : Cmd) (s b : State) (f : List Nat) (u : Nat) (k : State), b = begun s 0x00C1 c 0 (c.inlZero 4) ∧ passes s 0x00C1 c 0 (c.inlZero 4) = true ∧ c.inf 0 4 ≠ 0 ∧ b.mgn.plan = some (c.inf 0 4, f, u) ∧ b.quiescent = true ∧ b.tMinBad u = false ∧ b.fits 4 ((c.inf 0 4 :: f ++ [u]).flatMap (le 8)) = true ∧ k = ({ b with mgn := { b.mgn with mhz := Vector.ofFn (fun i => f.getD i.val 1600), tMin := u, plan := none } } : State)) :=
  ⟨⟨2, 7, -5, 107, live, by decide +kernel⟩,
   ⟨2, 7, -5, 107, live, by decide +kernel⟩,
   ⟨[(1, 2, 3)], live, _, rfl⟩,
   ⟨hc [] 3712, asks 0x00C0 (hc [] 3712) (live), _, rfl, by decide +kernel⟩,
   ⟨hc [3], asks 0x00C1 (hc [3]) ({ appp with mgn := { appp.mgn with plan := some (3, [1500], 250000) }, pair := { appp.pair with own := false } }), _, [1500], 250000, _, rfl, by decide +kernel, by decide +kernel, (by decide +kernel), by decide +kernel, by decide +kernel, (by decide +kernel), rfl⟩⟩

theorem actuationAndReferenceComplete_met :
    (∃ (l : Fin 8) (time : Word) (s : State) (a : Nat), a = actWindow l.val + 8 ∧ carries s l a time = true) ∧
    (∃ (l : Fin 8) (time : Word) (s : State) (a : Nat) (e : ActEnt) (t : State), a = actWindow l.val + 8 ∧ carries s l a time = true ∧ e = pushEntry (s.act.pushA.toList.getD l.val 0) time ∧ e.cancel = false ∧ ptStn e.point ≠ localCode ∧ (paired s l a time).actCode e ((s.act.pushA.toList.getD l.val 0 >>> 49) ≠ 0) = 0 ∧ t = carried s l a time (pushes l time)) ∧
    (∃ (l : Fin 8) (time : Word) (s : State) (a : Nat) (e : ActEnt) (k : Nat) (t : State), a = actWindow l.val + 8 ∧ carries s l a time = true ∧ e = pushEntry (s.act.pushA.toList.getD l.val 0) time ∧ (paired s l a time).actCode e ((s.act.pushA.toList.getD l.val 0 >>> 49) ≠ 0) = k ∧ k ≠ 0 ∧ t = carried s l a time (pushes l time)) ∧
    (∃ (l : Fin 8) (time : Word) (s : State) (cp : Side) (p : BitVec 2), (s.laneAt l.val).split = true ∧ cp = (if (s.laneAt l.val).a.idle && !(s.laneAt l.val).b.idle then .b else .a) ∧ s.copyGoes l.val cp = true ∧ p = s.lanePriv l.val cp) ∧
    (∃ (l : Fin 8) (time : Word) (s : State) (a : Nat) (v : Word) (k : State), a = actWindow l.val ∧ v = s.act.pushA.toList.getD l.val 0 ||| (1 <<< 48) ∧ carries s l a v = true ∧ k = carried s l a v (fun x => { x with act := { x.act with pushA := x.act.pushA.setIfInBounds l.val v } }) ∧ carries k l (a + 8) time = true) ∧
    (∃ (l : Fin 8) (time : Word) (s : State) (a : Nat) (v : Word) (k : State) (e : ActEnt) (t : State), a = actWindow l.val ∧ v = s.act.pushA.toList.getD l.val 0 ||| (1 <<< 48) ∧ carries s l a v = true ∧ k = carried s l a v (fun x => { x with act := { x.act with pushA := x.act.pushA.setIfInBounds l.val v } }) ∧ carries k l (a + 8) time = true ∧ e = pushEntry v time ∧ ptStn e.point ≠ localCode ∧ (paired k l (a + 8) time).actCode e ((v >>> 49) ≠ 0) = 0 ∧ t = carried k l (a + 8) time (pushes l time)) ∧
    (∃ (ch : Fin 16) (e : ActEnt) (s k : State), nextLocal ch.val s.act.localQ = some e ∧ k = s.reachNet (localStart e)) ∧
    (∃ (ch : Fin 16) (e : ActEnt) (s : State), nextLocal ch.val s.act.localQ = some e ∧ ptIdx e.point = ch.val) ∧
    (∃ (p : Fin 2) (m : Announce) (s : State), s.timeSrc.ports.testBit p.val = true ∧ m.domain = s.timeSrc.domain ∧ m.transport = s.timeSrc.transport) ∧
    (∃ (p : Fin 2) (m : Announce) (s : State), s.timeSrc.ports.testBit p.val = true ∧ acceptable s.timeSrc (p.val, m) = true ∧ s.act.masters = [] ∧ s.act.ref = .free ∧ s.act.master = none) ∧
    (∃ (p : Fin 2) (m : PtpSync) (s : State), oursSync s p m = true) ∧
    (∃ (p : Fin 2) (m : PtpSync) (s : State), oursSync s p m = true ∧ s.act.ref = .acquire ∧ Int.natAbs (s.thetaOf m) ≤ 1000 ∧ 15 ≤ s.act.near) ∧
    (∃ (p : Fin 2) (m : PtpSync) (s : State), oursSync s p m = true ∧ s.act.ref = .locked ∧ 1000 < Int.natAbs (s.thetaOf m) ∧ 15 ≤ s.act.far) ∧
    (∃ (s : State) (m : Nat × Announce) (k : State), (s.act.ref = .acquire ∨ s.act.ref = .locked) ∧ s.act.master = some m ∧ k = s.reach (s.act.syncAt + 3000000000) ∧ k.act = s.act) :=
  ⟨⟨2, 1000, granted { appp with act := { appp.act with pushA := appp.act.pushA.set 2 0x100A80000 } }, _, rfl, by decide +kernel⟩,
   ⟨2, 1000, granted { appp with act := { appp.act with pushA := appp.act.pushA.set 2 0x100A80000 } }, _, _, _, rfl, by decide +kernel, rfl, by decide +kernel, by decide +kernel, by decide +kernel, rfl⟩,
   ⟨2, 1000, (let s : State := granted { appp with act := { appp.act with pushA := appp.act.pushA.set 2 0x200A80000 } }; s.onLane 2 fun l => { l with a := { l.a with curTask := 3 } }), _, _, 2, _, rfl, by decide +kernel, rfl, by decide +kernel, by decide +kernel, rfl⟩,
   ⟨2, 1000, granted { splp with act := { splp.act with pushA := splp.act.pushA.set 2 0x100A80000 } }, _, _, by decide +kernel, rfl, by decide +kernel, rfl⟩,
   ⟨2, 1000, granted { appp with act := { appp.act with pushA := appp.act.pushA.set 2 0x000A80000 } }, _, _, _, rfl, rfl, by decide +kernel, rfl, by decide +kernel⟩,
   ⟨2, 1000, granted { appp with act := { appp.act with pushA := appp.act.pushA.set 2 0x000A80000 } }, _, _, _, _, _, rfl, rfl, by decide +kernel, rfl, by decide +kernel, rfl, by decide +kernel, by decide +kernel, rfl⟩,
   ⟨3, { point := 0xFF080003, value := 1, time := 50000, seq := 4 }, { appp with act := { appp.act with localQ := [{ point := 0xFF080003, value := 1, time := 50000, seq := 4 }] } }, _, by decide +kernel, rfl⟩,
   ⟨3, { point := 0xFF080003, value := 1, time := 50000, seq := 4 }, { appp with act := { appp.act with localQ := [{ point := 0xFF080003, value := 1, time := 50000, seq := 4 }] } }, by decide +kernel⟩,
   ⟨0, { source := 5, clockClass := 6 }, { netp with net := { netp.net with cfg := some { net0 with src := { ports := 1 } } } }, by decide +kernel⟩,
   ⟨0, { source := 5, clockClass := 6 }, { netp with net := { netp.net with cfg := some { net0 with src := { ports := 1 } } } }, by decide +kernel⟩,
   ⟨0, { source := 5, sec := 946684800, ns := 900 }, { netp with net := { netp.net with cfg := some { net0 with src := { ports := 1 } } }, act := { netp.act with master := some (0, { source := 5, clockClass := 6 }), masters := [(0, { source := 5, clockClass := 6 })], ref := .acquire } }, by decide +kernel⟩,
   ⟨0, { source := 5, sec := 946684800, ns := 1000 }, { netp with net := { netp.net with cfg := some { net0 with src := { ports := 1 } } }, act := { netp.act with master := some (0, { source := 5, clockClass := 6 }), masters := [(0, { source := 5, clockClass := 6 })], ref := .acquire, near := 15 } }, by decide +kernel⟩,
   ⟨0, { source := 5, sec := 946684800, ns := 1001 }, { netp with net := { netp.net with cfg := some { net0 with src := { ports := 1 } } }, act := { netp.act with master := some (0, { source := 5, clockClass := 6 }), masters := [(0, { source := 5, clockClass := 6 })], ref := .locked, far := 15 } }, by decide +kernel⟩,
   ⟨{ netp with net := { netp.net with cfg := some { net0 with src := { ports := 1 } } }, act := { netp.act with master := some (0, { source := 5, clockClass := 6 }), masters := [(0, { source := 5, clockClass := 6 })], ref := .locked } }, (0, { source := 5, clockClass := 6 }), _, by decide +kernel, by decide +kernel, rfl, by decide +kernel⟩⟩

theorem localChannelsComplete_met :
    (∃ (ch : Fin 16) (high : Bool) (e : Nat) (s k : State), (s.lch ch.val).cfg.mode = 1 ∧ k = ((s.reachNet (e + (s.lch ch.val).cfg.debounceUs * 1000)).onLch ch.val fun c => { c with band := false }).onLch ch.val (fun c => { c with fault := c.standing })) ∧
    (∃ (ch : Fin 16) (high : Bool) (e : Nat) (s : State), (s.lch ch.val).cfg.mode = 2) ∧
    (∃ (ch : Fin 16) (s : State), (s.lch ch.val).cfg.mode = 1 ∧ (s.lch ch.val).band = false) ∧
    (∃ (ch : Fin 16) (s : State), (s.lch ch.val).cfg.mode = 1 ∧ (s.lch ch.val).cfg.lflags.testBit 0 = true ∧ (s.lch ch.val).wbreak = false) ∧
    (∃ (ch : Fin 16) (s : State), (s.lch ch.val).cfg.mode = 1 ∧ (s.lch ch.val).cfg.lflags.testBit 0 = true ∧ (s.lch ch.val).wbreak = true) ∧
    (∃ (ch : Fin 16) (s : State), (s.lch ch.val).cfg.mode = 2 ∧ (s.lch ch.val).sw = true ∧ (s.lch ch.val).outFlt ≠ 2) ∧
    (∃ (ch : Fin 16) (s : State), (s.lch ch.val).cfg.mode = 2 ∧ (s.lch ch.val).sw = false ∧ (s.lch ch.val).outFlt ≠ 1 ∧ ((s.lch ch.val).cfg.lflags.testBit 1 && !s.holder) = false) ∧
    (∃ (ch : Fin 16) (s : State), (s.lch ch.val).outFlt ≠ 0) ∧
    (∃ (ch : Fin 16) (s : State), (s.lch ch.val).cfg.mode = 2 ∧ (s.lch ch.val).sw = true ∧ (s.lch ch.val).trip = none ∧ upSupply (s.supplyOf ch.val) = true) ∧
    (∃ (ch : Fin 16) (u : Nat) (s k : State), (s.lch ch.val).trip.isSome = true ∧ 0 < (s.lch ch.val).cfg.retryMs ∧ k = s.reach ((s.lch ch.val).tripAt + (s.lch ch.val).cfg.retryMs * 1000000) ∧ (k.lch ch.val).trip = some u ∧ upSupply (k.supplyOf ch.val) = true) ∧
    (∃ (g : Side) (v : Word) (s : State), upSupply (s.supplyOf (8 * g.num)) = true) :=
  ⟨⟨2, true, 5, (let s : State := netp; s.onLch 2 fun c => { c with cfg := { mode := 1 } }), _, by decide +kernel, rfl⟩,
   ⟨2, true, 5, (let s : State := netp; s.onLch 2 fun c => { c with cfg := { mode := 2 } }), by decide +kernel⟩,
   ⟨2, (let s : State := netp; s.onLch 2 fun c => { c with cfg := { mode := 1 } }), by decide +kernel⟩,
   ⟨2, (let s : State := netp; s.onLch 2 fun c => { c with cfg := { mode := 1, lflags := 1 } }), by decide +kernel⟩,
   ⟨2, (let s : State := netp; s.onLch 2 fun c => { c with cfg := { mode := 1, lflags := 1 }, wbreak := true }), by decide +kernel⟩,
   ⟨2, (let s : State := netp; s.onLch 2 fun c => { c with cfg := { mode := 2 }, fault := 1, sw := true }), by decide +kernel⟩,
   ⟨2, (let s : State := netp; s.onLch 2 fun c => { c with cfg := { mode := 2 }, fault := 2 }), by decide +kernel⟩,
   ⟨2, (let s : State := netp; s.onLch 2 fun c => { c with cfg := { mode := 2 }, fault := 2, outFlt := 2 }), by decide +kernel⟩,
   ⟨2, (let s : State := { netp with lio := { netp.lio with g1 := { st := .valid } } }; s.onLch 2 fun c => { c with cfg := { mode := 2 }, sw := true, cmd := true }), by decide +kernel⟩,
   ⟨2, 3, (let s : State := { netp with lio := { netp.lio with g1 := { st := .valid } } }; s.onLch 2 fun c => { c with cfg := { mode := 2, retryMs := 10 }, trip := some 3 }), _, by decide +kernel, by decide +kernel, rfl, by decide +kernel⟩,
   ⟨.a, 4, (let s : State := { netp with lio := { netp.lio with g1 := { st := .valid } } }; s.onLch 2 fun c => { c with cfg := { mode := 2 }, trip := some 3 }), by decide +kernel⟩⟩

theorem suppliesComplete_met :
    (∃ (g : Side) (s : State), (s.lio.grp g).st = .valid) ∧
    (∃ (g : Side) (s : State), ((s.lio.grp g).st = .valid ∨ (s.lio.grp g).st = .sag)) ∧
    (∃ (g : Side) (s : State), ((s.lio.grp g).st = .valid ∨ (s.lio.grp g).st = .sag)) ∧
    (∃ (g : Side) (s : State), (s.lio.grp g).st = .sag) ∧
    (∃ (g : Side) (s : State), (s.lio.grp g).st = .low) ∧
    (∃ (g : Side) (s : State), (s.lio.grp g).st = .recovering) ∧
    (∃ (g : Side) (lv : BitVec 8) (s k : State), (s.lio.grp g).st = .recovering ∧ k = (s.reach ((s.lio.grp g).timer.getD s.clk.now)).onGrp g (fun x => { x with st := .valid, timer := none })) :=
  ⟨⟨.a, { netp with lio := { netp.lio with g1 := { st := .valid } } }, by decide +kernel⟩,
   ⟨.a, { netp with lio := { netp.lio with g1 := { st := .sag } } }, by decide +kernel⟩,
   ⟨.a, { netp with lio := { netp.lio with g1 := { st := .sag } } }, by decide +kernel⟩,
   ⟨.a, { netp with lio := { netp.lio with g1 := { st := .sag } } }, by decide +kernel⟩,
   ⟨.a, { netp with lio := { netp.lio with g1 := { st := .low } } }, by decide +kernel⟩,
   ⟨.a, { netp with lio := { netp.lio with g1 := { st := .recovering } } }, by decide +kernel⟩,
   ⟨.a, 5, { netp with lio := { netp.lio with g1 := { st := .recovering } } }, _, by decide +kernel, rfl⟩⟩

theorem trackingCommandsComplete_met :
    (∃ (l : Fin 8) (r : Bool) (s k u : State) (w : CmdWin) (g : Seg) (v : State), k = residue s r ∧ carries k l (goAddr l) 1 = true ∧ u = paired k l (goAddr l) 1 ∧ w = trkWin s l ∧ u.cmdCode 1 false w = 0 ∧ u.trk.enabled (segNo w) = some g ∧ u.place (madeObj u w) g w.position = .inl v) ∧
    (∃ (l : Fin 8) (r : Bool) (s k u : State) (w : CmdWin) (g : Seg) (c : Nat), k = residue s r ∧ carries k l (goAddr l) 1 = true ∧ u = paired k l (goAddr l) 1 ∧ w = trkWin s l ∧ u.cmdCode 1 false w = 0 ∧ u.trk.enabled (segNo w) = some g ∧ u.place (madeObj u w) g w.position = .inr c) ∧
    (∃ (l : Fin 8) (s u : State) (w : CmdWin), carries s l (goAddr l) 2 = true ∧ u = paired s l (goAddr l) 2 ∧ w = trkWin s l ∧ u.cmdCode 2 false w = 0) ∧
    (∃ (l : Fin 8) (s u : State) (w : CmdWin), carries s l (goAddr l) 3 = true ∧ u = paired s l (goAddr l) 3 ∧ w = trkWin s l ∧ u.cmdCode 3 false w = 0) ∧
    (∃ (l : Fin 8) (r : Bool) (s k u : State) (w : CmdWin) (o : Obj) (g : Seg) (v : State), k = residue s r ∧ carries k l (goAddr l) 4 = true ∧ u = paired k l (goAddr l) 4 ∧ w = trkWin s l ∧ u.cmdCode 4 false w = 0 ∧ u.trk.obj (objNo w) = some o ∧ (u.unlinkObj (objNo w)).trk.enabled (segNo w) = some g ∧ (u.unlinkObj (objNo w)).place { o with hops := satAdd 16 o.hops 1 } g w.position = .inl v) ∧
    (∃ (l : Fin 8) (r : Bool) (s k u : State) (w : CmdWin) (o : Obj) (g : Seg) (c : Nat), k = residue s r ∧ carries k l (goAddr l) 4 = true ∧ u = paired k l (goAddr l) 4 ∧ w = trkWin s l ∧ u.cmdCode 4 false w = 0 ∧ u.trk.obj (objNo w) = some o ∧ (u.unlinkObj (objNo w)).trk.enabled (segNo w) = some g ∧ (u.unlinkObj (objNo w)).place { o with hops := satAdd 16 o.hops 1 } g w.position = .inr c) ∧
    (∃ (l : Fin 8) (s u : State) (w : CmdWin), carries s l (goAddr l) 5 = true ∧ u = paired s l (goAddr l) 5 ∧ w = trkWin s l ∧ u.cmdCode 5 false w = 0) ∧
    (∃ (l : Fin 8) (s : State) (w : CmdWin) (op : Nat) (i : Instr), w = trkWin s l ∧ (op, i) ∈ trkOps l ∧ s.trk.cmdFlt = false ∧ carries s l (goAddr l) (BitVec.ofNat 64 op) = true ∧ (paired s l (goAddr l) (BitVec.ofNat 64 op)).cmdCode op false w ≠ 0) :=
  ⟨⟨2, false, granted {  trkp with trk := { trkp.trk with win := trkp.trk.win.set 2 { seg := 1, pos := 5, tag := 9 } } }, _, _, _, { num := 1, cfg := { length := mkWord 1000, scale := 65536 }, st := { objects := 1, head := some 0, tail := some 0 } }, placed (State.place (paired (residue (granted {  trkp with trk := { trkp.trk with win := trkp.trk.win.set 2 { seg := 1, pos := 5, tag := 9 } } }) false) 2 (goAddr 2) 1) (madeObj (paired (residue (granted {  trkp with trk := { trkp.trk with win := trkp.trk.win.set 2 { seg := 1, pos := 5, tag := 9 } } }) false) 2 (goAddr 2) 1) (trkWin (granted {  trkp with trk := { trkp.trk with win := trkp.trk.win.set 2 { seg := 1, pos := 5, tag := 9 } } }) 2)) { num := 1, cfg := { length := mkWord 1000, scale := 65536 }, st := { objects := 1, head := some 0, tail := some 0 } } 5), rfl, by decide +kernel, rfl, rfl, by decide +kernel⟩,
   ⟨2, true, granted {  trkp with trk := { trkp.trk with win := trkp.trk.win.set 2 { seg := 1, pos := 5, tag := 9 } } }, _, _, _, { num := 1, cfg := { length := mkWord 1000, scale := 65536 }, st := { objects := 1, head := some 0, tail := some 0 } }, 6, rfl, by decide +kernel, rfl, rfl, by decide +kernel⟩,
   ⟨2, granted {  trkp with trk := { trkp.trk with win := trkp.trk.win.set 2 { obj := 0 } } }, _, _, by decide +kernel, rfl, rfl, by decide +kernel⟩,
   ⟨2, granted {  trkp with trk := { trkp.trk with win := trkp.trk.win.set 2 { obj := 0, tag := 4 } } }, _, _, by decide +kernel, rfl, rfl, by decide +kernel⟩,
   ⟨2, false, granted {  trkp with trk := { trkp.trk with win := trkp.trk.win.set 2 { obj := 0, seg := 1, pos := 6 } } }, _, _, _, { num := 0, offset := mkWord 0, seg := 1, id := 7 }, { num := 1, cfg := { length := mkWord 1000, scale := 65536 }, st := { objects := 0, head := none, tail := none, left := 1 } }, placed (State.place (State.unlinkObj (paired (residue (granted {  trkp with trk := { trkp.trk with win := trkp.trk.win.set 2 { obj := 0, seg := 1, pos := 6 } } }) false) 2 (goAddr 2) 4) 0) ({ ({ num := 0, offset := mkWord 0, seg := 1, id := 7 } : Obj) with hops := 1 }) { num := 1, cfg := { length := mkWord 1000, scale := 65536 }, st := { objects := 0, head := none, tail := none, left := 1 } } 6), rfl, by decide +kernel, rfl, rfl, by decide +kernel⟩,
   ⟨2, true, granted {  trkp with trk := { trkp.trk with win := trkp.trk.win.set 2 { obj := 0, seg := 1, pos := 6 } } }, _, _, _, { num := 0, offset := mkWord 0, seg := 1, id := 7 }, { num := 1, cfg := { length := mkWord 1000, scale := 65536 }, st := { objects := 0, head := none, tail := none, left := 1 } }, 6, rfl, by decide +kernel, rfl, rfl, by decide +kernel⟩,
   ⟨2, granted {  trkp with trk := { trkp.trk with win := trkp.trk.win.set 2 { seg := 1 } } }, _, _, by decide +kernel, rfl, rfl, by decide +kernel⟩,
   ⟨2, granted {  trkp with trk := { trkp.trk with win := trkp.trk.win.set 2 { obj := 3 } } }, _, 2, .delete 2, rfl, by decide +kernel⟩⟩

theorem netConfigureCompletes_met :
    (∃ (c : Cmd) (s b : State), goodConfig s b c 0 ∧ b.cyc.started = false ∧ (heldNext b (parseNet c.buf)).partnerDuty = false) ∧
    (∃ (c : Cmd) (s b : State) (x : NetCfg) (k : State), goodConfig s b c 0 ∧ b.cyc.started = false ∧ x = parseNet c.buf ∧ (heldNext b x).partnerDuty = true ∧ k = (heldNext b x).send (.netConfig x true 0)) ∧
    (∃ (c : Cmd) (s b : State) (run x : NetCfg) (k : State), goodConfig s b c 0 ∧ b.cyc.started = true ∧ b.net.cfg = some run ∧ x = parseNet c.buf ∧ sameFrame run x = true ∧ sameSched run x = true ∧ run.sched = x.sched ∧ x.lio = run.lio ∧ k = takenNow b x ∧ k.partnerDuty = false) ∧
    (∃ (c : Cmd) (s b : State) (run x : NetCfg) (k : State), goodConfig s b c 0 ∧ b.cyc.started = true ∧ b.net.cfg = some run ∧ x = parseNet c.buf ∧ sameFrame run x = true ∧ sameSched run x = false ∧ run.sched ≠ x.sched ∧ x.lio = run.lio ∧ k = (takenNow b x).beginSched run x) ∧
    (∃ (c : Cmd) (s b : State) (run x : NetCfg) (k : State), goodConfig s b c 0 ∧ b.cyc.started = true ∧ b.net.cfg = some run ∧ x = parseNet c.buf ∧ sameFrame run x = true ∧ sameSched run x = true ∧ run.sched = x.sched ∧ x.lio ≠ run.lio ∧ (takenNow b x).partnerDuty = false ∧ k = (takenNow b x).dueLio x.lio) ∧
    (∃ (c : Cmd) (s b : State), goodConfig s b c 1 ∧ (heldNext b (parseNet c.buf)).partnerDuty = false) :=
  ⟨⟨hc [] 66048 netBuf, asks 0x0080 (hc [] 66048 netBuf) (prim), begun (asks 0x0080 (hc [] 66048 netBuf) (prim)) 0x0080 (hc [] 66048 netBuf) 1 true, (by unfold goodConfig; exact ⟨rfl, by decide +kernel⟩), by decide +kernel⟩,
   ⟨hc [] 66048 netBuf, asks 0x0080 (hc [] 66048 netBuf) ({ prim with pair := { prim.pair with hb := some beat2, partnerCur := true, lanes := 3, auth := true } }), begun (asks 0x0080 (hc [] 66048 netBuf) ({ prim with pair := { prim.pair with hb := some beat2, partnerCur := true, lanes := 3, auth := true } })) 0x0080 (hc [] 66048 netBuf) 1 true, _, _, (by unfold goodConfig; exact ⟨rfl, by decide +kernel⟩), by decide +kernel, rfl, by decide +kernel, rfl⟩,
   ⟨hc [] 66048 netBuf, asks 0x0080 (hc [] 66048 netBuf) ({ prim with cyc := { prim.cyc with started := true }, net := { prim.net with cfg := some ({ parseNet netBuf with rank := 3 }) } }), begun (asks 0x0080 (hc [] 66048 netBuf) ({ prim with cyc := { prim.cyc with started := true }, net := { prim.net with cfg := some ({ parseNet netBuf with rank := 3 }) } })) 0x0080 (hc [] 66048 netBuf) 1 true, { parseNet netBuf with rank := 3 }, _, _, (by unfold goodConfig; exact ⟨rfl, by decide +kernel⟩), by decide +kernel, by decide +kernel, rfl, by decide +kernel, by decide +kernel, by decide +kernel, by decide +kernel, rfl, by decide +kernel⟩,
   ⟨hc [] 66048 netBuf, asks 0x0080 (hc [] 66048 netBuf) ({ prim with cyc := { prim.cyc with started := true }, net := { prim.net with cfg := some ({ parseNet netBuf with rank := 3, sched := 2, wins := [{ start := 160000, len := 800, ty := 0x20, path := 16, owner := 5 }] }) } }), begun (asks 0x0080 (hc [] 66048 netBuf) ({ prim with cyc := { prim.cyc with started := true }, net := { prim.net with cfg := some ({ parseNet netBuf with rank := 3, sched := 2, wins := [{ start := 160000, len := 800, ty := 0x20, path := 16, owner := 5 }] }) } })) 0x0080 (hc [] 66048 netBuf) 1 true, { parseNet netBuf with rank := 3, sched := 2, wins := [{ start := 160000, len := 800, ty := 0x20, path := 16, owner := 5 }] }, _, _, (by unfold goodConfig; exact ⟨rfl, by decide +kernel⟩), by decide +kernel, by decide +kernel, rfl, by decide +kernel, by decide +kernel, by decide +kernel, by decide +kernel, rfl⟩,
   ⟨hc [] 66048 netBuf, asks 0x0080 (hc [] 66048 netBuf) ({ prim with cyc := { prim.cyc with started := true }, net := { prim.net with cfg := some ({ parseNet netBuf with rank := 3, lio := [{ mode := 1 }] }) } }), begun (asks 0x0080 (hc [] 66048 netBuf) ({ prim with cyc := { prim.cyc with started := true }, net := { prim.net with cfg := some ({ parseNet netBuf with rank := 3, lio := [{ mode := 1 }] }) } })) 0x0080 (hc [] 66048 netBuf) 1 true, { parseNet netBuf with rank := 3, lio := [{ mode := 1 }] }, _, _, (by unfold goodConfig; exact ⟨rfl, by decide +kernel⟩), by decide +kernel, by decide +kernel, rfl, by decide +kernel, by decide +kernel, (by decide +kernel), by decide +kernel, by decide +kernel, rfl⟩,
   ⟨hc [1] 66048 netBuf, asks 0x0080 (hc [1] 66048 netBuf) (prim), begun (asks 0x0080 (hc [1] 66048 netBuf) (prim)) 0x0080 (hc [1] 66048 netBuf) 1 true, (by unfold goodConfig; exact ⟨rfl, by decide +kernel⟩), by decide +kernel⟩⟩

theorem netStartCompletes_met :
    (∃ (c : Cmd) (s b : State) (cfg : NetCfg) (k : State), b = begun s 0x0081 c 0 (c.inlZero 0) ∧ passes s 0x0081 c 0 (c.inlZero 0) = true ∧ b.primary = true ∧ b.busyTask = false ∧ (b.net.next.orElse fun _ => b.net.stored) = some cfg ∧ k = ({ b with net := { b.net with next := none }, cyc := { b.cyc with lullCycle := false } } : State)) ∧
    (∃ (cfg : NetCfg) (s t : State), t = s.startTrigger cfg) ∧
    (∃ (len : Nat) (buf : Buf) (s : State) (x : NetCfg) (k : State), s.adopts = true ∧ len = cfgLen buf ∧ x = parseNet buf ∧ s.mgn.tMin ≤ x.t ∧ k = s.storeCfg x) ∧
    (∃ (len : Nat) (buf : Buf) (n : Nat) (s : State) (x : NetCfg) (k : State), s.adopts = true ∧ len = cfgLen buf ∧ x = parseNet buf ∧ s.mgn.tMin ≤ x.t ∧ k = s.storeCfg x ∧ n ≠ 0) ∧
    (∃ (len : Nat) (buf : Buf) (s : State) (x : NetCfg) (k : State) (run : NetCfg), s.adopts = true ∧ len = cfgLen buf ∧ x = parseNet buf ∧ s.mgn.tMin ≤ x.t ∧ k = s.storeCfg x ∧ k.net.cfg = some run ∧ run.src = x.src ∧ run.lio = x.lio ∧ run.sched ≠ x.sched) ∧
    (∃ (len : Nat) (buf : Buf) (nx : Bool) (n : Nat) (s : State), s.adopts = true ∧ len = cfgLen buf ∧ (parseNet buf).t < s.mgn.tMin) :=
  ⟨⟨hc, asks 0x0081 (hc) ({ prim with net := { prim.net with stored := some net0 } }), _, net0, _, rfl, by decide +kernel, by decide +kernel, by decide +kernel, by decide +kernel, rfl⟩,
   ⟨net0, prim, _, rfl⟩,
   ⟨66048, netBuf, { appp with pair := { appp.pair with role := .standby, own := false, drive := false } }, _, _, by decide +kernel, by decide +kernel, rfl, by decide +kernel, rfl⟩,
   ⟨66048, netBuf, 5, { appp with pair := { appp.pair with role := .standby, own := false, drive := false } }, _, _, by decide +kernel, by decide +kernel, rfl, by decide +kernel, rfl, by decide +kernel⟩,
   ⟨66048, netBuf, (let s : State := { appp with pair := { appp.pair with role := .standby, own := false, drive := false } }; { s with net := { s.net with cfg := some ({ parseNet netBuf with sched := 9 }) } }), _, _, { parseNet netBuf with sched := 9 }, by decide +kernel, by decide +kernel, rfl, by decide +kernel, rfl, by decide +kernel⟩,
   ⟨66048, mkBuf [], false, 5, { appp with pair := { appp.pair with role := .standby, own := false, drive := false } }, by decide +kernel⟩⟩

theorem coldStartCompletes_met :
    (∃ (d took : Nat) (ofs : Int) (s k : State), s.linked = true ∧ s.cyc.running = false ∧ took ≤ 100000 ∧ s.net.start = .listen ∧ s.transfer d = (k, true) ∧ k.net.start = .listen) ∧
    (∃ (d took : Nat) (ofs : Int) (content : Option SyncContent) (s k : State), s.linked = true ∧ s.cyc.running = false ∧ took ≤ 100000 ∧ s.transfer d = (k, false)) ∧
    (∃ (c : NetCfg) (e : Nat) (s k : State), s.net.cfg = some c ∧ s.net.listenEnd = some e ∧ s.net.start = .listen ∧ k = s.reach e ∧ (!k.xferValid && k.pair.other) = false) ∧
    (∃ (c : NetCfg) (e : Nat) (s k : State), s.net.cfg = some c ∧ s.net.listenEnd = some e ∧ s.net.start = .listen ∧ k = s.reach e ∧ k.xferValid = false ∧ k.pair.other = true) ∧
    (∃ (c : NetCfg) (s t : State), t = s.proposeNet c) ∧
    (∃ (x : CStart) (s : State), s.linked = true ∧ s.net.start = .listen) ∧
    (∃ (x : CStart) (s : State), s.linked = true ∧ s.net.start = .contend ∧ x.rank < rankIn s.net.rank s.slot) ∧
    (∃ (x : CStart) (s : State), s.linked = true ∧ s.net.start ≠ .listen ∧ s.net.start ≠ .contend) ∧
    (∃ (x : CStart) (s u : State), s.net.start = .contend ∧ s.net.proposal = some x ∧ s.cyc.running = false ∧ u = s.reachNet x.startTime) ∧
    (∃ (x : CStart) (s k : State), s.net.start = .contend ∧ s.net.proposal = some x ∧ s.cyc.running = true ∧ k = s.reachNet (x.startTime + 2 * x.tNs)) ∧
    (∃ (s k : State), s.net.start = .follow ∧ s.pair.other = false ∧ k = s.reach (max (s.net.xferAt.getD 0) s.net.followAt + s.t)) ∧
    (∃ (s : State), s.net.start = .follow ∧ s.pair.other = true) :=
  ⟨⟨105, 50000, 20, { prim with net := { prim.net with cfg := some net0, start := .listen, xfer := [100, 110], listenEnd := some 9000 }, pair := { prim.pair with role := .standby, lanes := 3, auth := true, other := true, own := false, drive := false } }, (State.transfer ({ prim with net := { prim.net with cfg := some net0, start := .listen, xfer := [100, 110], listenEnd := some 9000 }, pair := { prim.pair with role := .standby, lanes := 3, auth := true, other := true, own := false, drive := false } }) 105).1, by decide +kernel⟩,
   ⟨105, 50000, 20, none, { prim with net := { prim.net with cfg := some net0, start := .listen, xferTry := [100], listenEnd := some 9000 }, pair := { prim.pair with role := .standby, lanes := 3, auth := true, other := true, own := false, drive := false } }, (State.transfer ({ prim with net := { prim.net with cfg := some net0, start := .listen, xferTry := [100], listenEnd := some 9000 }, pair := { prim.pair with role := .standby, lanes := 3, auth := true, other := true, own := false, drive := false } }) 105).1, by decide +kernel⟩,
   ⟨net0, 9000, { ({ prim with net := { prim.net with cfg := some net0, start := .listen, xfer := [100, 110], listenEnd := some 9000 }, pair := { prim.pair with role := .standby, lanes := 3, auth := true, other := true, own := false, drive := false } } : State) with pair := { prim.pair with other := false } }, _, by decide +kernel, by decide +kernel, by decide +kernel, rfl, by decide +kernel⟩,
   ⟨net0, 9000, { prim with net := { prim.net with cfg := some net0, start := .listen, xfer := [100, 110], listenEnd := some 9000 }, pair := { prim.pair with role := .standby, lanes := 3, auth := true, other := true, own := false, drive := false } }, _, by decide +kernel, by decide +kernel, by decide +kernel, rfl, by decide +kernel⟩,
   ⟨net0, prim, _, rfl⟩,
   ⟨{ cycle := 0, startTime := 60000000, tNs := 250000, rank := 1 }, { prim with net := { prim.net with cfg := some net0, start := .listen, xfer := [100, 110], listenEnd := some 9000 }, pair := { prim.pair with role := .standby, lanes := 3, auth := true, other := true, own := false, drive := false } }, by decide +kernel⟩,
   ⟨{ slot := .b, rank := 3, cycle := 0, startTime := 100, tNs := 250000 }, { pairp with net := { pairp.net with start := .contend, rank := 9 } }, by decide +kernel⟩,
   ⟨{ slot := .b, rank := 3, cycle := 0, startTime := 100, tNs := 250000 }, { pairp with net := { pairp.net with start := .lead, rank := 9 } }, by decide +kernel⟩,
   ⟨{ cycle := 0, startTime := 60000000, tNs := 250000, rank := 1 }, { prim with net := { prim.net with cfg := some net0, start := .contend, proposal := some { cycle := 0, startTime := 60000000, tNs := 250000, rank := 1 } } }, _, by decide +kernel, by decide +kernel, by decide +kernel, rfl⟩,
   ⟨{ cycle := 0, startTime := 60000000, tNs := 250000, rank := 1 }, { ({ prim with net := { prim.net with cfg := some net0, start := .contend, proposal := some { cycle := 0, startTime := 60000000, tNs := 250000, rank := 1 } } } : State) with cyc := { prim.cyc with running := true } }, _, by decide +kernel, by decide +kernel, by decide +kernel, rfl⟩,
   ⟨{ netp with net := { netp.net with start := .follow, xferAt := some 77 } }, _, by decide +kernel, by decide +kernel, rfl⟩,
   ⟨{ netp with net := { netp.net with start := .follow, xferAt := some 77 }, pair := { netp.pair with other := true } }, by decide +kernel⟩⟩

theorem cyclesComplete_met :
    (∃ (c : NetCfg) (s k : State), s.net.cfg = some c ∧ s.cyc.running = true ∧ s.net.silenceDue = false ∧ s.net.start = .lead ∧ k = s.reachNet (s.startOf (s.cyc.n + 1)) ∧ k.net = s.net ∧ k.pair.other = false) ∧
    (∃ (s : State), s.cyc.running = true ∧ (s.pair.role = .primary ∨ s.pair.role = .standby)) ∧
    (∃ (s : State), s.cyc.running = true ∧ (s.pair.role = .primary ∨ s.pair.role = .standby)) ∧
    (∃ (s k : State), s.cyc.running = true ∧ k = s.reachNet (s.stillOf s.cyc.n) ∧ (!k.lull && !({ k with cyc := { k.cyc with still := k.stillOf k.cyc.n } } : State).calmOut) = true) ∧
    (∃ (w : TrkWork) (c : NetCfg) (s k u : State), s.net.cfg = some c ∧ s.cyc.running = true ∧ s.cyc.commitN ≠ some s.cyc.n ∧ k = s.reachNet (s.cycleStart + c.i) ∧ k.primary = false ∧ u = k.commitInputs c w.copyErr ∧ u.primary = false) ∧
    (∃ (w : TrkWork) (c : NetCfg) (s k u : State) (e : List (Nat × List Byte) × List (Nat × List Byte)), s.net.cfg = some c ∧ s.cyc.running = true ∧ s.cyc.commitN ≠ some s.cyc.n ∧ k = s.reachNet (s.cycleStart + c.i) ∧ k.primary = true ∧ u = (k.effectForces false).commitInputs c w.copyErr ∧ u.primary = true ∧ e = stnErrors u.cyc.n (k.effectForces false).stnM u.stnM) ∧
    (∃ (w : TrkWork) (s : State), s.cyc.running = true ∧ s.cyc.commitN = some s.cyc.n) ∧
    (∃ (c : NetCfg) (s : State), s.net.cfg = some c ∧ s.cyc.running = true ∧ s.primary = true ∧ s.cyc.snapN ≠ some s.cyc.n) ∧
    (∃ (m : Fin 16) (i : AppImage) (ofs : Nat) (c : NetCfg) (s k : State), s.chg.running = some i ∧ alook m.val i.body.marks = some ofs ∧ s.cyc.running = true ∧ s.primary = true ∧ s.net.cfg = some c ∧ ofs ≠ c.i ∧ k = markLanes (s.reachNet (s.cycleStart + ofs)) m) ∧
    (∃ (c : NetCfg) (i : Nat) (w : WinEnt) (e : Nat × Frame) (late : Nat) (s b : State), s.net.cfg = some c ∧ c.wins[i]? = some w ∧ w.down = true ∧ s.holder = true ∧ s.cyc.running = true ∧ (s.net.ready.find? fun x => x.1 = i) = some e ∧ (s.net.br.toList.getD w.branch {}).downEnd = 0 ∧ late ≤ 3000 ∧ b = ({ s with net := { s.net with ready := s.net.ready.filter fun x => x.1 ≠ i, fromPair := s.net.fromPair.filter fun x => x.1 ≠ i } } : State).onBr w.branch (fun y => { y with downEnd := w.start + late + frameNs e.2.length })) ∧
    (∃ (s : State), s.cyc.running = false) :=
  ⟨⟨net0, netp, _, by decide +kernel, by decide +kernel, by decide +kernel, by decide +kernel, rfl, by decide +kernel⟩,
   ⟨netp, by decide +kernel⟩,
   ⟨netp, by decide +kernel⟩,
   ⟨{ netp with pwr := { netp.pwr with full := true } }, _, by decide +kernel, rfl, by decide +kernel⟩,
   ⟨{}, net0, { netp with pair := { netp.pair with role := .standby, own := false }, clk := { now := 16100000 } }, _, _, by decide +kernel, by decide +kernel, by decide +kernel, rfl, by decide +kernel, rfl, by decide +kernel⟩,
   ⟨{}, net0, netp, _, _, _, by decide +kernel, by decide +kernel, by decide +kernel, rfl, by decide +kernel, rfl, by decide +kernel, rfl⟩,
   ⟨{}, { netp with cyc := { netp.cyc with commitN := some 64 } }, by decide +kernel⟩,
   ⟨net0, netp, by decide +kernel⟩,
   ⟨4, app, 1000, net0, { appp with lanes := { appp.lanes with lane := appp.lanes.lane.set 2 { halted := false, parked := false, markEn := 16 } } }, _, by decide +kernel, by decide +kernel, (by decide +kernel), by decide +kernel, by decide +kernel, (by decide +kernel), rfl⟩,
   ⟨{ net0 with wins := [{ start := 160000, len := 800, ty := 0x20, path := 16, owner := 5 }] }, 0, { start := 160000, len := 800, ty := 0x20, path := 16, owner := 5 }, (0, { ftype := 0x20, payload := [1] }), 2000, { netp with net := { netp.net with cfg := some ({ net0 with wins := [{ start := 160000, len := 800, ty := 0x20, path := 16, owner := 5 }] }), ready := [(0, { ftype := 0x20, payload := [1] })] } }, _, by decide +kernel, by decide +kernel, (by decide +kernel), by decide +kernel, by decide +kernel, (by decide +kernel), by decide +kernel, by decide +kernel, rfl⟩,
   ⟨prim, by decide +kernel⟩⟩

theorem mirrorCompletes_met :
    (∃ (s : State), s.cyc.running = false) ∧
    (∃ (s : State), s.cyc.running = true ∧ s.pair.closeN = some s.cyc.n) ∧
    (∃ (s : State), s.cyc.running = true ∧ s.pair.closeN ≠ some s.cyc.n ∧ s.ownersDone = true) ∧
    (∃ (s : State) (c : NetCfg), s.cyc.running = true ∧ s.pair.closeN ≠ some s.cyc.n ∧ s.ownersDone = false ∧ s.net.cfg = some c) ∧
    (∃ (s : State), s.cyc.running = false ∧ s.shipping = true ∧ s.pair.unacked = none ∧ s.pair.dirty = [] ∧ s.pair.shipped = [] ∧ s.pair.again = 0 ∧ s.pair.resent = 0 ∧ s.pair.forceShipped = s.pair.forceVer) ∧
    (∃ (s : State) (q n k : Nat) (f : Bool), s.pair.unacked = some (q, n, k, f)) ∧
    (∃ (s : State) (q n k : Nat), s.pair.unacked = some (q, n, k, false)) ∧
    (∃ (s : State) (blk q n k : Nat) (f : Bool) (l : List Nat) (u : State), s.pair.unacked = some (q, n, k, f) ∧ s.pair.shipped[blk]? = some l ∧ u = ({ s.shipBlock q blk l with pair := { (s.shipBlock q blk l).pair with resends := satAdd 64 s.pair.resends 1 } } : State).record 0x090C (srcOf 8 0) [blk] ∧ 64 * (n + l.length) ≤ s.budget) ∧
    (∃ (s : State) (blk : Nat) (l : List Nat) (u : State), s.pair.unacked = none ∧ s.pair.shipped[blk]? = some l ∧ u = ({ s.shipBlock s.openSeq blk l with pair := { (s.shipBlock s.openSeq blk l).pair with resends := satAdd 64 s.pair.resends 1 } } : State).record 0x090C (srcOf 8 0) [blk]) ∧
    (∃ (s : State) (q n k : Nat), s.pair.unacked = some (q, n, k, false) ∧ ackInTime s false = true ∧ s.pair.partnerCur = false ∧ s.chg.commitDue = none) ∧
    (∃ (s : State) (q n k : Nat), s.pair.unacked = some (q, n, k, true) ∧ ackInTime s true = true ∧ s.pair.partnerCur = true ∧ s.chg.commitDue = none) ∧
    (∃ (s : State) (q n k : Nat) (f : Bool), s.pair.unacked = some (q, n, k, f) ∧ ackInTime s f = false) ∧
    (∃ (x blk : Nat) (lines : List Span) (fv : Option Nat) (d : BitVec 128) (s k : State), s.receiving = true ∧ d = blockDigest x blk lines ∧ ((∀ y ∈ lines, y.err = .none)) ∧ k = (s.writeLines (lines.filter fun x => forceLine x.addr)).auditGot (fun a => fv.isSome && forceLine a) ∧ k.pair.heldClose = none ∧ k.pair.voided ≠ some x ∧ k.rejoinStands = false) ∧
    (∃ (x blk : Nat) (lines : List Span) (fv : Option Nat) (d : BitVec 128) (s : State), s.receiving = true ∧ d ≠ blockDigest x blk lines ∧ ((∀ y ∈ lines, y.err = .none)) ∧ s.pair.voided ≠ some x) ∧
    (∃ (c : CloseBlk) (s u : State), takesClose s c.xfer = true ∧ u = closing s c ∧ u.complete_ c.xfer c.blocks = true ∧ c.audit = (written u c).auditDigest c.slice ∧ (applied u c).pair.auditLeft = []) ∧
    (∃ (c : CloseBlk) (s u : State), takesClose s c.xfer = true ∧ u = closing s c ∧ u.complete_ c.xfer c.blocks = true ∧ c.audit ≠ (written u c).auditDigest c.slice) ∧
    (∃ (c : CloseBlk) (s u : State) (k : Nat), takesClose s c.xfer = true ∧ u = closing s c ∧ u.complete_ c.xfer c.blocks = false ∧ ((List.range c.blocks).filter fun k => !(s.pair.staging.any fun b => b.1 = c.xfer && b.2.1 = k) && s.timesDiffered k = 0) = [k]) ∧
    (∃ (n : Nat) (lines : List Span) (s k : State), s.receiving = true ∧ k = lines.foldl (fun s x => s.storeIn 7 1 x.addr x.bytes) s) ∧
    (∃ (n : Nat) (lines : List Span) (ch : Option (BitVec 128)) (s : State), ch ≠ some (snapCheck n lines)) ∧
    (∃ (c : Span) (s k : State), s.pair.role = .joining ∧ s.rejoinStands = false ∧ c.err = .none ∧ forceLine c.addr = false ∧ k = s.writeLine c ∧ k.pair.baseDone / 0x4000000 = (k.pair.baseDone + c.bytes.length) / 0x4000000) ∧
    (∃ (c : Span) (s : State), s.pair.role = .joining ∧ s.rejoinStands = true) ∧
    (∃ (s k u : State), s.pair.role = .joining ∧ s.pwr.selfFail = false ∧ s.rejoinStands = false ∧ k = s.restLanes ∧ u = ({ k with pair := { k.pair with current := false, rejoin := k.pair.rejoin.map fun _ => 2 }, calm := { k.calm with follower := k.calm.on } } : State) ∧ u.pair.hot = false ∧ u.parkLanes.host.runs = []) ∧
    (∃ (s : State), s.pair.role = .joining ∧ s.pwr.selfFail = false ∧ s.rejoinStands = false ∧ s.wb.crossing = []) :=
  ⟨⟨{ pairp with cyc := { pairp.cyc with running := false } }, by decide +kernel⟩,
   ⟨{ pairp with pair := { pairp.pair with closeN := some 64 } }, by decide +kernel⟩,
   ⟨{ pairp with cyc := { pairp.cyc with commitN := some 64 } }, by decide +kernel⟩,
   ⟨pairp, net0, by decide +kernel⟩,
   ⟨{ pairp with cyc := { pairp.cyc with running := false } }, by decide +kernel⟩,
   ⟨{ pairp with pair := { pairp.pair with unacked := some (5, 0, 3, false) } }, 5, 0, 3, false, by decide +kernel⟩,
   ⟨{ pairp with pair := { pairp.pair with unacked := some (5, 0, 3, false) } }, 5, 0, 3, by decide +kernel⟩,
   ⟨{ pairp with pair := { pairp.pair with unacked := some (5, 0, 3, false), shipped := [[0x01000000]] } }, 0, 5, 0, 3, false, [0x01000000], _, by decide +kernel, by decide +kernel, rfl, by decide +kernel⟩,
   ⟨{ pairp with pair := { pairp.pair with shipped := [[0x01000000]] } }, 0, [0x01000000], _, by decide +kernel, by decide +kernel, rfl⟩,
   ⟨{ pairp with pair := { pairp.pair with unacked := some (5, 0, 3, false), partnerCur := false } }, 5, 0, 3, by decide +kernel⟩,
   ⟨{ pairp with pair := { pairp.pair with unacked := some (5, 0, 3, true) } }, 5, 0, 3, by decide +kernel⟩,
   ⟨{ { pairp with pair := { pairp.pair with unacked := some (5, 0, 3, false) } } with clk := { now := 1000000000 } }, 5, 0, 3, false, by decide +kernel⟩,
   ⟨4, 0, [{ addr := 0x01000000, bytes := [1, 2, 3] }], none, _, { pairp with pair := { pairp.pair with role := .standby, own := false, drive := false, other := true } }, _, by decide +kernel, rfl, by decide +kernel, rfl, by decide +kernel⟩,
   ⟨4, 0, [{ addr := 0x01000000, bytes := [1, 2, 3] }], none, blockDigest 4 0 [{ addr := 0x01000000, bytes := [1, 2, 3] }] ^^^ 1, { pairp with pair := { pairp.pair with role := .standby, own := false, drive := false, other := true } }, by decide +kernel, xor_ne _, by decide +kernel⟩,
   ⟨{ xfer := 4, blocks := 1, commit := none, slice := 100000000, audit := sha16 [], fin := none }, (let s : State := { pairp with pair := { pairp.pair with role := .standby, own := false, drive := false, other := true } }; { s with pair := { s.pair with staging := [(4, 0, [{ addr := 0x01000000, bytes := [1, 2, 3] }])] } }), _, by decide +kernel, rfl, by decide +kernel, (auditNone (by decide +kernel)).symm, by decide +kernel⟩,
   ⟨{ xfer := 4, blocks := 1, commit := none, slice := 100000000, audit := sha16 [] ^^^ 1, fin := none }, (let s : State := { pairp with pair := { pairp.pair with role := .standby, own := false, drive := false, other := true } }; { s with pair := { s.pair with staging := [(4, 0, [{ addr := 0x01000000, bytes := [1, 2, 3] }])] } }), _, by decide +kernel, rfl, by decide +kernel, (by rw [auditNone (by decide +kernel)]; exact xor_ne _)⟩,
   ⟨{ xfer := 4, blocks := 2, commit := none, slice := 7, audit := 5, fin := none }, (let s : State := { pairp with pair := { pairp.pair with role := .standby, own := false, drive := false, other := true } }; { s with pair := { s.pair with staging := [(4, 0, [{ addr := 0x01000000, bytes := [1, 2, 3] }])] } }), _, 1, by decide +kernel, rfl, by decide +kernel⟩,
   ⟨9, [{ addr := 0x01000000, bytes := [1, 2, 3] }], { pairp with pair := { pairp.pair with role := .standby, own := false, drive := false, other := true } }, _, by decide +kernel, rfl⟩,
   ⟨9, [{ addr := 0x01000000, bytes := [1, 2, 3] }], none, { pairp with pair := { pairp.pair with role := .standby, own := false, drive := false, other := true } }, by decide +kernel⟩,
   ⟨{ addr := 0x01000000, bytes := [1, 2, 3] }, { pairp with pair := { pairp.pair with role := .joining, own := false, drive := false, other := true } }, _, by decide +kernel, by decide +kernel, by decide +kernel, by decide +kernel, rfl, by decide +kernel⟩,
   ⟨{ addr := 0x01000000, bytes := [1, 2, 3] }, (let s : State := { pairp with pair := { pairp.pair with role := .joining, own := false, drive := false, other := true } }; { s with host := { s.host with runs := [{ src := .queue 1, session := 7, cmdId := 1, opcode := 0x0021, party := 2, suspended := true, work := .rejoin }] } }), by decide +kernel⟩,
   ⟨{ pairp with pair := { pairp.pair with role := .joining, own := false, drive := false, other := true } }, _, _, by decide +kernel, by decide +kernel, by decide +kernel, rfl, rfl, by decide +kernel⟩,
   ⟨{ pairp with pair := { pairp.pair with role := .joining, own := false, drive := false, other := true } }, by decide +kernel⟩⟩

theorem pairLinkCompletes_met :
    (∃ (h : Heartbeat) (s : State), s.linked = true ∧ h.crcOk = true ∧ h.kind = 1 ∧ s.pair.role = .out ∧ s.partnerDuty = false) ∧
    (∃ (h : Heartbeat) (s k : State), s.linked = true ∧ h.crcOk = true ∧ h.kind = 1 ∧ s.primary = true ∧ k = heard s h ∧ (s.partnerDuty && !k.partnerDuty) = false) ∧
    (∃ (h : Heartbeat) (s k : State), s.linked = true ∧ h.crcOk = true ∧ h.kind = 1 ∧ s.pair.role = .standby ∧ h.role = 1 ∧ k = heard s h ∧ k.forcesHeld = true ∧ s.pair.hbLost = false) ∧
    (∃ (h : Heartbeat) (q : Bool) (s k u : State), s.linked = true ∧ h.crcOk = true ∧ h.kind = 2 ∧ k = ({ s with pair := { s.pair with hb := some h, hbAt := s.clk.now, hbLost := false, leave := h.leaveCause, partnerPrim := h.role = 1 || (s.pair.partnerPrim && s.pair.other), partnerReq := s.pair.partnerReq || q } } : State) ∧ u = (k.standbyWake.partnerAway.takeBeat ((s.pair.hb.map (·.role)).getD 0) h).issueReset ∧ u.chg.handover ≠ 1) ∧
    (∃ (s k : State), s.pair.hbLost = false ∧ s.pair.hb.isSome = true ∧ s.cyc.running = false ∧ k = ({ s with pair := { s.pair with hbLost := true } } : State).standbyWake.partnerAway ∧ k.pair.other = false) ∧
    (∃ (s u k : State), s.pair.hbLost = false ∧ s.pair.hb.isSome = true ∧ s.cyc.running = true ∧ u = s.reach (s.pair.hbAt + 2 * s.t + 10000) ∧ k = ({ u with pair := { u.pair with hbLost := true } } : State).standbyWake.partnerAway ∧ k.pair.other = true ∧ k.pair.role = .standby) ∧
    (∃ (k : Fin 2) (s : State) (l : BitVec 2), s.pair.lanes.getLsbD k.val = true ∧ l = s.pair.lanes &&& ~~~(1#2 <<< k.val)) ∧
    (∃ (h : PairHello) (s u k : State), s.pair.lanes ≠ 0 ∧ s.authOk h = true ∧ u = ({ s with pair := { s.pair with auth := true } } : State) ∧ k = u.draw.2) ∧
    (∃ (h : PairHello) (s : State), s.pair.lanes ≠ 0 ∧ s.authOk h = false) ∧
    (∃ (s : State) (r : Run) (sched : Nat) (y : Bool), (s.host.runs.find? fun r => match r.work with | .netConfigure _ _ _ => true | _ => false) = some r ∧ r.work = .netConfigure sched true y) ∧
    (∃ (s : State), s.cyc.running = true) :=
  ⟨⟨{ role := 4 }, { live with pair := { live.pair with role := .out, lanes := 3, auth := true, hb := none } }, by decide +kernel⟩,
   ⟨{ role := 2 }, pairp, _, by decide +kernel, by decide +kernel, by decide +kernel, by decide +kernel, rfl, by decide +kernel⟩,
   ⟨{ role := 1 }, { pairp with pair := { pairp.pair with role := .standby, own := false, drive := false, other := true } }, _, by decide +kernel, by decide +kernel, (by decide +kernel), by decide +kernel, by decide +kernel, rfl, by decide +kernel⟩,
   ⟨{ kind := 2, role := 4, leaveCause := 1 }, true, { pairp with pair := { pairp.pair with role := .standby, own := false, drive := false, other := true } }, _, _, by decide +kernel, by decide +kernel, by decide +kernel, rfl, rfl, by decide +kernel⟩,
   ⟨{ prim with pair := { prim.pair with hb := some beat2 } }, _, by decide +kernel, by decide +kernel, by decide +kernel, rfl, by decide +kernel⟩,
   ⟨{ netp with pair := { netp.pair with role := .standby, own := false, drive := false, other := true, hb := some beat2 } }, _, _, by decide +kernel, by decide +kernel, by decide +kernel, rfl, rfl, by decide +kernel⟩,
   ⟨1, pairp, _, by decide +kernel, rfl⟩,
   ⟨{ certsOk := true, lifecycle := 2, owner := some 5, unit := 4 }, pairp, _, _, by decide +kernel, by decide +kernel, rfl, rfl⟩,
   ⟨{ certsOk := true, lifecycle := 1 }, pairp, by decide +kernel⟩,
   ⟨{ appp with host := { appp.host with runs := [{ src := .queue 1, session := 7, cmdId := 1, opcode := 0x0080, party := 2, long := true, work := .netConfigure 5 true true }] } }, { src := .queue 1, session := 7, cmdId := 1, opcode := 0x0080, party := 2, long := true, work := .netConfigure 5 true true }, 5, true, by decide +kernel, rfl⟩,
   ⟨pairp, by decide +kernel⟩⟩

theorem vaneLinesComplete_met :
    (∃ (v : Bool) (s k : State), s.slot = .a ∧ k = (lineSeen s .a v).watchHolder.switches) ∧
    (∃ (l : Side) (v : Bool) (s k : State), k = (lineSeen s l v).watchHolder.switches ∧ (k.pair.drive && k.pair.own && k.pair.other && k.slot = .b && k.clk.now ≤ k.pair.driveAt + 100) = false) ∧
    (∃ (l : Side) (s : State), l ≠ s.slot) ∧
    (∃ (u : Nat) (s k : State), s.pair.takeFrom = some u ∧ k = s.reach (u + 27000) ∧ k.pair.role = .standby ∧ k.pair.current = true ∧ k.lanes.lockout = false ∧ k.mayAssert = true ∧ k.cyc.running = true ∧ k.netTime ≤ k.stillOf k.cyc.n) ∧
    (∃ (u : Nat) (s : State), s.pair.takeFrom = some u ∧ (s.reach (u + 27000)).pair.role = .standby ∧ (s.reach (u + 27000)).pair.current = true ∧ (s.reach (u + 27000)).lanes.lockout = false ∧ (s.reach (u + 27000)).mayAssert = true ∧ (s.reach (u + 27000)).cyc.running = false) ∧
    (∃ (s k : State), s.pair.driveAt + 2000 ≤ s.clk.now ∧ s.pair.drive = true ∧ s.pair.own = false ∧ s.primary = true ∧ k = (({ s with pair := { s.pair with resetOut := false } } : State).record 0x0900 (srcOf 8 0) []).haltLanes) ∧
    (∃ (s : State), s.pair.driveAt + 2000 ≤ s.clk.now ∧ s.pair.drive = s.pair.own ∧ s.pair.other = false) ∧
    (∃ (u : Nat) (s k : State), s.pair.noHolderAt = some u ∧ s.pair.noHolder = false ∧ s.holder = false ∧ k = s.reach (u + 1000000) ∧ k.pair.role ≠ .out) ∧
    (∃ (s : State), s.pair.role = .bringUp ∧ s.slot = .b ∧ s.pwr.lullService = true ∧ s.lanes.lockout = false ∧ s.pair.other = false ∧ s.pair.stuck = false) ∧
    (∃ (s : State), s.resetOk 4 = true) :=
  ⟨⟨true, live, _, by decide +kernel, rfl⟩,
   ⟨.b, true, live, _, rfl, by decide +kernel⟩,
   ⟨.b, live, by decide +kernel⟩,
   ⟨100, { pairp with pair := { pairp.pair with role := .standby, own := false, drive := false, other := false, current := true, takeFrom := some 100 } }, _, by decide +kernel, rfl, by decide +kernel⟩,
   ⟨100, { prim with pair := { prim.pair with role := .standby, own := false, drive := false, other := false, current := true, takeFrom := some 100 } }, by decide +kernel⟩,
   ⟨{ appp with pair := { appp.pair with own := false }, clk := { now := 5000 } }, _, by decide +kernel, by decide +kernel, by decide +kernel, by decide +kernel, rfl⟩,
   ⟨{ appp with clk := { now := 5000 } }, by decide +kernel⟩,
   ⟨3, { pairp with pair := { pairp.pair with role := .standby, own := false, drive := false, other := false, noHolderAt := some 3 } }, _, by decide +kernel, by decide +kernel, by decide +kernel, rfl, by decide +kernel⟩,
   ⟨{ live with slot := .b }, by decide +kernel⟩,
   ⟨live, by decide +kernel⟩⟩

theorem switchAndRejoinComplete_met :
    (∃ (c : Cmd) (s b k : State), b = begun s 0x0090 c 0 (c.inlZero 0) ∧ passes s 0x0090 c 0 (c.inlZero 0) = true ∧ b.primary = true ∧ b.pair.switch_ = none ∧ b.pair.rejoin = none ∧ b.pair.partnerJoins = false ∧ (b.pair.hb.map (·.role)) ≠ some 3 ∧ b.switchable = true ∧ k = ({ b with pair := { b.pair with switch_ := some {} } } : State)) ∧
    (∃ (s : State) (w : Switch) (k : State), s.pair.switch_ = some w ∧ s.primary = true ∧ w.phase = .cut ∧ s.comparedIdle = true ∧ s.pair.unacked = none ∧ (s.cyc.running && decide (s.stillOf w.k < s.netTime + 25000)) = false ∧ k = (s.haltSplit.send (.held (s.cyc.heldRel ++ s.dueRels) s.act.pool)).closeTransfer true ∧ k.pair.unacked.isSome = true) ∧
    (∃ (c : Cmd) (s b : State) (r : Run), b = begun s 0x0091 c 0 (c.inf 0 4 < 2 && c.inlZero 4) ∧ s.canBegin 0x0091 c = true ∧ (s.unqueue 0x0091 c).checks 0x0091 c 0 (c.inf 0 4 < 2 && c.inlZero 4) (rejoinAllowed s c) = none ∧ c.inf 0 4 = 0 ∧ b.primary = false ∧ b.pair.rejoin = none ∧ b.lanes.lockout = false ∧ b.pwr.selfFail = false ∧ b.partnerPrimary = true ∧ b.genFar = false ∧ b.longOps < 8 ∧ r = mkRun 0x0091 c (b.partyOf c) true 0 .rejoin) :=
  ⟨⟨hc, asks 0x0090 (hc) (pairp), _, _, rfl, by decide +kernel, by decide +kernel, (by decide +kernel), by decide +kernel, by decide +kernel, (by decide +kernel), by decide +kernel, rfl⟩,
   ⟨{ pairp with pair := { pairp.pair with switch_ := some { phase := .cut, k := 1000 } } }, { phase := .cut, k := 1000 }, _, by decide +kernel, by decide +kernel, (by decide +kernel), by decide +kernel, by decide +kernel, (by decide +kernel), rfl, by decide +kernel⟩,
   ⟨hc, asks 0x0091 (hc) ({ live with pair := { live.pair with hb := some { role := 1, fwGen := 1 }, lanes := 3, auth := true, other := true } }), _, _, rfl, by decide +kernel, by decide +kernel, (by decide +kernel), by decide +kernel, by decide +kernel, (by decide +kernel), by decide +kernel, by decide +kernel, (by decide +kernel), by decide +kernel, rfl⟩⟩

theorem feedsComplete_met :
    (∃ (s k : State), s.resetOk 3 = true ∧ k = (vaneOff (s.reach (s.pwr.wdt + 250000000))).faultMessage 3) ∧
    (∃ (k o : Side) (mv : Nat) (s : State), o = Side.other k ∧ (s.pwr.feed k).valid = true ∧ (s.pwr.feed o).valid = true) ∧
    (∃ (k : Side) (cause : Nat) (s : State), (s.pwr.feed k).pathFault = false) ∧
    (∃ (k : Side) (mv : Nat) (s : State), (s.pwr.feed k).valid = true ∧ (s.pwr.feed k.other).valid = false ∧ s.pwr.holdup = 0 ∧ s.pwr.st ≠ .off ∧ s.primary = true) ∧
    (∃ (k : Side) (mv : Nat) (s : State), (s.pwr.feed k).valid = false ∧ (s.pwr.feed k).pathFault = false ∧ s.pwr.st ≠ .off ∧ s.pwr.holdup ≠ 6) ∧
    (∃ (k : Side) (mv : Nat) (s : State), (s.pwr.feed k).valid = false ∧ (s.pwr.feed k).pathFault = false ∧ s.pwr.st = .off) ∧
    (∃ (k : Side) (mv : Nat) (s : State), (s.pwr.feed k).valid = false ∧ (s.pwr.feed k).pathFault = false ∧ s.pwr.st ≠ .off ∧ s.pwr.holdup = 6) ∧
    (∃ (s u k : State), s.pwr.holdup = 1 ∧ u = holdupRelease s ∧ k = ((u.reach (u.clk.now + 10000)).haltLanes.hifOff).domainsOff (domMask [4, 5, 9, 11])) ∧
    (∃ (s : State), s.pwr.holdup = 1) ∧
    (∃ (s k : State), s.pwr.holdup = 3 ∧ k = s.flashCommit) ∧
    (∃ (s k : State), s.pwr.holdup = 4 ∧ k = (s.reach (s.pwr.td + 8000000)).silence.memoryOff.domainsOff (domMask [2, 3, 6, 7, 8, 10])) ∧
    (∃ (s : State) (k : Nat × State), s.pwr.holdup = 5 ∧ s.pwr.fed = false ∧ k = (s.reach (s.pwr.td + 10000000)).drawNat ∧ k.2.pwr.fed = false) ∧
    (∃ (s : State) (k : Nat × State), s.pwr.holdup = 5 ∧ s.pwr.fed = true ∧ k = (s.reach (s.pwr.td + 10000000)).drawNat ∧ k.2.pwr.fed = true) ∧
    (∃ (s k : State), k = (vaneOff s).haltLanes.silence.memoryOff.hifOff) :=
  ⟨⟨live, _, by decide +kernel, rfl⟩,
   ⟨.a, _, 3, { appp with pwr := { appp.pwr with fb := { valid := true } } }, rfl, by decide +kernel⟩,
   ⟨.a, 4, { appp with pwr := { appp.pwr with fb := { valid := true } } }, by decide +kernel⟩,
   ⟨.a, 0, { appp with pwr := { appp.pwr with st := .run } }, by decide +kernel⟩,
   ⟨.b, 24000, appp, by decide +kernel⟩,
   ⟨.a, 24000, { live with pwr := { live.pwr with holdup := 0, st := .off, fa := {} } }, by decide +kernel⟩,
   ⟨.a, 24000, { live with pwr := { live.pwr with holdup := 6, st := .run, fa := {} } }, by decide +kernel⟩,
   ⟨{ appp with pwr := { appp.pwr with holdup := 1 } }, _, _, by decide +kernel, rfl, rfl⟩,
   ⟨{ appp with pwr := { appp.pwr with holdup := 1 } }, by decide +kernel⟩,
   ⟨{ appp with pwr := { appp.pwr with holdup := 3 } }, _, by decide +kernel, rfl⟩,
   ⟨{ appp with pwr := { appp.pwr with holdup := 4 } }, _, by decide +kernel, rfl⟩,
   ⟨{ appp with pwr := { appp.pwr with holdup := 5, fa := {} } }, _, by decide +kernel, by decide +kernel, rfl, by decide +kernel⟩,
   ⟨{ appp with pwr := { appp.pwr with holdup := 5 } }, _, by decide +kernel, by decide +kernel, rfl, by decide +kernel⟩,
   ⟨appp, _, rfl⟩⟩

theorem bringUpCompletes_met :
    (∃ (h ok : Bool) (s k : State), s.pwr.fed = true ∧ s.pwr.waitGood = true ∧ s.pwr.kind = 1 ∧ s.pwr.sampled = false ∧ k = ({ s with slot := if h then .b else .a, pwr := { s.pwr with sampled := true } } : State).bkpStart ok) ∧
    (∃ (h ok : Bool) (s k : State), s.pwr.fed = true ∧ s.pwr.waitGood = true ∧ (s.pwr.kind ≠ 1 ∨ s.pwr.sampled = true) ∧ k = s.bkpStart ok) ∧
    (∃ (s : State), s.pwr.waitGood = true ∧ s.pwr.fed = true ∧ s.pwr.store = 100) ∧
    (∃ (d : Fin 12) (s : State), s.pwr.failed = false ∧ s.pwr.on.getLsbD d.val = true) ∧
    (∃ (d : Fin 12) (s : State), s.pwr.failed = false ∧ s.pwr.stage < 6 ∧ s.pwr.on.getLsbD d.val = true ∧ s.pwr.good.getLsbD d.val = false) ∧
    (∃ (s : State), s.pwr.on.getLsbD 8 = true) ∧
    (∃ (f : StartFind) (s u : State), s.pwr.lullService = false ∧ s.pwr.failed = false ∧ s.pwr.waitGood = false ∧ 5 ≤ s.pwr.stage ∧ s.pwr.st = .lull ∧ s.pwr.holdup = 0 ∧ u = (lullBegun (foundAt s f)).serveRing.startRecords.event 0x0006 (List.replicate 12 0)) ∧
    (∃ (s k : State), s.pwr.lullService = true ∧ s.pwr.ready = false ∧ s.pwr.dramOk = true ∧ s.pair.role ≠ .bringUp ∧ k = ({ s with pwr := { s.pwr with ready := true } } : State).loadActive ∧ k.primary = false) ∧
    (∃ (s k : State) (c : NetCfg) (u : State), s.pwr.lullService = true ∧ s.pwr.ready = false ∧ s.pwr.dramOk = true ∧ s.pair.role ≠ .bringUp ∧ k = ({ s with pwr := { s.pwr with ready := true } } : State).loadActive ∧ k.primary = true ∧ k.net.stored = some c ∧ u = (({ k with cyc := { k.cyc with lullCycle := false }, net := { k.net with next := none } } : State).startTrigger c).send .netStart ∧ (u.pair.autostart && !u.calm.on && u.chg.running.isSome) = true) ∧
    (∃ (v : List (List (Bool × Bool))) (s : State), s.pwr.lullService = true ∧ s.pwr.ready = false ∧ s.pwr.dramOk = true ∧ s.pair.role ≠ .bringUp ∧ v ≠ soundTest) :=
  ⟨⟨true, true, State.reset, _, by decide +kernel, by decide +kernel, by decide +kernel, by decide +kernel, rfl⟩,
   ⟨false, true, { State.reset with pwr := { State.reset.pwr with on := 0xFFF, sampled := true } }, _, by decide +kernel, by decide +kernel, by decide +kernel, rfl⟩,
   ⟨{ State.reset with pwr := { State.reset.pwr with on := 0xFFF, waitGood := true, store := 100 } }, by decide +kernel⟩,
   ⟨3, { State.reset with pwr := { State.reset.pwr with on := 0xFFF, waitGood := false } }, by decide +kernel⟩,
   ⟨3, { State.reset with pwr := { State.reset.pwr with on := 0xFFF, stage := 3 } }, by decide +kernel⟩,
   ⟨{ State.reset with pwr := { State.reset.pwr with on := 0xFFF, stage := 5 } }, by decide +kernel⟩,
   ⟨{}, { State.reset with pwr := { State.reset.pwr with on := 0xFFF, waitGood := false, stage := 6 } }, _, by decide +kernel, by decide +kernel, (by decide +kernel), by decide +kernel, by decide +kernel, (by decide +kernel), rfl⟩,
   ⟨{ live with pair := { live.pair with role := .standby } }, _, by decide +kernel, by decide +kernel, by decide +kernel, by decide +kernel, rfl, by decide +kernel⟩,
   ⟨{ appp with net := { appp.net with stored := some net0 }, pair := { appp.pair with autostart := true } }, _, net0, _, by decide +kernel, by decide +kernel, by decide +kernel, by decide +kernel, rfl, by decide +kernel, by decide +kernel, rfl, by decide +kernel⟩,
   ⟨[], { live with pair := { live.pair with role := .standby } }, by decide +kernel⟩⟩

theorem runningFaultsComplete_met :
    (∃ (d : Fin 12) (s : State), s.pwr.lullService = true ∧ s.pwr.on.getLsbD d.val = true ∧ d.val ∈ [2, 3, 6, 7, 8, 9]) ∧
    (∃ (s : State), s.pwr.lullService = true ∧ s.pwr.on.getLsbD 4 = true) ∧
    (∃ (s : State), s.pwr.lullService = true ∧ s.pwr.on.getLsbD 5 = true) ∧
    (∃ (s : State), s.pwr.lullService = true ∧ s.pwr.on.getLsbD 10 = true) ∧
    (∃ (s : State), s.pwr.lullService = true ∧ s.pwr.on.getLsbD 11 = true) ∧
    (∃ (src : ClockSrc) (s : State), clockBad src = true) ∧
    (∃ (src : ClockSrc) (s : State), clockBad src = false) ∧
    (∃ (s k : State), s.pwr.holdup = 0 ∧ (s.pwr.st = .run ∨ s.pwr.st = .lull) ∧ k = (vaneOff { s with pwr := { s.pwr with present := false } }).enterHold) ∧
    (∃ (s : State), s.pwr.holdup = 0 ∧ (s.pwr.st = .run ∨ s.pwr.st = .lull)) ∧
    (∃ (ms : Nat) (s : State), s.pwr.lullService = true ∧ s.pwr.holdup = 0 ∧ (s.pwr.st = .run ∨ s.pwr.st = .lull) ∧ ms < 1000) ∧
    (∃ (ms : Nat) (s : State), s.pwr.lullService = true ∧ s.pwr.holdup = 0 ∧ (s.pwr.st = .run ∨ s.pwr.st = .lull) ∧ 1000 ≤ ms ∧ s.pwr.extract = false ∧ s.primary = false) ∧
    (∃ (ms : Nat) (s : State), s.pwr.lullService = true ∧ s.pwr.holdup = 0 ∧ (s.pwr.st = .run ∨ s.pwr.st = .lull) ∧ 1000 ≤ ms ∧ s.pwr.extract = false ∧ s.primary = true ∧ s.switchable = true ∧ s.pair.switch_ = none) ∧
    (∃ (ms : Nat) (s : State), s.pwr.lullService = true ∧ s.pwr.holdup = 0 ∧ (s.pwr.st = .run ∨ s.pwr.st = .lull) ∧ 5000 ≤ ms ∧ s.pwr.extract = false ∧ s.primary = true ∧ s.switchable = false) ∧
    (∃ (a : Nat) (s k : State), k = s.scrubCounts false) :=
  ⟨⟨3, live, by decide +kernel⟩,
   ⟨live, by decide +kernel⟩,
   ⟨live, by decide +kernel⟩,
   ⟨live, by decide +kernel⟩,
   ⟨live, by decide +kernel⟩,
   ⟨.pll 5, live, by decide +kernel⟩,
   ⟨.aon 500, live, by decide +kernel⟩,
   ⟨{ appp with pwr := { appp.pwr with st := .run } }, _, by decide +kernel, by decide +kernel, rfl⟩,
   ⟨{ appp with pwr := { appp.pwr with st := .run } }, by decide +kernel⟩,
   ⟨500, live, by decide +kernel⟩,
   ⟨1000, live, by decide +kernel⟩,
   ⟨5000, { pairp with pwr := { pairp.pwr with st := .run } }, by decide +kernel⟩,
   ⟨5000, { appp with pwr := { appp.pwr with st := .run } }, by decide +kernel⟩,
   ⟨0x0080000008, live, _, rfl⟩⟩

theorem stationFramesComplete_met :
    (∃ (ch : Side) (f : Frame) (c : NetCfg) (s : State), s.net.cfg = some c ∧ s.taken ch f 0x10 = true ∧ inFits c f s.cyc.n = true ∧ s.cyc.commitN ≠ some s.cyc.n) ∧
    (∃ (ch : Side) (f : Frame) (c : NetCfg) (x : StnM) (s : State), s.net.cfg = some c ∧ s.taken ch f 0x10 = true ∧ inFits c f s.cyc.n = true ∧ s.cyc.commitN ≠ some s.cyc.n ∧ s.net.stnBecalm = [] ∧ s.stnAt f.addr.toNat = some x ∧ (x.parts.any (·.num = f.part)) = false) ∧
    (∃ (b : Fin 16) (seen : Seen) (f : Frame) (c : NetCfg) (k s : State) (room : Nat), s.net.cfg = some c ∧ s.cyc.running = true ∧ (s.net.br[b]).g = .open_ ∧ s.judge c b.val seen f = (.admitted room, k)) ∧
    (∃ (b : Fin 16) (seen : Seen) (f : Frame) (c : NetCfg) (room : Nat) (s : State), s.net.cfg = some c ∧ (s.net.br[b]).g = .open_ ∧ s.cyc.running = true ∧ c.judgeUp b.val s.cyc.n guardNs seen f = .admitted room ∧ c.judgeUp b.val s.cyc.n (guardNs + 8) seen f = .admitted room ∧ f.crcOk = true ∧ s.discardOf c f room = none) ∧
    (∃ (b : Fin 16) (seen : Seen) (f : Frame) (c : NetCfg) (k s : State), s.net.cfg = some c ∧ s.cyc.running = true ∧ (s.net.br[b]).g = .open_ ∧ (s.judge c b.val seen f = (.refused, k) ∨ s.judge c b.val seen f = (.cut, k))) ∧
    (∃ (b : Fin 16) (seen : Seen) (f : Frame) (c : NetCfg) (s : State), s.net.cfg = some c ∧ s.cyc.running = true ∧ (s.net.br[b]).g = .becalmed) ∧
    (∃ (ch : Side) (f : Frame) (s : State), s.taken ch f 0x30 = true ∧ f.length ≠ 0 ∧ f.length % 16 = 0) ∧
    (∃ (ch : Side) (f : Frame) (c : NetCfg) (r : CfgReq) (s : State), s.net.cfg = some c ∧ s.taken ch f 0x40 = true ∧ s.holder = true ∧ (s.net.reqs.find? fun r => r.code = f.addr.toNat && r.tag = (byteAt f.payload 1).toNat && r.sentN.isSome) = some r) ∧
    (∃ (ch : Side) (f : Frame) (c : NetCfg) (s : State), s.net.cfg = some c ∧ s.taken ch f 0x40 = true ∧ s.holder = true ∧ (s.net.reqs.find? fun r => r.code = f.addr.toNat && r.tag = (byteAt f.payload 1).toNat && r.sentN.isSome) = none) ∧
    (∃ (ch : Side) (f : Frame) (c : NetCfg) (r : CfgReq) (x : StnM) (s : State), s.net.cfg = some c ∧ s.taken ch f 0x40 = true ∧ s.holder = true ∧ s.net.reqs = [r] ∧ s.stnM = [x] ∧ x.code = f.addr.toNat ∧ r.code = f.addr.toNat ∧ r.tag = (byteAt f.payload 1).toNat ∧ r.sentN.isSome = true ∧ r.why = .counters ∧ field f.payload 0 1 = 2 ∧ field f.payload 8 2 = 64 ∧ field f.payload 10 2 = 0 ∧ f.payload.length = 76) ∧
    (∃ (ch : Side) (t4 : Nat) (f : Frame) (s : State), s.taken ch f 0x40 = true ∧ field f.payload 0 1 = 2 ∧ field f.payload 1 1 = 0 ∧ field f.payload 2 2 = 0x8003 ∧ field f.payload 8 2 = 44 ∧ s.holder = true) ∧
    (∃ (t4 : Nat) (f : Frame) (s : State), s.taken s.slot f 0x40 = true ∧ field f.payload 0 1 = 2 ∧ field f.payload 1 1 = 0 ∧ field f.payload 2 2 = 0x8003 ∧ field f.payload 8 2 = 44 ∧ s.holder = false) :=
  ⟨⟨.a, frm 0x10 [1, 0, 0, 0], { net0 with wins := [{ start := 5000, len := 64, ty := 0x10, path := 0, owner := 5 }] }, stmp { code := 5, st := .included } [{ start := 5000, len := 64, ty := 0x10, path := 0, owner := 5 }], by decide +kernel⟩,
   ⟨.a, frm 0x10 [1, 0, 0, 0], { net0 with wins := [{ start := 5000, len := 64, ty := 0x10, path := 0, owner := 5 }] }, { code := 5, st := .included }, stmp { code := 5, st := .included } [{ start := 5000, len := 64, ty := 0x10, path := 0, owner := 5 }], by decide +kernel⟩,
   ⟨0, { sfd := 220000, fin := 221000 }, frm 0x30 (List.replicate 16 0), { net0 with wins := [] }, (State.judge ((let s : State := stmp { code := 5, st := .included }; s.onBr 0 fun b => { b with g := .open_ })) net0 0 { sfd := 220000, fin := 221000 } (frm 0x30 (List.replicate 16 0))).2, (let s : State := stmp { code := 5, st := .included }; s.onBr 0 fun b => { b with g := .open_ }), 1024, by decide +kernel⟩,
   ⟨0, { sfd := 220000, fin := 221000 }, frm 0x30 (List.replicate 16 0), { net0 with wins := [] }, 1024, (let s : State := stmp { code := 5, st := .included }; s.onBr 0 fun b => { b with g := .open_ }), by decide +kernel⟩,
   ⟨0, { sfd := 10000, fin := 11000 }, frm 0x30 (List.replicate 16 0), { net0 with wins := [] }, (State.judge ((let s : State := stmp { code := 5, st := .included }; s.onBr 0 fun b => { b with g := .open_ })) net0 0 { sfd := 10000, fin := 11000 } (frm 0x30 (List.replicate 16 0))).2, (let s : State := stmp { code := 5, st := .included }; s.onBr 0 fun b => { b with g := .open_ }), by decide +kernel⟩,
   ⟨0, { sfd := 10000, fin := 11000 }, frm 0x30 (List.replicate 16 0), { net0 with wins := [] }, (let s : State := stmp { code := 5, st := .included }; s.onBr 0 fun b => { b with g := .becalmed }), by decide +kernel⟩,
   ⟨.a, frm 0x30 (List.replicate 16 0), stmp { code := 5, st := .included }, by decide +kernel⟩,
   ⟨.a, frm 0x40 ([2, 7, 0, 128] ++ List.replicate 12 0), { net0 with wins := [] }, { code := 5, tag := 7, obj := 0x8000, ofs := 0, write := false, count := 48, why := .identity, sentN := some 60 }, (let s : State := stmp { code := 5, st := .included }; { s with net := { s.net with reqs := [{ code := 5, tag := 7, obj := 0x8000, ofs := 0, write := false, count := 48, why := .identity, sentN := some 60 }] } }), by decide +kernel⟩,
   ⟨.a, frm 0x40 ([2, 6, 0, 128] ++ List.replicate 12 0), { net0 with wins := [] }, (let s : State := stmp { code := 5, st := .included }; { s with net := { s.net with reqs := [{ code := 5, tag := 7, obj := 0x8000, ofs := 0, write := false, count := 48, why := .identity, sentN := some 60 }] } }), by decide +kernel⟩,
   ⟨.a, frm 0x40 ([2, 7, 5, 128, 0, 0, 0, 0, 64, 0] ++ List.replicate 66 0), { net0 with wins := [] }, { code := 5, tag := 7, obj := 0x8005, ofs := 0, write := false, count := 64, why := .counters, sentN := some 60 }, { code := 5, st := .included }, (let s : State := stmp { code := 5, st := .included }; { s with net := { s.net with reqs := [{ code := 5, tag := 7, obj := 0x8005, ofs := 0, write := false, count := 64, why := .counters, sentN := some 60 }] } }), by decide +kernel⟩,
   ⟨.a, 99, frm 0x40 ([2, 0, 3, 128, 0, 0, 0, 0, 44, 0] ++ List.replicate 46 0), stmp { code := 5, st := .included }, by decide +kernel⟩,
   ⟨99, frm 0x40 ([2, 0, 3, 128, 0, 0, 0, 0, 44, 0] ++ List.replicate 46 0), (let s : State := stmp { code := 5, st := .included }; { s with pair := { s.pair with own := false, drive := false, role := .standby } }), by decide +kernel⟩⟩

theorem stationTimersComplete_met :
    (∃ (b : Fin 16) (tag : Nat) (r : CfgReq) (s : State), overdue s b tag = some r ∧ s.holder = true ∧ r.why.inclusion = true) ∧
    (∃ (b : Fin 16) (tag : Nat) (r : CfgReq) (s : State), overdue s b tag = some r ∧ r.why = .counters) ∧
    (∃ (b : Fin 16) (tag : Nat) (r : CfgReq) (s : State), overdue s b tag = some r ∧ s.holder = true ∧ r.why.inclusion = false ∧ r.why ≠ .counters) ∧
    (∃ (b : Fin 16) (tag : Nat) (r : CfgReq) (s : State), overdue s b tag = some r ∧ s.holder = false) ∧
    (∃ (code : Nat) (x : StnM) (s : State), s.stnAt code = some x ∧ s.holder = true ∧ x.since + 256 ≤ s.cyc.n ∧ (x.st = .refused ∨ (x.st = .absent ∧ (x.da.held = true ∨ x.db.held = true)))) ∧
    (∃ (code : Nat) (x : StnM) (s : State), s.stnAt code = some x ∧ s.holder = true ∧ x.since + 256 ≤ s.cyc.n ∧ x.st = .refused) ∧
    (∃ (code : Nat) (x : StnM) (s : State), s.stnAt code = some x ∧ s.holder = true ∧ x.st = .joining ∧ x.checked = true ∧ 16 ≤ x.waited) ∧
    (∃ (s : State), s.holder = true ∧ s.cyc.running = true ∧ s.pollDue = true) ∧
    (∃ (s : State), s.holder = true ∧ s.cyc.running = true ∧ s.pollDue = false) ∧
    (∃ (x : StnM) (s : State), s.holder = true ∧ s.cyc.running = true ∧ s.pollDue = true ∧ x ∈ s.stnM ∧ x.st = .included) ∧
    (∃ (code st : Nat) (w : Bool) (miss good losses refusal : Nat) (s : State), s.holder = false ∧ s.linked = true ∧ ((SSt.ofCode st = .lost ∧ w = true → ∀ x, s.stnAt code = some x → x.st = .lost))) ∧
    (∃ (code st miss good losses refusal : Nat) (x : StnM) (s : State), s.holder = false ∧ s.linked = true ∧ SSt.ofCode st = .lost ∧ s.stnAt code = some x ∧ x.st ≠ .lost) ∧
    (∃ (i late : Nat) (f : Frame) (c : NetCfg) (w : WinEnt) (s : State), s.net.cfg = some c ∧ c.wins[i]? = some w ∧ s.holder = false ∧ s.linked = true ∧ s.cyc.running = true ∧ late ≤ 3000) ∧
    (∃ (i late : Nat) (f : Frame) (c : NetCfg) (w : WinEnt) (s : State), s.net.cfg = some c ∧ c.wins[i]? = some w ∧ s.holder = false ∧ s.linked = true ∧ s.cyc.running = true ∧ 3000 < late) ∧
    (∃ (i late : Nat) (f : Frame) (c : NetCfg) (a : Nat) (s : State), s.net.cfg = some c ∧ c.wins[i]? = none ∧ s.holder = false ∧ s.linked = true ∧ s.cyc.running = true ∧ a = s.cfgStart c (codeBranch f.addr.toNat) ∧ a + frameNs f.length + 500 ≤ c.t) ∧
    (∃ (c : Cmd) (s b : State) (cfg : NetCfg) (x : StnM) (k : State), b = begun s 0x0082 c 0 (c.inlZero 2) ∧ passes s 0x0082 c 0 (c.inlZero 2) = true ∧ b.primary = true ∧ b.holder = true ∧ b.net.cfg = some cfg ∧ c.inf 0 2 < 1024 ∧ (cfg.parOf (c.inf 0 2)).isSome = true ∧ b.stnAt (c.inf 0 2) = some x ∧ x.st = .returned ∧ k = ((b.onStnM (c.inf 0 2) fun y => { y with wasLost := false }).moveStn (c.inf 0 2) fun y => { y with st := .included, since := b.cyc.n, withheld := false }).recordBy 0x0503 (srcOf 5 (c.inf 0 2)) [] (b.partyOf c) false) ∧
    (∃ (c : Cmd) (s b : State) (cfg : NetCfg) (x : StnM), b = begun s 0x0082 c 0 (c.inlZero 2) ∧ passes s 0x0082 c 0 (c.inlZero 2) = true ∧ b.primary = true ∧ b.holder = true ∧ b.net.cfg = some cfg ∧ c.inf 0 2 < 1024 ∧ (cfg.parOf (c.inf 0 2)).isSome = true ∧ b.stnAt (c.inf 0 2) = some x ∧ x.st = .refused) ∧
    (∃ (c : Cmd) (s b : State) (cfg : NetCfg) (x : StnM), b = begun s 0x0082 c 0 (c.inlZero 2) ∧ passes s 0x0082 c 0 (c.inlZero 2) = true ∧ b.primary = true ∧ b.holder = true ∧ b.net.cfg = some cfg ∧ c.inf 0 2 < 1024 ∧ (cfg.parOf (c.inf 0 2)).isSome = true ∧ b.stnAt (c.inf 0 2) = some x ∧ x.st ≠ .returned ∧ x.st ≠ .refused) ∧
    (∃ (c : Cmd) (s b : State) (cfg : NetCfg), b = begun s 0x0082 c 0 (c.inlZero 2) ∧ passes s 0x0082 c 0 (c.inlZero 2) = true ∧ b.primary = true ∧ b.holder = false ∧ b.net.cfg = some cfg ∧ c.inf 0 2 < 1024 ∧ (cfg.parOf (c.inf 0 2)).isSome = true) ∧
    (∃ (c : Cmd) (s b : State), b = begun s 0x0082 c 0 (c.inlZero 2) ∧ passes s 0x0082 c 0 (c.inlZero 2) = true ∧ b.primary = true ∧ 1024 ≤ c.inf 0 2) :=
  ⟨⟨0, 7, { code := 5, tag := 7, obj := 0x8000, ofs := 0, write := false, count := 48, why := .identity, sentN := some 0 }, (let s : State := stmp { code := 5, st := .included }; { s with net := { s.net with reqs := [{ code := 5, tag := 7, obj := 0x8000, ofs := 0, write := false, count := 48, why := .identity, sentN := some 0 }] } }), by decide +kernel⟩,
   ⟨0, 7, { code := 5, tag := 7, obj := 0x8000, ofs := 0, write := false, count := 48, why := .counters, sentN := some 0 }, (let s : State := stmp { code := 5, st := .included }; { s with net := { s.net with reqs := [{ code := 5, tag := 7, obj := 0x8000, ofs := 0, write := false, count := 48, why := .counters, sentN := some 0 }] } }), by decide +kernel⟩,
   ⟨0, 7, { code := 5, tag := 7, obj := 0x8000, ofs := 0, write := false, count := 48, why := .delays, sentN := some 0 }, (let s : State := stmp { code := 5, st := .included }; { s with net := { s.net with reqs := [{ code := 5, tag := 7, obj := 0x8000, ofs := 0, write := false, count := 48, why := .delays, sentN := some 0 }] } }), by decide +kernel⟩,
   ⟨0, 7, { code := 5, tag := 7, obj := 0x8000, ofs := 0, write := false, count := 48, why := .identity, sentN := some 0 }, (let s : State := stmp { code := 5, st := .included }; { s with net := { s.net with reqs := [{ code := 5, tag := 7, obj := 0x8000, ofs := 0, write := false, count := 48, why := .identity, sentN := some 0 }] }, pair := { prim.pair with role := .standby, own := false, drive := false, other := true, lanes := 3, auth := true } }), by decide +kernel⟩,
   ⟨5, { code := 5, st := .refused }, (let s : State := stmp { code := 5, st := .refused }; { s with cyc := { s.cyc with n := 300 } }), by decide +kernel⟩,
   ⟨5, { code := 5, st := .refused }, (let s : State := stmp { code := 5, st := .refused }; { s with cyc := { s.cyc with n := 300 } }), by decide +kernel⟩,
   ⟨5, { code := 5, st := .joining, checked := true, waited := 16 }, (let s : State := stmp { code := 5, st := .joining, checked := true, waited := 16 }; { s with cyc := { s.cyc with n := 300 } }), by decide +kernel⟩,
   ⟨(let s : State := stmp { code := 5, st := .included }; { s with net := { s.net with pollN := none } }), by decide +kernel⟩,
   ⟨(let s : State := stmp { code := 5, st := .included }; { s with net := { s.net with pollN := some 60 } }), by decide +kernel⟩,
   ⟨{ code := 5, st := .included }, (let s : State := stmp { code := 5, st := .included }; { s with net := { s.net with pollN := none } }), by decide +kernel⟩,
   ⟨5, 4, true, 1, 2, 3, 0, { { pairp with pair := { pairp.pair with role := .standby, own := false, drive := false, other := true } } with stnM := [{ code := 5, st := .included }] }, by decide +kernel, by decide +kernel, (fun h => absurd h.1 (by decide +kernel))⟩,
   ⟨5, 6, 1, 2, 3, 0, { code := 5, st := .included }, { { pairp with pair := { pairp.pair with role := .standby, own := false, drive := false, other := true } } with stnM := [{ code := 5, st := .included }] }, by decide +kernel⟩,
   ⟨0, 2000, frm 0x20 [1, 0, 0, 0], { net0 with wins := [{ start := 160000, len := 800, ty := 0x20, path := 16, owner := 5 }] }, { start := 160000, len := 800, ty := 0x20, path := 16, owner := 5 }, (let s : State := stmp { code := 5, st := .included } [{ start := 160000, len := 800, ty := 0x20, path := 16, owner := 5 }]; { s with cyc := { s.cyc with n := 300 }, pair := { prim.pair with role := .standby, own := false, drive := false, other := true, lanes := 3, auth := true } }), by decide +kernel⟩,
   ⟨0, 3001, frm 0x20 [1, 0, 0, 0], { net0 with wins := [{ start := 160000, len := 800, ty := 0x20, path := 16, owner := 5 }] }, { start := 160000, len := 800, ty := 0x20, path := 16, owner := 5 }, (let s : State := stmp { code := 5, st := .included } [{ start := 160000, len := 800, ty := 0x20, path := 16, owner := 5 }]; { s with cyc := { s.cyc with n := 300 }, pair := { prim.pair with role := .standby, own := false, drive := false, other := true, lanes := 3, auth := true } }), by decide +kernel⟩,
   ⟨9, 3001, frm 0x40 [0, 7, 0, 128, 0, 0, 0, 0, 4, 0, 0, 0], { net0 with wins := [] }, _, (let s : State := stmp { code := 5, st := .included }; { s with pair := { prim.pair with role := .standby, own := false, drive := false, other := true, lanes := 3, auth := true } }), by decide +kernel, by decide +kernel, (by decide +kernel), by decide +kernel, by decide +kernel, rfl, by decide +kernel⟩,
   ⟨hc [5], asks 0x0082 (hc [5]) (stmp { code := 5, st := .returned }), _, { net0 with wins := [] }, { code := 5, st := .returned }, _, rfl, by decide +kernel, by decide +kernel, (by decide +kernel), by decide +kernel, by decide +kernel, (by decide +kernel), by decide +kernel, by decide +kernel, rfl⟩,
   ⟨hc [5], asks 0x0082 (hc [5]) (stmp { code := 5, st := .refused }), _, { net0 with wins := [] }, { code := 5, st := .refused }, rfl, by decide +kernel⟩,
   ⟨hc [5], asks 0x0082 (hc [5]) (stmp { code := 5, st := .included }), _, { net0 with wins := [] }, { code := 5, st := .included }, rfl, by decide +kernel⟩,
   ⟨hc [5], asks 0x0082 (hc [5]) ((let s : State := stmp { code := 5, st := .refused }; { s with pair := { s.pair with own := false } })), _, { net0 with wins := [] }, rfl, by decide +kernel⟩,
   ⟨hc [0, 4], asks 0x0082 (hc [0, 4]) (stmp { code := 5, st := .included }), _, rfl, by decide +kernel⟩⟩

theorem stationTimeCompletes_met :
    (∃ (code : Nat) (ch : Side) (f : Frame) (ok : Bool) (ofs : Int) (x : Stn) (s : State), x = (s.station code).advance (syncDec f.payload f.sched) (s.wholeSched (s.station code)) ∧ f.ftype = 0x01 ∧ f.length = 48 ∧ f.crcOk = true ∧ x.judge f 48 = .take) ∧
    (∃ (code : Nat) (ch : Side) (f : Frame) (ofs : Int) (x : Stn) (p : SyncContent) (s : State), x = s.station code ∧ x.nst = .listen ∧ x.judge f 48 = .take ∧ f.ftype = 0x01 ∧ (x.ch ch).sync = some p ∧ syncNext p (syncDec f.payload f.sched) = true) ∧
    (∃ (code : Nat) (ch : Side) (f : Frame) (x : Stn) (s : State), x = s.station code ∧ f.ftype = 0x02 ∧ x.judge f 32 = .take) ∧
    (∃ (code : Nat) (ch : Side) (f : Frame) (x : Stn) (s : State), x = s.station code ∧ f.ftype = 0x02 ∧ x.judge f 32 = .take ∧ x.nst = .listen) ∧
    (∃ (code : Nat) (ch : Side) (f : Frame) (x : Stn) (s : State), x = s.station code ∧ f.ftype = 0x02 ∧ x.judge f 32 = .take ∧ x.nst ≠ .listen ∧ (x.ch ch.other).integrated = false) ∧
    (∃ (code : Nat) (ch : Side) (f : Frame) (x : Stn) (s : State), x = s.station code ∧ f.ftype = 0x02 ∧ x.judge f 32 = .take ∧ x.nst ≠ .listen ∧ (x.ch ch.other).integrated = true) ∧
    (∃ (code : Nat) (x : Stn) (s : State), x = s.station code ∧ x.nst = .listen) ∧
    (∃ (code : Nat) (x : Stn) (s : State), x = s.station code ∧ x.nst ≠ .listen ∧ x.missesNow = true) ∧
    (∃ (code : Nat) (x : Stn) (s : State), x = s.station code ∧ x.nst ≠ .listen ∧ x.missesNow = false) ∧
    (∃ (code : Nat) (x : Stn) (s : State), x = s.station code ∧ x.nst ≠ .listen ∧ x.missesNow = true ∧ x.a.got = false ∧ x.b.got = false ∧ 3 ≤ x.dark) ∧
    (∃ (code : Nat) (retains : Bool) (x : Stn) (s : State), x = s.station code) :=
  ⟨⟨5, .a, syncF 65, true, 3, _, stp { code := 5, a := { sync := some (syncN 64) } }, rfl, by decide +kernel⟩,
   ⟨5, .a, syncF 65, 3, _, syncN 64, stp { code := 5, a := { sync := some (syncN 64) } }, rfl, by decide +kernel⟩,
   ⟨5, .a, { ftype := 0x02, sched := 1, addr := 0x8000, length := 32, payload := List.replicate 32 0 }, _, stp stn5, rfl, by decide +kernel⟩,
   ⟨5, .a, { ftype := 0x02, sched := 1, addr := 0x8000, length := 32, payload := List.replicate 32 0 }, _, stp { code := 5 }, rfl, by decide +kernel⟩,
   ⟨5, .a, { ftype := 0x02, sched := 1, addr := 0x8000, length := 32, payload := List.replicate 32 0 }, _, stp stn5, rfl, by decide +kernel⟩,
   ⟨5, .a, { ftype := 0x02, sched := 1, addr := 0x8000, length := 32, payload := List.replicate 32 0 }, _, stp ({ (stn5 : Stn) with b := { integrated := true, pdDown := some 100, pdUp := some 100 } }), rfl, by decide +kernel⟩,
   ⟨5, _, live, rfl, by decide +kernel⟩,
   ⟨5, _, stp { (stn5 : Stn) with a := { integrated := true }, missDone := false }, rfl, by decide +kernel⟩,
   ⟨5, _, stp { (stn5 : Stn) with missDone := true }, rfl, by decide +kernel⟩,
   ⟨5, _, stp { (stn5 : Stn) with a := { integrated := false }, dark := 3 }, rfl, by decide +kernel⟩,
   ⟨5, true, _, stp stn5, rfl⟩⟩

theorem stationOutputsComplete_met :
    (∃ (code : Nat) (ch : Side) (f : Frame) (w : WinEnt) (x : Stn) (s : State), x = s.station code ∧ outWin x code f = some w ∧ f.addr.toNat = code ∧ x.judge f w.len = .take ∧ f.ftype = 0x20) ∧
    (∃ (code : Nat) (ch : Side) (f : Frame) (x : Stn) (s : State), x = s.station code ∧ f.addr.toNat ≠ code ∧ x.judge f x.maxLen = .pass) ∧
    (∃ (code : Nat) (ch : Side) (f : Frame) (x : Stn) (s : State), x = s.station code ∧ f.addr.toNat ≠ code ∧ x.judge f x.maxLen = .pass) ∧
    (∃ (code : Nat) (ch : Side) (f : Frame) (w : WinEnt) (x : Stn) (s : State), x = s.station code ∧ outWin x code f = some w ∧ f.addr.toNat = code ∧ x.judge f w.len = .take ∧ f.ftype = 0x20 ∧ x.partsN = x.n ∧ (x.parts.any (·.num = f.part)) = false) ∧
    (∃ (code : Nat) (x : Stn) (s : State), x = s.station code ∧ x.outStream = none) ∧
    (∃ (code : Nat) (x : Stn) (b : List Byte) (fl : BitVec 16) (s : State), x = s.station code ∧ x.outStream = some (b, fl) ∧ BitVec.getLsbD fl 2 = true) ∧
    (∃ (code : Nat) (x : Stn) (b : List Byte) (fl : BitVec 16) (s : State), x = s.station code ∧ x.outStream = some (b, fl) ∧ BitVec.getLsbD fl 2 = false) ∧
    (∃ (code : Nat) (ch : Side) (i : Nat) (w : WinEnt) (f : Frame) (x : Stn) (s : State), x = s.station code ∧ x.wins[i]? = some w ∧ x.judge f w.len = .take ∧ f.ftype = 0x21 ∧ w.ty = 0x21 ∧ w.down = true ∧ w.serves x.n = true ∧ x.acts.contains (i, f.part) = false) ∧
    (∃ (code : Nat) (ch : Side) (i : Nat) (w : WinEnt) (f : Frame) (x : Stn) (s : State), x = s.station code ∧ x.wins[i]? = some w ∧ x.judge f (if w.down then w.len else x.maxLen) = .take ∧ f.ftype = 0x21 ∧ x.acts.contains (i, f.part) = true) ∧
    (∃ (code : Nat) (p : Point) (e : ActEnt) (x : Stn) (s : State), x = s.station code ∧ nextEnt p x.queue = some e) ∧
    (∃ (code : Nat) (p : Point) (e : ActEnt) (x : Stn) (s : State), x = s.station code ∧ nextEnt p x.queue = some e ∧ e.point = p ∧ x.safe = false) ∧
    (∃ (code : Nat) (p : Point) (e : ActEnt) (x : Stn) (s : State), x = s.station code ∧ nextEnt p x.queue = some e ∧ x.safe = true) ∧
    (∃ (code : Nat) (h : List Byte) (x : Stn) (s : State), x = s.station code ∧ alook 0x8004 x.objs = some h ∧ x.wdOn = true ∧ field h 0 2 ≤ x.wdt) :=
  ⟨⟨5, .a, frm 0x20 [5, 0, 0, 0], { start := 160000, len := 64, ty := 0x20, path := 16, owner := 5 }, _, stp (stn5 (winB 160000 64 0x20 16 5)), rfl, by decide +kernel⟩,
   ⟨5, .a, { (frm 0x20 [5, 0, 0, 0]) with addr := 7 }, _, stp (stn5 (winB 160000 64 0x20 16 5)), rfl, by decide +kernel⟩,
   ⟨5, .a, { (frm 0x20 [5, 0, 0, 0]) with addr := 7 }, _, stp (stn5 (winB 160000 64 0x20 16 5)), rfl, by decide +kernel⟩,
   ⟨5, .a, frm 0x20 [5, 0, 0, 0], { start := 160000, len := 64, ty := 0x20, path := 16, owner := 5 }, _, stp { stn5 (winB 160000 64 0x20 16 5) with partsN := 64 }, rfl, by decide +kernel⟩,
   ⟨5, _, stp stn5, rfl, by decide +kernel⟩,
   ⟨5, _, [5], 4, stp ({ (stn5 : Stn) with parts := [{ num := 0, last := 0, bytes := [5], flags := 4 }], partsN := 63 }), rfl, by decide +kernel⟩,
   ⟨5, _, [5], 0, stp ({ (stn5 : Stn) with parts := [{ num := 0, last := 0, bytes := [5], flags := 0 }], partsN := 63 }), rfl, by decide +kernel⟩,
   ⟨5, .a, 0, { start := 160000, len := 64, ty := 0x21, path := 16, owner := 5 }, frm 0x21 (List.replicate 16 0), _, stp (stn5 (winB 160000 64 0x21 16 5)), rfl, by decide +kernel⟩,
   ⟨5, .a, 0, { start := 160000, len := 64, ty := 0x21, path := 16, owner := 5 }, frm 0x21 (List.replicate 16 0), _, stp { stn5 (winB 160000 64 0x21 16 5) with acts := [(0, 0)] }, rfl, by decide +kernel⟩,
   ⟨5, 0xA80001, { point := 0xA80001, value := 1, time := 16000500, seq := 7 }, _, stp { (stn5 : Stn) with queue := [{ point := 0xA80001, value := 1, time := 16000500, seq := 7 }], safe := false }, rfl, by decide +kernel⟩,
   ⟨5, 0xA80001, { point := 0xA80001, value := 1, time := 16000500, seq := 7 }, _, stp { (stn5 : Stn) with queue := [{ point := 0xA80001, value := 1, time := 16000500, seq := 7 }], safe := false }, rfl, by decide +kernel⟩,
   ⟨5, 0xA80001, { point := 0xA80001, value := 1, time := 16000500, seq := 7 }, _, stp { (stn5 : Stn) with queue := [{ point := 0xA80001, value := 1, time := 16000500, seq := 7 }], safe := true }, rfl, by decide +kernel⟩,
   ⟨5, le 2 4 ++ le 2 0, _, stp { (stn5 : Stn) with objs := [(0x8000, idn), (0x8004, le 2 4 ++ le 2 0)], wdOn := true, wdt := 4, queue := [{ point := 0xA80001, value := 1, time := 16000500, seq := 7 }] }, rfl, by decide +kernel⟩⟩

theorem stationSendingCompletes_met :
    (∃ (code : Nat) (ch : Side) (f : Frame) (x : Stn) (s : State), x = s.station code ∧ x.judge f x.maxLen = .take ∧ f.ftype = 0x40 ∧ 12 ≤ f.length) ∧
    (∃ (code : Nat) (ch : Side) (f : Frame) (x y : Stn) (d : List Byte) (s : State), x = s.station code ∧ y = x.countDown ch .take ∧ x.judge f x.maxLen = .take ∧ f.ftype = 0x40 ∧ 12 ≤ f.length ∧ field f.payload 0 1 = 0 ∧ field f.payload 2 2 ≠ 0x8002 ∧ y.object ch (field f.payload 2 2) = some d ∧ field f.payload 4 4 + field f.payload 8 2 ≤ d.length ∧ 12 + field f.payload 8 2 ≤ y.maxLen ∧ (y.resps.any fun r => r.2.1 = y.n && field r.2.2 1 1 = field f.payload 1 1 && field r.2.2 2 2 = field f.payload 2 2 && field r.2.2 4 4 = field f.payload 4 4) = false) ∧
    (∃ (code : Nat) (ch : Side) (f : Frame) (x : Stn) (s : State), x = s.station code ∧ x.judge f x.maxLen = .take ∧ f.ftype = 0x40 ∧ f.length = 16 ∧ field f.payload 0 1 = 1 ∧ field f.payload 2 2 = 0x8004 ∧ field f.payload 4 4 = 0 ∧ field f.payload 8 2 = 4 ∧ f.payload.length = 16 ∧ x.resps = [] ∧ alook 0x8004 x.objs = none) ∧
    (∃ (code : Nat) (ch : Side) (dev : Int) (x : Stn) (b : List Byte) (fl : Nat) (k s : State), x = s.station code ∧ x.nst = .synced ∧ x.quiet = false ∧ (x.ch ch).integrated = true ∧ x.inWins ≠ [] ∧ (x.up.any fun u => u.ch = ch && u.f.ftype = 0x10 && u.f.addr.toNat = code) = false ∧ s.inStream x dev = ((b, fl), k)) ∧
    (∃ (code : Nat) (ch : Side) (dev : Int) (w : WinEnt) (pd : Nat) (x : Stn) (s : State), x = s.station code ∧ x.nst = .synced ∧ x.quiet = false ∧ (x.ch ch).integrated = true ∧ x.inWins = [w] ∧ x.up = [] ∧ (x.ch ch).pdUp = some pd) ∧
    (∃ (code : Nat) (ch : Side) (at_ : Nat) (x : Stn) (r : Side × Nat × List Byte) (s : State), x = s.station code ∧ arbFree x ch at_ = true ∧ respDue x ch at_ = some r) ∧
    (∃ (code : Nat) (ch : Side) (at_ : Nat) (x : Stn) (s : State), x = s.station code ∧ arbFree x ch at_ = true ∧ respDue x ch at_ = none ∧ x.reportDue ch = true ∧ arbFits x ch at_ 56 = true) ∧
    (∃ (code : Nat) (ch : Side) (at_ : Nat) (x : Stn) (e : List (List Byte)) (l : List (Option Side × List Byte)) (s : State), x = s.station code ∧ arbFree x ch at_ = true ∧ respDue x ch at_ = none ∧ x.reportDue ch = false ∧ takeEvts ch x.evtRoom x.evts = (e, l) ∧ e ≠ [] ∧ arbFits x ch at_ (16 * e.length) = true) ∧
    (∃ (code : Nat) (ch : Side) (seen : Seen) (f : Frame) (x : Stn) (s : State), x = (s.station code).hear ch seen.fin ∧ x.nst = .coarse ∧ x.inWide seen.sfd = true ∧ (x.ch ch).g = .open_) ∧
    (∃ (code : Nat) (ch : Side) (seen : Seen) (f : Frame) (x : Stn) (s : State), x = s.station code ∧ x.nst = .coarse ∧ x.inWide seen.sfd = true ∧ (x.ch ch).g = .open_ ∧ f.crcOk = true ∧ seen.sfd + x.arb + 2 * pdMax 63 < x.t) ∧
    (∃ (code : Nat) (ch : Side) (seen : Seen) (f : Frame) (x : Stn) (v : Pass) (s : State), x = (s.station code).hear ch seen.fin ∧ x.nst = .synced ∧ (x.ch ch).held = true ∧ (x.ch ch).upD ≠ [] ∧ guardSure x ch seen f v) ∧
    (∃ (code : Nat) (ch : Side) (seen : Seen) (f : Frame) (x : Stn) (v : Pass) (s k : State) (g : Nat), x = (s.station code).hear ch seen.fin ∧ x.nst = .synced ∧ (x.ch ch).held = true ∧ (x.ch ch).upD = [] ∧ s.drawNat = (g, k) ∧ x.judgeUp ((x.ch ch).pdUp.getD 0 + g % 401) guardNs seen f = v ∧ x.judgeUp ((x.ch ch).pdUp.getD 0 + g % 401) (guardNs + 8) seen f = v) ∧
    (∃ (code : Nat) (ch : Side) (seen : Seen) (f : Frame) (room : Nat) (x : Stn) (s : State), x = (s.station code).hear ch seen.fin ∧ x.nst = .synced ∧ (x.ch ch).held = true ∧ (x.ch ch).upD ≠ [] ∧ guardSure x ch seen f (.go false room) ∧ (x.ch ch).g = .open_ ∧ f.crcOk = true) ∧
    (∃ (code : Nat) (ch : Side) (seen : Seen) (f : Frame) (x : Stn) (s : State), x = (s.station code).hear ch seen.fin ∧ x.nst = .synced ∧ (x.ch ch).held = true ∧ (x.ch ch).upD ≠ [] ∧ guardSure x ch seen f .refused ∧ (x.ch ch).g = .open_) ∧
    (∃ (code : Nat) (ch : Side) (seen : Seen) (f : Frame) (x : Stn) (v : Pass) (s : State), x = (s.station code).hear ch seen.fin ∧ x.nst = .synced ∧ (x.ch ch).held = true ∧ (x.ch ch).upD ≠ [] ∧ guardSure x ch seen f v ∧ (x.ch ch).g = .becalmed) :=
  ⟨⟨5, .a, frm 0x40 [0, 7, 0, 128, 4, 0, 0, 0, 8, 0, 0, 0], _, stp stn5, rfl, by decide +kernel⟩,
   ⟨5, .a, frm 0x40 [0, 7, 0, 128, 4, 0, 0, 0, 8, 0, 0, 0], _, _, idn, stp stn5, rfl, rfl, by decide +kernel⟩,
   ⟨5, .a, frm 0x40 [1, 7, 4, 128, 0, 0, 0, 0, 4, 0, 0, 0, 4, 0, 0, 0], _, stp stn5, rfl, by decide +kernel⟩,
   ⟨5, .a, 0, _, (State.inStream (stp (stn5 (winB 5000 64 0x10 0 5))) (State.station (stp (stn5 (winB 5000 64 0x10 0 5))) 5) 0).1.1, (State.inStream (stp (stn5 (winB 5000 64 0x10 0 5))) (State.station (stp (stn5 (winB 5000 64 0x10 0 5))) 5) 0).1.2, (State.inStream (stp (stn5 (winB 5000 64 0x10 0 5))) (State.station (stp (stn5 (winB 5000 64 0x10 0 5))) 5) 0).2, stp (stn5 (winB 5000 64 0x10 0 5)), rfl, by decide +kernel, by decide +kernel, (by decide +kernel), by decide +kernel, by decide +kernel, rfl⟩,
   ⟨5, .a, 0, { start := 5000, len := 64, ty := 0x10, path := 0, owner := 5 }, 100, _, stp (stn5 (winB 5000 64 0x10 0 5)), rfl, by decide +kernel⟩,
   ⟨5, .a, 210000, _, (.a, 60, [2, 7, 0, 128, 0, 0, 0, 0, 0, 0, 0, 0]), stp { (stn5 : Stn) with resps := [(.a, 60, [2, 7, 0, 128, 0, 0, 0, 0, 0, 0, 0, 0])] }, rfl, by decide +kernel⟩,
   ⟨5, .a, 210000, _, stp stn5, rfl, by decide +kernel⟩,
   ⟨5, .a, 210000, _, [List.replicate 16 0], [], stp (let x : Stn := stn5; { x with a := { x.a with repN := some 64 }, evts := [(none, List.replicate 16 0)] }), rfl, by decide +kernel⟩,
   ⟨5, .a, { sfd := 0, fin := 900 }, frm 0x30 (List.replicate 16 0), _, stp { (stn5 : Stn) with nst := .coarse }, rfl, by decide +kernel⟩,
   ⟨5, .a, { sfd := 0, fin := 900 }, frm 0x30 (List.replicate 16 0), _, stp { (stn5 : Stn) with nst := .coarse }, rfl, by decide +kernel⟩,
   ⟨5, .a, { sfd := 210000, fin := 210900 }, frm 0x30 (List.replicate 16 0), _, .go true 1024, stp stn5, rfl, by decide +kernel, by decide +kernel, by decide +kernel, (by unfold guardSure; decide +kernel)⟩,
   ⟨5, .a, { sfd := 210000, fin := 210900 }, frm 0x30 (List.replicate 16 0), _, .go true 1024, stp { stn5 with a := { stn5.a with upD := [] } }, _, _, rfl, by decide +kernel, by decide +kernel, by decide +kernel, rfl, (goArb (by decide +kernel) (by decide +kernel) (by decide +kernel)), (goArb (by decide +kernel) (by decide +kernel) (by decide +kernel))⟩,
   ⟨4, .a, { sfd := 99850, fin := 100000 }, frm 0x10 [1, 0, 0, 0], 64, _, stp { stn5 (winB 100000 64 0x10 0 5) with code := 4 }, rfl, by decide +kernel, by decide +kernel, by decide +kernel, (by unfold guardSure; decide +kernel), by decide +kernel⟩,
   ⟨5, .a, { sfd := 100000, fin := 100900 }, frm 0x30 (List.replicate 16 0), _, stp stn5, rfl, by decide +kernel, by decide +kernel, by decide +kernel, (by unfold guardSure; decide +kernel), by decide +kernel⟩,
   ⟨5, .a, { sfd := 210000, fin := 210900 }, frm 0x30 (List.replicate 16 0), _, .go true 1024, stp (let x : Stn := stn5; { x with a := { x.a with g := .becalmed } }), rfl, by decide +kernel, by decide +kernel, by decide +kernel, (by unfold guardSure; decide +kernel), by decide +kernel⟩⟩

theorem stationsLeaveTheModule_met :
    ∃ (c : Instr) (s t : State), stationCmd c = true ∧ answers c s t :=
  ⟨.stationRestart 5 true, live, _, by decide +kernel, rfl⟩

theorem stepRunsTheFrontCommand_met :
    (∃ (c : Instr) (l : List Instr) (s : State), s.pending = c :: l) ∧
    (∃ (s : State), s.pending = []) :=
  ⟨⟨.watchdogRestart, [.rngFail], { live with pending := [.watchdogRestart, .rngFail] }, by decide +kernel⟩,
   ⟨live, by decide +kernel⟩⟩

theorem memoryStaysCanonical_met :
    (∃ (c : Instr) (s t : State), s.memOk ∧ answers c s t) ∧
    (∃ (s t : State), s.memOk ∧ step s = .next t) :=
  ⟨⟨.rngFail, live, _, (by show memWf _ = true; decide +kernel), rfl⟩,
   ⟨{ live with pending := [.rngFail] }, _, (by show memWf _ = true; decide +kernel), rfl⟩⟩

theorem wordsHoldTheirResidue_met :
    (∃ (v : Int), inRange v = true) ∧
    (∃ (w : Word), wordOk w = true) ∧
    (∃ (w : Word) (k : Fin 64), wordOk w = true) :=
  ⟨⟨-5, by decide +kernel⟩,
   ⟨mkWord (-5), by decide +kernel⟩,
   ⟨mkWord 7, 63, by decide +kernel⟩⟩

theorem calendarValuesAreChecked_met :
    (∃ (c : Cmd) (s b : State), b = begun s 0x0031 c 0 (c.inf 1 1 = 0 && c.inlZero 9) ∧ passes s 0x0031 c 0 (c.inf 1 1 = 0 && c.inlZero 9) = true ∧ c.inf 0 1 = 1 ∧ calValid (c.inf 2 2) (c.inf 4 1) (c.inf 5 1) (c.inf 6 1) (c.inf 7 1) (c.inf 8 1) = false) ∧
    (∃ (c : Cmd) (s b : State), b = begun s 0x0033 c 0 (c.inf 1 1 = 0 && c.inlZero 9) ∧ passes s 0x0033 c 0 (c.inf 1 1 = 0 && c.inlZero 9) = true ∧ c.inf 0 1 = 1 ∧ calValid (c.inf 2 2) (c.inf 4 1) (c.inf 5 1) (c.inf 6 1) (c.inf 7 1) (c.inf 8 1) = false) :=
  ⟨⟨hc ([1, 0] ++ le 2 2100 ++ [2, 29, 0, 0, 0]), asks 0x0031 (hc ([1, 0] ++ le 2 2100 ++ [2, 29, 0, 0, 0])) (live), _, rfl, by decide +kernel⟩,
   ⟨hc ([1, 0] ++ le 2 2031 ++ [4, 31, 0, 0, 0]), asks 0x0033 (hc ([1, 0] ++ le 2 2031 ++ [4, 31, 0, 0, 0])) (live), _, rfl, by decide +kernel⟩⟩

theorem debugResetIsRefusedToALiveHolder_met :
    (∃ (s : State), s.dbgIsOpen = true ∧ s.dbgRight 2 = true ∧ s.resetOk 6 = true ∧ s.holder = true ∧ ((∃ x ∈ s.tasks, (s.taskAt x.num).st ≠ .stopped ∧ (s.taskAt x.num).st ≠ .halted))) ∧
    (∃ (s : State), s.dbgIsOpen = true ∧ s.dbgRight 2 = true ∧ s.resetOk 6 = true ∧ ((s.holder = false ∨ ∀ x ∈ s.tasks, (s.taskAt x.num).st = .stopped ∨ (s.taskAt x.num).st = .halted))) :=
  ⟨⟨(let s : State := (let s : State := splp; s.onTask 3 fun x => { x with st := .idle }); { s with keys := { s.keys with dbgOpen := true, dbgScope := 7 }, pair := { s.pair with own := true, other := false } }), by decide +kernel⟩,
   ⟨{ live with keys := { live.keys with dbgOpen := true, dbgScope := 7 } }, by decide +kernel⟩⟩

theorem privilegeIsChecked_met :
    (∃ (c : Cmd) (s : State), s.keys.life = 2 ∧ s.partyOf c ≠ 2 ∧ deniedTo s 0x0050 c 1 (c.inlZero 0) = true) ∧
    (∃ (c : Cmd) (s : State), s.keys.life = 2 ∧ s.partyOf c ≠ 2 ∧ deniedTo s 0x0041 c 0 (c.inlZero 1) = true) ∧
    (∃ (c : Cmd) (s : State), s.keys.life = 2 ∧ s.partyOf c ≠ 2 ∧ s.partyOf c ≠ 3 ∧ deniedTo s 0x0062 c 0 (c.inlZero 0) = true) ∧
    (∃ (c : Cmd) (s : State), s.keys.life = 2 ∧ s.partyOf c ≠ 2 ∧ deniedTo s 0x0072 c 0 (c.inlZero 0) = true) :=
  ⟨⟨hc [] 8, asks 0x0050 (hc [] 8) ({ live with host := { live.host with sess := [{ num := 7, party := 4, slot := 0, proven := true, src := .queue 1, openedAt := 0 }] } }), by decide +kernel⟩,
   ⟨hc, asks 0x0041 (hc) ({ live with host := { live.host with sess := [{ num := 7, party := 4, slot := 0, proven := true, src := .queue 1, openedAt := 0 }] } }), by decide +kernel⟩,
   ⟨hc, asks 0x0062 (hc) ({ live with host := { live.host with sess := [{ num := 7, party := 4, slot := 0, proven := true, src := .queue 1, openedAt := 0 }] } }), by decide +kernel⟩,
   ⟨hc, asks 0x0072 (hc) ({ live with host := { live.host with sess := [{ num := 7, party := 4, slot := 0, proven := true, src := .queue 1, openedAt := 0 }] } }), by decide +kernel⟩⟩

theorem resetKeepsWhatItMust_met :
    (∃ (s : State) (k : Nat) (t : State), t = State.takeReset s k ∧ s.keys.half = none) ∧
    (∃ (s : State) (k : Nat) (t : State) (x : StateChange), t = State.takeReset s k ∧ s.keys.half = some x) ∧
    (∃ (s : State) (k : Nat) (t : State), t = State.takeReset s k ∧ ¬ (k = 4 ∧ s.chg.handover = 6)) ∧
    (∃ (s t : State), t = State.takeReset s 4 ∧ s.chg.handover = 6) ∧
    (∃ (s : State) (k : Nat) (t : State), t = State.takeReset s k) :=
  ⟨⟨appp, 8, _, rfl, by decide +kernel⟩,
   ⟨{ appp with keys := { appp.keys with half := some { target := 3 } } }, 1, _, { target := 3 }, rfl, by decide +kernel⟩,
   ⟨appp, 4, _, rfl, by decide +kernel⟩,
   ⟨{ appp with chg := { appp.chg with handover := 6 }, host := { appp.host with runs := [{ src := .queue 1, session := 7, cmdId := 1, opcode := 0x0073, party := 2, work := .handover }] } }, _, rfl, by decide +kernel⟩,
   ⟨{ appp with mem := [(16777216, 1)] }, 8, _, rfl⟩⟩

theorem bootCountNeverDecreases_met :
    ∃ (c : Instr) (s t : State), s.keys.boot ≤ 0xFFFFFFFF ∧ answers c s t :=
  ⟨.watchdogExpiry, live, _, by decide +kernel, rfl⟩

theorem calmKeepsItsCause_met :
    ∃ (c : Instr) (s t : State), s.calm.on = true ∧ answers c s t ∧ t.calm.on = true :=
  ⟨.rngFail, { live with calm := { on := true, cause := 2 } }, _, by decide +kernel, rfl, by decide +kernel⟩

theorem nopHasNoEffect_met :
    (∃ (c : Cmd) (s : State), passes s 0x0001 c 0 (c.inlZero 0) = true) ∧
    (∃ (c : Cmd) (s : State), ((∀ q, c.src = .queue q → (s.hq q.val).posted = []))) :=
  ⟨⟨hc, asks 0x0001 (hc) (live), by decide +kernel⟩,
   ⟨hc, live, by decide +kernel⟩⟩

theorem calendarStopsAtItsEnd_met :
    (∃ (s k : State), k = (s.reach (s.rtc.instant (calMax * 32768))).setCal ((calMax : Int) * 1000000000) ∧ s.rtc.ended = false) ∧
    (∃ (s : State), s.rtc.ended = false) :=
  ⟨⟨live, _, rfl, by decide +kernel⟩,
   ⟨live, by decide +kernel⟩⟩

theorem localTimeShiftsByAnHour_met :
    (∃ (c : Cmd) (s : State), s.canBegin 0x0032 c = true ∧ c.inlZero 1 = false) ∧
    (∃ (c : Cmd) (s b : State), b = begun s 0x0032 c 0 (c.inlZero 1) ∧ passes s 0x0032 c 0 (c.inlZero 1) = true ∧ (c.inf 0 1 = 1 ∨ c.inf 0 1 = 2) ∧ b.rtc.dst = decide (c.inf 0 1 = 1)) ∧
    (∃ (c : Cmd) (s b : State), b = begun s 0x0032 c 0 (c.inlZero 1) ∧ passes s 0x0032 c 0 (c.inlZero 1) = true ∧ (c.inf 0 1 = 1 ∨ c.inf 0 1 = 2) ∧ b.rtc.dst = decide (c.inf 0 1 = 2)) ∧
    (∃ (c : Cmd) (s b : State), b = begun s 0x0032 c 0 (c.inlZero 1) ∧ passes s 0x0032 c 0 (c.inlZero 1) = true ∧ (c.inf 0 1 = 1 ∨ c.inf 0 1 = 2) ∧ b.rtc.dst = decide (c.inf 0 1 = 2)) :=
  ⟨⟨hc [1, 1], asks 0x0032 (hc [1, 1]) (live), by decide +kernel⟩,
   ⟨hc [1], asks 0x0032 (hc [1]) ({ live with rtc := { live.rtc with dst := true } }), _, rfl, by decide +kernel⟩,
   ⟨hc [1], asks 0x0032 (hc [1]) (live), _, rfl, by decide +kernel⟩,
   ⟨hc [2], asks 0x0032 (hc [2]) ({ live with rtc := { live.rtc with dst := true } }), _, rfl, by decide +kernel⟩⟩

theorem alarmsAreArmedAndDisarmed_met :
    (∃ (c : Cmd) (s : State), s.canBegin 0x0033 c = true ∧ c.inf 1 1 ≠ 0) ∧
    (∃ (c : Cmd) (s : State), s.canBegin 0x0033 c = true ∧ c.inf 1 1 ≠ 0) ∧
    (∃ (c : Cmd) (s b : State) (x : Nat), b = begun s 0x0033 c 0 (c.inf 1 1 = 0 && c.inlZero 9) ∧ passes s 0x0033 c 0 (c.inf 1 1 = 0 && c.inlZero 9) = true ∧ c.inf 0 1 = 1 ∧ calValid (c.inf 2 2) (c.inf 4 1) (c.inf 5 1) (c.inf 6 1) (c.inf 7 1) (c.inf 8 1) = true ∧ x = calSec (c.inf 2 2) (c.inf 4 1) (c.inf 5 1) (c.inf 6 1) (c.inf 7 1) (c.inf 8 1) ∧ b.rtc.localSec b.clk.now < (x : Int) ∧ 0 ≤ (x : Int) - b.rtc.localOfs ∧ (x : Int) - b.rtc.localOfs ≤ calMax) ∧
    (∃ (c : Cmd) (s b : State) (x : Nat), b = begun s 0x0033 c 0 (c.inf 1 1 = 0 && c.inlZero 9) ∧ passes s 0x0033 c 0 (c.inf 1 1 = 0 && c.inlZero 9) = true ∧ c.inf 0 1 = 1 ∧ x = calSec (c.inf 2 2) (c.inf 4 1) (c.inf 5 1) (c.inf 6 1) (c.inf 7 1) (c.inf 8 1) ∧ (calValid (c.inf 2 2) (c.inf 4 1) (c.inf 5 1) (c.inf 6 1) (c.inf 7 1) (c.inf 8 1) = false ∨ (x : Int) - b.rtc.localOfs < 0 ∨ (calMax : Int) < (x : Int) - b.rtc.localOfs ∨ (x : Int) ≤ b.rtc.localSec b.clk.now)) ∧
    (∃ (c : Cmd) (s b : State), b = begun s 0x0033 c 0 (c.inlZero 1) ∧ passes s 0x0033 c 0 (c.inlZero 1) = true ∧ c.inf 0 1 = 0 ∧ b.rtc.armed = true) ∧
    (∃ (c : Cmd) (s b : State), b = begun s 0x0033 c 0 (c.inlZero 1) ∧ passes s 0x0033 c 0 (c.inlZero 1) = true ∧ c.inf 0 1 = 0 ∧ b.rtc.armed = false) :=
  ⟨⟨hc [1, 1], asks 0x0033 (hc [1, 1]) (live), by decide +kernel⟩,
   ⟨hc [0, 1], asks 0x0033 (hc [0, 1]) (live), by decide +kernel⟩,
   ⟨hc [1, 0, 0xD0, 7, 1, 2], asks 0x0033 (hc [1, 0, 0xD0, 7, 1, 2]) (live), _, _, rfl, by decide +kernel, by decide +kernel, by decide +kernel, rfl, by decide +kernel⟩,
   ⟨hc [1, 0, 0xD0, 7, 2, 30], asks 0x0033 (hc [1, 0, 0xD0, 7, 2, 30]) (live), _, _, rfl, by decide +kernel, by decide +kernel, rfl, by decide +kernel⟩,
   ⟨hc [0], asks 0x0033 (hc [0]) ({ live with rtc := { live.rtc with armed := true } }), _, rfl, by decide +kernel⟩,
   ⟨hc [0], asks 0x0033 (hc [0]) (live), _, rfl, by decide +kernel⟩⟩

end Sys2Proof.Tests
end

section
/-! The commands at a station leave the module alone (00 R4, 06, 07). The module's part of a state is what remains once the stations, the
model's clock and its count of free values are blanked; every operation of Machine/Stations.lean keeps that part, so a command composed of
them keeps it too. -/

namespace Sys2Proof.Machine
open Sys2Proof

/-! ## The module's part of a state -/

/-- The state without its stations, the model's clock and the count of free values. -/
def State.modulePart (s : State) : State := { s with stn := [], clk := {}, free := 0 }

/-- Equal module parts are what a frame over stations, clock and free values asks for. -/
theorem State.eq_with_of_modulePart_eq {s t : State} (h : t.modulePart = s.modulePart) :
    t = { s with stn := t.stn, clk := t.clk, free := t.free } :=
  congrArg (fun m : State => { m with stn := t.stn, clk := t.clk, free := t.free }) h

/-- Every next state that the outcome gives has the module's part of `s`. -/
def KeepsModule (s : State) (o : Host.Outcome State Fault Refusal) : Prop := ∀ t, o = .next t → t.modulePart = s.modulePart

@[simp] theorem keepsModule_next (s t : State) : KeepsModule s (.next t) ↔ t.modulePart = s.modulePart := by
  simp [KeepsModule]

/-! ## What the operations on stations keep of it -/

@[simp] theorem State.reachNet_modulePart (s : State) (t : Nat) : (s.reachNet t).modulePart = s.modulePart := by
  simp [State.modulePart]

@[simp] theorem State.onStn_modulePart (s : State) (code : Nat) (f : Stn → Stn) : (s.onStn code f).modulePart = s.modulePart := by
  simp [State.modulePart]

@[simp] theorem State.setStn_modulePart (s : State) (x : Stn) : (s.setStn x).modulePart = s.modulePart := by
  simp [State.modulePart]

@[simp] theorem State.stnTake_modulePart (s : State) (code : Nat) (ch : Side) (f : Frame) (room : Nat) (x : Stn) (act : Stn → Stn) :
    (s.stnTake code ch f room x act).modulePart = s.modulePart := by
  simp [State.modulePart]

@[simp] theorem State.drawNat_modulePart (s : State) : s.drawNat.2.modulePart = s.modulePart := by
  simp [State.modulePart]

@[simp] theorem State.drawFwd_modulePart (s : State) (code : Nat) (ch : Side) (up : Bool) :
    (s.drawFwd code ch up).2.modulePart = s.modulePart := by
  simp [State.modulePart]

@[simp] theorem State.drawBits_modulePart (k : Nat) (s : State) : (s.drawBits k).2.modulePart = s.modulePart := by
  induction k generalizing s with
  | zero => rfl
  | succ k ih => simp [State.drawBits, ih]

@[simp] theorem State.drawBytes_modulePart (k : Nat) (s : State) : (s.drawBytes k).2.modulePart = s.modulePart := by
  induction k generalizing s with
  | zero => rfl
  | succ k ih => simp [State.drawBytes, ih]

@[simp] theorem State.drawEnc_modulePart (k i : Nat) (s : State) : (s.drawEnc k i).2.modulePart = s.modulePart := by
  induction k generalizing i s with
  | zero => rfl
  | succ k ih => simp [State.drawEnc, ih]

@[simp] theorem State.drawFault_modulePart (s : State) (x : Stn) : (s.drawFault x).2.modulePart = s.modulePart := by
  unfold State.drawFault
  dsimp only
  (repeat' split) <;> simp

@[simp] theorem State.formIn_modulePart (s : State) (x : Stn) (dev : Int) : (s.formIn x dev).2.modulePart = s.modulePart := by
  simp [State.formIn]

@[simp] theorem State.inStream_modulePart (s : State) (x : Stn) (dev : Int) : (s.inStream x dev).2.modulePart = s.modulePart := by
  unfold State.inStream
  (repeat' split) <;> simp

@[simp] theorem State.passUp_modulePart (s : State) (x : Stn) (ch : Side) (arb : Bool) (room : Nat) (seen : Seen) (f : Frame) (cut : Bool) :
    (s.passUp x ch arb room seen f cut).modulePart = s.modulePart := by
  unfold State.passUp
  dsimp only
  (repeat' split) <;> simp

@[simp] theorem State.guarded_modulePart (s : State) (x : Stn) (ch : Side) (seen : Seen) (f : Frame) (v : Pass) :
    (s.guarded x ch seen f v).modulePart = s.modulePart := by
  unfold State.guarded
  split <;> simp

/-! ## The commands with branches

Each branch leaves the state as it is or ends in the operations above. -/

theorem execStationActRx_keepsModule (code : Nat) (ch : Side) (win : Nat) (f : Frame) (s : State) :
    KeepsModule s (execStationActRx code ch win f s) := by
  unfold execStationActRx
  dsimp only
  split <;> simp

theorem execStationActInstant_keepsModule (code : Nat) (p : Point) (s : State) : KeepsModule s (execStationActInstant code p s) := by
  unfold execStationActInstant
  dsimp only
  split <;> simp

theorem execStationWatchdogExpiry_keepsModule (code : Nat) (s : State) : KeepsModule s (execStationWatchdogExpiry code s) := by
  unfold execStationWatchdogExpiry
  dsimp only
  (repeat' split) <;> simp

theorem execStationInSend_keepsModule (code : Nat) (ch : Side) (dev : Int) (s : State) :
    KeepsModule s (execStationInSend code ch dev s) := by
  unfold execStationInSend
  dsimp only
  split <;> simp

theorem execStationArbSend_keepsModule (code : Nat) (ch : Side) (startAt : Nat) (s : State) :
    KeepsModule s (execStationArbSend code ch startAt s) := by
  unfold execStationArbSend
  dsimp only
  (repeat' split) <;> simp

theorem execStationGuardFrame_keepsModule (code : Nat) (ch : Side) (seen : Seen) (f : Frame) (s : State) :
    KeepsModule s (execStationGuardFrame code ch seen f s) := by
  unfold execStationGuardFrame
  dsimp only
  (repeat' split) <;> simp

/-! ## Every command at a station -/

/-- A command that takes a frame or stores its station is one such operation; the others are settled above. -/
theorem exec_keepsModule_of_stationCmd {c : Instr} (hc : stationCmd c = true) (s : State) : KeepsModule s (exec c s) := by
  cases c with
  | stationSyncRx | stationCstartRx | stationOutRx | stationCfgRequest =>
    exact (keepsModule_next _ _).2 (State.stnTake_modulePart ..)
  | stationSyncMissed | stationOutApply | stationRestart =>
    exact (keepsModule_next _ _).2 (State.setStn_modulePart ..)
  | stationActRx code ch win f => exact execStationActRx_keepsModule code ch win f s
  | stationActInstant code point => exact execStationActInstant_keepsModule code point s
  | stationWatchdogExpiry code => exact execStationWatchdogExpiry_keepsModule code s
  | stationInSend code ch latchDev => exact execStationInSend_keepsModule code ch latchDev s
  | stationArbSend code ch startAt => exact execStationArbSend_keepsModule code ch startAt s
  | stationGuardFrame code ch seen f => exact execStationGuardFrame_keepsModule code ch seen f s
  | _ => exact absurd hc Bool.false_ne_true

/-- Settles O44: the command keeps the module's part, so its next state differs in the blanked fields at most. -/
theorem stationsLeaveTheModule : Obligations.StationsLeaveTheModule := by
  intro c s t hc ht
  exact State.eq_with_of_modulePart_eq (exec_keepsModule_of_stationCmd hc s t ht)

end Sys2Proof.Machine
end

section
/-! What is stored in memory is what is read back (01 R24): one equation for every operation that writes a run, zeroes a range or copies
one. The canonical form of the list (log entry 65) is what makes the first entry found under an address the only one. -/

namespace Sys2Proof.Machine
open Sys2Proof

/-! ## A run of bytes -/

/-- After a store of a run, its own addresses read its bytes and every other address reads as before. -/
theorem memGet_memPut (bs : List Byte) (m : List Host.Cell) (a x : Nat) (h : memWf m = true) :
    memGet (memPut m a bs) x = if a ≤ x ∧ x < a + bs.length then bs.getD (x - a) 0 else memGet m x := by
  induction bs generalizing m a with
  | nil => simp [memPut, show ¬(a ≤ x ∧ x < a) by omega]
  | cons b bs ih =>
    rw [memPut, ih _ _ (memWf_memSet m a b h), memGet_memSet m a x b h]
    by_cases hx : x = a
    · subst hx
      simp
    · by_cases hr : a + 1 ≤ x ∧ x < a + 1 + bs.length
      · have hs : x - a = x - (a + 1) + 1 := by omega
        rw [if_pos hr, if_pos (by simp only [List.length_cons]; omega), hs, List.getD_cons_succ]
      · rw [if_neg hr, if_neg hx, if_neg (by simp only [List.length_cons]; omega)]

/-! ## Dropping and moving entries -/

/-- Entries dropped by their address alone leave the other addresses as they were. -/
theorem memGet_filter_address (q : Nat → Bool) (m : List Host.Cell) (x : Nat) :
    memGet (m.filter fun c => q c.1) x = if q x then memGet m x else 0 := by
  induction m with
  | nil => simp
  | cons c m ih =>
    obtain ⟨i, b⟩ := c
    by_cases hi : i = x
    · subst hi
      cases hq : q i <;> simp_all [memGet]
    · cases hq : q i <;> simp_all [memGet]

/-- After a range is zeroed, it reads zero and the rest reads as before. -/
theorem memGet_memClear (m : List Host.Cell) (a k x : Nat) :
    memGet (memClear m a k) x = if a ≤ x ∧ x < a + k then 0 else memGet m x := by
  rw [memClear, memGet_filter_address fun y => y < a || a + k ≤ y]
  by_cases h : a ≤ x ∧ x < a + k
  · rw [if_pos h, if_neg (by simp; omega)]
  · rw [if_neg h, if_pos (by simp; omega)]

/-- Entries moved from base `a` to base `b`. -/
def memMove (m : List Host.Cell) (a b : Nat) : List Host.Cell := m.map fun c => (c.1 - a + b, c.2)

/-- A move of entries that all lie at or above the old base keeps the canonical form. -/
theorem memWf_memMove (m : List Host.Cell) (a b : Nat) (ha : ∀ c ∈ m, a ≤ c.1) (h : memWf m = true) : memWf (memMove m a b) = true := by
  induction m with
  | nil => rfl
  | cons c m ih =>
    obtain ⟨i, v⟩ := c
    obtain ⟨hv, hl, hm⟩ := (memWf_cons i v m).mp h
    have hi : a ≤ i := ha _ List.mem_cons_self
    refine (memWf_cons _ _ _).mpr ⟨hv, fun d hd => ?_, ih (fun c hc => ha c (List.mem_cons_of_mem _ hc)) hm⟩
    obtain ⟨e, he, rfl⟩ := List.mem_map.mp hd
    have := hl e he
    simp only
    omega

/-- What was read at an address is read at the address moved with it; below the new base nothing is listed. -/
theorem memGet_memMove (m : List Host.Cell) (a b x : Nat) (ha : ∀ c ∈ m, a ≤ c.1) :
    memGet (memMove m a b) x = if b ≤ x then memGet m (x - b + a) else 0 := by
  induction m with
  | nil => simp [memMove]
  | cons c m ih =>
    obtain ⟨i, v⟩ := c
    have hi : a ≤ i := ha _ List.mem_cons_self
    have ih := ih fun c hc => ha c (List.mem_cons_of_mem _ hc)
    simp only [memMove, List.map_cons, memGet] at ih ⊢
    by_cases hx : i - a + b = x
    · rw [if_pos hx, if_pos (by omega), if_pos (by omega)]
    · rw [if_neg hx, ih]
      by_cases hb : b ≤ x
      · rw [if_pos hb, if_pos hb, if_neg (by omega)]
      · rw [if_neg hb, if_neg hb]

/-! ## Copying -/

/-- The cells taken from a range are the entries of the range, moved. -/
theorem memTake_eq_memMove (m : List Host.Cell) (a k b : Nat) :
    memTake m a k b = memMove (m.filter fun c => a ≤ c.1 && c.1 < a + k) a b := rfl

theorem le_of_mem_range (m : List Host.Cell) (a k : Nat) : ∀ c ∈ m.filter fun c => a ≤ c.1 && c.1 < a + k, a ≤ c.1 := by
  intro c hc
  have := (List.mem_filter.mp hc).2
  simp only [Bool.and_eq_true, decide_eq_true_eq] at this
  exact this.1

theorem memWf_memTake (m : List Host.Cell) (a k b : Nat) (h : memWf m = true) : memWf (memTake m a k b) = true :=
  memWf_memMove _ a b (le_of_mem_range m a k) (memWf_filter _ m h)

/-- The cells taken from a range read, from the new base on, as the range does; elsewhere nothing is listed. -/
theorem memGet_memTake (m : List Host.Cell) (a k b x : Nat) :
    memGet (memTake m a k b) x = if b ≤ x ∧ x < b + k then memGet m (x - b + a) else 0 := by
  rw [memTake_eq_memMove, memGet_memMove _ a b x (le_of_mem_range m a k),
    memGet_filter_address fun y => a ≤ y && y < a + k]
  by_cases hb : b ≤ x
  · by_cases hk : x < b + k
    · rw [if_pos hb, if_pos (by simp; omega), if_pos ⟨hb, hk⟩]
    · rw [if_pos hb, if_neg (by simp; omega), if_neg (by omega)]
  · rw [if_neg hb, if_neg (by omega)]

/-- Cells in canonical form, stored one after the other, are read where they are listed; elsewhere memory reads as before. -/
theorem memGet_memCells (cs m : List Host.Cell) (x : Nat) (hc : memWf cs = true) (h : memWf m = true) :
    memGet (memCells m cs) x = if memGet cs x = 0 then memGet m x else memGet cs x := by
  induction cs generalizing m with
  | nil => simp [memCells]
  | cons c cs ih =>
    obtain ⟨i, b⟩ := c
    obtain ⟨hb, hl, hcs⟩ := (memWf_cons i b cs).mp hc
    rw [memCells, ih _ hcs (memWf_memSet m i b h), memGet_memSet m i x b h, memGet]
    by_cases hx : x = i
    · subst hx
      rw [if_pos (memGet_below cs x hl), if_pos rfl, if_pos rfl, if_neg hb]
    · simp [hx, Ne.symm hx]

/-- After a copy, the target range reads as the source range did, and the rest reads as before. -/
theorem memGet_memCopy (m : List Host.Cell) (a b k x : Nat) (h : memWf m = true) :
    memGet (memCopy m a b k) x = if b ≤ x ∧ x < b + k then memGet m (x - b + a) else memGet m x := by
  rw [memCopy, memGet_memCells _ _ x (memWf_memTake m a k b h) (memWf_memClear m b k h), memGet_memTake, memGet_memClear]
  by_cases hr : b ≤ x ∧ x < b + k
  · simp only [if_pos hr]
    split <;> simp_all
  · simp [if_neg hr]

/-- Settles O49: the equations above, with what Laws/Memory.lean says of the canonical form. -/
theorem memoryReadsBack : Obligations.MemoryReadsBack := by
  refine ⟨fun m a bs h => ⟨memWf_memPut bs m a h, fun i hi => ?_, fun x hx => ?_⟩,
    fun m a k h => ⟨memWf_memClear m a k h, memGet_memClear m a k⟩,
    fun m a b k h => ⟨memWf_memCopy m a b k h, fun x => memGet_memCopy m a b k x h⟩⟩
  · rw [memGet_memPut bs m a _ h, if_pos (by omega), Nat.add_sub_cancel_left]
  · rw [memGet_memPut bs m a x h, if_neg (by omega)]

end Sys2Proof.Machine
end

section
/-! What the operations that write no memory do to it: nothing. In the order of the model's files. -/

namespace Sys2Proof.Machine
open Sys2Proof

/-- A run over a list leaves memory as it is if each of its steps does. -/
@[simp] theorem foldl_mem {α : Type*} (f : State → α → State) (h : ∀ s a, (f s a).mem = s.mem) (l : List α) (s : State) :
    (l.foldl f s).mem = s.mem := foldl_kept (·.mem) f h l s

/-- The same for a run that carries more than the state. -/
theorem foldl_fst_mem {α β : Type*} (f : State × β → α → State × β) (h : ∀ r a, (f r a).1.mem = r.1.mem) (l : List α)
    (r : State × β) : (l.foldl f r).1.mem = r.1.mem := by
  induction l generalizing r with
  | nil => rfl
  | cons a l ih => rw [List.foldl_cons, ih, h]

/-! ## Machine/Ops.lean -/

@[simp] theorem State.tick_mem (s : State) : s.tick.mem = s.mem := by
  unfold State.tick
  simp

@[simp] theorem State.draw_mem (s : State) : (s.draw).2.mem = s.mem := by
  unfold State.draw
  simp

@[simp] theorem State.restLanes_mem (s : State) : s.restLanes.mem = s.mem := by
  unfold State.restLanes
  simp

@[simp] theorem State.startLanes_mem (s : State) : s.startLanes.mem = s.mem := by
  unfold State.startLanes
  simp

@[simp] theorem State.invalL1_mem (s : State) : s.invalL1.mem = s.mem := by
  unfold State.invalL1
  simp

/-! ## Machine/Flags.lean -/

@[simp] theorem State.eraseBlocks_mem (s : State) (p : SetHead → Bool) : (s.eraseBlocks p).mem = s.mem := by
  unfold State.eraseBlocks
  simp

/-! ## Machine/Crypto.lean -/

@[simp] theorem State.passed_mem (s : State) (i : AppImage) : (s.passed i).2.mem = s.mem := by
  unfold State.passed
  split <;> simp

@[simp] theorem State.passImage_mem (s : State) (i : AppImage) : (s.passImage i).mem = s.mem := by
  unfold State.passImage
  simp

@[simp] theorem State.keepSecret_mem (s : State) (i : AppImage) : (s.keepSecret i).mem = s.mem := by
  unfold State.keepSecret
  split <;> simp

/-! ## Machine/Halt.lean -/

@[simp] theorem State.assertVane_mem (s : State) : s.assertVane.mem = s.mem := by
  unfold State.assertVane
  simp

@[simp] theorem State.countFault_mem (s : State) (injected : Bool) : (s.countFault injected).mem = s.mem := by
  unfold State.countFault
  split <;> simp

@[simp] theorem State.faultRecord_mem (s : State) (lane : Nat) (pay : List Byte) (follow : Bool) :
    (s.faultRecord lane pay follow).mem = s.mem := by
  unfold State.faultRecord
  split <;> simp

/-! ## Machine/TrackTable.lean -/

@[simp] theorem State.takeSnapshots_mem (s : State) (standby : Bool) : (s.takeSnapshots standby).mem = s.mem := by
  unfold State.takeSnapshots
  simp

/-! ## Machine/Command.lean -/

@[simp] theorem State.onSess_mem (s : State) (n : Nat) (f : Sess → Sess) : (s.onSess n f).mem = s.mem := by
  unfold State.onSess
  simp

@[simp] theorem State.unknownEnts_mem (k : Nat) (s : State) : (State.unknownEnts k s).2.mem = s.mem := by
  induction k with
  | zero => rfl
  | succ k ih => simp [State.unknownEnts, ih]

@[simp] theorem State.fetchAll_mem (s : State) : s.fetchAll.mem = s.mem := by
  unfold State.fetchAll
  simp

@[simp] theorem State.unqueue_mem (s : State) (op : Nat) (c : Cmd) : (s.unqueue op c).mem = s.mem := by
  unfold State.unqueue
  (repeat' split) <;> simp

@[simp] theorem State.readBuf_mem (s : State) (c : Cmd) (dir : Nat) (inlOk : Bool) : (s.readBuf c dir inlOk).mem = s.mem := by
  unfold State.readBuf
  (repeat' split) <;> simp

@[simp] theorem State.useId_mem (s : State) (op : Nat) (c : Cmd) (dir : Nat) (inlOk : Bool) : (s.useId op c dir inlOk).mem = s.mem := by
  unfold State.useId
  dsimp only
  (repeat' split) <;> simp

@[simp] theorem State.chunkDone_mem (s : State) (r : Run) (done total : Nat) : (s.chunkDone r done total).mem = s.mem := by
  unfold State.chunkDone
  split <;> simp

/-! ## Machine/Force.lean -/

@[simp] theorem State.forceRec_mem (s : State) (c : FChange) (k : Nat) : (s.forceRec c k).mem = s.mem := by
  unfold State.forceRec
  simp

@[simp] theorem State.forceEnds_mem (s : State) (k : Nat) : (s.forceEnds k).mem = s.mem := by
  unfold State.forceEnds
  dsimp only
  split
  · rfl
  · exact (foldl_mem _ (fun s r => by (repeat' split) <;> simp) _ _).trans (by simp)

@[simp] theorem State.forceIdle_mem (s : State) : s.forceIdle.mem = s.mem := by
  unfold State.forceIdle
  split <;> simp

@[simp] theorem State.effectForces_mem (s : State) (out : Bool) : (s.effectForces out).mem = s.mem := by
  unfold State.effectForces
  dsimp only
  (repeat' split) <;> simp

@[simp] theorem State.dropForces_mem (s : State) (p : Force → Bool) (cause : Nat) : (s.dropForces p cause).mem = s.mem := by
  unfold State.dropForces
  dsimp only
  (repeat' split) <;> simp

@[simp] theorem State.orphans_mem (s : State) (img : Option AppImage) : (s.orphans img).mem = s.mem := by
  unfold State.orphans
  simp

@[simp] theorem State.acceptForce_mem (s : State) (p : Point) (v party ver : Nat) : (s.acceptForce p v party ver).mem = s.mem := by
  unfold State.acceptForce
  simp

@[simp] theorem State.acceptReleases_mem (s : State) (hit : Force → Bool) (party ver : Nat) :
    (s.acceptReleases hit party ver).mem = s.mem := by
  unfold State.acceptReleases
  simp

@[simp] theorem releaseWhere_mem (c : Cmd) (sel : Force → Bool) (s : State) : (releaseWhere c sel s).mem = s.mem := by
  unfold releaseWhere
  dsimp only
  (repeat' split) <;> simp

@[simp] theorem releaseOwn_mem (c : Cmd) (pts : List Point) (s : State) : (releaseOwn c pts s).mem = s.mem := by
  unfold releaseOwn
  (repeat' split) <;> simp

/-! ## Machine/Rtc.lean -/

@[simp] theorem State.netEstablished_mem (s : State) (seeded : Bool) : (s.netEstablished seeded).mem = s.mem := by
  unfold State.netEstablished
  dsimp only
  (repeat' split) <;> simp

@[simp] theorem State.rtcReport_mem (s : State) : (s.rtcReport).2.mem = s.mem := by
  unfold State.rtcReport
  dsimp only
  (repeat' split) <;> simp

/-! ## Machine/Ageing.lean -/

@[simp] theorem State.autoStep_mem (s : State) (kind inst i : Nat) : (s.autoStep kind inst i).mem = s.mem := by
  unfold State.autoStep
  dsimp only
  (repeat' split) <;> simp

@[simp] theorem State.exhaust_mem (s : State) (kind inst i : Nat) : (s.exhaust kind inst i).mem = s.mem := by
  unfold State.exhaust
  dsimp only
  (repeat' split) <;> simp

@[simp] theorem State.propose_mem (s : State) (p : Proposes) : (s.propose p).mem = s.mem := by
  unfold State.propose
  dsimp only
  (repeat' split) <;> simp

@[simp] theorem State.planOne_mem (s : State) (i : Nat) : (s.planOne i).mem = s.mem := by
  unfold State.planOne
  dsimp only
  (repeat' split) <;> simp

/-! ## Machine/LocalIo.lean -/

@[simp] theorem State.outputFault_mem (s : State) (ch code : Nat) : (s.outputFault ch code).mem = s.mem := by
  unfold State.outputFault
  simp

@[simp] theorem State.tripCh_mem (s : State) (ch code : Nat) : (s.tripCh ch code).mem = s.mem := by
  unfold State.tripCh
  dsimp only
  (repeat' split) <;> simp

@[simp] theorem State.tripMask_mem (s : State) (group : Side) (v : Word) : (s.tripMask group v).mem = s.mem := by
  simp [State.tripMask, apply_ite State.mem]

@[simp] theorem State.installLio_mem (s : State) (b : List LioCfg) : (s.installLio b).mem = s.mem := by
  unfold State.installLio
  rw [(State.switches_frame _).2.2.2.2.2.2.2.2.2.2.2.2.2.2.2.2.2.2.2.2.1]
  exact foldl_mem _ (fun s ch => by dsimp only; (repeat' split) <;> simp) _ _

@[simp] theorem State.latchLocal_mem (s : State) : s.latchLocal.mem = s.mem := by
  unfold State.latchLocal
  simp

@[simp] theorem State.outLocal_mem (s : State) (n : Nat) : (s.outLocal n).mem = s.mem := by
  unfold State.outLocal
  simp

@[simp] theorem State.outSnapshot_mem (s : State) : s.outSnapshot.mem = s.mem := by
  unfold State.outSnapshot
  simp

@[simp] theorem State.supplyFaults_mem (s : State) : s.supplyFaults.mem = s.mem := by
  simp [State.supplyFaults]

/-! ## Machine/Tracking.lean -/

@[simp] theorem State.unlinkObj_mem (s : State) (n : Nat) : (s.unlinkObj n).mem = s.mem := by
  unfold State.unlinkObj
  (repeat' split) <;> simp

@[simp] theorem State.linkObj_mem (s : State) (o : Obj) (l : List Nat) : (s.linkObj o l).mem = s.mem := by
  unfold State.linkObj
  dsimp only
  (repeat' split) <;> simp

@[simp] theorem State.markTrkDiff_mem (s : State) (old : Trk) : (s.markTrkDiff old).mem = s.mem :=
  foldl_mem _ (fun s k => foldl_mem _ (fun s n => by split <;> simp) _ _) _ _

@[simp] theorem State.dropEvent_mem (s : State) (seg code : Nat) : (s.dropEvent seg code).mem = s.mem := by
  unfold State.dropEvent
  simp

@[simp] theorem State.eventFault_mem (s : State) (seg obj : Nat) : (s.eventFault seg obj).2.mem = s.mem := by
  unfold State.eventFault
  dsimp only
  (repeat' split) <;> simp

@[simp] theorem State.countEvent_mem (s : State) : s.countEvent.mem = s.mem := by
  unfold State.countEvent
  simp

@[simp] theorem State.advanceSeg_mem (s : State) (n still : Nat) (old : Nat → SrcSt) (g : Seg) :
    (s.advanceSeg n still old g).mem = s.mem := by
  unfold State.advanceSeg
  dsimp only
  (repeat' split) <;> simp

@[simp] theorem State.windowAct_mem (s : State) (seg obj : Nat) (e : ActEnt) : (s.windowAct seg obj e).mem = s.mem := by
  unfold State.windowAct
  dsimp only
  (repeat' split) <;> simp

@[simp] theorem State.passWin_mem (s : State) (obj i : Nat) : (s.passWin obj i).mem = s.mem := by
  unfold State.passWin
  simp

@[simp] theorem State.loadOffsets_mem (s : State) (seg : Nat) (l : List Nat) : (s.loadOffsets seg l).mem = s.mem := by
  unfold State.loadOffsets
  split <;> simp

@[simp] theorem State.handTo_mem (s : State) (seg : Nat) (o : Obj) (h : HoCfg) (past : Coded) (time : Nat) :
    (s.handTo seg o h past time).1.mem = s.mem := by
  unfold State.handTo
  dsimp only
  (repeat' split) <;> simp

@[simp] theorem State.leaveTrack_mem (s : State) (obj : Nat) : (s.leaveTrack obj).mem = s.mem := by
  unfold State.leaveTrack
  simp

@[simp] theorem State.markLeft_mem (s : State) : s.markLeft.mem = s.mem := by
  unfold State.markLeft
  simp

@[simp] theorem State.recommit_mem (s : State) : s.recommit.mem = s.mem := by
  unfold State.recommit
  split
  · exact (foldl_mem _ (fun s e => by split <;> simp) _ _).trans (by simp)
  · rfl

@[simp] theorem State.backlogged_mem (s : State) (late : Bool) : (s.backlogged late).mem = s.mem := by
  unfold State.backlogged
  split <;> simp

/-- Where a place is found, the object is linked there. -/
theorem State.place_mem {s t : State} {o : Obj} {g : Seg} {pos : Int} (h : s.place o g pos = .inl t) : t.mem = s.mem := by
  unfold State.place at h
  dsimp only at h
  (repeat' split at h) <;> simp at h
  simp [← h]

@[simp] theorem State.cmdEffect_mem (s : State) (op : Nat) (w : CmdWin) : (s.cmdEffect op w).2.2.mem = s.mem := by
  unfold State.cmdEffect
  dsimp only
  (repeat' split) <;> simp
  · exact State.place_mem ‹_›
  · rw [State.place_mem ‹_›, State.unlinkObj_mem]

@[simp] theorem State.trkGo_mem (s : State) (lane op : Nat) (rsvd : Bool) : (s.trkGo lane op rsvd).mem = s.mem := by
  unfold State.trkGo
  dsimp only
  (repeat' split) <;> simp

/-! ## Machine/Windbreak.lean -/

@[simp] theorem State.violate_mem (s : State) (t : Txn) (reason region addr : Nat) (straddle : Bool) :
    (s.violate t reason region addr straddle).mem = s.mem := by
  unfold State.violate
  (repeat' split) <;> simp

@[simp] theorem State.updateSet_mem (s : State) : s.updateSet.mem = s.mem := by
  unfold State.updateSet
  split <;> simp

@[simp] theorem State.loadSet_mem (s : State) (v : Nat) : (s.loadSet v).mem = s.mem := by
  unfold State.loadSet
  split <;> simp

@[simp] theorem State.rgnWrite_mem (s : State) (r : Fin 64) (reg : Nat) (v : Word) : (s.rgnWrite r reg v).mem = s.mem := by
  unfold State.rgnWrite
  (repeat' split) <;> simp

/-! ## Machine/Recorder.lean -/

@[simp] theorem State.exportCopy_mem (s : State) (r : Run) (upto : Nat) : (s.exportCopy r upto).1.mem = s.mem := by
  unfold State.exportCopy
  (repeat' split) <;> simp

@[simp] theorem State.exportEnd_mem (s : State) (r : Run) (ok : Bool) : (s.exportEnd r ok).mem = s.mem := by
  unfold State.exportEnd
  dsimp only
  (repeat' split) <;> simp

@[simp] theorem State.clearedSpan_mem (s : State) : (s.clearedSpan).2.2.mem = s.mem := by
  unfold State.clearedSpan
  split <;> simp

@[simp] theorem clearOwn_mem (c : Cmd) (action : Nat) (s : State) : (clearOwn c action s).mem = s.mem := by
  unfold clearOwn
  dsimp only
  (repeat' split) <;> simp

@[simp] theorem State.archiveOne_mem (s : State) (r : Rec) : (s.archiveOne r).mem = s.mem := by
  unfold State.archiveOne
  split <;> simp

@[simp] theorem State.flushHold_mem (s : State) : s.flushHold.mem = s.mem := by
  unfold State.flushHold
  dsimp only
  (repeat' split) <;> simp

@[simp] theorem State.serveRing_mem (s : State) : s.serveRing.mem = s.mem := by
  unfold State.serveRing
  split <;> simp

/-! ## Machine/LaneTasks.lean -/

@[simp] theorem State.setLaneCtx_mem (s : State) (l : Nat) (c : Word × Word × Word × Word × Word × Word × Word) :
    (s.setLaneCtx l c).mem = s.mem := by
  unfold State.setLaneCtx
  simp

@[simp] theorem State.preempt_mem (s : State) (l : Nat) (c : Side) (t : TaskCfg) : (s.preempt l c t).mem = s.mem := by
  unfold State.preempt
  simp

@[simp] theorem State.dispatch_mem (s : State) (l : Nat) (c : Side) (t : TaskCfg) : (s.dispatch l c t).mem = s.mem := by
  unfold State.dispatch
  split <;> simp

@[simp] theorem State.curWrite_mem (s : State) (l : Nat) (c : Side) (v : Word) : (s.curWrite l c v).mem = s.mem := by
  unfold State.curWrite
  dsimp only
  (repeat' split) <;> simp

@[simp] theorem State.taskDone_mem (s : State) (l : Nat) (c : Side) (v : Word) : (s.taskDone l c v).mem = s.mem := by
  unfold State.taskDone
  dsimp only
  (repeat' split) <;> simp

/-! ## Machine/Reset.lean -/

@[simp] theorem State.settleCtrl_mem (s : State) : s.settleCtrl.mem = s.mem := by
  unfold State.settleCtrl
  dsimp only
  (repeat' split) <;> simp

@[simp] theorem State.clearedForces_mem (s : State) (gone : List Force) : (s.clearedForces gone).mem = s.mem := by
  unfold State.clearedForces
  simp

/-! ## Machine/HostRings.lean -/

@[simp] theorem State.sqTail_mem (s : State) (q v : Nat) (ents : List SqEnt) : (s.sqTail q v ents).mem = s.mem := by
  unfold State.sqTail
  dsimp only
  (repeat' split) <;> simp

@[simp] theorem State.flushCq_mem (s : State) (q : Nat) : (s.flushCq q).mem = s.mem := by
  unfold State.flushCq
  dsimp only
  split <;> simp

@[simp] theorem State.cqHead_mem (s : State) (q v : Nat) : (s.cqHead q v).mem = s.mem := by
  unfold State.cqHead
  dsimp only
  (repeat' split) <;> simp

@[simp] theorem State.evError_mem (s : State) (reason : Nat) : (s.evError reason).mem = s.mem := by
  unfold State.evError
  simp

@[simp] theorem State.evHead_mem (s : State) (v : Nat) : (s.evHead v).mem = s.mem := by
  unfold State.evHead
  dsimp only
  (repeat' split) <;> simp

@[simp] theorem State.doorbell_mem (s : State) (o v : Nat) : (s.doorbell o v).mem = s.mem := by
  unfold State.doorbell
  (repeat' split) <;> simp

@[simp] theorem State.queueEnable_mem (s : State) : s.queueEnable.mem = s.mem := by
  unfold State.queueEnable
  dsimp only
  (repeat' split) <;> simp

@[simp] theorem State.stopQueue_mem (s : State) (q : Fin 8) : (s.stopQueue q).mem = s.mem := by
  unfold State.stopQueue
  dsimp only
  (repeat' split) <;> simp

@[simp] theorem State.evSettle_mem (s : State) : s.evSettle.mem = s.mem := by
  unfold State.evSettle
  simp

@[simp] theorem State.evDisable_mem (s : State) : s.evDisable.mem = s.mem := by
  unfold State.evDisable
  split <;> simp

@[simp] theorem State.evEnable_mem (s : State) : s.evEnable.mem = s.mem := by
  unfold State.evEnable
  dsimp only
  (repeat' split) <;> simp

@[simp] theorem State.resetWrite_mem (s : State) (k : Nat) : (s.resetWrite k).mem = s.mem := by
  unfold State.resetWrite
  simp

@[simp] theorem State.stopRings_mem (s : State) : s.stopRings.mem = s.mem := by
  unfold State.stopRings
  simp

@[simp] theorem State.pairCtrl_mem (s : State) (v : Word) : (s.pairCtrl v).mem = s.mem := by
  unfold State.pairCtrl
  split <;> simp

@[simp] theorem State.ethApply_mem (s : State) (port : Fin 2) (v : Nat) : (s.ethApply port v).mem = s.mem := by
  simp [State.ethApply, apply_ite State.mem]

/-! ## Machine/Interconnect.lean -/

@[simp] theorem State.hqWrite_mem (s : State) (o : Nat) (v : Word) (f : HQ → HQ) : (s.hqWrite o v f).mem = s.mem := by
  unfold State.hqWrite
  split <;> simp

@[simp] theorem State.evWrite_mem (s : State) (o : Nat) (v : Word) (f : EvRing → EvRing) : (s.evWrite o v f).mem = s.mem := by
  unfold State.evWrite
  dsimp only
  (repeat' split) <;> simp

@[simp] theorem State.ethWrite_mem (s : State) (p : Fin 2) (o : Nat) (v : Word) : (s.ethWrite p o v).mem = s.mem := by
  unfold State.ethWrite
  (repeat' split) <;> simp

@[simp] theorem State.msiWrite_mem (s : State) (o : Nat) (v : Word) : (s.msiWrite o v).mem = s.mem := by
  rw [State.msiWrite]

@[simp] theorem State.write4_mem (s : State) (o : Nat) (v : Word) : (s.write4 o v).mem = s.mem := by
  unfold State.write4
  (repeat' split) <;> simp

@[simp] theorem State.writeLane_mem (s : State) (l : Nat) (c : Side) (o : Nat) (v : Word) : (s.writeLane l c o v).mem = s.mem := by
  unfold State.writeLane
  split <;> simp

@[simp] theorem State.trkWrite_mem (s : State) (l reg : Nat) (v : Word) : (s.trkWrite l reg v).mem = s.mem := by
  unfold State.trkWrite
  split <;> simp

@[simp] theorem State.write20_mem (s : State) (o : Nat) (v : Word) : (s.write20 o v).mem = s.mem := by
  unfold State.write20
  split <;> simp

@[simp] theorem State.actWrite_mem (s : State) (l reg : Nat) (v : Word) : (s.actWrite l reg v).mem = s.mem := by
  unfold State.actWrite
  split <;> simp

@[simp] theorem State.write22_mem (s : State) (o : Nat) (v : Word) : (s.write22 o v).mem = s.mem := by
  unfold State.write22
  split <;> simp

@[simp] theorem State.faultPay_mem (s : State) (lane kind : Nat) (lead : Nat) (item : Nat) (a b : Option Item) (injected : Bool) :
    (s.faultPay lane kind lead item a b injected).2.mem = s.mem := by
  unfold State.faultPay
  simp

@[simp] theorem State.endInject_mem (s : State) (i : Inject) (ok : Bool) (r0 : Nat) : (s.endInject i ok r0).mem = s.mem := by
  unfold State.endInject
  dsimp only
  (repeat' split) <;> simp

@[simp] theorem State.answer_mem (s : State) (d : List Byte) : (s.answer d).mem = s.mem := by
  unfold State.answer
  simp

@[simp] theorem State.breakRes_mem (s : State) (a : Nat) : (s.breakRes a).mem = s.mem := by
  unfold State.breakRes
  simp

@[simp] theorem State.injectAt_mem (s : State) (lane : Nat) (copy : Side) (num : Nat) (i : Item) :
    (s.injectAt lane copy num i).2.mem = s.mem := by
  unfold State.injectAt
  dsimp only
  (repeat' split) <;> simp

@[simp] theorem State.injectRepair_mem (s : State) (lane addr : Nat) : (s.injectRepair lane addr).mem = s.mem := by
  unfold State.injectRepair
  (repeat' split) <;> simp

/-! ## Machine/Mirror.lean -/

@[simp] theorem State.endLull_mem (s : State) : s.endLull.mem = s.mem := by
  unfold State.endLull
  split <;> simp

@[simp] theorem State.shipBlock_mem (s : State) (xfer block : Nat) (lines : List Nat) : (s.shipBlock xfer block lines).mem = s.mem := by
  unfold State.shipBlock
  simp

@[simp] theorem State.shipLines_mem (s : State) (lines : List Nat) : (s.shipLines lines).mem = s.mem := by
  unfold State.shipLines
  simp

@[simp] theorem State.markStale_mem (s : State) : s.markStale.mem = s.mem := by
  unfold State.markStale
  split <;> simp

@[simp] theorem State.cannotClose_mem (s : State) (kib : Nat) : (s.cannotClose kib).mem = s.mem := by
  unfold State.cannotClose
  simp

@[simp] theorem State.shipForces_mem (s : State) : s.shipForces.mem = s.mem := by
  unfold State.shipForces
  split <;> simp

@[simp] theorem State.closeTransfer_mem (s : State) (final : Bool) : (s.closeTransfer final).mem = s.mem := by
  unfold State.closeTransfer
  dsimp only
  (repeat' split) <;> simp

@[simp] theorem State.giveUp_mem (s : State) (kib : Nat) : (s.giveUp kib).mem = s.mem := by
  unfold State.giveUp
  simp

@[simp] theorem State.ackMissed_mem (s : State) (lines : Nat) (final : Bool) : (s.ackMissed lines final).mem = s.mem := by
  unfold State.ackMissed
  dsimp only
  (repeat' split) <;> simp

@[simp] theorem State.engChecked_mem (s : State) (l : List Span) : (s.engChecked l).mem = s.mem := by
  unfold State.engChecked
  dsimp only
  (repeat' split) <;> simp

@[simp] theorem State.rejoinPause_mem (s : State) : s.rejoinPause.mem = s.mem := by
  unfold State.rejoinPause
  simp

@[simp] theorem State.standbySwitch_mem (s : State) : s.standbySwitch.mem = s.mem := by
  unfold State.standbySwitch
  split <;> simp

@[simp] theorem State.becomeCurrent_mem (s : State) : s.becomeCurrent.mem = s.mem := by
  unfold State.becomeCurrent
  dsimp only
  (repeat' split) <;> simp

@[simp] theorem State.takeFinal_mem (s : State) (fin : Option FinalClose) : (s.takeFinal fin).mem = s.mem := by
  unfold State.takeFinal
  split <;> simp

@[simp] theorem State.auditGot_mem (s : State) (got : Nat → Bool) : (s.auditGot got).mem = s.mem := by
  unfold State.auditGot
  simp

@[simp] theorem State.audited_mem (s : State) (ok : Bool) (slice : Nat) : (s.audited ok slice).mem = s.mem := by
  unfold State.audited
  (repeat' split) <;> simp

@[simp] theorem State.blockDiffers_mem (s : State) (xfer block : Nat) : (s.blockDiffers xfer block).mem = s.mem := by
  unfold State.blockDiffers
  dsimp only
  (repeat' split) <;> simp

@[simp] theorem State.shipSnapshot_mem (s : State) (old : List Host.Cell) : (s.shipSnapshot old).mem = s.mem := by
  unfold State.shipSnapshot
  split <;> simp

@[simp] theorem State.keepSent_mem (s : State) (cycle : Nat) : (s.keepSent cycle).mem = s.mem := by
  unfold State.keepSent
  split <;> simp

/-! ## Machine/App.lean -/

@[simp] theorem State.safeChanged_mem (s : State) (old new_ : List PtCfg) : (s.safeChanged old new_).mem = s.mem := by
  unfold State.safeChanged
  simp

@[simp] theorem State.discardHeld_mem (s : State) : s.discardHeld.mem = s.mem := by
  unfold State.discardHeld
  split <;> simp

@[simp] theorem State.bothStaged_mem (s : State) : s.bothStaged.mem = s.mem := by
  unfold State.bothStaged
  (repeat' split) <;> simp

@[simp] theorem State.stageApp_mem (s : State) (recv i : AppImage) : (s.stageApp recv i).mem = s.mem := by
  unfold State.stageApp
  simp

@[simp] theorem State.stageFw_mem (s : State) (i : AppImage) : (s.stageFw i).mem = s.mem := by
  unfold State.stageFw
  simp

@[simp] theorem State.fwStaged_mem (s : State) (r : Run) : (s.fwStaged r).mem = s.mem := by
  unfold State.fwStaged
  split <;> simp

@[simp] theorem State.haltSplit_mem (s : State) : s.haltSplit.mem = s.mem :=
  foldl_mem _ (fun s t => by dsimp only; split <;> simp) _ _

@[simp] theorem State.abandon_mem (s : State) (c : Change) : (s.abandon c).mem = s.mem := by
  unfold State.abandon
  dsimp only
  (repeat' split) <;> simp

@[simp] theorem State.changeTracking_mem (s : State) (b : AppBody) : (s.changeTracking b).mem = s.mem := by
  unfold State.changeTracking
  (repeat' split) <;> simp

@[simp] theorem State.changeForces_mem (s : State) (c : Change) : (s.changeForces c).mem = s.mem := by
  unfold State.changeForces
  simp

@[simp] theorem State.dropRel_mem (s : State) (n : Nat) : (s.dropRel n).mem = s.mem := by
  unfold State.dropRel
  simp

@[simp] theorem State.changeTasks_mem (s : State) (old new_ : List TaskCfg) : (s.changeTasks old new_).mem = s.mem := by
  unfold State.changeTasks
  simp

@[simp] theorem State.fromQueue_mem (s : State) (t : TaskCfg) : (s.fromQueue t).mem = s.mem := by
  unfold State.fromQueue
  (repeat' split) <;> simp

@[simp] theorem State.readyBackground_mem (s : State) : s.readyBackground.mem = s.mem := by
  simp [State.readyBackground, apply_ite State.mem]

@[simp] theorem State.appStart_mem (s : State) : s.appStart.mem = s.mem := by
  unfold State.appStart
  simp

/-! ## Machine/Firmware.lean -/

@[simp] theorem State.markTrial_mem (s : State) : s.markTrial.mem = s.mem := by
  unfold State.markTrial
  simp

@[simp] theorem State.handoverOrder_mem (s : State) : s.handoverOrder.mem = s.mem := by
  unfold State.handoverOrder
  (repeat' split) <;> simp

@[simp] theorem State.confirmFw_mem (s : State) : s.confirmFw.mem = s.mem := by
  unfold State.confirmFw
  split <;> simp

@[simp] theorem State.fallbackFw_mem (s : State) : s.fallbackFw.mem = s.mem := by
  unfold State.fallbackFw
  simp

@[simp] theorem State.startFails_mem (s : State) : s.startFails.mem = s.mem := by
  unfold State.startFails
  dsimp only
  (repeat' split) <;> simp

/-! ## Machine/NetCfg.lean -/

@[simp] theorem State.storeCfg_mem (s : State) (c : NetCfg) : (s.storeCfg c).mem = s.mem := by
  unfold State.storeCfg
  simp

@[simp] theorem State.dueLio_mem (s : State) (b : List LioCfg) : (s.dueLio b).mem = s.mem := by
  unfold State.dueLio
  simp

@[simp] theorem State.lioTaken_mem (s : State) : s.lioTaken.mem = s.mem := by
  unfold State.lioTaken
  simp

@[simp] theorem State.netReported_mem (s : State) (ok : Bool) : (s.netReported ok).mem = s.mem := by
  unfold State.netReported
  (repeat' split) <;> simp

@[simp] theorem holdNext_mem (c : Cmd) (cfg : NetCfg) (s : State) : (holdNext c cfg s).mem = s.mem := by
  unfold holdNext
  dsimp only
  (repeat' split) <;> simp

@[simp] theorem State.beginSched_mem (s : State) (run cfg : NetCfg) : (s.beginSched run cfg).mem = s.mem := by
  unfold State.beginSched
  simp

@[simp] theorem netNow_mem (c : Cmd) (run cfg : NetCfg) (s : State) : (netNow c run cfg s).mem = s.mem := by
  unfold netNow
  dsimp only
  (repeat' split) <;> simp

/-! ## Machine/Pair.lean -/

@[simp] theorem State.leaveMessage_mem (s : State) : s.leaveMessage.mem = s.mem := by
  unfold State.leaveMessage
  simp

@[simp] theorem State.startRejoin_mem (s : State) : s.startRejoin.mem = s.mem := by
  unfold State.startRejoin
  dsimp only
  (repeat' split) <;> simp

@[simp] theorem State.tellStns_mem (s : State) (p : StnM → Bool) : (s.tellStns p).mem = s.mem := by
  unfold State.tellStns
  simp

@[simp] theorem State.shipBase_mem (s : State) (h : Heartbeat) : (s.shipBase h).mem = s.mem := by
  unfold State.shipBase
  refine (foldl_mem _ (fun s c => by simp) _ _).trans ?_
  simp only [State.send_frame, State.tellStns_mem]
  split <;> split
  · simp
  · exact (foldl_mem _ (fun s x => by split <;> simp) _ _).trans (by simp)
  · simp
  · exact foldl_mem _ (fun s x => by split <;> simp) _ _

@[simp] theorem State.dirtySlice_mem (s : State) : s.dirtySlice.mem = s.mem := by
  unfold State.dirtySlice
  dsimp only
  (repeat' split) <;> simp

@[simp] theorem State.standbyStale_mem (s : State) (h : Heartbeat) : (s.standbyStale h).mem = s.mem := by
  unfold State.standbyStale
  dsimp only
  (repeat' split) <;> simp

@[simp] theorem State.handoverBeat_mem (s : State) (h : Heartbeat) : (s.handoverBeat h).mem = s.mem := by
  unfold State.handoverBeat
  dsimp only
  (repeat' split) <;> simp

@[simp] theorem State.beatPrimary_mem (s : State) (prev : Nat) (h : Heartbeat) : (s.beatPrimary prev h).mem = s.mem := by
  unfold State.beatPrimary
  dsimp only
  (repeat' split) <;> simp

@[simp] theorem State.heldBeat_mem (s : State) (hb : Heartbeat) (leave : Nat) : (s.heldBeat hb leave).mem = s.mem := by
  unfold State.heldBeat
  simp

@[simp] theorem State.issueReset_mem (s : State) : s.issueReset.mem = s.mem := by
  unfold State.issueReset
  split <;> simp

@[simp] theorem State.firstPrimary_mem (s : State) : s.firstPrimary.mem = s.mem := by
  unfold State.firstPrimary
  simp

@[simp] theorem State.takeRole_mem (s : State) : s.takeRole.mem = s.mem := by
  unfold State.takeRole
  (repeat' split) <;> simp

@[simp] theorem State.roleAgain_mem (s : State) : s.roleAgain.mem = s.mem := by
  unfold State.roleAgain
  split <;> simp

@[simp] theorem State.tasksAnew_mem (s : State) (flag : Bool) : (s.tasksAnew flag).mem = s.mem := by
  unfold State.tasksAnew
  simp

@[simp] theorem State.stationsAnew_mem (s : State) : s.stationsAnew.mem = s.mem := by
  unfold State.stationsAnew
  simp

@[simp] theorem State.tellAnew_mem (s : State) : s.tellAnew.mem = s.mem := by
  unfold State.tellAnew
  simp

@[simp] theorem State.voidChange_mem (s : State) : s.voidChange.mem = s.mem := by
  unfold State.voidChange
  (repeat' split) <;> simp

@[simp] theorem State.switchOut_mem (s : State) : s.switchOut.mem = s.mem := by
  unfold State.switchOut
  dsimp only
  (repeat' split) <;> simp

@[simp] theorem State.rejoinCancel_mem (s : State) : s.rejoinCancel.mem = s.mem := by
  unfold State.rejoinCancel
  dsimp only
  (repeat' split) <;> simp

/-! ## Machine/Extract.lean -/

@[simp] theorem State.hifOff_mem (s : State) : s.hifOff.mem = s.mem := by
  unfold State.hifOff
  simp

@[simp] theorem State.flashCommit_mem (s : State) : s.flashCommit.mem = s.mem := by
  unfold State.flashCommit
  simp

/-! ## Machine/Debug.lean -/

@[simp] theorem State.dbgRefuse_mem (s : State) (its : List Nat) : (s.dbgRefuse its).mem = s.mem := by
  unfold State.dbgRefuse
  simp

/-! ## Machine/Lifecycle.lean -/

@[simp] theorem State.lifeRecord_mem (s : State) (target party : Nat) : (s.lifeRecord target party).mem = s.mem := by
  unfold State.lifeRecord
  simp

@[simp] theorem State.lifeBurn_mem (s : State) (x : StateChange) : (s.lifeBurn x).mem = s.mem := by
  unfold State.lifeBurn
  simp

@[simp] theorem keySetDone_mem (c : Cmd) (s : State) : (keySetDone c s).mem = s.mem := by
  unfold keySetDone
  simp

@[simp] theorem closeParty_mem (c : Cmd) (p : Sess → Bool) (s : State) : (closeParty c p s).mem = s.mem := by
  unfold closeParty
  simp

/-! ## Machine/LongOps.lean -/

@[simp] theorem State.cancelRun_mem (s : State) (r : Run) : (s.cancelRun r).mem = s.mem := by
  unfold State.cancelRun
  split <;> simp

@[simp] theorem State.verified_mem (s : State) (r : Run) (checked failed : Nat) (ok : Bool) :
    (s.verified r checked failed ok).mem = s.mem := by
  unfold State.verified
  (repeat' split) <;> simp

@[simp] theorem State.snapCopy_mem (s : State) (r : Run) (b : List Byte) (done : Nat) : (s.snapCopy r b done).mem = s.mem := by
  unfold State.snapCopy
  split <;> simp

@[simp] theorem State.snapDone_mem (s : State) (r : Run) (img : Option (List Byte)) (e : ChunkEnd) : (s.snapDone r img e).mem = s.mem := by
  unfold State.snapDone
  (repeat' split) <;> simp

/-! ## Machine/StationMgr.lean -/

@[simp] theorem State.refuseStn_mem (s : State) (code reason : Nat) : (s.refuseStn code reason).mem = s.mem := by
  unfold State.refuseStn
  (repeat' split) <;> simp

@[simp] theorem State.joinStn_mem (s : State) (c : NetCfg) (code : Nat) (p : StnPar) : (s.joinStn c code p).mem = s.mem := by
  unfold State.joinStn
  simp

@[simp] theorem State.modeDue_mem (s : State) (c : NetCfg) (code : Nat) : (s.modeDue c code).mem = s.mem := by
  unfold State.modeDue
  (repeat' split) <;> simp

@[simp] theorem State.readBack_mem (s : State) (code : Nat) : (s.readBack code).mem = s.mem := by
  unfold State.readBack
  split <;> simp

@[simp] theorem State.countersRead_mem (s : State) (code : Nat) (d : List Byte) : (s.countersRead code d).mem = s.mem := by
  unfold State.countersRead
  split <;> simp

@[simp] theorem State.cfgOk_mem (s : State) (c : NetCfg) (r : CfgReq) (d : List Byte) : (s.cfgOk c r d).mem = s.mem := by
  unfold State.cfgOk
  dsimp only
  (repeat' split) <;> simp

@[simp] theorem State.cfgAnswer_mem (s : State) (c : NetCfg) (r : CfgReq) (p : List Byte) : (s.cfgAnswer c r p).mem = s.mem := by
  unfold State.cfgAnswer
  dsimp only
  (repeat' split) <;> simp

@[simp] theorem State.becalmOver_mem (s : State) (ch : Side) (code l : Nat) : (s.becalmOver ch code l).mem = s.mem := by
  unfold State.becalmOver
  dsimp only
  (repeat' split) <;> simp

@[simp] theorem State.cutOff_mem (s : State) (branch : Nat) : (s.cutOff branch).mem = s.mem := by
  unfold State.cutOff
  dsimp only
  (repeat' split) <;> simp

@[simp] theorem State.guardCut_mem (s : State) (ch : Side) (code pos param : Nat) : (s.guardCut ch code pos param).mem = s.mem := by
  unfold State.guardCut
  split <;> simp

@[simp] theorem State.evtEntry_mem (s : State) (ch : Side) (code : Nat) (e : List Byte) : (s.evtEntry ch code e).mem = s.mem := by
  unfold State.evtEntry
  dsimp only
  (repeat' split) <;> simp

@[simp] theorem State.delaysLost_mem (s : State) (code : Nat) (ch : Side) : (s.delaysLost code ch).mem = s.mem := by
  unfold State.delaysLost
  dsimp only
  (repeat' split) <;> simp

@[simp] theorem State.delayReport_mem (s : State) (ch : Side) (t4 code : Nat) (d : List Byte) :
    (s.delayReport ch t4 code d).mem = s.mem := by
  unfold State.delayReport
  dsimp only
  split <;> simp only [State.measure_frame, State.onStnM_frame, apply_ite State.mem, State.delaysLost_mem, ite_self]

/-! ## Machine/Cycle.lean -/

@[simp] theorem State.passSync_mem (s : State) : s.passSync.mem = s.mem := by
  unfold State.passSync
  dsimp only
  (repeat' split) <;> simp

@[simp] theorem State.leadTo_mem (s : State) (side : Side) (st : Start) (n : Nat) : (s.leadTo side st n).mem = s.mem := by
  unfold State.leadTo
  simp

@[simp] theorem State.timeLost_mem (s : State) : s.timeLost.mem = s.mem := by
  unfold State.timeLost
  simp

@[simp] theorem State.leadStep_mem (s : State) (n : Nat) : (s.leadStep n).1.mem = s.mem := by
  unfold State.leadStep
  (repeat' split) <;> simp

@[simp] theorem State.openBranches_mem (s : State) : s.openBranches.mem = s.mem := by
  unfold State.openBranches
  simp

@[simp] theorem State.lioAtStill_mem (s : State) : s.lioAtStill.mem = s.mem := by
  unfold State.lioAtStill
  (repeat' split) <;> simp

@[simp] theorem State.stnClose_mem (s : State) (c : NetCfg) (x : StnM) : (s.stnClose c x).1.mem = s.mem := by
  simp [State.stnClose, apply_ite State.mem]

@[simp] theorem State.keepLocal_mem (s : State) (l : List InPt) : (s.keepLocal l).mem = s.mem := by
  unfold State.keepLocal
  simp

@[simp] theorem State.forceInputs_mem (s : State) (l : List InPt) : (s.forceInputs l).1.mem = s.mem := by
  unfold State.forceInputs
  dsimp only
  (repeat' split) <;> simp

@[simp] theorem State.copyChecked_mem (s : State) (e : CodeErr) : (s.copyChecked e).mem = s.mem := by
  unfold State.copyChecked
  split <;> simp

@[simp] theorem State.parkIdle_mem (s : State) : s.parkIdle.mem = s.mem := by
  unfold State.parkIdle
  split <;> simp

@[simp] theorem State.forceOutputs_mem (s : State) (l : List OutPt) : (s.forceOutputs l).1.mem = s.mem := by
  unfold State.forceOutputs
  dsimp only
  (repeat' split) <;> simp

@[simp] theorem State.markDiff_mem (s : State) (old : List Host.Cell) (a k : Nat) : (s.markDiff old a k).mem = s.mem := by
  simp [State.markDiff, apply_ite State.mem]

@[simp] theorem State.readyFrame_mem (s : State) (i : Nat) (f : Frame) : (s.readyFrame i f).mem = s.mem := by
  unfold State.readyFrame
  simp

@[simp] theorem State.sendOut_mem (s : State) (c : NetCfg) (x : StnM) : (s.sendOut c x).mem = s.mem := by
  unfold State.sendOut
  dsimp only
  (repeat' split) <;> simp

@[simp] theorem State.placeEntry_mem (s : State) (places : List Place) (e : ActEnt) : (s.placeEntry places e).1.mem = s.mem := by
  unfold State.placeEntry
  dsimp only
  (repeat' split) <;> simp

@[simp] theorem State.placeCancels_mem (s : State) (places : List Place) : (s.placeCancels places).1.mem = s.mem := by
  unfold State.placeCancels
  simp

@[simp] theorem State.sendAct_mem (s : State) (c : NetCfg) : (s.sendAct c).mem = s.mem := by
  unfold State.sendAct
  dsimp only
  split
  · rfl
  · refine (foldl_mem _ (fun s p => by simp) _ _).trans ?_
    refine (foldl_fst_mem _ (fun r e => by simp) _ _).trans ?_
    simp

@[simp] theorem State.forceCame_mem (s : State) (coming : List Point) : (s.forceCame coming).mem = s.mem := by
  unfold State.forceCame
  dsimp only
  (repeat' split) <;> simp

@[simp] theorem State.forceCancels_mem (s : State) (cut : Nat) : (s.forceCancels cut).mem = s.mem := by
  unfold State.forceCancels
  simp

@[simp] theorem State.lullOver_mem (s : State) : s.lullOver.mem = s.mem := by
  unfold State.lullOver
  dsimp only
  (repeat' split) <;> simp

@[simp] theorem State.switchCut_mem (s : State) : s.switchCut.mem = s.mem := by
  unfold State.switchCut
  (repeat' split) <;> simp

@[simp] theorem State.expects_mem (s : State) (w : WinEnt) : (s.expects w).2.mem = s.mem := by
  unfold State.expects
  dsimp only
  (repeat' split) <;> simp

/-! ## Machine/ColdStart.lean -/

@[simp] theorem State.transfer_mem (s : State) (d : Nat) : (s.transfer d).1.mem = s.mem := by
  unfold State.transfer
  dsimp only
  (repeat' split) <;> simp

@[simp] theorem State.contend_mem (s : State) (other : Nat) (joinAt t : Nat) : (s.contend other joinAt t).mem = s.mem := by
  unfold State.contend
  dsimp only
  (repeat' split) <;> simp

@[simp] theorem State.partnerContent_mem (s : State) (p : SyncContent) : (s.partnerContent p).mem = s.mem := by
  unfold State.partnerContent
  dsimp only
  (repeat' split) <;> simp

@[simp] theorem State.lockTo_mem (s : State) (last : Option Nat) (offset : Int) : (s.lockTo last offset).mem = s.mem := by
  unfold State.lockTo
  simp

@[simp] theorem State.seedTime_mem (s : State) : s.seedTime.mem = s.mem := by
  unfold State.seedTime
  (repeat' split) <;> simp

@[simp] theorem State.proposeNet_mem (s : State) (c : NetCfg) : (s.proposeNet c).mem = s.mem := by
  unfold State.proposeNet
  simp

/-! ## Machine/Power.lean -/

@[simp] theorem State.holdupStart_mem (s : State) : s.holdupStart.mem = s.mem := by
  unfold State.holdupStart
  dsimp only
  (repeat' split) <;> simp

@[simp] theorem State.feedLost_mem (s : State) (k : Side) (code : Nat) : (s.feedLost k code).mem = s.mem := by
  unfold State.feedLost
  dsimp only
  (repeat' split) <;> simp

@[simp] theorem State.nextStage_mem (s : State) : s.nextStage.mem = s.mem := by
  unfold State.nextStage
  dsimp only
  (repeat' split) <;> simp

@[simp] theorem State.bkpStart_mem (s : State) (ok : Bool) : (s.bkpStart ok).mem = s.mem := by
  unfold State.bkpStart
  split <;> simp

@[simp] theorem State.releaseReset_mem (s : State) : s.releaseReset.mem = s.mem := by
  unfold State.releaseReset
  split <;> simp

@[simp] theorem State.startRecords_mem (s : State) : s.startRecords.mem = s.mem := by
  unfold State.startRecords
  dsimp only
  (repeat' split) <;> simp

@[simp] theorem State.putSetting_mem (s : State) (v : SetVal) : (s.putSetting v).mem = s.mem := by
  unfold State.putSetting
  split <;> simp

@[simp] theorem State.readBlock_mem (s : State) (id : Nat) : (s.readBlock id).mem = s.mem := by
  unfold State.readBlock
  dsimp only
  (repeat' split) <;> simp

@[simp] theorem State.readSettings_mem (s : State) (bad : List (Nat × Nat × Nat)) : (s.readSettings bad).mem = s.mem := by
  unfold State.readSettings
  dsimp only
  rw [foldl_mem _ State.readBlock_mem]
  split <;> simp

@[simp] theorem State.readKeys_mem (s : State) (newer older : Bool) : (s.readKeys newer older).mem = s.mem := by
  unfold State.readKeys
  (repeat' split) <;> simp

@[simp] theorem State.selfTestFails_mem (s : State) : s.selfTestFails.mem = s.mem := by
  unfold State.selfTestFails
  dsimp only
  (repeat' split) <;> simp

@[simp] theorem State.stopCopies_mem (s : State) (c : Side) : (s.stopCopies c).mem = s.mem :=
  foldl_mem _ (fun s l => by simp) _ _

@[simp] theorem State.leaveDuty_mem (s : State) (leave : Nat) : (s.leaveDuty leave).mem = s.mem := by
  unfold State.leaveDuty
  (repeat' split) <;> simp

@[simp] theorem State.islandStops_mem (s : State) (i : Nat) : (s.islandStops i).mem = s.mem := by
  unfold State.islandStops
  (repeat' split) <;> simp

@[simp] theorem State.clockStops_mem (s : State) (x : ClockSrc) : (s.clockStops x).mem = s.mem := by
  unfold State.clockStops
  dsimp only
  (repeat' split) <;> simp

@[simp] theorem State.scrubCounts_mem (s : State) (bad : Bool) : (s.scrubCounts bad).mem = s.mem := by
  unfold State.scrubCounts
  simp

@[simp] theorem State.rngFails_mem (s : State) : s.rngFails.mem = s.mem := by
  unfold State.rngFails
  simp

/-! ## Machine/Session.lean -/

@[simp] theorem openOwn_mem (c : Cmd) (s : State) : (openOwn c s).mem = s.mem := by
  unfold openOwn
  dsimp only
  (repeat' split) <;> simp

@[simp] theorem proveOwn_mem (c : Cmd) (sigOk : Bool) (shared : Key) (s : State) : (proveOwn c sigOk shared s).mem = s.mem := by
  unfold proveOwn
  dsimp only
  (repeat' split) <;> simp

/-! ## Machine/Stations.lean -/

@[simp] theorem State.drawBits_mem (k : Nat) (s : State) : (State.drawBits k s).2.mem = s.mem := by
  induction k generalizing s with
  | zero => rfl
  | succ k ih => simp [State.drawBits, ih]

@[simp] theorem State.drawBytes_mem (k : Nat) (s : State) : (State.drawBytes k s).2.mem = s.mem := by
  induction k generalizing s with
  | zero => rfl
  | succ k ih => simp [State.drawBytes, ih]

@[simp] theorem State.drawEnc_mem (k i : Nat) (s : State) : (State.drawEnc k i s).2.mem = s.mem := by
  induction k generalizing i s with
  | zero => rfl
  | succ k ih => simp [State.drawEnc, ih]

@[simp] theorem State.drawFault_mem (s : State) (x : Stn) : (s.drawFault x).2.mem = s.mem := by
  unfold State.drawFault
  dsimp only
  (repeat' split) <;> simp

@[simp] theorem State.formIn_mem (s : State) (x : Stn) (latchDev : Int) : (s.formIn x latchDev).2.mem = s.mem := by
  unfold State.formIn
  simp

@[simp] theorem State.inStream_mem (s : State) (x : Stn) (latchDev : Int) : (s.inStream x latchDev).2.mem = s.mem := by
  unfold State.inStream
  (repeat' split) <;> simp

@[simp] theorem State.passUp_mem (s : State) (x : Stn) (ch : Side) (arb : Bool) (room : Nat) (seen : Seen) (f : Frame) (cut : Bool) :
    (s.passUp x ch arb room seen f cut).mem = s.mem := by
  unfold State.passUp
  dsimp only
  (repeat' split) <;> simp

@[simp] theorem State.guarded_mem (s : State) (x : Stn) (ch : Side) (seen : Seen) (f : Frame) (v : Pass) :
    (s.guarded x ch seen f v).mem = s.mem := by
  unfold State.guarded
  split <;> simp

/-! ## Machine/StatusCmd.lean -/

@[simp] theorem State.spanOf_mem (s : State) (l : List Rec) : (s.spanOf l).2.2.mem = s.mem := by
  unfold State.spanOf
  split <;> simp

@[simp] theorem State.sec9_mem (s : State) : (s.sec9).2.mem = s.mem := by
  unfold State.sec9
  simp

@[simp] theorem State.section_mem (s : State) (k : Nat) : (s.section_ k).2.mem = s.mem := by
  unfold State.section_
  split <;> simp

@[simp] theorem State.addSection_mem (x : State × List Byte × Bool) (room k : Nat) : (State.addSection x room k).1.mem = x.1.mem := by
  unfold State.addSection
  dsimp only
  (repeat' split) <;> simp

end Sys2Proof.Machine
end

section
/-! The operations on the state that write memory keep its canonical form: each through `memPut`, `memClear`, `memCopy` and the writes of a
point image, of which Laws/Memory says so. -/

namespace Sys2Proof.Machine
open Sys2Proof

/-- The rules keep the canonical form of memory. -/
abbrev KeepsMem (k : State → State) : Prop := ∀ t, memWf t.mem = true → memWf (k t).mem = true

/-- The same of rules that take something more, such as a held transaction or an element of a list. -/
abbrev KeepsMemOn {α : Type*} (k : State → α → State) : Prop := ∀ t x, memWf t.mem = true → memWf (k t x).mem = true

/-- A run over a list keeps the canonical form if each of its steps does. -/
theorem memWf_foldl_state {α : Type*} (f : State → α → State) (hf : KeepsMemOn f) (l : List α) {s : State} (hm : memWf s.mem = true) :
    memWf (l.foldl f s).mem = true := by
  induction l generalizing s with
  | nil => exact hm
  | cons a l ih => exact ih (hf s a hm)

/-- The same for a run that carries more than the state. -/
theorem memWf_foldl_fst {α β : Type*} (f : State × β → α → State × β) (hf : ∀ r a, memWf r.1.mem = true → memWf (f r a).1.mem = true)
    (l : List α) {r : State × β} (hr : memWf r.1.mem = true) : memWf (l.foldl f r).1.mem = true := by
  induction l generalizing r with
  | nil => exact hr
  | cons a l ih => exact ih (hf r a hr)

/-! ## Machine/Halt.lean -/

@[simp] theorem State.memWf_laySafe {s : State} (hm : memWf s.mem = true) : memWf s.laySafe.mem = true := by
  unfold State.laySafe
  rw [foldl_mem _ fun s p => by simp]
  exact s.memWf_safeImage outImage s.mem hm

@[simp] theorem State.memWf_latchCalm {s : State} (cause : Nat) (follower : Bool) (its : List Nat) (party : Nat)
    (hm : memWf s.mem = true) : memWf (s.latchCalm cause follower its party).mem = true := by
  unfold State.latchCalm
  (repeat' split) <;> simp [hm]

@[simp] theorem State.memWf_reactFault {s : State} (mgt : Bool) (leave : Nat) (hm : memWf s.mem = true) :
    memWf (s.reactFault mgt leave).mem = true := by
  unfold State.reactFault
  dsimp only
  (repeat' split) <;> simp [hm]

@[simp] theorem State.memWf_laneFault {s : State} (lane : Nat) (pay : List Byte) (injected : Bool) (hm : memWf s.mem = true) :
    memWf (s.laneFault lane pay injected).mem = true := by
  unfold State.laneFault
  simp [hm]

@[simp] theorem State.memWf_release {s : State} (r : Rel) (hm : memWf s.mem = true) : memWf (s.release r).mem = true := by
  unfold State.release
  (repeat' split) <;> simp [hm]

@[simp] theorem State.memWf_releaseEvents {s : State} (p : EvSrc → Bool) (bytes : List Byte) (hm : memWf s.mem = true) :
    memWf (s.releaseEvents p bytes).mem = true :=
  memWf_foldl_state _ (fun s a hm => by simp [hm]) _ hm

/-! ## Machine/Command.lean -/

@[simp] theorem State.failedAt_mem (s : State) (op : Nat) (c : Cmd) (d : Nat) : (s.failedAt op c d).mem = s.mem := by
  unfold State.failedAt
  split <;> simp

/-- A host command keeps the canonical form if its own rules do. -/
theorem State.memWf_hostCmdBy {s : State} {k : State → State} (hk : KeepsMem k) (op : Nat) (c : Cmd) (dir : Nat) (inlOk ok : Bool)
    (hm : memWf s.mem = true) : memWf (s.hostCmdBy op c dir inlOk ok k).mem = true := by
  obtain hr | ⟨st, d, -, hr⟩ | hr | hr := s.hostCmdBy_cases op dir c inlOk ok k
  · rw [hr]; exact hm
  · rw [hr]; simp [hm]
  · rw [hr]; simp [hm]
  · rw [hr]; exact hk _ (by simp [hm])

theorem State.memWf_hostCmd {s : State} {k : State → State} (hk : KeepsMem k) (op : Nat) (c : Cmd) (dir : Nat) (inlOk : Bool)
    (hm : memWf s.mem = true) : memWf (s.hostCmd op c dir inlOk k).mem = true :=
  State.memWf_hostCmdBy hk op c dir inlOk _ hm

/-! ## Machine/LocalIo.lean -/

@[simp] theorem State.memWf_setLevel {s : State} (ch : Nat) (high event : Bool) (edge : Nat) (hm : memWf s.mem = true) :
    memWf (s.setLevel ch high event edge).mem = true := by
  unfold State.setLevel
  dsimp only
  (repeat' split) <;> simp [hm]

/-! ## Machine/Tracking.lean -/

@[simp] theorem State.memWf_windowEvent {s : State} (act num obj time : Nat) (hm : memWf s.mem = true) :
    memWf (s.windowEvent act num obj time).mem = true := by
  unfold State.windowEvent
  simp [hm]

@[simp] theorem State.memWf_examine {s : State} (seg i obj : Nat) (hm : memWf s.mem = true) : memWf (s.examine seg i obj).1.mem = true := by
  unfold State.examine
  dsimp only
  (repeat' split) <;> simp [hm]

@[simp] theorem State.memWf_segWindows {s : State} (seg : Nat) (l : List Nat) (hm : memWf s.mem = true) :
    memWf (s.segWindows seg l).mem = true := by
  unfold State.segWindows
  split
  · exact hm
  · exact memWf_foldl_state _ (fun s i hm => memWf_foldl_state _ (fun s o hm => by split <;> simp [hm]) _ hm) _ hm

@[simp] theorem State.memWf_objWindows {s : State} (seg obj k : Nat) (hm : memWf s.mem = true) :
    memWf (s.objWindows seg obj k).mem = true := by
  induction k generalizing s with
  | zero => exact hm
  | succ k ih =>
    unfold State.objWindows
    dsimp only
    (repeat' split) <;> simp [ih, hm]

@[simp] theorem State.memWf_handOver {s : State} (a : Arrivals) (seg obj : Nat) (hm : memWf s.mem = true) :
    memWf (s.handOver a seg obj).1.mem = true := by
  unfold State.handOver
  dsimp only
  (repeat' split) <;> simp [hm]

@[simp] theorem State.memWf_segEvents {s : State} (a : Arrivals) (seg : Nat) (hm : memWf s.mem = true) :
    memWf (s.segEvents a seg).1.mem = true := by
  unfold State.segEvents
  split
  · exact hm
  · split
    · split <;> simp [hm]
    · exact memWf_foldl_fst _ (fun r o hr => by split <;> simp [hr]) _ (by simp [hm])

@[simp] theorem State.memWf_arrive {s : State} (a : Arrivals) (obj k : Nat) (hm : memWf s.mem = true) :
    memWf (s.arrive a obj k).1.mem = true := by
  induction k generalizing s a with
  | zero => exact hm
  | succ k ih =>
    unfold State.arrive
    split
    · exact hm
    · next o _ =>
      have ho : memWf (s.objWindows o.seg obj 1024).mem = true := State.memWf_objWindows _ _ _ hm
      dsimp only
      (repeat' split) <;> simp [ih, ho, hm]

@[simp] theorem State.memWf_trackCommit {s : State} (n : Nat) (w : TrkWork) (hm : memWf s.mem = true) :
    memWf (s.trackCommit n w).mem = true := by
  unfold State.trackCommit
  split
  · exact hm
  · simp only [State.onTrk_frame, State.markLeft_mem]
    refine memWf_foldl_fst _ (fun r o hr => State.memWf_arrive _ _ _ hr) _ ?_
    refine memWf_foldl_fst _ (fun r g hr => State.memWf_segEvents _ _ hr) _ ?_
    simp [apply_ite State.mem, hm]

/-! ## Machine/Windbreak.lean -/

@[simp] theorem State.memWf_storeIn {s : State} (cls : Fin 8) (engine a : Nat) (bs : List Byte) (hm : memWf s.mem = true) :
    memWf (s.storeIn cls engine a bs).mem = true := by
  unfold State.storeIn
  split <;> simp [State.memWf_store, hm]

/-! ## Machine/Reset.lean -/

@[simp] theorem State.memWf_finishChange {s : State} (hm : memWf s.mem = true) : memWf s.finishChange.mem = true := by
  unfold State.finishChange
  split <;> simp [hm]

@[simp] theorem State.memWf_takeReset {s : State} (kind : Nat) (hm : memWf s.mem = true) : memWf (s.takeReset kind).mem = true := by
  have hs : memWf s.settleCtrl.finishChange.mem = true := State.memWf_finishChange (by simpa using hm)
  unfold State.takeReset
  simp only [State.clearedForces_mem, State.record_frame]
  split
  · exact memWf_filter _ _ hs
  · rfl

/-! ## Machine/HostRings.lean -/

@[simp] theorem State.memWf_hifHost {s : State} (hm : memWf s.mem = true) : memWf s.hifHost.mem = true := by
  unfold State.hifHost
  (repeat' split) <;> simp [hm]

@[simp] theorem State.memWf_hifWarm {s : State} (hm : memWf s.mem = true) : memWf s.hifWarm.mem = true := by
  unfold State.hifWarm
  (repeat' split) <;> simp [hm]

/-! ## Machine/Interconnect.lean -/

@[simp] theorem State.memWf_write28 {s : State} (o : Nat) (v : Word) (hm : memWf s.mem = true) : memWf (s.write28 o v).mem = true := by
  unfold State.write28
  (repeat' split) <;> simp [hm]

theorem State.memWf_grantAll {k : State → Held → State} (hk : KeepsMemOn k) (n : Nat) (l : List Held) (s : State)
    (hm : memWf s.mem = true) : memWf (State.grantAll k n l s).mem = true := by
  induction n generalizing l s with
  | zero => exact hm
  | succ n ih =>
    unfold State.grantAll
    split
    · exact hm
    · exact ih _ _ (hk _ _ hm)

theorem State.memWf_openGate {s : State} {k : State → Held → State} (hk : KeepsMemOn k) (hm : memWf s.mem = true) :
    memWf (s.openGate k).mem = true :=
  State.memWf_grantAll hk _ _ _ hm

theorem State.memWf_updateClear {s : State} {k : State → Held → State} (hk : KeepsMemOn k) (hm : memWf s.mem = true) :
    memWf (s.updateClear k).mem = true := by
  unfold State.updateClear
  split
  · exact State.memWf_openGate hk hm
  · exact hm

theorem State.memWf_updateAbort {s : State} {k : State → Held → State} (hk : KeepsMemOn k) (hm : memWf s.mem = true) :
    memWf (s.updateAbort k).mem = true := by
  unfold State.updateAbort
  split
  · simp [State.memWf_openGate hk, hm]
  · exact hm

theorem State.memWf_write8 {s : State} {k : State → Held → State} (hk : KeepsMemOn k) (o : Nat) (v : Word) (hm : memWf s.mem = true) :
    memWf (s.write8 o v k).mem = true := by
  unfold State.write8
  dsimp only
  (repeat' split) <;> simp [State.memWf_updateClear hk, hm]

theorem State.memWf_regWrite {s : State} {k : State → Held → State} (hk : KeepsMemOn k) (slot : Nat) (c : Side) (o : Nat) (v : Word)
    (hm : memWf s.mem = true) : memWf (s.regWrite slot c o v k).mem = true := by
  unfold State.regWrite
  (repeat' split) <;> simp [State.memWf_write8 hk, hm]

@[simp] theorem State.memWf_latchFault {s : State} (lane kind lead item : Nat) (a b : Option Item) (hm : memWf s.mem = true) :
    memWf (s.latchFault lane kind lead item a b).mem = true := by
  unfold State.latchFault
  dsimp only
  (repeat' split) <;> simp [hm]

@[simp] theorem State.memWf_memFault {s : State} (addr cls : Nat) (hm : memWf s.mem = true) : memWf (s.memFault addr cls).mem = true := by
  unfold State.memFault
  dsimp only
  (repeat' split) <;> simp [hm]

@[simp] theorem State.memWf_codeRefuse {s : State} (h : Held) (mem : Bool) (hm : memWf s.mem = true) :
    memWf (s.codeRefuse h mem).mem = true := by
  unfold State.codeRefuse
  (repeat' split) <;> simp [hm]

@[simp] theorem State.memWf_putBytes {s : State} (a : Nat) (d : List Byte) (hm : memWf s.mem = true) :
    memWf (s.putBytes a d).mem = true := by
  unfold State.putBytes
  split <;> simp [State.memWf_store, hm]

@[simp] theorem State.memWf_memAccess {s : State} (h : Held) (hm : memWf s.mem = true) : memWf (s.memAccess h).mem = true := by
  unfold State.memAccess
  dsimp only
  (repeat' split) <;> simp [hm]

theorem State.memWf_slotAccess {s : State} {k : State → Held → State} (hk : KeepsMemOn k) (t : Txn) (slot : Nat)
    (hm : memWf s.mem = true) : memWf (s.slotAccess t slot k).mem = true := by
  unfold State.slotAccess
  dsimp only
  (repeat' split) <;> simp [State.memWf_regWrite hk, hm]

theorem State.memWf_atTarget {s : State} {k : State → Held → State} (hk : KeepsMemOn k) (e : Held) (hm : memWf s.mem = true) :
    memWf (s.atTarget k e).mem = true := by
  unfold State.atTarget
  dsimp only
  (repeat' split) <;> simp [State.memWf_slotAccess hk, hm]

theorem State.memWf_passTxn {s : State} {k : State → Held → State} (hk : KeepsMemOn k) (e : Held) (hm : memWf s.mem = true) :
    memWf (s.passTxn k e).mem = true := by
  unfold State.passTxn
  dsimp only
  (repeat' split) <;> simp [State.memWf_atTarget hk, hm]

@[simp] theorem State.memWf_heldTxn {s : State} (e : Held) (hm : memWf s.mem = true) : memWf (s.heldTxn e).mem = true :=
  State.memWf_passTxn (fun _ _ h => h) e hm

@[simp] theorem State.memWf_txn {s : State} (e : Held) (hm : memWf s.mem = true) : memWf (s.txn e).mem = true := by
  unfold State.txn
  split
  · exact hm
  · exact State.memWf_passTxn (fun _ _ => State.memWf_heldTxn _) e hm

@[simp] theorem State.memWf_forward {s : State} (lane : Nat) (x : SkewEnt) (lead : Nat) (e : CodeErr) (hm : memWf s.mem = true) :
    memWf (s.forward lane x lead e).mem = true := by
  unfold State.forward
  dsimp only
  (repeat' split) <;> simp [hm]

@[simp] theorem State.memWf_pairUp {s : State} (lane lead : Nat) (f : CmpFault) (hm : memWf s.mem = true) :
    memWf (s.pairUp lane lead f).mem = true := by
  unfold State.pairUp
  dsimp only
  (repeat' split) <;> simp [hm]

@[simp] theorem State.memWf_latchOne {s : State} (lane kind : Nat) (c : Side) (num : Nat) (i : Item) (hm : memWf s.mem = true) :
    memWf (s.latchOne lane kind c num i).mem = true := by
  unfold State.latchOne
  split <;> simp [hm]

@[simp] theorem State.memWf_emit {s : State} (lane : Nat) (copy : Side) (i : Item) (f : CmpFault) (hm : memWf s.mem = true) :
    memWf (s.emit lane copy i f).mem = true := by
  unfold State.emit
  dsimp only
  (repeat' split) <;> simp [hm]

@[simp] theorem State.memWf_wakeLanes {s : State} (hm : memWf s.mem = true) : memWf s.wakeLanes.mem = true :=
  State.memWf_grantAll (fun _ _ => State.memWf_heldTxn _) _ _ _ hm

@[simp] theorem State.memWf_standbyWake {s : State} (hm : memWf s.mem = true) : memWf s.standbyWake.mem = true := by
  unfold State.standbyWake
  (repeat' split) <;> simp [hm]

/-! ## Machine/Mirror.lean -/

@[simp] theorem State.memWf_writeLine {s : State} (x : Span) (hm : memWf s.mem = true) : memWf (s.writeLine x).mem = true := by
  unfold State.writeLine
  (repeat' split) <;> simp [hm]

@[simp] theorem State.memWf_writeLines {s : State} (l : List Span) (hm : memWf s.mem = true) : memWf (s.writeLines l).mem = true :=
  memWf_foldl_state _ (fun s a hm => by simp [hm]) _ hm

@[simp] theorem State.memWf_applyClose {s : State} (c : CloseBlk) (hm : memWf s.mem = true) : memWf (s.applyClose c).mem = true := by
  unfold State.applyClose
  split <;> simp [hm]

@[simp] theorem State.memWf_tryClose {s : State} (hm : memWf s.mem = true) : memWf s.tryClose.mem = true := by
  unfold State.tryClose
  dsimp only
  (repeat' split) <;> simp [hm]

@[simp] theorem State.memWf_stageBlock {s : State} (xfer block : Nat) (lines : List Span) (forceVer : Option Nat)
    (hm : memWf s.mem = true) : memWf (s.stageBlock xfer block lines forceVer).mem = true := by
  unfold State.stageBlock
  dsimp only
  (repeat' split) <;> simp [hm]

@[simp] theorem State.memWf_takeChunk {s : State} (chunk : Span) (hm : memWf s.mem = true) : memWf (s.takeChunk chunk).mem = true := by
  unfold State.takeChunk
  dsimp only
  (repeat' split) <;> simp [hm]

@[simp] theorem State.memWf_rejoinOn {s : State} (hm : memWf s.mem = true) : memWf s.rejoinOn.mem = true :=
  memWf_foldl_state _ (fun s a hm => by simp [hm]) _ hm

/-! ## Machine/App.lean -/

@[simp] theorem State.memWf_clearBlock {s : State} (base : Nat) (hm : memWf s.mem = true) : memWf (s.clearBlock base).mem = true := by
  unfold State.clearBlock
  rw [foldl_mem _ fun s c => by simp]
  exact memWf_memClear _ _ _ hm

@[simp] theorem State.memWf_layTable {s : State} (base : Nat) (l : List PtCfg) (hm : memWf s.mem = true) :
    memWf (s.layTable base l).mem = true := by
  refine memWf_foldl_state _ (fun s e hm => ?_) _ (State.memWf_clearBlock base hm)
  split
  · simp [memWf_qualSet, memWf_ptSet, hm]
  · exact hm

@[simp] theorem State.memWf_layTables {s : State} (b : AppBody) (hm : memWf s.mem = true) : memWf (s.layTables b).mem = true := by
  unfold State.layTables
  simp [hm]

@[simp] theorem State.memWf_install {s : State} (i : AppImage) (hm : memWf s.mem = true) : memWf (s.install i).mem = true := by
  unfold State.install
  simp only [State.safeChanged_mem, State.mark_frame, State.markTrkDiff_mem, State.onTrk_frame]
  exact State.memWf_layTables _ (memWf_foldl_state _ (fun s x hm => State.memWf_storeIn _ _ _ _ hm) _ (by simpa using hm))

@[simp] theorem State.memWf_loadDone {s : State} (i : AppImage) (hm : memWf s.mem = true) : memWf (s.loadDone i).mem = true := by
  unfold State.loadDone
  dsimp only
  (repeat' split) <;> simp [hm]

@[simp] theorem State.memWf_loadEnd {s : State} (r : Run) (i : AppImage) (hm : memWf s.mem = true) : memWf (s.loadEnd r i).mem = true := by
  unfold State.loadEnd
  simp [hm]

theorem memWf_ownPrimary {s : State} {k : State → State} (hk : KeepsMem k) (op : Nat) (c : Cmd) (hm : memWf s.mem = true) :
    memWf (ownPrimary op c k s).mem = true := by
  unfold ownPrimary
  (repeat' split) <;> simp [hk, hm]

@[simp] theorem State.memWf_partnerSays {s : State} (r : Run) (ok : Bool) (status : Nat) (hm : memWf s.mem = true) :
    memWf (s.partnerSays r ok status).mem = true := by
  unfold State.partnerSays
  (repeat' split) <;> simp [hm]

@[simp] theorem State.memWf_partnerDone {s : State} (kind : ReportKind) (ok : Bool) (status : Nat) (hm : memWf s.mem = true) :
    memWf (s.partnerDone kind ok status).mem = true := by
  unfold State.partnerDone
  (repeat' split) <;> simp [hm]

@[simp] theorem State.memWf_heardMeanwhile {s : State} (hm : memWf s.mem = true) : memWf s.heardMeanwhile.mem = true := by
  unfold State.heardMeanwhile
  split <;> simp [hm]

@[simp] theorem State.memWf_partnerGone {s : State} (hm : memWf s.mem = true) : memWf s.partnerGone.mem = true := by
  unfold State.partnerGone
  split <;> simp [hm]

@[simp] theorem State.memWf_activateStaged {s : State} (hm : memWf s.mem = true) : memWf s.activateStaged.mem = true := by
  unfold State.activateStaged
  (repeat' split) <;> simp [hm]

@[simp] theorem State.memWf_migrate {s : State} (rs : List MigRule) (b : AppBody) (hm : memWf s.mem = true) :
    memWf (s.migrate rs b).mem = true :=
  memWf_foldl_state _ (fun s a hm => by simp [State.memWf_store, hm]) _ hm

@[simp] theorem State.memWf_deliverHeld {s : State} (hm : memWf s.mem = true) : memWf s.deliverHeld.mem = true :=
  memWf_foldl_state _ (fun s a hm => by simp [hm]) _ hm

@[simp] theorem State.memWf_forceVars {s : State} (hm : memWf s.mem = true) : memWf s.forceVars.mem = true := by
  refine memWf_foldl_state _ (fun s f hm => ?_) _ hm
  dsimp only
  (repeat' split) <;> simp [State.memWf_store, hm]

@[simp] theorem State.memWf_changeInstant {s : State} (hm : memWf s.mem = true) : memWf s.changeInstant.mem = true := by
  have hd {t : State} (ht : memWf t.mem = true) : memWf t.forceVars.invalL1.deliverHeld.mem = true := by simp [ht]
  unfold State.changeInstant
  split
  · simp [hm]
  · split
    · simp [hm]
    · split
      · simp [hm]
      · dsimp only
        split <;> simp only [State.endRun_frame, State.readyBackground_mem, foldl_mem _ State.fromQueue_mem] <;>
          exact hd (by simp [apply_ite State.mem, hm])

/-! ## Machine/NetCfg.lean -/

@[simp] theorem State.memWf_layMap {s : State} (c : NetCfg) (hm : memWf s.mem = true) : memWf (s.layMap c).mem = true := by
  unfold State.layMap
  simp only [State.mark_frame]
  exact memWf_memPut _ _ _ (memWf_foldl _ (fun m e h => memWf_memPut _ _ _ h) _ _ (memWf_memClear _ _ _ hm))

@[simp] theorem State.memWf_setCfg {s : State} (c : NetCfg) (hm : memWf s.mem = true) : memWf (s.setCfg c).mem = true := by
  unfold State.setCfg
  dsimp only
  (repeat' split) <;> simp [hm]

theorem memWf_netCommon {s : State} {k : NetCfg → State → State} (hk : ∀ cfg, KeepsMem (k cfg)) (c : Cmd) (hm : memWf s.mem = true) :
    memWf (netCommon c k s).mem = true := by
  unfold netCommon
  (repeat' split) <;> simp [hk, hm]

@[simp] theorem State.memWf_startTrigger {s : State} (c : NetCfg) (hm : memWf s.mem = true) : memWf (s.startTrigger c).mem = true := by
  unfold State.startTrigger
  simp [hm]

/-! ## Machine/Pair.lean -/

@[simp] theorem State.memWf_partnerAway {s : State} (hm : memWf s.mem = true) : memWf s.partnerAway.mem = true := by
  unfold State.partnerAway
  dsimp only
  (repeat' split) <;> simp [hm]

@[simp] theorem State.memWf_followCalm {s : State} (h : Heartbeat) (hm : memWf s.mem = true) : memWf (s.followCalm h).mem = true := by
  unfold State.followCalm
  (repeat' split) <;> simp [hm]

@[simp] theorem State.memWf_takeBeat {s : State} (prev : Nat) (hb : Heartbeat) (hm : memWf s.mem = true) :
    memWf (s.takeBeat prev hb).mem = true :=
  State.memWf_followCalm hb (by simp [apply_ite State.mem, hm])

@[simp] theorem State.memWf_becomePrimary {s : State} (switch : Bool) (hm : memWf s.mem = true) :
    memWf (s.becomePrimary switch).mem = true := by
  unfold State.becomePrimary
  dsimp only
  (repeat' split) <;> simp [hm]

@[simp] theorem State.memWf_releaseSeen {s : State} (hm : memWf s.mem = true) : memWf s.releaseSeen.mem = true := by
  unfold State.releaseSeen
  dsimp only
  (repeat' split) <;> simp [hm]

/-! ## Machine/Extract.lean -/

@[simp] theorem State.memoryOff_mem (s : State) : s.memoryOff.mem = [] := by
  unfold State.memoryOff
  simp

@[simp] theorem State.memWf_enterHold (s : State) : memWf s.enterHold.mem = true := by
  unfold State.enterHold
  simp

/-! ## Machine/Lifecycle.lean -/

theorem State.memWf_lifeCmd {s : State} {k : State → State} (hk : KeepsMem k) (c : Cmd) (dir : Nat) (hm : memWf s.mem = true) :
    memWf (s.lifeCmd c dir k).mem = true :=
  State.memWf_hostCmdBy hk _ c dir _ _ hm

@[simp] theorem State.memWf_lifeReset {s : State} (hm : memWf s.mem = true) : memWf s.lifeReset.mem = true := by
  unfold State.lifeReset
  split <;> simp [hm]

@[simp] theorem State.memWf_lifeStep {s : State} (r : Run) (x : StateChange) (hm : memWf s.mem = true) :
    memWf (s.lifeStep r x).mem = true := by
  unfold State.lifeStep
  split <;> simp [hm]

theorem memWf_keySet {s : State} {k : State → State} (hk : KeepsMem k) (c : Cmd) (action : Nat) (proofOk : Bool)
    (hm : memWf s.mem = true) : memWf (keySet c action proofOk k s).mem = true := by
  unfold keySet
  dsimp only
  (repeat' split) <;> simp [hk, hm]

/-! ## Machine/LongOps.lean -/

theorem memWf_testSet {s : State} {k : State → State} (hk : KeepsMem k) (c : Cmd) (set : Nat) (hm : memWf s.mem = true) :
    memWf (testSet c set k s).mem = true := by
  unfold testSet
  (repeat' split) <;> simp [hk, hm]

/-! ## Machine/Cycle.lean -/

@[simp] theorem State.memWf_schedSwitch {s : State} (hm : memWf s.mem = true) : memWf s.schedSwitch.mem = true := by
  unfold State.schedSwitch
  (repeat' split) <;> simp [hm]

@[simp] theorem State.memWf_firstReleases {s : State} (hm : memWf s.mem = true) : memWf s.firstReleases.mem = true := by
  unfold State.firstReleases
  split <;> simp [hm]

@[simp] theorem State.memWf_beginCycle {s : State} (n : Nat) (hm : memWf s.mem = true) : memWf (s.beginCycle n).mem = true := by
  unfold State.beginCycle
  dsimp only
  (repeat' split) <;> simp [hm]

@[simp] theorem State.memWf_joinCycle {s : State} (c : NetCfg) (t : Nat) (hm : memWf s.mem = true) :
    memWf (s.joinCycle c t).mem = true := by
  unfold State.joinCycle
  dsimp only
  (repeat' split) <;> simp [hm]

@[simp] theorem State.memWf_leadAlone {s : State} (c : NetCfg) (t : Nat) (hm : memWf s.mem = true) :
    memWf (s.leadAlone c t).mem = true := by
  unfold State.leadAlone
  simp [hm]

@[simp] theorem State.memWf_hotAtStill {s : State} (hm : memWf s.mem = true) : memWf s.hotAtStill.mem = true := by
  unfold State.hotAtStill
  dsimp only
  (repeat' split) <;> simp [hm]

@[simp] theorem State.memWf_switchStill {s : State} (hm : memWf s.mem = true) : memWf s.switchStill.mem = true := by
  unfold State.switchStill
  (repeat' split) <;> simp [hm]

theorem State.memWf_keepWord (s : State) {m : List Host.Cell} (h : memWf m = true) : memWf (s.keepWord m).1 = true :=
  memWf_memPut _ _ _ h

@[simp] theorem State.memWf_commitBank {s : State} (l : List InPt) (e : CodeErr) (hm : memWf s.mem = true) :
    memWf (s.commitBank l e).mem = true := by
  have hc : memWf (memClear (memCopy s.mem inView hidden blockLen) inView blockLen) = true :=
    memWf_memClear _ _ _ (memWf_memCopy _ _ _ _ hm)
  unfold State.commitBank
  simp only [State.copyChecked_mem]
  split
  · exact State.memWf_keepWord s (memWf_layInputs _ _ _ _ hc)
  · dsimp only
    exact memWf_layInputs _ _ _ _ hc

@[simp] theorem State.memWf_commitInputs {s : State} (c : NetCfg) (e : CodeErr) (hm : memWf s.mem = true) :
    memWf (s.commitInputs c e).mem = true := by
  refine State.memWf_commitBank _ _ ?_
  rw [State.forceInputs_mem, State.keepLocal_mem, foldl_fst_mem _ fun r x => by simp]
  exact hm

@[simp] theorem State.memWf_cyclicReleases {s : State} (hm : memWf s.mem = true) : memWf s.cyclicReleases.mem = true :=
  memWf_foldl_state _ (fun s a hm => by simp [hm]) _ hm

@[simp] theorem State.memWf_errorReleases {s : State} (l : List (Nat × List Byte)) (hm : memWf s.mem = true) :
    memWf (s.errorReleases l).mem = true :=
  memWf_foldl_state _ (fun _ _ hm => memWf_foldl_state _ (fun _ _ hm => State.memWf_release _ hm) _ hm) _ hm

/-- The releases of a commit, in their order. -/
theorem State.memWf_commitReleases {s : State} (due : List (Nat × List Byte)) (n : Nat) (w : TrkWork) (hm : memWf s.mem = true) :
    memWf (((s.changeInstant.deliverHeld.firstReleases.cyclicReleases.trackCommit n w).errorReleases due).takeSnapshots false).mem =
      true := by
  rw [State.takeSnapshots_mem]
  exact State.memWf_errorReleases _ (State.memWf_trackCommit _ _ (State.memWf_cyclicReleases (State.memWf_firstReleases
    (State.memWf_deliverHeld (State.memWf_changeInstant hm)))))

@[simp] theorem State.memWf_commitPrimary {s : State} (due lost back : List (Nat × List Byte)) (w : TrkWork) (hm : memWf s.mem = true) :
    memWf (s.commitPrimary due lost back w).mem = true := by
  unfold State.commitPrimary
  dsimp only
  split
  · exact State.memWf_errorReleases _ (State.memWf_commitReleases _ _ _ (by simp [hm]))
  · exact State.memWf_commitReleases _ _ _ (by simp [hm])

@[simp] theorem State.memWf_publish {s : State} (hm : memWf s.mem = true) : memWf s.publish.mem = true := by
  unfold State.publish
  extract_lets due
  split
  · exact hm
  · exact memWf_memPut _ _ _ (memWf_memCopy _ _ _ _ hm)

@[simp] theorem State.memWf_inputClose {s : State} (c : NetCfg) (w : TrkWork) (hm : memWf s.mem = true) :
    memWf (s.inputClose c w).mem = true := by
  unfold State.inputClose
  split
  · exact hm
  · extract_lets s1 s2 before due s3 e left cyc s4
    have h2 : memWf s2.mem = true := by
      unfold s2 s1
      split <;> simp [hm]
    have h3 : memWf s3.mem = true := State.memWf_commitInputs _ _ h2
    rw [State.parkIdle_mem]
    refine State.memWf_publish ?_
    unfold s4
    split
    · exact State.memWf_commitPrimary _ _ _ _ h3
    · unfold left
      split <;> simp [h3]

@[simp] theorem State.memWf_takeOutputs {s : State} (l : List OutPt) (hm : memWf s.mem = true) : memWf (s.takeOutputs l).mem = true := by
  unfold State.takeOutputs
  extract_lets old m0 m1 m2 n hdr cyc t
  have h0 : memWf m0 = true := memWf_foldl _ (fun m q h => memWf_qualSet _ _ _ _ _ h) _ _ hm
  have h1 : memWf m1 = true := memWf_memCopy _ _ _ _ h0
  have h2 : memWf m2 = true := memWf_foldl _ (fun m q h => memWf_ptSet _ _ _ _ _ h) _ _ h1
  rw [State.markDiff_mem]
  unfold t
  dsimp only
  exact memWf_memPut _ _ _ h2

@[simp] theorem State.memWf_readyOutputs {s : State} (hm : memWf s.mem = true) : memWf s.readyOutputs.mem = true := by
  unfold State.readyOutputs
  (repeat' split) <;> simp [hm]

/-! ## Machine/LaneIssue.lean -/

@[simp] theorem State.memWf_laneWrite {s : State} (l : Fin 8) (c : Side) (priv : BitVec 2) (addr size : Nat) (v : Word)
    (hm : memWf s.mem = true) : memWf (s.laneWrite l c priv addr size v).mem = true := by
  unfold State.laneWrite
  (repeat' split) <;> simp [hm]

@[simp] theorem State.memWf_laneWrites {s : State} (l : Fin 8) (addr : Nat) (v : Word) (hm : memWf s.mem = true) :
    memWf (s.laneWrites l addr v).mem = true := by
  unfold State.laneWrites
  dsimp only
  (repeat' split) <;> simp [hm]

@[simp] theorem State.memWf_trkCmd {s : State} (lane : Fin 8) (op : Nat) (hm : memWf s.mem = true) :
    memWf (s.trkCmd lane op).mem = true := by
  unfold State.trkCmd
  simp [hm]

@[simp] theorem State.memWf_trkCmdFlt {s : State} (lane : Fin 8) (op : Nat) (residue : Bool) (hm : memWf s.mem = true) :
    memWf (s.trkCmdFlt lane op residue).mem = true := by
  unfold State.trkCmdFlt
  simp [hm]

/-! ## Machine/Power.lean -/

@[simp] theorem State.memWf_checkSeals {s : State} (regions ring : Bool) (hm : memWf s.mem = true) :
    memWf (s.checkSeals regions ring).mem = true := by
  unfold State.checkSeals
  (repeat' split) <;> simp [hm]

@[simp] theorem State.memWf_lullNetwork {s : State} (hm : memWf s.mem = true) : memWf s.lullNetwork.mem = true := by
  unfold State.lullNetwork
  split <;> simp [hm]

@[simp] theorem State.memWf_loadActive {s : State} (hm : memWf s.mem = true) : memWf s.loadActive.mem = true := by
  unfold State.loadActive
  (repeat' split) <;> simp [hm]

end Sys2Proof.Machine
end

section
/-! Every command keeps the canonical form of memory, command by command in the order of the model's files. -/

namespace Sys2Proof.Machine
open Sys2Proof

/-- Every next state that the outcome gives has its memory in canonical form. -/
def NextMemWf (o : Host.Outcome State Fault Refusal) : Prop := ∀ t, o = .next t → memWf t.mem = true

@[simp] theorem nextMemWf_next (t : State) : NextMemWf (.next t) ↔ memWf t.mem = true := by
  simp [NextMemWf]

/-- A host command keeps the canonical form if its own rules do. -/
theorem nextMemWf_hostCmd {s : State} {op : Nat} {c : Cmd} {dir : Nat} {inlOk : Bool} {k : State → State}
    (hk : KeepsMem k) (hm : memWf s.mem = true) : NextMemWf (.next (s.hostCmd op c dir inlOk k)) :=
  (nextMemWf_next _).2 (State.memWf_hostCmd hk op c dir inlOk hm)

/-- The same where the rules are those of a module that is primary. -/
theorem nextMemWf_ownPrimary {s : State} {op : Nat} {c : Cmd} {dir : Nat} {inlOk : Bool} {k : State → State}
    (hk : KeepsMem k) (hm : memWf s.mem = true) : NextMemWf (.next (s.hostCmd op c dir inlOk (ownPrimary op c k))) :=
  nextMemWf_hostCmd (fun _ => memWf_ownPrimary hk op c) hm

/-- The same for the rules of a life-cycle command. -/
theorem nextMemWf_lifeCmd {s : State} {c : Cmd} {dir : Nat} {k : State → State}
    (hk : KeepsMem k) (hm : memWf s.mem = true) : NextMemWf (.next (s.lifeCmd c dir k)) :=
  (nextMemWf_next _).2 (State.memWf_lifeCmd hk c dir hm)

/-! ## Machine/Force.lean -/

theorem memWf_execForceSet {s : State} (c : Cmd) (hm : memWf s.mem = true) : NextMemWf (execForceSet c s) := by
  refine nextMemWf_hostCmd (fun t hm => ?_) hm
  dsimp only
  (repeat' split) <;> simp [hm]

theorem memWf_execForceRelease {s : State} (c : Cmd) (hm : memWf s.mem = true) : NextMemWf (execForceRelease c s) := by
  refine nextMemWf_hostCmd (fun t hm => ?_) hm
  (repeat' split) <;> simp [hm]

theorem memWf_execForceReleaseAll {s : State} (c : Cmd) (hm : memWf s.mem = true) : NextMemWf (execForceReleaseAll c s) := by
  refine nextMemWf_hostCmd (fun t hm => ?_) hm
  (repeat' split) <;> simp [hm]

theorem memWf_execForceList {s : State} (c : Cmd) (hm : memWf s.mem = true) : NextMemWf (execForceList c s) := by
  refine nextMemWf_hostCmd (fun t hm => ?_) hm
  dsimp only
  (repeat' split) <;> simp [hm]

/-! ## Machine/Rtc.lean -/

theorem memWf_execRtcGet {s : State} (c : Cmd) (hm : memWf s.mem = true) : NextMemWf (execRtcGet c s) := by
  refine nextMemWf_hostCmd (fun t hm => ?_) hm
  split <;> simp [hm]

theorem memWf_execSetUtc {s : State} (c : Cmd) (hm : memWf s.mem = true) : NextMemWf (execSetUtc c s) := by
  refine nextMemWf_hostCmd (fun t hm => ?_) hm
  dsimp only
  (repeat' split) <;> simp [hm]

theorem memWf_execSetCivil {s : State} (c : Cmd) (hm : memWf s.mem = true) : NextMemWf (execSetCivil c s) := by
  refine nextMemWf_hostCmd (fun t hm => ?_) hm
  dsimp only
  (repeat' split) <;> simp [hm]

theorem memWf_execSetTrim {s : State} (c : Cmd) (hm : memWf s.mem = true) : NextMemWf (execSetTrim c s) := by
  refine nextMemWf_hostCmd (fun t hm => ?_) hm
  (repeat' split) <;> simp [hm]

theorem memWf_execClearStamp {s : State} (c : Cmd) (hm : memWf s.mem = true) : NextMemWf (execClearStamp c s) := by
  refine nextMemWf_hostCmd (fun t hm => ?_) hm
  (repeat' split) <;> simp [hm]

theorem memWf_execWriteBackup {s : State} (c : Cmd) (hm : memWf s.mem = true) : NextMemWf (execWriteBackup c s) := by
  refine nextMemWf_hostCmd (fun t hm => ?_) hm
  dsimp only
  (repeat' split) <;> simp [hm]

theorem memWf_execRtcShift {s : State} (c : Cmd) (hm : memWf s.mem = true) : NextMemWf (execRtcShift c s) := by
  refine nextMemWf_hostCmd (fun t hm => ?_) hm
  dsimp only
  (repeat' split) <;> simp [hm]

theorem memWf_execAlarmSetArm {s : State} (c : Cmd) (hm : memWf s.mem = true) : NextMemWf (execAlarmSetArm c s) := by
  refine nextMemWf_hostCmd (fun t hm => ?_) hm
  dsimp only
  (repeat' split) <;> simp [hm]

theorem memWf_execAlarmSetDisarm {s : State} (c : Cmd) (hm : memWf s.mem = true) : NextMemWf (execAlarmSetDisarm c s) := by
  refine nextMemWf_hostCmd (fun t hm => ?_) hm
  (repeat' split) <;> simp [hm]

theorem memWf_execLeapSecond {s : State} (insert : Bool) (hm : memWf s.mem = true) : NextMemWf (execLeapSecond insert s) := by
  unfold execLeapSecond
  simp [hm]

theorem memWf_execCalendarDiscipline {s : State} (hm : memWf s.mem = true) : NextMemWf (execCalendarDiscipline s) := by
  unfold execCalendarDiscipline
  dsimp only
  (repeat' split) <;> simp [hm]

theorem memWf_execAlarmFire {s : State} (hm : memWf s.mem = true) : NextMemWf (execAlarmFire s) := by
  unfold execAlarmFire
  split <;> simp [hm]

theorem memWf_execCalendarEnd {s : State} (hm : memWf s.mem = true) : NextMemWf (execCalendarEnd s) := by
  unfold execCalendarEnd
  split <;> simp [hm]

theorem memWf_execBatteryTest {s : State} (mv : Nat) (hm : memWf s.mem = true) : NextMemWf (execBatteryTest mv s) := by
  unfold execBatteryTest
  dsimp only
  (repeat' split) <;> simp [hm]

theorem memWf_execBkpSwitch {s : State} (hm : memWf s.mem = true) : NextMemWf (execBkpSwitch s) := by
  unfold execBkpSwitch
  simp [hm]

/-! ## Machine/Actuation.lean -/

theorem memWf_execLocalActInstant {s : State} (ch : Fin 16) (hm : memWf s.mem = true) : NextMemWf (execLocalActInstant ch s) := by
  unfold execLocalActInstant
  split <;> simp [hm]

theorem memWf_execPtpAnnounceRx {s : State} (port : Fin 2) (m : Announce) (hm : memWf s.mem = true) :
    NextMemWf (execPtpAnnounceRx port m s) := by
  unfold execPtpAnnounceRx
  dsimp only
  (repeat' split) <;> simp [hm]

theorem memWf_execPtpSyncRx {s : State} (port : Fin 2) (m : PtpSync) (hm : memWf s.mem = true) : NextMemWf (execPtpSyncRx port m s) := by
  unfold execPtpSyncRx
  dsimp only
  (repeat' split) <;> simp [hm]

theorem memWf_execPtpSyncTimeout {s : State} (hm : memWf s.mem = true) : NextMemWf (execPtpSyncTimeout s) := by
  unfold execPtpSyncTimeout
  split <;> simp [hm]

/-! ## Machine/Ageing.lean -/

theorem memWf_execMarginMeasure {s : State} (kind inst : Nat) (value : Int) (hm : memWf s.mem = true) :
    NextMemWf (execMarginMeasure kind inst value s) := by
  unfold execMarginMeasure
  split <;> simp [hm]

theorem memWf_execMarginDaily {s : State} (dates : List (Nat × Nat × Nat)) (hm : memWf s.mem = true) :
    NextMemWf (execMarginDaily dates s) := by
  unfold execMarginDaily
  simp [hm]

theorem memWf_execMarginReport {s : State} (c : Cmd) (hm : memWf s.mem = true) : NextMemWf (execMarginReport c s) := by
  refine nextMemWf_hostCmd (fun t hm => ?_) hm
  split <;> simp [hm]

theorem memWf_execMarginReplan {s : State} (c : Cmd) (hm : memWf s.mem = true) : NextMemWf (execMarginReplan c s) := by
  refine nextMemWf_hostCmd (fun t hm => ?_) hm
  dsimp only
  (repeat' split) <;> simp [hm]

/-! ## Machine/LocalIo.lean -/

theorem memWf_execLioDebounceDone {s : State} (ch : Fin 16) (high : Bool) (edgeTime : Nat) (hm : memWf s.mem = true) :
    NextMemWf (execLioDebounceDone ch high edgeTime s) := by
  unfold execLioDebounceDone
  dsimp only
  (repeat' split) <;> simp [hm]

theorem memWf_execLioBand {s : State} (ch : Fin 16) (hm : memWf s.mem = true) : NextMemWf (execLioBand ch s) := by
  unfold execLioBand
  dsimp only
  (repeat' split) <;> simp [hm]

theorem memWf_execWireBreak {s : State} (ch : Fin 16) (below : Bool) (hm : memWf s.mem = true) : NextMemWf (execWireBreak ch below s) := by
  unfold execWireBreak
  dsimp only
  (repeat' split) <;> simp [hm]

theorem memWf_execLioOutputFault {s : State} (ch : Fin 16) (terminalHigh : Bool) (hm : memWf s.mem = true) :
    NextMemWf (execLioOutputFault ch terminalHigh s) := by
  unfold execLioOutputFault
  dsimp only
  (repeat' split) <;> simp [hm]

theorem memWf_execLioFaultClear {s : State} (ch : Fin 16) (hm : memWf s.mem = true) : NextMemWf (execLioFaultClear ch s) := by
  unfold execLioFaultClear
  split <;> simp [hm]

theorem memWf_execOvercurrentTrip {s : State} (ch : Fin 16) (hm : memWf s.mem = true) : NextMemWf (execOvercurrentTrip ch s) := by
  unfold execOvercurrentTrip
  simp [hm]

theorem memWf_execThermalTrip {s : State} (ch : Fin 16) (hm : memWf s.mem = true) : NextMemWf (execThermalTrip ch s) := by
  unfold execThermalTrip
  simp [hm]

theorem memWf_execTripRetryExpiry {s : State} (ch : Fin 16) (hm : memWf s.mem = true) : NextMemWf (execTripRetryExpiry ch s) := by
  unfold execTripRetryExpiry
  dsimp only
  (repeat' split) <;> simp [hm]

theorem memWf_execLioTripClr {s : State} (group : Side) (v : Word) (hm : memWf s.mem = true) : NextMemWf (execLioTripClr group v s) := by
  unfold execLioTripClr
  simp [hm]

theorem memWf_execSupplySag {s : State} (group : Side) (hm : memWf s.mem = true) : NextMemWf (execSupplySag group s) := by
  unfold execSupplySag
  split <;> simp [hm]

theorem memWf_execSupplyLow {s : State} (group : Side) (hm : memWf s.mem = true) : NextMemWf (execSupplyLow group s) := by
  unfold execSupplyLow
  dsimp only
  (repeat' split) <;> simp [hm]

theorem memWf_execSupplyRise {s : State} (group : Side) (hm : memWf s.mem = true) : NextMemWf (execSupplyRise group s) := by
  unfold execSupplyRise
  split <;> simp [hm]

theorem memWf_execSupplyDip {s : State} (group : Side) (hm : memWf s.mem = true) : NextMemWf (execSupplyDip group s) := by
  unfold execSupplyDip
  split <;> simp [hm]

theorem memWf_execRecoveringTimerExpiry {s : State} (group : Side) (levels : BitVec 8) (hm : memWf s.mem = true) :
    NextMemWf (execRecoveringTimerExpiry group levels s) := by
  unfold execRecoveringTimerExpiry
  dsimp only
  (repeat' split) <;> simp [apply_ite State.mem, hm]

/-! ## Machine/Windbreak.lean -/

theorem memWf_execWbUpdateSet {s : State} (hm : memWf s.mem = true) : NextMemWf (execWbUpdateSet s) := by
  unfold execWbUpdateSet
  simp [hm]

theorem memWf_execWbLoadSet {s : State} (hm : memWf s.mem = true) : NextMemWf (execWbLoadSet s) := by
  unfold execWbLoadSet
  simp [hm]

theorem memWf_execWbRgnWrite {s : State} (r : Fin 64) (reg : Fin 3) (v : Word) (hm : memWf s.mem = true) :
    NextMemWf (execWbRgnWrite r reg v s) := by
  unfold execWbRgnWrite
  simp [hm]

theorem memWf_execWbAbortedClear {s : State} (hm : memWf s.mem = true) : NextMemWf (execWbAbortedClear s) := by
  unfold execWbAbortedClear
  simp [hm]

/-! ## Machine/Recorder.lean -/

theorem memWf_execLogRead {s : State} (c : Cmd) (hm : memWf s.mem = true) : NextMemWf (execLogRead c s) := by
  refine nextMemWf_hostCmd (fun t hm => ?_) hm
  dsimp only
  (repeat' split) <;> simp [hm]

theorem memWf_execLogExport {s : State} (c : Cmd) (hm : memWf s.mem = true) : NextMemWf (execLogExport c s) := by
  refine nextMemWf_hostCmd (fun t hm => ?_) hm
  dsimp only
  (repeat' split) <;> simp [hm]

theorem memWf_execLogClearRing {s : State} (c : Cmd) (hm : memWf s.mem = true) : NextMemWf (execLogClearRing c s) :=
  nextMemWf_hostCmd (fun t hm => by simp [hm]) hm

theorem memWf_execLogClearArchive {s : State} (c : Cmd) (hm : memWf s.mem = true) : NextMemWf (execLogClearArchive c s) :=
  nextMemWf_hostCmd (fun t hm => by simp [hm]) hm

theorem memWf_execGustTableReplace {s : State} (c : Cmd) (hm : memWf s.mem = true) : NextMemWf (execGustTableReplace c s) := by
  refine nextMemWf_hostCmd (fun t hm => ?_) hm
  dsimp only
  (repeat' split) <;> simp [hm]

theorem memWf_execGustTableDefault {s : State} (c : Cmd) (hm : memWf s.mem = true) : NextMemWf (execGustTableDefault c s) := by
  refine nextMemWf_hostCmd (fun t hm => ?_) hm
  split <;> simp [hm]

theorem memWf_execGustRefill {s : State} (code : Nat) (hm : memWf s.mem = true) : NextMemWf (execGustRefill code s) := by
  unfold execGustRefill
  (repeat' split) <;> simp [hm]

theorem memWf_execArchiveCommit {s : State} (hm : memWf s.mem = true) : NextMemWf (execArchiveCommit s) := by
  unfold execArchiveCommit
  split <;> simp [hm]

theorem memWf_execHoldBufferFlush {s : State} (hm : memWf s.mem = true) : NextMemWf (execHoldBufferFlush s) := by
  unfold execHoldBufferFlush
  simp [hm]

/-! ## Machine/LaneTasks.lean -/

theorem memWf_execTaskTrap {s : State} (lane : Fin 8) (copy : Side) (cause addr : Nat) (hm : memWf s.mem = true) :
    NextMemWf (execTaskTrap lane copy cause addr s) := by
  unfold execTaskTrap
  (repeat' split) <;> simp [hm]

theorem memWf_execDeliveryRequest {s : State} (lane : Fin 9) (cA cB : Nat) (hm : memWf s.mem = true) :
    NextMemWf (execDeliveryRequest lane cA cB s) := by
  unfold execDeliveryRequest
  dsimp only
  (repeat' split) <;> simp [hm]

theorem memWf_execLaneTimerExpiry {s : State} (lane : Fin 9) (hm : memWf s.mem = true) : NextMemWf (execLaneTimerExpiry lane s) := by
  unfold execLaneTimerExpiry
  split <;> simp [hm]

theorem memWf_execSoftwareInterrupt {s : State} (src dst : Fin 9) (hm : memWf s.mem = true) :
    NextMemWf (execSoftwareInterrupt src dst s) := by
  unfold execSoftwareInterrupt
  split <;> simp [hm]

theorem memWf_execLaneFaultFlashCommit {s : State} (hm : memWf s.mem = true) : NextMemWf (execLaneFaultFlashCommit s) := by
  unfold execLaneFaultFlashCommit
  dsimp only
  (repeat' split) <;> simp [hm]

theorem memWf_execPairResetRequestTimeout {s : State} (hm : memWf s.mem = true) : NextMemWf (execPairResetRequestTimeout s) := by
  unfold execPairResetRequestTimeout
  split <;> simp [hm]

/-! ## Machine/HostRings.lean -/

theorem memWf_execHqSqTail {s : State} (q : Fin 8) (v : BitVec 32) (descs : List SqEnt) (ring : Dma) (hm : memWf s.mem = true) :
    NextMemWf (execHqSqTail q v descs ring s) := by
  unfold execHqSqTail
  simp [hm]

theorem memWf_execHqCqHead {s : State} (q : Fin 8) (v : BitVec 32) (hm : memWf s.mem = true) : NextMemWf (execHqCqHead q v s) := by
  unfold execHqCqHead
  simp [hm]

theorem memWf_execHqEvHead {s : State} (v : BitVec 32) (hm : memWf s.mem = true) : NextMemWf (execHqEvHead v s) := by
  unfold execHqEvHead
  simp [hm]

theorem memWf_execQueueEnable {s : State} (hm : memWf s.mem = true) : NextMemWf (execQueueEnable s) := by
  unfold execQueueEnable
  simp [hm]

theorem memWf_execQueueDisable {s : State} (hm : memWf s.mem = true) : NextMemWf (execQueueDisable s) := by
  unfold execQueueDisable
  simp [hm]

theorem memWf_execQueueDrained {s : State} (q : Fin 8) (hm : memWf s.mem = true) : NextMemWf (execQueueDrained q s) := by
  unfold execQueueDrained
  split <;> simp [hm]

theorem memWf_execEventRingEnable {s : State} (hm : memWf s.mem = true) : NextMemWf (execEventRingEnable s) := by
  unfold execEventRingEnable
  simp [hm]

theorem memWf_execEventRingDisable {s : State} (hm : memWf s.mem = true) : NextMemWf (execEventRingDisable s) := by
  unfold execEventRingDisable
  simp [hm]

theorem memWf_execInterruptHoldoffExpiry {s : State} (vec : Fin 16) (hm : memWf s.mem = true) :
    NextMemWf (execInterruptHoldoffExpiry vec s) := by
  unfold execInterruptHoldoffExpiry
  dsimp only
  (repeat' split) <;> simp [hm]

theorem memWf_execBusyEnter {s : State} (hm : memWf s.mem = true) : NextMemWf (execBusyEnter s) := by
  unfold execBusyEnter
  split <;> simp [hm]

theorem memWf_execBusyEnd {s : State} (hm : memWf s.mem = true) : NextMemWf (execBusyEnd s) := by
  unfold execBusyEnd
  (repeat' split) <;> simp [hm]

theorem memWf_execHifResetHost {s : State} (hm : memWf s.mem = true) : NextMemWf (execHifResetHost s) := by
  unfold execHifResetHost
  simp [hm]

theorem memWf_execHifResetWarm {s : State} (hm : memWf s.mem = true) : NextMemWf (execHifResetWarm s) := by
  unfold execHifResetWarm
  simp [hm]

theorem memWf_execFirmwareWarmRestart {s : State} (hm : memWf s.mem = true) : NextMemWf (execFirmwareWarmRestart s) := by
  unfold execFirmwareWarmRestart
  split <;> simp [hm]

theorem memWf_execHifLinkReset {s : State} (hm : memWf s.mem = true) : NextMemWf (execHifLinkReset s) := by
  unfold execHifLinkReset
  simp [hm]

theorem memWf_execTlsConnect {s : State} (port : Fin 2) (handshakeOk : Bool) (hm : memWf s.mem = true) :
    NextMemWf (execTlsConnect port handshakeOk s) := by
  unfold execTlsConnect
  dsimp only
  (repeat' split) <;> simp [hm]

theorem memWf_execTlsClose {s : State} (conn : Fin 4) (hm : memWf s.mem = true) : NextMemWf (execTlsClose conn s) := by
  unfold execTlsClose
  simp [hm]

theorem memWf_execCapsuleRx {s : State} (conn : Fin 4) (cap : Capsule) (hm : memWf s.mem = true) :
    NextMemWf (execCapsuleRx conn cap s) := by
  unfold execCapsuleRx
  (repeat' split) <;> simp [hm]

theorem memWf_execPairCtrl {s : State} (v : Word) (hm : memWf s.mem = true) : NextMemWf (execPairCtrl v s) := by
  unfold execPairCtrl
  simp [hm]

theorem memWf_execEthApply {s : State} (port : Fin 2) (hm : memWf s.mem = true) : NextMemWf (execEthApply port s) := by
  unfold execEthApply
  simp [hm]

/-! ## Machine/Interconnect.lean -/

theorem memWf_execInterconnectTransaction {s : State} (t : Txn) (hm : memWf s.mem = true) :
    NextMemWf (execInterconnectTransaction t s) := by
  unfold execInterconnectTransaction
  split <;> simp [hm]

theorem memWf_execWbUpdateClear {s : State} (hm : memWf s.mem = true) : NextMemWf (execWbUpdateClear s) :=
  (nextMemWf_next _).2 (State.memWf_updateClear (fun _ _ => State.memWf_heldTxn _) hm)

theorem memWf_execWbUpdateTimeout {s : State} (hm : memWf s.mem = true) : NextMemWf (execWbUpdateTimeout s) :=
  (nextMemWf_next _).2 (State.memWf_updateAbort (fun _ _ => State.memWf_heldTxn _) hm)

theorem memWf_execComparedItem {s : State} (lane : Fin 9) (copy : Side) (it : Item) (flt : CmpFault) (hm : memWf s.mem = true) :
    NextMemWf (execComparedItem lane copy it flt s) := by
  unfold execComparedItem
  simp [hm]

theorem memWf_execWfi {s : State} (lane : Fin 9) (copy : Side) (it : Item) (flt : CmpFault) (hm : memWf s.mem = true) :
    NextMemWf (execWfi lane copy it flt s) := by
  unfold execWfi
  (repeat' split) <;> simp [hm]

theorem memWf_execSkewTime {s : State} (lane : Fin 9) (hm : memWf s.mem = true) : NextMemWf (execSkewTime lane s) := by
  unfold execSkewTime
  dsimp only
  (repeat' split) <;> simp [hm]

theorem memWf_execReadReturn {s : State} (lane : Fin 9) (errA errB : CodeErr) (hm : memWf s.mem = true) :
    NextMemWf (execReadReturn lane errA errB s) := by
  unfold execReadReturn
  dsimp only
  (repeat' split) <;> simp [hm]

theorem memWf_execL1ParityError {s : State} (lane : Fin 9) (copy : Side) (line : Nat) (hm : memWf s.mem = true) :
    NextMemWf (execL1ParityError lane copy line s) := by
  unfold execL1ParityError
  split <;> simp [hm]

theorem memWf_execLaneWake {s : State} (hm : memWf s.mem = true) : NextMemWf (execLaneWake s) := by
  unfold execLaneWake
  simp [hm]

theorem memWf_execLaneParkTimeout {s : State} (hm : memWf s.mem = true) : NextMemWf (execLaneParkTimeout s) := by
  unfold execLaneParkTimeout
  dsimp only
  (repeat' split) <;> simp [hm]

/-! ## Machine/Mirror.lean -/

theorem memWf_execMirrorTransferClose {s : State} (hm : memWf s.mem = true) : NextMemWf (execMirrorTransferClose s) := by
  unfold execMirrorTransferClose
  (repeat' split) <;> simp [hm]

theorem memWf_execMirrorAckDeadline {s : State} (hm : memWf s.mem = true) : NextMemWf (execMirrorAckDeadline s) := by
  unfold execMirrorAckDeadline
  (repeat' split) <;> simp [hm]

theorem memWf_execResendRequestRx {s : State} (block : Nat) (hm : memWf s.mem = true) : NextMemWf (execResendRequestRx block s) := by
  unfold execResendRequestRx
  dsimp only
  (repeat' split) <;> simp [hm]

theorem memWf_execTransferAckRx {s : State} (xfer : Nat) (hm : memWf s.mem = true) : NextMemWf (execTransferAckRx xfer s) := by
  unfold execTransferAckRx
  dsimp only
  (repeat' split) <;> simp [hm]

theorem memWf_execCloseBlockRx {s : State} (xfer blocks : Nat) (commit : Option Nat) (slice : Nat) (audit : BitVec 128)
    (fin : Option FinalClose) (hm : memWf s.mem = true) : NextMemWf (execCloseBlockRx xfer blocks commit slice audit fin s) := by
  unfold execCloseBlockRx
  split <;> simp [hm]

theorem memWf_execMirrorBlockRx {s : State} (xfer block : Nat) (lines : List Span) (forceVer : Option Nat) (digest : BitVec 128)
    (hm : memWf s.mem = true) : NextMemWf (execMirrorBlockRx xfer block lines forceVer digest s) := by
  unfold execMirrorBlockRx
  dsimp only
  (repeat' split) <;> simp [hm]

theorem memWf_execSnapshotTransferRx {s : State} (cycle : Nat) (lines : List Span) (check : Option (BitVec 128)) (hm : memWf s.mem = true) :
    NextMemWf (execSnapshotTransferRx cycle lines check s) := by
  have hl : memWf (lines.foldl (fun s x => s.storeIn 7 1 x.addr x.bytes) s).mem = true :=
    memWf_foldl_state _ (fun _ _ => State.memWf_storeIn _ _ _ _) _ hm
  unfold execSnapshotTransferRx
  split <;> simp [hl, hm]

theorem memWf_execBaseChunkRx {s : State} (chunk : Span) (hm : memWf s.mem = true) : NextMemWf (execBaseChunkRx chunk s) := by
  unfold execBaseChunkRx
  (repeat' split) <;> simp [hm]

/-! ## Machine/App.lean -/

theorem memWf_execAppLoad {s : State} (c : Cmd) (img : AppImage) (hm : memWf s.mem = true) : NextMemWf (execAppLoad c img s) := by
  refine nextMemWf_ownPrimary (fun t hm => ?_) hm
  (repeat' split) <;> simp [hm]

theorem memWf_execRollbackPeriodEnd {s : State} (hm : memWf s.mem = true) : NextMemWf (execRollbackPeriodEnd s) := by
  unfold execRollbackPeriodEnd
  split <;> simp [hm]

theorem memWf_execAppChange {s : State} (c : Cmd) (img : AppImage) (hm : memWf s.mem = true) : NextMemWf (execAppChange c img s) := by
  refine nextMemWf_ownPrimary (fun t hm => ?_) hm
  dsimp only
  (repeat' split) <;> simp [hm]

theorem memWf_execAppRollback {s : State} (c : Cmd) (hm : memWf s.mem = true) : NextMemWf (execAppRollback c s) := by
  refine nextMemWf_ownPrimary (fun t hm => ?_) hm
  (repeat' split) <;> simp [hm]

theorem memWf_execImageStagingDone {s : State} (sess : BitVec 16) (cmdId : BitVec 32) (hm : memWf s.mem = true) :
    NextMemWf (execImageStagingDone sess cmdId s) := by
  unfold execImageStagingDone
  (repeat' split) <;> simp [hm]

theorem memWf_execPairImageRx {s : State} (img : AppImage) (hm : memWf s.mem = true) : NextMemWf (execPairImageRx img s) := by
  unfold execPairImageRx
  dsimp only
  (repeat' split) <;> simp [hm]

theorem memWf_execChangeAnnounceRx {s : State} (n : Nat) (hm : memWf s.mem = true) : NextMemWf (execChangeAnnounceRx n s) := by
  unfold execChangeAnnounceRx
  (repeat' split) <;> simp [hm]

theorem memWf_execChangeQ {s : State} (hm : memWf s.mem = true) : NextMemWf (execChangeQ s) := by
  unfold execChangeQ
  dsimp only
  (repeat' split) <;> simp [hm]

theorem memWf_execAppStart {s : State} (c : Cmd) (hm : memWf s.mem = true) : NextMemWf (execAppStart c s) := by
  refine nextMemWf_ownPrimary (fun t hm => ?_) hm
  split <;> simp [hm]

theorem memWf_execAppStop {s : State} (c : Cmd) (hm : memWf s.mem = true) : NextMemWf (execAppStop c s) :=
  nextMemWf_ownPrimary (fun t hm => by simp [hm]) hm

theorem memWf_execTaskRelease {s : State} (c : Cmd) (hm : memWf s.mem = true) : NextMemWf (execTaskRelease c s) := by
  refine nextMemWf_ownPrimary (fun t hm => ?_) hm
  have hr (l : List TaskCfg) : memWf (l.foldl (fun s t => s.release { task := t.num, src := 2, bytes := c.inl }) t).mem = true :=
    memWf_foldl_state _ (fun _ _ => State.memWf_release _) _ hm
  dsimp only
  (repeat' split) <;> simp [hr, hm]

/-! ## Machine/Firmware.lean -/

theorem memWf_execFwStage {s : State} (c : Cmd) (img : AppImage) (hm : memWf s.mem = true) : NextMemWf (execFwStage c img s) := by
  refine nextMemWf_ownPrimary (fun t hm => ?_) hm
  dsimp only
  (repeat' split) <;> simp [hm]

theorem memWf_execFwHandover {s : State} (c : Cmd) (hm : memWf s.mem = true) : NextMemWf (execFwHandover c s) := by
  refine nextMemWf_ownPrimary (fun t hm => ?_) hm
  (repeat' split) <;> simp [hm]

theorem memWf_execFwConfirm {s : State} (c : Cmd) (hm : memWf s.mem = true) : NextMemWf (execFwConfirm c s) := by
  refine nextMemWf_hostCmd (fun t hm => ?_) hm
  dsimp only
  (repeat' split) <;> simp [hm]

theorem memWf_execFwFallback {s : State} (c : Cmd) (hm : memWf s.mem = true) : NextMemWf (execFwFallback c s) := by
  refine nextMemWf_hostCmd (fun t hm => ?_) hm
  (repeat' split) <;> simp [hm]

theorem memWf_execFwStartTimeout {s : State} (hm : memWf s.mem = true) : NextMemWf (execFwStartTimeout s) := by
  unfold execFwStartTimeout
  split <;> simp [hm]

/-! ## Machine/NetCfg.lean -/

theorem memWf_execNetConfigure {s : State} (c : Cmd) (hm : memWf s.mem = true) : NextMemWf (execNetConfigure c s) := by
  refine nextMemWf_ownPrimary (fun t hm => ?_) hm
  split
  · simpa using hm
  · exact memWf_netCommon (fun cfg t hm => by (repeat' split) <;> simp [hm]) c hm

theorem memWf_execNetConfigureNext {s : State} (c : Cmd) (hm : memWf s.mem = true) : NextMemWf (execNetConfigureNext c s) := by
  refine nextMemWf_ownPrimary (fun t hm => ?_) hm
  split
  · simpa using hm
  · exact memWf_netCommon (fun cfg t hm => by simp [hm]) c hm

theorem memWf_execNetStart {s : State} (c : Cmd) (hm : memWf s.mem = true) : NextMemWf (execNetStart c s) := by
  refine nextMemWf_ownPrimary (fun t hm => ?_) hm
  (repeat' split) <;> simp [hm]

theorem memWf_execPairConfigRx {s : State} (length : Nat) (buf : Buf) (next : Bool) (switchN : Nat) (hm : memWf s.mem = true) :
    NextMemWf (execPairConfigRx length buf next switchN s) := by
  unfold execPairConfigRx
  dsimp only
  (repeat' split) <;> simp [hm]

/-! ## Machine/Pair.lean -/

theorem memWf_execHeartbeatRx {s : State} (hb : Heartbeat) (hm : memWf s.mem = true) : NextMemWf (execHeartbeatRx hb s) := by
  unfold execHeartbeatRx
  dsimp only
  (repeat' split) <;> simp [hm]

theorem memWf_execFaultMessageRx {s : State} (hb : Heartbeat) (req : Bool) (hm : memWf s.mem = true) :
    NextMemWf (execFaultMessageRx hb req s) := by
  unfold execFaultMessageRx
  split
  · simpa using hm
  · extract_lets prev s1 src s2 s3
    have h3 : memWf s3.mem = true := by
      have h2 : s2.mem = s.mem := by simp [s2, s1]
      unfold s3
      rw [State.issueReset_mem]
      exact State.memWf_takeBeat _ _ (State.memWf_partnerAway (State.memWf_standbyWake (h2 ▸ hm)))
    (repeat' split) <;> simp [h3]

theorem memWf_execHeartbeatLost {s : State} (hm : memWf s.mem = true) : NextMemWf (execHeartbeatLost s) := by
  unfold execHeartbeatLost
  dsimp only
  (repeat' split) <;> simp [hm]

theorem memWf_execPairLaneFail {s : State} (k : Fin 2) (hm : memWf s.mem = true) : NextMemWf (execPairLaneFail k s) := by
  unfold execPairLaneFail
  split <;> simp [hm]

theorem memWf_execPairAuth {s : State} (h : PairHello) (hm : memWf s.mem = true) : NextMemWf (execPairAuth h s) := by
  unfold execPairAuth
  dsimp only
  (repeat' split) <;> simp [hm]

theorem memWf_execHeartbeatSend {s : State} (hm : memWf s.mem = true) : NextMemWf (execHeartbeatSend s) := by
  unfold execHeartbeatSend
  split <;> simp [hm]

theorem memWf_execPartnerReportRx {s : State} (kind : ReportKind) (ok : Bool) (hm : memWf s.mem = true) :
    NextMemWf (execPartnerReportRx kind ok s) := by
  unfold execPartnerReportRx
  rw [nextMemWf_next]
  cases kind with
  | handover => dsimp only; (repeat' split) <;> simp [hm]
  | _ => simp [hm]

theorem memWf_execSlotBAssertWait {s : State} (hm : memWf s.mem = true) : NextMemWf (execSlotBAssertWait s) := by
  unfold execSlotBAssertWait
  split <;> simp [hm]

theorem memWf_execTakeover {s : State} (hm : memWf s.mem = true) : NextMemWf (execTakeover s) := by
  unfold execTakeover
  dsimp only
  (repeat' split) <;> simp [hm]

theorem memWf_execVaneLineChange {s : State} (line : Side) (asserted : Bool) (hm : memWf s.mem = true) :
    NextMemWf (execVaneLineChange line asserted s) := by
  unfold execVaneLineChange
  dsimp only
  (repeat' split) <;> simp [hm]

theorem memWf_execSentinelCheck {s : State} (hm : memWf s.mem = true) : NextMemWf (execSentinelCheck s) := by
  unfold execSentinelCheck
  dsimp only
  (repeat' split) <;> simp [hm]

theorem memWf_execNoHolder {s : State} (hm : memWf s.mem = true) : NextMemWf (execNoHolder s) := by
  unfold execNoHolder
  dsimp only
  (repeat' split) <;> simp [hm]

theorem memWf_execPairResetIn {s : State} (hm : memWf s.mem = true) : NextMemWf (execPairResetIn s) := by
  unfold execPairResetIn
  split <;> simp [hm]

theorem memWf_execPairSwitch {s : State} (c : Cmd) (hm : memWf s.mem = true) : NextMemWf (execPairSwitch c s) := by
  refine nextMemWf_ownPrimary (fun t hm => ?_) hm
  (repeat' split) <;> simp [hm]

theorem memWf_execSwitchFinalClose {s : State} (hm : memWf s.mem = true) : NextMemWf (execSwitchFinalClose s) := by
  unfold execSwitchFinalClose
  dsimp only
  (repeat' split) <;> simp [hm]

theorem memWf_execPairRejoin {s : State} (c : Cmd) (hm : memWf s.mem = true) : NextMemWf (execPairRejoin c s) := by
  refine (nextMemWf_next _).2 (State.memWf_hostCmdBy (fun t hm => ?_) _ c _ _ _ hm)
  dsimp only
  (repeat' split) <;> simp [hm]

theorem memWf_execBaseCopyDone {s : State} (hm : memWf s.mem = true) : NextMemWf (execBaseCopyDone s) := by
  unfold execBaseCopyDone
  dsimp only
  (repeat' split) <;> simp [hm]

/-! ## Machine/Debug.lean -/

theorem memWf_execDebugToken {s : State} (t : Token) (hm : memWf s.mem = true) : NextMemWf (execDebugToken t s) := by
  unfold execDebugToken
  split <;> simp [hm]

theorem memWf_execDebugHaltRequest {s : State} (lane : Fin 8) (hm : memWf s.mem = true) : NextMemWf (execDebugHaltRequest lane s) := by
  unfold execDebugHaltRequest
  (repeat' split) <;> simp [hm]

theorem memWf_execDebugResetRequest {s : State} (hm : memWf s.mem = true) : NextMemWf (execDebugResetRequest s) := by
  unfold execDebugResetRequest
  (repeat' split) <;> simp [hm]

theorem memWf_execDebugAccess {s : State} (t : Txn) (hm : memWf s.mem = true) : NextMemWf (execDebugAccess t s) := by
  unfold execDebugAccess
  dsimp only
  (repeat' split) <;> simp [hm]

/-! ## Machine/Lifecycle.lean -/

theorem memWf_execAttest {s : State} (c : Cmd) (hm : memWf s.mem = true) : NextMemWf (execAttest c s) := by
  refine nextMemWf_hostCmd (fun t hm => ?_) hm
  dsimp only
  (repeat' split) <;> simp [hm]

theorem memWf_execLifecycleAdvance {s : State} (c : Cmd) (proofOk : Bool) (hm : memWf s.mem = true) :
    NextMemWf (execLifecycleAdvance c proofOk s) := by
  refine nextMemWf_lifeCmd (fun t hm => ?_) hm
  dsimp only
  (repeat' split) <;> simp [hm]

theorem memWf_execEnrolIntegrator {s : State} (c : Cmd) (proofOk : Bool) (hm : memWf s.mem = true) :
    NextMemWf (execEnrolIntegrator c proofOk s) := by
  refine nextMemWf_lifeCmd (fun t => memWf_keySet (fun t hm => ?_) c _ _) hm
  dsimp only
  split <;> simp [hm]

theorem memWf_execRevokeIntegrator {s : State} (c : Cmd) (hm : memWf s.mem = true) : NextMemWf (execRevokeIntegrator c s) := by
  refine nextMemWf_lifeCmd (fun t => memWf_keySet (fun t hm => ?_) c _ _) hm
  dsimp only
  split <;> simp [hm]

theorem memWf_execGrantService {s : State} (c : Cmd) (proofOk : Bool) (hm : memWf s.mem = true) :
    NextMemWf (execGrantService c proofOk s) := by
  refine nextMemWf_lifeCmd (fun t => memWf_keySet (fun t hm => ?_) c _ _) hm
  dsimp only
  split <;> simp [hm]

theorem memWf_execRevokeService {s : State} (c : Cmd) (hm : memWf s.mem = true) : NextMemWf (execRevokeService c s) := by
  refine nextMemWf_lifeCmd (fun t => memWf_keySet (fun t hm => ?_) c _ _) hm
  simp [hm]

theorem memWf_execReplaceOwner {s : State} (c : Cmd) (proofOk : Bool) (hm : memWf s.mem = true) :
    NextMemWf (execReplaceOwner c proofOk s) := by
  refine nextMemWf_lifeCmd (fun t => memWf_keySet (fun t hm => ?_) c _ _) hm
  simp [hm]

/-! ## Machine/LongOps.lean -/

theorem memWf_execOpSuspend {s : State} (c : Cmd) (hm : memWf s.mem = true) : NextMemWf (execOpSuspend c s) := by
  refine (nextMemWf_next _).2 (State.memWf_hostCmdBy (fun t hm => ?_) _ c _ _ _ hm)
  split
  · simpa using hm
  · dsimp only
    (repeat' split) <;> simp [hm]

theorem memWf_execOpResume {s : State} (c : Cmd) (hm : memWf s.mem = true) : NextMemWf (execOpResume c s) := by
  refine (nextMemWf_next _).2 (State.memWf_hostCmdBy (fun t hm => ?_) _ c _ _ _ hm)
  split
  · simpa using hm
  · dsimp only
    (repeat' split) <;> simp [hm]

theorem memWf_execOpCancel {s : State} (c : Cmd) (hm : memWf s.mem = true) : NextMemWf (execOpCancel c s) := by
  refine (nextMemWf_next _).2 (State.memWf_hostCmdBy (fun t hm => ?_) _ c _ _ _ hm)
  split
  · simpa using hm
  · dsimp only
    (repeat' split) <;> simp [hm]

theorem memWf_execSuspendPointReached {s : State} (sess : BitVec 16) (cmdId : BitVec 32) (hm : memWf s.mem = true) :
    NextMemWf (execSuspendPointReached sess cmdId s) := by
  unfold execSuspendPointReached
  (repeat' split) <;> simp [hm]

theorem memWf_execScrub {s : State} (c : Cmd) (hm : memWf s.mem = true) : NextMemWf (execScrub c s) :=
  nextMemWf_hostCmd (fun _ => memWf_testSet (fun t hm => by simp [hm]) c _) hm

theorem memWf_execFlashVerify {s : State} (c : Cmd) (hm : memWf s.mem = true) : NextMemWf (execFlashVerify c s) :=
  nextMemWf_hostCmd (fun _ => memWf_testSet (fun t hm => by simp [hm]) c _) hm

theorem memWf_execLaneInject {s : State} (c : Cmd) (hm : memWf s.mem = true) : NextMemWf (execLaneInject c s) := by
  refine nextMemWf_hostCmd (fun _ => memWf_testSet (fun t hm => ?_) c _) hm
  dsimp only
  (repeat' split) <;> simp [hm]

theorem memWf_execLaneInjectTimeout {s : State} (hm : memWf s.mem = true) : NextMemWf (execLaneInjectTimeout s) := by
  unfold execLaneInjectTimeout
  (repeat' split) <;> simp [hm]

theorem memWf_execTrackSnapshot {s : State} (c : Cmd) (hm : memWf s.mem = true) : NextMemWf (execTrackSnapshot c s) := by
  refine nextMemWf_hostCmd (fun t hm => ?_) hm
  dsimp only
  (repeat' split) <;> simp [hm]

theorem memWf_execLongOperationProgress {s : State} (sess : BitVec 16) (cmdId : BitVec 32) (done total : Nat) (ok : ChunkEnd)
    (hm : memWf s.mem = true) : NextMemWf (execLongOperationProgress sess cmdId done total ok s) := by
  unfold execLongOperationProgress
  (repeat' split) <;> simp [hm]

/-! ## Machine/StationMgr.lean -/

theorem memWf_execInFrameRx {s : State} (ch : Side) (f : Frame) (hm : memWf s.mem = true) : NextMemWf (execInFrameRx ch f s) := by
  unfold execInFrameRx
  dsimp only
  (repeat' split) <;> simp [hm]

theorem memWf_execUpstreamFrameAtGuardian {s : State} (branch : Fin 16) (seen : Seen) (f : Frame) (hm : memWf s.mem = true) :
    NextMemWf (execUpstreamFrameAtGuardian branch seen f s) := by
  unfold execUpstreamFrameAtGuardian
  dsimp only
  (repeat' split) <;> simp [hm]

theorem memWf_execEvtFrameRx {s : State} (ch : Side) (f : Frame) (hm : memWf s.mem = true) : NextMemWf (execEvtFrameRx ch f s) := by
  unfold execEvtFrameRx
  split <;> simp [hm]

theorem memWf_execCfgResponseRx {s : State} (ch : Side) (f : Frame) (hm : memWf s.mem = true) : NextMemWf (execCfgResponseRx ch f s) := by
  unfold execCfgResponseRx
  dsimp only
  (repeat' split) <;> simp [hm]

theorem memWf_execDelayReportRx {s : State} (ch : Side) (t4 : Nat) (f : Frame) (hm : memWf s.mem = true) :
    NextMemWf (execDelayReportRx ch t4 f s) := by
  unfold execDelayReportRx
  dsimp only
  (repeat' split) <;> simp [hm]

theorem memWf_execCfgRequestTimeout {s : State} (branch : Fin 16) (tag : Nat) (hm : memWf s.mem = true) :
    NextMemWf (execCfgRequestTimeout branch tag s) := by
  unfold execCfgRequestTimeout
  dsimp only
  (repeat' split) <;> simp [hm]

theorem memWf_execStationRetryTimer {s : State} (code : Nat) (hm : memWf s.mem = true) : NextMemWf (execStationRetryTimer code s) := by
  unfold execStationRetryTimer
  (repeat' split) <;> simp [hm]

theorem memWf_execJoiningTimeout {s : State} (code : Nat) (hm : memWf s.mem = true) : NextMemWf (execJoiningTimeout code s) := by
  unfold execJoiningTimeout
  (repeat' split) <;> simp [hm]

theorem memWf_execCountersPoll {s : State} (hm : memWf s.mem = true) : NextMemWf (execCountersPoll s) := by
  unfold execCountersPoll
  split <;> simp [hm]

theorem memWf_execStationStateRx {s : State} (code st : Nat) (wasLost : Bool) (miss good losses refusal : Nat) (hm : memWf s.mem = true) :
    NextMemWf (execStationStateRx code st wasLost miss good losses refusal s) := by
  unfold execStationStateRx
  dsimp only
  (repeat' split) <;> simp [hm]

theorem memWf_execPartnerContentRx {s : State} (win late : Nat) (f : Frame) (hm : memWf s.mem = true) :
    NextMemWf (execPartnerContentRx win late f s) := by
  unfold execPartnerContentRx
  dsimp only
  (repeat' split) <;> simp [hm]

theorem memWf_execStationReintegrate {s : State} (c : Cmd) (hm : memWf s.mem = true) : NextMemWf (execStationReintegrate c s) := by
  refine nextMemWf_ownPrimary (fun t hm => ?_) hm
  dsimp only
  (repeat' split) <;> simp [hm]

/-! ## Machine/Cycle.lean -/

theorem memWf_execCycleStart {s : State} (hm : memWf s.mem = true) : NextMemWf (execCycleStart s) := by
  unfold execCycleStart
  dsimp only
  (repeat' split) <;> simp [hm]

theorem memWf_execNetStall {s : State} (hm : memWf s.mem = true) : NextMemWf (execNetStall s) := by
  unfold execNetStall
  dsimp only
  (repeat' split) <;> simp [hm]

theorem memWf_execStillPoint {s : State} (hm : memWf s.mem = true) : NextMemWf (execStillPoint s) := by
  unfold execStillPoint
  dsimp only
  (repeat' split) <;> simp [hm]

theorem memWf_execInputClose {s : State} (w : TrkWork) (hm : memWf s.mem = true) : NextMemWf (execInputClose w s) := by
  unfold execInputClose
  split <;> simp [hm]

theorem memWf_execCycleMark {s : State} (m : Fin 16) (hm : memWf s.mem = true) : NextMemWf (execCycleMark m s) := by
  have hf {t : State} (l : List TaskCfg) (hm : memWf t.mem = true) :
      memWf (l.foldl (fun s t => s.release { task := t.num, src := 1, bytes := [] }) (if l.isEmpty then t else t.firstReleases)).mem =
        true :=
    memWf_foldl_state _ (fun _ _ => State.memWf_release _) _ (by split <;> simp [hm])
  unfold execCycleMark
  split
  · simpa using hm
  · split
    · simpa using hm
    · refine (nextMemWf_next _).2 (hf _ ?_)
      rw [foldl_mem _ fun s l => by split <;> simp]
      (repeat' split) <;> simp [hm]

theorem memWf_execOutputCutoff {s : State} (hm : memWf s.mem = true) : NextMemWf (execOutputCutoff s) := by
  unfold execOutputCutoff
  dsimp only
  (repeat' split) <;> simp [apply_ite State.mem, hm]

theorem memWf_execDownstreamWindow {s : State} (win late : Nat) (hm : memWf s.mem = true) :
    NextMemWf (execDownstreamWindow win late s) := by
  unfold execDownstreamWindow
  dsimp only
  (repeat' split) <;> simp [hm]

/-! ## Machine/ColdStart.lean -/

theorem memWf_execTimeTransfer {s : State} (linkDelay took : Nat) (offset : Int) (content : Option SyncContent) (hm : memWf s.mem = true) :
    NextMemWf (execTimeTransfer linkDelay took offset content s) := by
  unfold execTimeTransfer
  extract_lets bound last
  split
  · simpa using hm
  · split
    next u ok hu =>
    have h0 : u.mem = s.mem := by simpa [hu] using State.transfer_mem s linkDelay
    split
    · simpa [h0] using hm
    · extract_lets s1 s2 b s3 s4 
      have h1 : s1.mem = s.mem := by simp [s1, apply_ite State.mem, h0]
      have h2 : s2.mem = s.mem := by simp [s2, apply_ite State.mem, h1]
      have h3 : s3.mem = s.mem := by unfold s3; split <;> simp [h2]
      have h4 : s4.mem = s.mem := by simp [s4, apply_ite State.mem, h3]
      rw [nextMemWf_next, State.passSync_mem]
      split <;> simp [h4, hm]

theorem memWf_execListenTimerExpiry {s : State} (hm : memWf s.mem = true) : NextMemWf (execListenTimerExpiry s) := by
  unfold execListenTimerExpiry
  dsimp only
  (repeat' split) <;> simp [hm]

theorem memWf_execPartnerCstartRx {s : State} (cs : CStart) (hm : memWf s.mem = true) : NextMemWf (execPartnerCstartRx cs s) := by
  unfold execPartnerCstartRx
  dsimp only
  (repeat' split) <;> simp [hm]

theorem memWf_execCstartStartTime {s : State} (hm : memWf s.mem = true) : NextMemWf (execCstartStartTime s) := by
  unfold execCstartStartTime
  (repeat' split) <;> simp [hm]

theorem memWf_execContentionEnd {s : State} (hm : memWf s.mem = true) : NextMemWf (execContentionEnd s) := by
  unfold execContentionEnd
  (repeat' split) <;> simp [hm]

theorem memWf_execTransferLossTimer {s : State} (hm : memWf s.mem = true) : NextMemWf (execTransferLossTimer s) := by
  unfold execTransferLossTimer
  (repeat' split) <;> simp [hm]

/-! ## Machine/LaneIssue.lean -/

theorem memWf_execRegisterWrite {s : State} (by_ : RegBy) (addr size : Nat) (v : Word) (hm : memWf s.mem = true) :
    NextMemWf (execRegisterWrite by_ addr size v s) := by
  unfold execRegisterWrite
  (repeat' split) <;> simp [hm]

theorem memWf_execTaskDispatch {s : State} (lane : Fin 8) (copy : Side) (hm : memWf s.mem = true) :
    NextMemWf (execTaskDispatch lane copy s) := by
  unfold execTaskDispatch
  split <;> simp [hm]

theorem memWf_execTaskDone {s : State} (lane : Fin 8) (copy : Side) (v : Word) (hm : memWf s.mem = true) :
    NextMemWf (execTaskDone lane copy v s) := by
  unfold execTaskDone
  simp [hm]

theorem memWf_execCreate {s : State} (lane : Fin 8) (residue : Bool) (hm : memWf s.mem = true) : NextMemWf (execCreate lane residue s) := by
  unfold execCreate
  simp [hm]

theorem memWf_execDelete {s : State} (lane : Fin 8) (hm : memWf s.mem = true) : NextMemWf (execDelete lane s) := by
  unfold execDelete
  simp [hm]

theorem memWf_execSetTag {s : State} (lane : Fin 8) (hm : memWf s.mem = true) : NextMemWf (execSetTag lane s) := by
  unfold execSetTag
  simp [hm]

theorem memWf_execMove {s : State} (lane : Fin 8) (residue : Bool) (hm : memWf s.mem = true) : NextMemWf (execMove lane residue s) := by
  unfold execMove
  simp [hm]

theorem memWf_execUnfreeze {s : State} (lane : Fin 8) (hm : memWf s.mem = true) : NextMemWf (execUnfreeze lane s) := by
  unfold execUnfreeze
  simp [hm]

theorem memWf_execNetActPushT {s : State} (lane : Fin 8) (time : Word) (hm : memWf s.mem = true) :
    NextMemWf (execNetActPushT lane time s) := by
  unfold execNetActPushT
  simp [hm]

theorem memWf_execActCancel {s : State} (lane : Fin 8) (time : Word) (hm : memWf s.mem = true) : NextMemWf (execActCancel lane time s) := by
  unfold execActCancel
  simp [hm]

/-! ## Machine/Power.lean -/

theorem memWf_execWatchdogRestart {s : State} (hm : memWf s.mem = true) : NextMemWf (execWatchdogRestart s) := by
  unfold execWatchdogRestart
  simp [hm]

theorem memWf_execWatchdogExpiry {s : State} (hm : memWf s.mem = true) : NextMemWf (execWatchdogExpiry s) := by
  unfold execWatchdogExpiry
  dsimp only
  (repeat' split) <;> simp [hm]

theorem memWf_execFeedLoss {s : State} (feed : Side) (mv : Nat) (hm : memWf s.mem = true) : NextMemWf (execFeedLoss feed mv s) := by
  unfold execFeedLoss
  simp [hm]

theorem memWf_execFeedOvervoltage {s : State} (feed : Side) (mv : Nat) (hm : memWf s.mem = true) :
    NextMemWf (execFeedOvervoltage feed mv s) := by
  unfold execFeedOvervoltage
  simp [hm]

theorem memWf_execFeedPath {s : State} (feed : Side) (cause : Nat) (hm : memWf s.mem = true) : NextMemWf (execFeedPath feed cause s) := by
  unfold execFeedPath
  split <;> simp [hm]

theorem memWf_execFeedReturned {s : State} (feed : Side) (mv : Nat) (hm : memWf s.mem = true) : NextMemWf (execFeedReturned feed mv s) := by
  unfold execFeedReturned
  dsimp only
  (repeat' split) <;> simp [hm]

theorem memWf_execHoldupVaneRelease {s : State} (hm : memWf s.mem = true) : NextMemWf (execHoldupVaneRelease s) := by
  unfold execHoldupVaneRelease
  dsimp only
  (repeat' split) <;> simp [hm]

theorem memWf_execHoldupCommit {s : State} (hm : memWf s.mem = true) : NextMemWf (execHoldupCommit s) := by
  unfold execHoldupCommit
  split <;> simp [hm]

theorem memWf_execHoldupDomainsOff {s : State} (hm : memWf s.mem = true) : NextMemWf (execHoldupDomainsOff s) := by
  unfold execHoldupDomainsOff
  split <;> simp [hm]

theorem memWf_execHoldupEnd {s : State} (hm : memWf s.mem = true) : NextMemWf (execHoldupEnd s) := by
  unfold execHoldupEnd
  dsimp only
  (repeat' split) <;> simp [hm]

theorem memWf_execAonPowerLoss (s : State) : NextMemWf (execAonPowerLoss s) := by
  unfold execAonPowerLoss
  simp

theorem memWf_execPowerGood {s : State} (slotHigh bkpOk : Bool) (hm : memWf s.mem = true) : NextMemWf (execPowerGood slotHigh bkpOk s) := by
  unfold execPowerGood
  (repeat' split) <;> simp [hm]

theorem memWf_execPresentSettled {s : State} (hm : memWf s.mem = true) : NextMemWf (execPresentSettled s) := by
  unfold execPresentSettled
  simp [hm]

theorem memWf_execDomainSupplyGood {s : State} (d : Fin 12) (hm : memWf s.mem = true) : NextMemWf (execDomainSupplyGood d s) := by
  unfold execDomainSupplyGood
  split <;> simp [hm]

theorem memWf_execDomainGoodTimeout {s : State} (d : Fin 12) (hm : memWf s.mem = true) : NextMemWf (execDomainGoodTimeout d s) := by
  unfold execDomainGoodTimeout
  dsimp only
  (repeat' split) <;> simp [hm]

theorem memWf_execDramWipeDone {s : State} (hm : memWf s.mem = true) : NextMemWf (execDramWipeDone s) := by
  unfold execDramWipeDone
  split <;> simp [hm]

theorem memWf_execLullServiceReached {s : State} (f : StartFind) (hm : memWf s.mem = true) : NextMemWf (execLullServiceReached f s) := by
  unfold execLullServiceReached
  dsimp only
  (repeat' split) <;> simp [hm]

theorem memWf_execFullServiceReady {s : State} (verdicts : List (List (Bool × Bool))) (hm : memWf s.mem = true) :
    NextMemWf (execFullServiceReady verdicts s) := by
  unfold execFullServiceReady
  dsimp only
  (repeat' split) <;> simp [hm]

theorem memWf_execDomainFault {s : State} (d : Fin 12) (hm : memWf s.mem = true) : NextMemWf (execDomainFault d s) := by
  unfold execDomainFault
  dsimp only
  (repeat' split) <;> simp [hm]

theorem memWf_execClockFault {s : State} (src : ClockSrc) (hm : memWf s.mem = true) : NextMemWf (execClockFault src s) := by
  unfold execClockFault
  split <;> simp [hm]

theorem memWf_execPresentLost {s : State} (hm : memWf s.mem = true) : NextMemWf (execPresentLost s) := by
  unfold execPresentLost
  dsimp only
  (repeat' split) <;> simp [hm]

theorem memWf_execSwapPress {s : State} (ms : Nat) (hm : memWf s.mem = true) : NextMemWf (execSwapPress ms s) := by
  unfold execSwapPress
  dsimp only
  (repeat' split) <;> simp [hm]

theorem memWf_execScrubPatrol {s : State} (addr : Nat) (uncorrectable : Bool) (hm : memWf s.mem = true) :
    NextMemWf (execScrubPatrol addr uncorrectable s) := by
  unfold execScrubPatrol
  split <;> simp [hm]

theorem memWf_execRngFail {s : State} (hm : memWf s.mem = true) : NextMemWf (execRngFail s) := by
  unfold execRngFail
  simp [hm]

theorem memWf_execRngRetest {s : State} (ok : Bool) (hm : memWf s.mem = true) : NextMemWf (execRngRetest ok s) := by
  unfold execRngRetest
  split <;> simp [hm]

theorem memWf_execPhyLinkChange {s : State} (port : PhyPort) (up : Bool) (hm : memWf s.mem = true) :
    NextMemWf (execPhyLinkChange port up s) := by
  unfold execPhyLinkChange
  split <;> simp [hm]

/-! ## Machine/Session.lean -/

theorem memWf_execNop {s : State} (c : Cmd) (hm : memWf s.mem = true) : NextMemWf (execNop c s) :=
  nextMemWf_hostCmd (fun t hm => by simp [hm]) hm

theorem memWf_execSessionOpen {s : State} (c : Cmd) (hm : memWf s.mem = true) : NextMemWf (execSessionOpen c s) :=
  nextMemWf_hostCmd (fun t hm => by simp [hm]) hm

theorem memWf_execSessionProve {s : State} (c : Cmd) (sigOk : Bool) (shared : Key) (hm : memWf s.mem = true) :
    NextMemWf (execSessionProve c sigOk shared s) :=
  nextMemWf_hostCmd (fun t hm => by simp [hm]) hm

theorem memWf_execSessionClose {s : State} (c : Cmd) (hm : memWf s.mem = true) : NextMemWf (execSessionClose c s) :=
  nextMemWf_hostCmd (fun t hm => by simp [hm]) hm

theorem memWf_execSessionTimeout {s : State} (sess : BitVec 16) (hm : memWf s.mem = true) : NextMemWf (execSessionTimeout sess s) := by
  unfold execSessionTimeout
  (repeat' split) <;> simp [hm]

/-! ## Machine/Stations.lean -/

theorem memWf_execStationSyncRx {s : State} (code : Nat) (ch : Side) (f : Frame) (spacingOk : Bool) (ofs : Int) (hm : memWf s.mem = true) :
    NextMemWf (execStationSyncRx code ch f spacingOk ofs s) := by
  unfold execStationSyncRx
  simp [hm]

theorem memWf_execStationCstartRx {s : State} (code : Nat) (ch : Side) (f : Frame) (hm : memWf s.mem = true) :
    NextMemWf (execStationCstartRx code ch f s) := by
  unfold execStationCstartRx
  simp [hm]

theorem memWf_execStationSyncMissed {s : State} (code : Nat) (hm : memWf s.mem = true) : NextMemWf (execStationSyncMissed code s) := by
  unfold execStationSyncMissed
  simp [hm]

theorem memWf_execStationOutRx {s : State} (code : Nat) (ch : Side) (f : Frame) (hm : memWf s.mem = true) :
    NextMemWf (execStationOutRx code ch f s) := by
  unfold execStationOutRx
  simp [hm]

theorem memWf_execStationOutApply {s : State} (code : Nat) (hm : memWf s.mem = true) : NextMemWf (execStationOutApply code s) := by
  unfold execStationOutApply
  simp [hm]

theorem memWf_execStationActRx {s : State} (code : Nat) (ch : Side) (win : Nat) (f : Frame) (hm : memWf s.mem = true) :
    NextMemWf (execStationActRx code ch win f s) := by
  unfold execStationActRx
  dsimp only
  (repeat' split) <;> simp [hm]

theorem memWf_execStationActInstant {s : State} (code : Nat) (point : Point) (hm : memWf s.mem = true) :
    NextMemWf (execStationActInstant code point s) := by
  unfold execStationActInstant
  dsimp only
  (repeat' split) <;> simp [hm]

theorem memWf_execStationWatchdogExpiry {s : State} (code : Nat) (hm : memWf s.mem = true) :
    NextMemWf (execStationWatchdogExpiry code s) := by
  unfold execStationWatchdogExpiry
  dsimp only
  (repeat' split) <;> simp [hm]

theorem memWf_execStationRestart {s : State} (code : Nat) (retains : Bool) (hm : memWf s.mem = true) :
    NextMemWf (execStationRestart code retains s) := by
  unfold execStationRestart
  simp [hm]

theorem memWf_execStationCfgRequest {s : State} (code : Nat) (ch : Side) (f : Frame) (hm : memWf s.mem = true) :
    NextMemWf (execStationCfgRequest code ch f s) := by
  unfold execStationCfgRequest
  simp [hm]

theorem memWf_execStationInSend {s : State} (code : Nat) (ch : Side) (latchDev : Int) (hm : memWf s.mem = true) :
    NextMemWf (execStationInSend code ch latchDev s) := by
  unfold execStationInSend
  dsimp only
  (repeat' split) <;> simp [hm]

theorem memWf_execStationArbSend {s : State} (code : Nat) (ch : Side) (startAt : Nat) (hm : memWf s.mem = true) :
    NextMemWf (execStationArbSend code ch startAt s) := by
  unfold execStationArbSend
  dsimp only
  (repeat' split) <;> simp [hm]

theorem memWf_execStationGuardFrame {s : State} (code : Nat) (ch : Side) (seen : Seen) (f : Frame) (hm : memWf s.mem = true) :
    NextMemWf (execStationGuardFrame code ch seen f s) := by
  unfold execStationGuardFrame
  dsimp only
  (repeat' split) <;> simp [hm]

/-! ## Machine/StatusCmd.lean -/

theorem memWf_execStatusGet {s : State} (c : Cmd) (hm : memWf s.mem = true) : NextMemWf (execStatusGet c s) := by
  refine nextMemWf_hostCmd (fun t hm => ?_) hm
  dsimp only
  split
  · simpa using hm
  · simp only [State.finalData_frame]
    rw [foldl_fst_mem _ fun x k => by simp]
    exact hm

/-! ## Every command and every step -/

/-- No command leaves memory outside its canonical form. -/
theorem memWf_exec (i : Instr) {s : State} (hm : memWf s.mem = true) : NextMemWf (exec i s) := by
  cases i with
  | nop c => exact memWf_execNop c hm
  | sessionOpen c => exact memWf_execSessionOpen c hm
  | sessionProve c sigOk shared => exact memWf_execSessionProve c sigOk shared hm
  | sessionClose c => exact memWf_execSessionClose c hm
  | statusGet c => exact memWf_execStatusGet c hm
  | rtcGet c => exact memWf_execRtcGet c hm
  | setUtc c => exact memWf_execSetUtc c hm
  | setCivil c => exact memWf_execSetCivil c hm
  | setTrim c => exact memWf_execSetTrim c hm
  | clearStamp c => exact memWf_execClearStamp c hm
  | writeBackup c => exact memWf_execWriteBackup c hm
  | rtcShift c => exact memWf_execRtcShift c hm
  | alarmSetArm c => exact memWf_execAlarmSetArm c hm
  | alarmSetDisarm c => exact memWf_execAlarmSetDisarm c hm
  | logRead c => exact memWf_execLogRead c hm
  | logClearRing c => exact memWf_execLogClearRing c hm
  | logClearArchive c => exact memWf_execLogClearArchive c hm
  | gustTableReplace c => exact memWf_execGustTableReplace c hm
  | gustTableDefault c => exact memWf_execGustTableDefault c hm
  | logExport c => exact memWf_execLogExport c hm
  | forceSet c => exact memWf_execForceSet c hm
  | forceRelease c => exact memWf_execForceRelease c hm
  | forceReleaseAll c => exact memWf_execForceReleaseAll c hm
  | forceList c => exact memWf_execForceList c hm
  | appLoad c img => exact memWf_execAppLoad c img hm
  | appChange c img => exact memWf_execAppChange c img hm
  | appRollback c => exact memWf_execAppRollback c hm
  | appStart c => exact memWf_execAppStart c hm
  | appStop c => exact memWf_execAppStop c hm
  | taskRelease c => exact memWf_execTaskRelease c hm
  | fwStage c img => exact memWf_execFwStage c img hm
  | fwHandover c => exact memWf_execFwHandover c hm
  | fwConfirm c => exact memWf_execFwConfirm c hm
  | fwFallback c => exact memWf_execFwFallback c hm
  | netConfigure c => exact memWf_execNetConfigure c hm
  | netConfigureNext c => exact memWf_execNetConfigureNext c hm
  | netStart c => exact memWf_execNetStart c hm
  | stationReintegrate c => exact memWf_execStationReintegrate c hm
  | pairSwitch c => exact memWf_execPairSwitch c hm
  | pairRejoin c => exact memWf_execPairRejoin c hm
  | attest c => exact memWf_execAttest c hm
  | lifecycleAdvance c proofOk => exact memWf_execLifecycleAdvance c proofOk hm
  | enrolIntegrator c proofOk => exact memWf_execEnrolIntegrator c proofOk hm
  | revokeIntegrator c => exact memWf_execRevokeIntegrator c hm
  | grantService c proofOk => exact memWf_execGrantService c proofOk hm
  | revokeService c => exact memWf_execRevokeService c hm
  | replaceOwner c proofOk => exact memWf_execReplaceOwner c proofOk hm
  | marginReport c => exact memWf_execMarginReport c hm
  | marginReplan c => exact memWf_execMarginReplan c hm
  | scrub c => exact memWf_execScrub c hm
  | flashVerify c => exact memWf_execFlashVerify c hm
  | laneInject c => exact memWf_execLaneInject c hm
  | opSuspend c => exact memWf_execOpSuspend c hm
  | opResume c => exact memWf_execOpResume c hm
  | opCancel c => exact memWf_execOpCancel c hm
  | trackSnapshot c => exact memWf_execTrackSnapshot c hm
  | suspendPointReached sess cmdId => exact memWf_execSuspendPointReached sess cmdId hm
  | imageStagingDone sess cmdId => exact memWf_execImageStagingDone sess cmdId hm
  | hqSqTail q v descs ring => exact memWf_execHqSqTail q v descs ring hm
  | hqCqHead q v => exact memWf_execHqCqHead q v hm
  | hqEvHead v => exact memWf_execHqEvHead v hm
  | queueEnable => exact memWf_execQueueEnable hm
  | queueDisable => exact memWf_execQueueDisable hm
  | queueDrained q => exact memWf_execQueueDrained q hm
  | eventRingEnable => exact memWf_execEventRingEnable hm
  | eventRingDisable => exact memWf_execEventRingDisable hm
  | hifResetHost => exact memWf_execHifResetHost hm
  | hifResetWarm => exact memWf_execHifResetWarm hm
  | pairCtrl v => exact memWf_execPairCtrl v hm
  | ethApply port => exact memWf_execEthApply port hm
  | registerWrite by_ addr size v => exact memWf_execRegisterWrite by_ addr size v hm
  | interruptHoldoffExpiry vec => exact memWf_execInterruptHoldoffExpiry vec hm
  | busyEnter => exact memWf_execBusyEnter hm
  | busyEnd => exact memWf_execBusyEnd hm
  | sessionTimeout sess => exact memWf_execSessionTimeout sess hm
  | tlsConnect port handshakeOk => exact memWf_execTlsConnect port handshakeOk hm
  | capsuleRx conn cap => exact memWf_execCapsuleRx conn cap hm
  | tlsClose conn => exact memWf_execTlsClose conn hm
  | hifLinkReset => exact memWf_execHifLinkReset hm
  | taskDone lane copy v => exact memWf_execTaskDone lane copy v hm
  | taskDispatch lane copy => exact memWf_execTaskDispatch lane copy hm
  | taskTrap lane copy cause addr => exact memWf_execTaskTrap lane copy cause addr hm
  | deliveryRequest lane cA cB => exact memWf_execDeliveryRequest lane cA cB hm
  | laneTimerExpiry lane => exact memWf_execLaneTimerExpiry lane hm
  | softwareInterrupt src dst => exact memWf_execSoftwareInterrupt src dst hm
  | wfi lane copy it flt => exact memWf_execWfi lane copy it flt hm
  | comparedItem lane copy it flt => exact memWf_execComparedItem lane copy it flt hm
  | skewTime lane => exact memWf_execSkewTime lane hm
  | readReturn lane errA errB => exact memWf_execReadReturn lane errA errB hm
  | interconnectTransaction t => exact memWf_execInterconnectTransaction t hm
  | l1ParityError lane copy line => exact memWf_execL1ParityError lane copy line hm
  | laneFaultFlashCommit => exact memWf_execLaneFaultFlashCommit hm
  | pairResetRequestTimeout => exact memWf_execPairResetRequestTimeout hm
  | laneWake => exact memWf_execLaneWake hm
  | laneParkTimeout => exact memWf_execLaneParkTimeout hm
  | cycleStart => exact memWf_execCycleStart hm
  | netStall => exact memWf_execNetStall hm
  | stillPoint => exact memWf_execStillPoint hm
  | inputClose w => exact memWf_execInputClose w hm
  | cycleMark m => exact memWf_execCycleMark m hm
  | outputCutoff => exact memWf_execOutputCutoff hm
  | downstreamWindow win late => exact memWf_execDownstreamWindow win late hm
  | heartbeatSend => exact memWf_execHeartbeatSend hm
  | mirrorTransferClose => exact memWf_execMirrorTransferClose hm
  | mirrorAckDeadline => exact memWf_execMirrorAckDeadline hm
  | inFrameRx ch f => exact memWf_execInFrameRx ch f hm
  | upstreamFrameAtGuardian branch seen f => exact memWf_execUpstreamFrameAtGuardian branch seen f hm
  | evtFrameRx ch f => exact memWf_execEvtFrameRx ch f hm
  | cfgResponseRx ch f => exact memWf_execCfgResponseRx ch f hm
  | delayReportRx ch t4 f => exact memWf_execDelayReportRx ch t4 f hm
  | cfgRequestTimeout branch tag => exact memWf_execCfgRequestTimeout branch tag hm
  | stationRetryTimer code => exact memWf_execStationRetryTimer code hm
  | joiningTimeout code => exact memWf_execJoiningTimeout code hm
  | countersPoll => exact memWf_execCountersPoll hm
  | timeTransfer linkDelay took offset content => exact memWf_execTimeTransfer linkDelay took offset content hm
  | listenTimerExpiry => exact memWf_execListenTimerExpiry hm
  | partnerCstartRx cs => exact memWf_execPartnerCstartRx cs hm
  | cstartStartTime => exact memWf_execCstartStartTime hm
  | contentionEnd => exact memWf_execContentionEnd hm
  | transferLossTimer => exact memWf_execTransferLossTimer hm
  | heartbeatRx hb => exact memWf_execHeartbeatRx hb hm
  | faultMessageRx hb req => exact memWf_execFaultMessageRx hb req hm
  | heartbeatLost => exact memWf_execHeartbeatLost hm
  | pairLaneFail k => exact memWf_execPairLaneFail k hm
  | pairAuth h => exact memWf_execPairAuth h hm
  | partnerContentRx win late f => exact memWf_execPartnerContentRx win late f hm
  | stationStateRx code st wasLost miss good losses refusal => exact memWf_execStationStateRx code st wasLost miss good losses refusal hm
  | pairConfigRx length buf next switchN => exact memWf_execPairConfigRx length buf next switchN hm
  | pairImageRx img => exact memWf_execPairImageRx img hm
  | changeAnnounceRx n => exact memWf_execChangeAnnounceRx n hm
  | mirrorBlockRx xfer block lines forceVer digest => exact memWf_execMirrorBlockRx xfer block lines forceVer digest hm
  | resendRequestRx block => exact memWf_execResendRequestRx block hm
  | closeBlockRx xfer blocks commit slice audit fin => exact memWf_execCloseBlockRx xfer blocks commit slice audit fin hm
  | transferAckRx xfer => exact memWf_execTransferAckRx xfer hm
  | snapshotTransferRx cycle lines complete => exact memWf_execSnapshotTransferRx cycle lines complete hm
  | baseChunkRx chunk => exact memWf_execBaseChunkRx chunk hm
  | baseCopyDone => exact memWf_execBaseCopyDone hm
  | vaneLineChange line asserted => exact memWf_execVaneLineChange line asserted hm
  | takeover => exact memWf_execTakeover hm
  | sentinelCheck => exact memWf_execSentinelCheck hm
  | noHolder => exact memWf_execNoHolder hm
  | slotBAssertWait => exact memWf_execSlotBAssertWait hm
  | switchFinalClose => exact memWf_execSwitchFinalClose hm
  | changeQ => exact memWf_execChangeQ hm
  | rollbackPeriodEnd => exact memWf_execRollbackPeriodEnd hm
  | pairResetIn => exact memWf_execPairResetIn hm
  | watchdogRestart => exact memWf_execWatchdogRestart hm
  | watchdogExpiry => exact memWf_execWatchdogExpiry hm
  | netActPushT lane time => exact memWf_execNetActPushT lane time hm
  | actCancel lane time => exact memWf_execActCancel lane time hm
  | localActInstant ch => exact memWf_execLocalActInstant ch hm
  | create lane residue => exact memWf_execCreate lane residue hm
  | delete lane => exact memWf_execDelete lane hm
  | setTag lane => exact memWf_execSetTag lane hm
  | move lane residue => exact memWf_execMove lane residue hm
  | unfreeze lane => exact memWf_execUnfreeze lane hm
  | lioTripClr group v => exact memWf_execLioTripClr group v hm
  | wbUpdateSet => exact memWf_execWbUpdateSet hm
  | wbUpdateClear => exact memWf_execWbUpdateClear hm
  | wbLoadSet => exact memWf_execWbLoadSet hm
  | wbRgnWrite r reg v => exact memWf_execWbRgnWrite r reg v hm
  | wbAbortedClear => exact memWf_execWbAbortedClear hm
  | wbUpdateTimeout => exact memWf_execWbUpdateTimeout hm
  | lioDebounceDone ch high edgeTime => exact memWf_execLioDebounceDone ch high edgeTime hm
  | lioBand ch => exact memWf_execLioBand ch hm
  | wireBreak ch below => exact memWf_execWireBreak ch below hm
  | lioOutputFault ch terminalHigh => exact memWf_execLioOutputFault ch terminalHigh hm
  | lioFaultClear ch => exact memWf_execLioFaultClear ch hm
  | overcurrentTrip ch => exact memWf_execOvercurrentTrip ch hm
  | thermalTrip ch => exact memWf_execThermalTrip ch hm
  | tripRetryExpiry ch => exact memWf_execTripRetryExpiry ch hm
  | supplySag group => exact memWf_execSupplySag group hm
  | supplyLow group => exact memWf_execSupplyLow group hm
  | supplyRise group => exact memWf_execSupplyRise group hm
  | supplyDip group => exact memWf_execSupplyDip group hm
  | recoveringTimerExpiry group levels => exact memWf_execRecoveringTimerExpiry group levels hm
  | ptpAnnounceRx port m => exact memWf_execPtpAnnounceRx port m hm
  | ptpSyncRx port m => exact memWf_execPtpSyncRx port m hm
  | ptpSyncTimeout => exact memWf_execPtpSyncTimeout hm
  | leapSecond insert => exact memWf_execLeapSecond insert hm
  | calendarDiscipline => exact memWf_execCalendarDiscipline hm
  | alarmFire => exact memWf_execAlarmFire hm
  | calendarEnd => exact memWf_execCalendarEnd hm
  | batteryTest mv => exact memWf_execBatteryTest mv hm
  | bkpSwitch => exact memWf_execBkpSwitch hm
  | gustRefill code => exact memWf_execGustRefill code hm
  | archiveCommit => exact memWf_execArchiveCommit hm
  | holdBufferFlush => exact memWf_execHoldBufferFlush hm
  | feedLoss feed mv => exact memWf_execFeedLoss feed mv hm
  | feedOvervoltage feed mv => exact memWf_execFeedOvervoltage feed mv hm
  | feedPath feed cause => exact memWf_execFeedPath feed cause hm
  | feedReturned feed mv => exact memWf_execFeedReturned feed mv hm
  | holdupVaneRelease => exact memWf_execHoldupVaneRelease hm
  | holdupCommit => exact memWf_execHoldupCommit hm
  | holdupDomainsOff => exact memWf_execHoldupDomainsOff hm
  | holdupEnd => exact memWf_execHoldupEnd hm
  | aonPowerLoss => exact memWf_execAonPowerLoss s
  | powerGood slotHigh bkpOk => exact memWf_execPowerGood slotHigh bkpOk hm
  | domainFault d => exact memWf_execDomainFault d hm
  | domainGoodTimeout d => exact memWf_execDomainGoodTimeout d hm
  | clockFault src => exact memWf_execClockFault src hm
  | dramWipeDone => exact memWf_execDramWipeDone hm
  | lullServiceReached f => exact memWf_execLullServiceReached f hm
  | fullServiceReady verdicts => exact memWf_execFullServiceReady verdicts hm
  | fwStartTimeout => exact memWf_execFwStartTimeout hm
  | presentSettled => exact memWf_execPresentSettled hm
  | presentLost => exact memWf_execPresentLost hm
  | swapPress ms => exact memWf_execSwapPress ms hm
  | scrubPatrol addr uncorrectable => exact memWf_execScrubPatrol addr uncorrectable hm
  | rngFail => exact memWf_execRngFail hm
  | rngRetest ok => exact memWf_execRngRetest ok hm
  | marginMeasure kind inst value => exact memWf_execMarginMeasure kind inst value hm
  | marginDaily dates => exact memWf_execMarginDaily dates hm
  | debugToken t => exact memWf_execDebugToken t hm
  | debugHaltRequest lane => exact memWf_execDebugHaltRequest lane hm
  | debugResetRequest => exact memWf_execDebugResetRequest hm
  | debugAccess t => exact memWf_execDebugAccess t hm
  | stationSyncRx code ch f spacingOk ofs => exact memWf_execStationSyncRx code ch f spacingOk ofs hm
  | stationActRx code ch win f => exact memWf_execStationActRx code ch win f hm
  | stationActInstant code point => exact memWf_execStationActInstant code point hm
  | stationOutApply code => exact memWf_execStationOutApply code hm
  | stationWatchdogExpiry code => exact memWf_execStationWatchdogExpiry code hm
  | stationRestart code retains => exact memWf_execStationRestart code retains hm
  | stationCfgRequest code ch f => exact memWf_execStationCfgRequest code ch f hm
  | stationGuardFrame code ch seen f => exact memWf_execStationGuardFrame code ch seen f hm
  | partnerReportRx kind ok => exact memWf_execPartnerReportRx kind ok hm
  | stationInSend code ch latchDev => exact memWf_execStationInSend code ch latchDev hm
  | stationArbSend code ch startAt => exact memWf_execStationArbSend code ch startAt hm
  | stationOutRx code ch f => exact memWf_execStationOutRx code ch f hm
  | stationCstartRx code ch f => exact memWf_execStationCstartRx code ch f hm
  | stationSyncMissed code => exact memWf_execStationSyncMissed code hm
  | phyLinkChange port up => exact memWf_execPhyLinkChange port up hm
  | firmwareWarmRestart => exact memWf_execFirmwareWarmRestart hm
  | laneInjectTimeout => exact memWf_execLaneInjectTimeout hm
  | longOperationProgress sess cmdId done total ok => exact memWf_execLongOperationProgress sess cmdId done total ok hm
  | domainSupplyGood d => exact memWf_execDomainSupplyGood d hm

/-- A step is the first waiting command, or the passing of an empty queue, which leaves memory alone. -/
theorem memWf_step {s : State} (hm : memWf s.mem = true) : NextMemWf (step s) := by
  unfold step
  split
  · simpa using hm
  · exact memWf_exec _ hm

/-- Settles O48: every command and every step keeps the canonical form. -/
theorem memoryStaysCanonical : Obligations.MemoryStaysCanonical := by
  unfold Obligations.MemoryStaysCanonical
  exact ⟨fun i _ t hm h => memWf_exec i hm t h, fun _ t hm h => memWf_step hm t h⟩

end Sys2Proof.Machine
end

section
/-! Tasks on their lanes (02 R42, R50, R51, R554, R555): a task and a lane after an update, the write of a lane's control register that reaches
it, and what dispatch, completion and delivery make of a task. -/

namespace Sys2Proof.Machine
open Sys2Proof

/-! ## A task and a lane after an update -/

/-- An updated task reads as the update of what it was. -/
theorem State.taskAt_onTask {s : State} {n : Nat} (f : Task → Task) (hn : n < 32) : (s.onTask n f).taskAt n = f (s.taskAt n) := by
  simp [State.taskAt, State.onTask, hn]

/-- What a lane does leaves the tasks as they were. -/
@[simp] theorem State.taskAt_onLane (s : State) (l n : Nat) (f : Lane → Lane) : (s.onLane l f).taskAt n = s.taskAt n := rfl

@[simp] theorem State.taskAt_setCur (s : State) (l n task : Nat) (c : Side) (idle : Bool) :
    (s.setCur l c task idle).taskAt n = s.taskAt n := rfl

@[simp] theorem State.taskAt_answer (s : State) (n : Nat) (d : List Byte) : (s.answer d).taskAt n = s.taskAt n := rfl

/-- The time of a running task is charged to it alone: state, flags and queue stand. -/
theorem State.taskAt_charge {s : State} {t : TaskCfg} (l : Nat) (c : Side) (hn : t.num < 32) :
    (s.charge l c t).taskAt t.num =
      { s.taskAt t.num with since := s.clk.now, ran := (s.taskAt t.num).ran + (s.clk.now - (s.taskAt t.num).since) } := by
  unfold State.charge
  split <;> simp [taskAt_onTask, hn]

/-! ## Dispatch, completion, delivery -/

/-- A task that is dispatched runs. -/
theorem State.taskAt_dispatch_st {s : State} {t : TaskCfg} (l : Nat) (c : Side) (hn : t.num < 32) :
    ((s.dispatch l c t).taskAt t.num).st = .running := by
  simp [State.dispatch, taskAt_onTask, hn]

/-- A write of LANE_CUR_TASK that names the next task dispatches it, in whatever state the one that runs has been left (02 R554). -/
theorem State.curWrite_next {s : State} {l : Nat} {c : Side} {t : TaskCfg} (ht : s.nextTask l c = some t) (hn : t.num < 32) :
    ∃ u : State, s.curWrite l c (BitVec.ofNat 64 t.num) = u.dispatch l c t := by
  have hv : (BitVec.ofNat 64 t.num).toNat % 32 = t.num := by simp; omega
  have h5 : (BitVec.ofNat 64 t.num).getLsbD 5 = false := by
    rw [BitVec.getLsbD_ofNat, Nat.testBit_lt_two_pow (show t.num < 2 ^ 5 by omega), Bool.and_false]
  simp only [State.curWrite, ht, hv, h5]
  exact ⟨_, rfl⟩

/-- A task that completes with no release waiting is IDLE, its first run over (02 R50, R51). -/
theorem State.taskAt_complete {s : State} {t : TaskCfg} (l : Nat) (c : Side) (hn : t.num < 32) (hk : t.kind ≠ .background)
    (hq : (s.taskAt t.num).queue = []) :
    ((s.complete l c t).taskAt t.num).st = .idle ∧ ((s.complete l c t).taskAt t.num).firstRun = false := by
  simp [State.complete, taskAt_onTask, taskAt_charge, hn, hk, hq]

/-- A write of LANE_TASK_DONE that names the task of LANE_CUR_TASK, which runs, completes it (02 R554). -/
theorem State.taskDone_completes {s : State} {l : Nat} {c : Side} {v : Word} {t : TaskCfg} (hi : ((s.laneAt l).copy c).idle = false)
    (hc : ((s.laneAt l).copy c).curTask = (v &&& 0x1F).toNat) (ht : s.taskCfg (v &&& 0x1F).toNat = some t)
    (hr : (s.taskAt (v &&& 0x1F).toNat).st = .running) (hh : (s.taskAt (v &&& 0x1F).toNat).held = false) :
    s.taskDone l c v = s.complete l c t := by
  unfold State.taskDone
  generalize (v &&& 0x1F).toNat = n at *
  simp [hi, hc, ht, hr, hh]

/-- A task that takes a release is READY with the record of the release and its input copy, and has lost nothing (02 R44, R50). -/
theorem State.taskAt_deliver {s : State} {t : TaskCfg} (r : Rel) (hn : t.num < 32) :
    (s.deliver t r).taskAt t.num = { s.taskAt t.num with
      st := .ready, record := r.bytes, incopy := if s.directTask t then [] else s.inputCopy t.inputs
      releases := satAdd 64 (s.taskAt t.num).releases 1, since := s.clk.now, ran := 0 } := by
  simp [State.deliver, State.atDelivery, taskAt_onTask, hn]

/-- A release of an IDLE task, with nothing that holds releases back, is delivered (02 R50). -/
theorem State.release_idle {s : State} {t : TaskCfg} {r : Rel} (ht : s.taskCfg r.task = some t) (hp : s.primary = true)
    (hi : (s.taskAt t.num).st = .idle) (hc : s.calm.on = false) (hr : s.cyc.noRel = false) (hs : s.cyc.starting = false)
    (hh : s.cyc.holdRel = false) : s.release r = s.deliver t r := by
  simp [State.release, ht, hp, hi, hc, hr, hs, hh]

/-! ## A lane's control register, written by its own code -/

/-- A transaction that nothing holds or refuses comes to its target. -/
theorem State.txn_of_reaches {s : State} {t : Txn} (h : reaches s t = true) :
    s.txn (Held.of t) = s.atTarget State.heldTxn (Held.of t) := by
  simp only [reaches, Bool.and_eq_true, Bool.not_eq_true', Option.isNone_iff_eq_none] at h
  obtain ⟨⟨⟨⟨⟨hg, hb⟩, hr⟩, hp⟩, ha⟩, hc⟩ := h
  simp [State.txn, State.passTxn, Held.of, hg, hb, hr, hp, ha, hc]

/-- A whole write with every byte enabled stores its data. -/
theorem blend_full {t : Txn} (old : List Byte) (hm : t.mask = []) (hd : t.data.length = t.size) : blend t old = t.data := by
  apply List.ext_getElem
  · simp [blend, hd]
  · intro i h1 h2
    simp [blend, hm, h2]

/-- A whole write of a register reaches it with its value. -/
theorem State.slotAccess_whole {s : State} {t : Txn} {slot : Nat} {v : Word} (k : State → Held → State) (hd : described slot = true)
    (hl : slot < 26) (hk : t.kind = 1) (hs : t.size = 8) (hm : t.mask = []) (hv : t.data = le 8 v.toNat) :
    s.slotAccess t slot k = (s.regWrite slot t.copy (t.addr % 0x10000) v k).answer [] := by
  have hb (old : List Byte) : BitVec.ofNat 64 (unle (blend t old)) = v := by
    rw [blend_full old hm (by simp [hv, hs]), hv, unle_le]
    rw [Nat.mod_eq_of_lt (by exact v.isLt), BitVec.ofNat_toNat, BitVec.setWidth_eq]
  have hw : txnWrites t = true := by simp [txnWrites, hk]
  have h6 : slot ≠ 26 := by omega
  have h7 : slot ≠ 27 := by omega
  have h8 : slot ≠ 28 := by omega
  simp [State.slotAccess, hd, hw, hs, hb, h6, h7, h8]

/-- An answered transaction that is no compared item needs nothing more. -/
theorem State.done_answer_of (s : State) (t : Txn) (d : List Byte) : (s.answer d).done (Held.of t) = s.answer d := rfl

/-- A transaction without a code error comes to the register that it addresses. -/
theorem State.atTarget_slot {s : State} {t : Txn} {slot : Nat} (k : State → Held → State) (hs : slotOf t.addr = some slot)
    (he : t.err = .none) : s.atTarget k (Held.of t) = (s.slotAccess t slot k).done (Held.of t) := by
  simp [State.atTarget, Held.of, hs, he]

/-- The control slot of a lane (01 R25). -/
theorem slotOf_laneSlot (l : Fin 8) {o : Nat} (ho : o < 0x10000) : slotOf (laneSlot l.val + o) = some (12 + l.val) := by
  have hl : l.val < 8 := l.isLt
  have ha : laneSlot l.val = 0x100C0000 + 0x10000 * l.val := rfl
  simp only [slotOf, Bool.and_eq_true, decide_eq_true_eq]
  rw [if_pos (by omega), Option.some_inj]
  omega

/-- The lanes' control slots are described (21 R514). -/
theorem described_laneSlot (l : Fin 8) : described (12 + l.val) = true := by
  revert l
  decide

/-- A register write to a lane's slot is one to its control registers. -/
theorem State.regWrite_laneSlot (s : State) (l : Fin 8) (c : Side) (o : Nat) (v : Word) (k : State → Held → State) :
    s.regWrite (12 + l.val) c o v k = s.writeLane l.val c o v := by
  fin_cases l <;> rfl

/-- A write by a lane's runtime that reaches a control register of the lane has that register's effect (02 R554). -/
theorem State.txn_laneSlot {s : State} {l : Fin 8} {c : Side} {o : Nat} {v : Word} (ho : o < 0x10000)
    (h : reaches s (writeTxn l c 3 (laneSlot l.val + o) 8 v) = true) :
    s.txn (Held.of (writeTxn l c 3 (laneSlot l.val + o) 8 v)) = (s.writeLane l.val c o v).answer [] := by
  have hm : (laneSlot l.val + o) % 0x10000 = o := by simp only [laneSlot]; omega
  rw [txn_of_reaches h, atTarget_slot _ (slotOf_laneSlot l ho) rfl, slotAccess_whole _ (described_laneSlot l) (by omega) rfl rfl rfl rfl,
    regWrite_laneSlot, done_answer_of]
  simp only [writeTxn, hm]

/-- A split copy that executes issues its write as a transaction (03 R59). -/
theorem State.laneWrite_split {s : State} {l : Fin 8} {c : Side} (priv : BitVec 2) (addr size : Nat) (v : Word)
    (hg : s.copyGoes l.val c = true) (hs : (s.laneAt l.val).split = true) :
    s.laneWrite l c priv addr size v = s.txn (Held.of (writeTxn l c priv addr size v)) := by
  simp [State.laneWrite, hg, hs]

/-- A copy of a compared lane that executes emits its write as its item (03 R59). -/
theorem State.laneWrite_compared {s : State} {l : Fin 8} {c : Side} (priv : BitVec 2) (addr size : Nat) (v : Word)
    (hg : s.copyGoes l.val c = true) (hs : (s.laneAt l.val).split = false) :
    s.laneWrite l c priv addr size v = s.emit l.val c (writeItem priv addr size v) .none := by
  simp [State.laneWrite, hg, hs]

/-! ## The commands -/

/-- TASK_DISPATCH writes LANE_CUR_TASK with the next task. -/
theorem exec_taskDispatch {s : State} {l : Fin 8} {c : Side} {t : TaskCfg} (ht : s.nextTask l.val c = some t) :
    exec (.taskDispatch l c) s = .next (s.laneWrite l c 3 (laneSlot l.val + 0x108) 8 (BitVec.ofNat 64 t.num)) := by
  show execTaskDispatch l c s = _
  simp only [execTaskDispatch, ht]

/-- TASK_DONE of a split copy whose write reaches LANE_TASK_DONE has that register's effect. -/
theorem exec_taskDone {s : State} {l : Fin 8} {c : Side} {v : Word} (hg : s.copyGoes l.val c = true)
    (hs : (s.laneAt l.val).split = true) (hr : reaches s (writeTxn l c 3 (laneSlot l.val + 0x100) 8 v) = true) :
    exec (.taskDone l c v) s = .next ((s.taskDone l.val c v).answer []) := by
  show Host.Outcome.next (s.laneWrite l c 3 (laneSlot l.val + 0x100) 8 v) = _
  rw [State.laneWrite_split _ _ _ _ hg hs, State.txn_laneSlot (by decide) hr]
  rfl

/-- The task that a write of LANE_CUR_TASK dispatches runs (02 R42, R554). -/
theorem State.taskAt_curWrite_st {s : State} {l : Nat} {c : Side} {t : TaskCfg} (ht : s.nextTask l c = some t) (hn : t.num < 32) :
    ((s.curWrite l c (BitVec.ofNat 64 t.num)).taskAt t.num).st = .running := by
  obtain ⟨u, hu⟩ := curWrite_next ht hn
  rw [hu]
  exact taskAt_dispatch_st l c hn

/-- Settles O13: a write that reaches its target has the effect of its register, `curWrite` or `taskDone`; the task that this names then
stands as dispatch and completion leave it. -/
theorem taskCommandsComplete : Obligations.TaskCommandsComplete := by
  unfold Obligations.TaskCommandsComplete
  refine ⟨?dispatchSplit, ?dispatchCompared, ?done, ?doneIdle, ?doneCompared, ?trap⟩
  case dispatchSplit =>
    rintro l cp x s t hg hs hx hn hr rfl
    refine ⟨?_, State.taskAt_curWrite_st hx hn⟩
    rw [answers, exec_taskDispatch hx, State.laneWrite_split _ _ _ _ hg hs, State.txn_laneSlot (by decide) hr]
    rfl
  case dispatchCompared =>
    intro l cp x s hg hs hx
    rw [answers, exec_taskDispatch hx, State.laneWrite_compared _ _ _ _ hg hs]
  case done =>
    intro l cp v s hg hs hr
    exact exec_taskDone hg hs hr
  case doneIdle =>
    rintro l cp v x s t hg hs hr hi hc hx hv hk hst hh hq rfl
    have hn : x.num < 32 := by rw [hv, BitVec.toNat_and]; exact Nat.and_lt_two_pow _ (n := 5) (by decide)
    refine ⟨exec_taskDone hg hs hr, ?_⟩
    rw [State.taskAt_answer, State.taskDone_completes hi hc hx (hv ▸ hst) (hv ▸ hh)]
    exact State.taskAt_complete l.val cp hn hk hq
  case doneCompared =>
    intro l cp v s hg hs
    show Host.Outcome.next (s.laneWrite l cp 3 (laneSlot l.val + 0x100) 8 v) = _
    rw [State.laneWrite_compared _ _ _ _ hg hs]
  case trap =>
    rintro l cp cause addr x s u k hg hx rfl rfl
    show execTaskTrap l cp cause addr s = _
    simp only [execTaskTrap, hg, hx]
    rfl

end Sys2Proof.Machine
end

section
/-! The running image (02 R50 to R58, 12 R318, 13 R365): what APP_START, a first Calm latch and a release leave, and the change at Q. -/

namespace Sys2Proof.Machine
open Sys2Proof

/-! ## A host command past its checks -/

/-- A host command that passes the checks of 13 R345 runs its own rules. -/
theorem hostCmd_of_passes {s : State} {op dir : Nat} {c : Cmd} {inlOk : Bool} (k : State → State)
    (h : passes s op c dir inlOk = true) : s.hostCmd op c dir inlOk k = k (begun s op c dir inlOk) := by
  simp only [passes, Bool.and_eq_true, Bool.or_eq_true, decide_eq_true_eq] at h
  obtain ⟨⟨hb, hc⟩, hl⟩ := h
  exact State.hostCmdBy_runs hb hc hl

/-- A command for the primary runs its own rules there. -/
theorem ownPrimary_primary {s : State} (op : Nat) (c : Cmd) (k : State → State) (h : s.primary = true) : ownPrimary op c k s = k s := by
  simp [ownPrimary, h]

/-- The completion of a command leaves the tasks as they were. -/
@[simp] theorem State.taskAt_final (s : State) (n op st d : Nat) (c : Cmd) (r0 r1 : Word) (data : List Byte) :
    (s.final op c st d r0 r1 data).taskAt n = s.taskAt n := by
  simp [State.taskAt]

/-! ## APP_START and APP_STOP -/

@[simp] theorem State.readyBackground_calm_cyc (s : State) : s.readyBackground.calm = s.calm ∧ s.readyBackground.cyc = s.cyc := by
  unfold State.readyBackground
  constructor <;> (apply foldl_kept; intro s t; split <;> simp)

/-- APP_START opens the span of 02 R58: the Calm latch clears, its image stands until the first releases. -/
theorem State.appStart_calm (s : State) : s.appStart.calm =
    { s.calm with on := false, cause := 0, follower := false, flash := false, image := s.calm.on || s.calm.image } := by
  simp only [State.appStart, State.readyBackground_calm_cyc]
  rw [foldl_kept State.calm State.clearTrip (by simp)]

/-- APP_START fixes the cycle of the first releases where the network runs (02 R52). -/
theorem State.appStart_cyc (s : State) : s.appStart.cyc =
    { s.cyc with starting := true, startAt := s.clk.now, firstRel := if s.cyc.running then some s.firstCycle else none,
                 heldRel := [], errDue := [] } := by
  simp only [State.appStart, State.readyBackground_calm_cyc]
  rw [foldl_kept State.cyc State.clearTrip (by simp)]

/-- A lane that stands halted takes the mode that waits for it and stays halted. -/
theorem Lane.takeMode_halted {l : Lane} (h : l.halted = true) : l.takeMode.halted = true := by
  unfold Lane.takeMode
  split <;> simp [h]

/-- Every task lane stands halted (02 R55). -/
theorem State.haltLanes_halted (s : State) {i : Fin 9} (hi : i.val < 8) : (s.haltLanes.lanes.lane[i]).halted = true := by
  simp only [State.haltLanes, Fin.getElem_fin, Vector.getElem_ofFn, hi, if_true]
  exact Lane.takeMode_halted rfl

/-- Local outputs at their safe values leave the pool of network entries alone. -/
@[simp] theorem State.localSafe_pool (s : State) : s.localSafe.act.pool = s.act.pool := by
  simp [State.localSafe]

/-- A first latch of Calm, not as a follower: cause and safe state stand, nothing waits in the pool, and every task lane is halted (02 R55). -/
theorem State.latchCalm_first {s : State} (cause : Nat) (its : List Nat) (party : Nat) (h : s.calm.on = false) :
    (s.latchCalm cause false its party).calm.on = true ∧ (s.latchCalm cause false its party).calm.cause = cause ∧
    (s.latchCalm cause false its party).act.pool = [] ∧
    (s.latchCalm cause false its party).lanes = s.haltLanes.haltTasks.lanes := by
  simp [State.latchCalm, h]

/-! ## The commands -/

/-- APP_START that passes its checks in a primary with an image takes effect and answers the first cycle. -/
theorem exec_appStart {s b : State} {c : Cmd} (hb : b = begun s 0x0062 c 0 (c.inlZero 0))
    (hc : passes s 0x0062 c 0 (c.inlZero 0) = true) (hp : b.primary = true) (hr : b.chg.running.isSome = true) :
    exec (.appStart c) s = .next (b.appStart.final 0x0062 c stOk dNone (BitVec.ofNat 64 b.firstCycle)) := by
  subst hb
  have hn : (begun s 0x0062 c 0 (c.inlZero 0)).chg.running.isNone = false := by
    rw [← Option.not_isSome, hr]
    rfl
  show Host.Outcome.next (s.hostCmd _ _ _ _ _) = _
  rw [hostCmd_of_passes _ hc, ownPrimary_primary _ _ _ hp]
  simp [hn]

/-- APP_STOP that passes its checks in a primary latches Calm with cause COMMANDED. -/
theorem exec_appStop {s b : State} {c : Cmd} (hb : b = begun s 0x0063 c 0 (c.inlZero 0))
    (hc : passes s 0x0063 c 0 (c.inlZero 0) = true) (hp : b.primary = true) :
    exec (.appStop c) s =
      .next ((b.latchCalm 4 false [] (b.partyOf c)).final 0x0063 c stOk dNone (BitVec.ofNat 64 b.cyc.n)) := by
  subst hb
  show Host.Outcome.next (s.hostCmd _ _ _ _ _) = _
  rw [hostCmd_of_passes _ hc, ownPrimary_primary _ _ _ hp]

/-- TASK_RELEASE with one task bound, IDLE and out of Calm, that takes the release: it is delivered INLINE, and the answer counts one task
that took it and none that lost it. -/
theorem exec_taskRelease_one {s b : State} {c : Cmd} {x : TaskCfg} {r : Rel} (hb : b = begun s 0x0064 c 0 true)
    (hc : passes s 0x0064 c 0 true = true) (hp : b.primary = true) (hn : c.inf 0 1 ≤ 15) (hm : b.calm.on = false)
    (hx : b.hostTasks (c.inf 0 1) = [x]) (hi : (b.taskAt x.num).st = .idle) (h32 : x.num < 32)
    (hr : r = { task := x.num, src := 2, bytes := c.inl }) (hd : b.release r = b.deliver x r) :
    exec (.taskRelease c) s = .next ((b.deliver x r).final 0x0064 c stOk dNone 1 0) := by
  subst hb hr
  have hn' : ¬ 15 < c.inf 0 1 := by omega
  show Host.Outcome.next (s.hostCmd _ _ _ _ _) = _
  rw [hostCmd_of_passes _ hc, ownPrimary_primary _ _ _ hp]
  simp [hx, hm, hi, hn', hd, State.taskAt_deliver _ h32]

/-- Q of a change that the primary has announced for the next cycle and not yet made, after the last snapshot of the old image and with the
compared tasks idle: a boundary that comes too early, or under an update of the access table, is abandoned, any other used (12 R318). -/
theorem exec_changeQ {s : State} {c : Change} (hc : s.chg.change = some c) (hp : s.primary = true) (hd : c.done = false)
    (ha : c.abandoned = false) (hn : s.cyc.n + 1 = c.nc) (hs : s.cyc.snapN = some s.cyc.n) (hi : s.comparedIdle = true) :
    exec .changeQ s = .next (
      if s.startOf c.nc + ((s.net.cfg.map (·.i)).getD 0) < s.netTime + 8000 + migNs (s.rulesOf c) + 2000 || s.wb.update then
        { s with chg := { s.chg with change := some { c with abandoned := true } } }
      else ({ changedAtQ s c with chg := { (changedAtQ s c).chg with
        change := some { c with done := true }
        commitDue := if (changedAtQ s c).partnerStandby then some c.nc else none } } : State).closeTransfer false) := by
  show execChangeQ s = _
  have hg : (!s.primary || c.done || c.abandoned || s.cyc.n + 1 ≠ c.nc || s.cyc.snapN ≠ some s.cyc.n || !s.comparedIdle) = false := by
    simp [hp, hd, ha, hn, hs, hi]
  simp only [execChangeQ, changedAtQ, hc, hg, Bool.false_eq_true, if_false]
  split <;> rfl

/-- Settles O11: APP_START and APP_STOP by what `appStart` and a first `latchCalm` leave, a release by its delivery, and Q by the one equation
of CHANGE_Q, whose test of the time decides between the change and an abandoned boundary. -/
theorem runningImageCompletes : Obligations.RunningImageCompletes := by
  unfold Obligations.RunningImageCompletes
  refine ⟨?start, ?started, ?stop, ?stopped, ?release, ?change, ?tooEarly⟩
  case start =>
    intro c s b hb hc hp hr
    exact exec_appStart hb hc hp hr
  case started =>
    intro c s b hb hc hp hr
    refine ⟨_, exec_appStart hb hc hp hr, ?_⟩
    simp [State.appStart_calm, State.appStart_cyc]
  case stop =>
    intro c s b hb hc hp
    exact exec_appStop hb hc hp
  case stopped =>
    intro c s b hb hc hp hm
    obtain ⟨hon, hcause, hpool, hlanes⟩ := State.latchCalm_first 4 [] (b.partyOf c) hm
    refine ⟨_, exec_appStop hb hc hp, ?_⟩
    simp only [State.final_frame, State.latchCalm_frame, hon, hcause, hpool, hlanes, and_true, true_and]
    intro i hi
    exact State.haltLanes_halted b hi
  case release =>
    intro c s b x hb hc hp hn hm hx ht hi hx32 hr hs hh
    have hd := State.release_idle (r := { task := x.num, src := 2, bytes := c.inl }) ht hp hi hm hr hs hh
    refine ⟨_, exec_taskRelease_one hb hc hp hn hm hx hi hx32 rfl hd, ?_⟩
    simp [State.taskAt_deliver _ hx32]
  case change =>
    rintro c s k hc hp hd ha hn hs hi hw ht rfl
    rw [answers, exec_changeQ hc hp hd ha hn hs hi, if_neg (by simp [hw, ht])]
  case tooEarly =>
    intro c s hc hp hd ha hn hs hi ht
    rw [answers, exec_changeQ hc hp hd ha hn hs hi, if_pos (by simp [ht])]

end Sys2Proof.Machine
end

section
/-! The instants of a basic cycle (02 R33 to R36, R46, 05 R125, R138, 11 R280): each command where it takes effect, as one equation. -/

namespace Sys2Proof.Machine
open Sys2Proof

/-! ## Cycle start and stall -/

/-- A leader with its partner's line released, and nothing that silences its star, leads on. -/
theorem State.leadStep_lead {s : State} (n : Nat) (hd : s.net.silenceDue = false) (hl : s.net.start = .lead)
    (ho : s.pair.other = false) : s.leadStep n = (s, true) := by
  simp [State.leadStep, hd, hl, ho]

/-- A module that takes a role has it. -/
@[simp] theorem State.setRole_role (s : State) (r : Role) : (s.setRole r).pair.role = r := by
  unfold State.setRole
  split
  case isTrue h => exact h
  case isFalse => simp

/-- The VANE line is not part of a role. -/
@[simp] theorem State.setRole_drive (s : State) (r : Role) : (s.setRole r).pair.drive = s.pair.drive := by
  unfold State.setRole
  split <;> simp

/-- A message leaves the line as it is. -/
@[simp] theorem State.send_drive (s : State) (m : PairMsg) : (s.send m).pair.drive = s.pair.drive := by
  unfold State.send
  split <;> rfl

/-- A line that is released is not driven (11 R280). -/
@[simp] theorem State.releaseVane_drive (s : State) : s.releaseVane.pair.drive = false := by
  simp [State.releaseVane, State.watchHolder]

/-- Who leaves pair duty is OUT, its line released (11 R286). -/
theorem State.leavePair_out (s : State) (leave : Nat) :
    (s.leavePair leave).pair.role = .out ∧ (s.leavePair leave).pair.drive = false := by
  refine ⟨by simp [State.leavePair], ?_⟩
  simp only [State.leavePair, State.faultMessage, State.setRole_drive, State.send_drive]
  split
  case isTrue => exact releaseVane_drive s
  case isFalse h => simpa using h

/-- A star in pair duty that stalls leaves it (11 R280). -/
theorem exec_netStall {s : State} (hr : s.cyc.running = true) (hd : s.pair.role = .primary ∨ s.pair.role = .standby) :
    exec .netStall s = .next (s.leavePair 6) := by
  have hd' : (decide (s.pair.role = .primary) || decide (s.pair.role = .standby)) = true := by simpa using hd
  show execNetStall s = _
  simp only [execNetStall, hr, hd', Bool.and_self, if_true]

/-! ## Input close -/

/-- INPUT_CLOSE of a cycle that runs under a configuration and is not yet committed: forces of a primary take effect, the inputs are
committed, and the primary's releases follow; any other module checks that it has missed no commit (04 R94). -/
theorem exec_inputClose {w : TrkWork} {c : NetCfg} {s k b u : State} {e : List (Nat × List Byte) × List (Nat × List Byte)}
    (hc : s.net.cfg = some c) (hr : s.cyc.running = true) (hn : s.cyc.commitN ≠ some s.cyc.n) (hk : k = s.reachNet (s.cycleStart + c.i))
    (hb : (if k.primary then k.effectForces false else k) = b) (hu : u = b.commitInputs c w.copyErr)
    (he : e = stnErrors u.cyc.n b.stnM u.stnM) :
    exec (.inputClose w) s = .next ((if u.primary then u.commitPrimary b.cyc.errDue e.1 e.2 w
      else ({ (if u.commitMissed then u.goStale else u) with cyc := { u.cyc with errDue := [] } } :
        State).supplyFaults).publish.parkIdle) := by
  subst hk hb hu he
  show execInputClose w s = _
  simp only [execInputClose, State.inputClose, hc, hr, hn]
  rfl

/-- A cycle that is committed is not committed again. -/
theorem exec_inputClose_again (w : TrkWork) {s : State} (hn : s.cyc.commitN = some s.cyc.n) : exec (.inputClose w) s = .next s := by
  show execInputClose w s = _
  unfold execInputClose
  split
  · rfl
  · simp [State.inputClose, hn]

/-! ## Downstream windows -/

/-- A frame of the holder whose content is ready goes out, first on its branch in the cycle and within 3 µs of the start of its window (05
R138). -/
theorem exec_downstreamWindow_first {s b : State} {c : NetCfg} {i late : Nat} {w : WinEnt} {e : Nat × Frame} (hc : s.net.cfg = some c)
    (hw : c.wins[i]? = some w) (hd : w.down = true) (hh : s.holder = true) (hr : s.cyc.running = true)
    (he : (s.net.ready.find? fun x => x.1 = i) = some e) (hf : (s.net.br.toList.getD w.branch {}).downEnd = 0) (hl : late ≤ 3000)
    (hb : b = ({ s with net := { s.net with
      ready := s.net.ready.filter fun x => x.1 ≠ i, fromPair := s.net.fromPair.filter fun x => x.1 ≠ i } } : State).onBr w.branch
        (fun y => { y with downEnd := w.start + late + frameNs e.2.length })) :
    exec (.downstreamWindow i late) s =
      .next { b with net := { b.net with tx := b.net.tx ++ [{ branch := some w.branch, at_ := w.start + late, f := e.2 }] } } := by
  subst hb
  have hs : ¬ w.start + 3000 < w.start + late := by omega
  show execDownstreamWindow i late s = _
  simp only [execDownstreamWindow, hc, Option.bind_some, hw, hd, hh, hr, he, hf, if_true, Nat.max_zero, hs, if_false]
  rfl

/-- Settles O31: instant by instant, the equation of its command under the guards that the clause gives; a stalled star is OUT by
`leavePair_out`. -/
theorem cyclesComplete : Obligations.CyclesComplete := by
  unfold Obligations.CyclesComplete
  refine ⟨?start, ?stall, ?stalled, ?still, ?closeOther, ?closePrimary, ?closed, ?cutoff, ?mark, ?window, ?beat⟩
  case start =>
    rintro c s k hc hr hd hl rfl hk ho
    show execCycleStart s = _
    simp only [execCycleStart, hc, hr, if_true, State.leadStep_lead (s.cyc.n + 1) (hk ▸ hd) (hk ▸ hl) ho]
  case stall =>
    intro s hr hd
    exact exec_netStall hr hd
  case stalled =>
    intro s hr hd
    exact ⟨_, exec_netStall hr hd, State.leavePair_out s 6⟩
  case still =>
    rintro s k hr rfl ho
    show execStillPoint s = _
    rw [execStillPoint, if_neg (by simp [hr])]
    exact congrArg (fun u : State => Host.Outcome.next u.lioAtStill.latchLocal.hotAtStill.switchStill) (if_pos ho)
  case closeOther =>
    intro w c s k u hc hr hn hk hp hu hup
    rw [answers, exec_inputClose (b := k) hc hr hn hk (by rw [hp]; rfl) hu rfl, hup]
    rfl
  case closePrimary =>
    intro w c s k u e hc hr hn hk hp hu hup he
    rw [answers, exec_inputClose (b := k.effectForces false) hc hr hn hk (by rw [hp]; rfl) hu he, hup]
    rfl
  case closed =>
    intro w s _ hn
    exact exec_inputClose_again w hn
  case cutoff =>
    intro c s hc hr hp hn
    show execOutputCutoff s = _
    simp only [execOutputCutoff, hc, hr, hp, hn]
    rfl
  case mark =>
    rintro m i ofs c s k hi hm hr hp hc ho rfl
    show execCycleMark m s = _
    simp only [execCycleMark, hi, Option.map_some, Option.bind_some, hm, hr, hp, hc, if_neg ho]
    rfl
  case window =>
    intro c i w e late s b hc hw hd hh hr he hf hl hb
    exact exec_downstreamWindow_first hc hw hd hh hr he hf hl hb
  case beat =>
    intro s hr
    show execHeartbeatSend s = _
    simp only [execHeartbeatSend, hr]
    rfl

end Sys2Proof.Machine
end

section
/-! Delivery at an agreed count (03 R71 to R73, R87): a lane after an update, and one equation of a delivery for compared and split lanes. -/

namespace Sys2Proof.Machine
open Sys2Proof

/-! ## A lane after an update -/

/-- An updated lane reads as the update of what it was. -/
@[simp] theorem State.laneAt_onLane (s : State) (l : Fin 9) (f : Lane → Lane) : (s.onLane l.val f).laneAt l.val = f (s.laneAt l.val) := by
  simp [State.laneAt, State.onLane]

/-- Two updates of a lane are one. -/
theorem State.onLane_onLane (s : State) (l : Fin 9) (f g : Lane → Lane) :
    (s.onLane l.val f).onLane l.val g = s.onLane l.val fun x => g (f x) := by
  simp [State.onLane, State.laneAt]

/-- An update of a lane is what it makes of the lane as it stands. -/
theorem State.onLane_congr {s : State} {l : Nat} {f g : Lane → Lane} (h : f (s.laneAt l) = g (s.laneAt l)) : s.onLane l f = s.onLane l g := by
  simp only [State.onLane, h]

/-- What a lane does leaves the armed fault as it was. -/
@[simp] theorem State.inject_onLane (s : State) (l : Nat) (f : Lane → Lane) : (s.onLane l f).lanes.inject = s.lanes.inject := rfl

/-! ## Delivery -/

/-- The copies of a lane that goes report counts that they can have reached: every pending event is delivered in the fixed order and ends a
WAIT, at an agreed count where the lane is compared (03 R71 to R73). -/
theorem exec_deliveryRequest {s : State} {l : Fin 9} {cA cB : Nat} (hp : (s.laneAt l.val).pending ≠ []) (hg : s.laneGoes l.val = true)
    (ha : (s.laneAt l.val).a.countOk cA = true) (hb : (s.laneAt l.val).b.countOk cB = true) :
    exec (.deliveryRequest l cA cB) s = .next (s.onLane l.val fun x => { x with
      pending := [], delivered := s.sortDev x.pending, wait := none, waitOver := x.overWaits
      d := if x.split then x.d else agreed cA cB x.a.waiting x.b.waiting
      debugHalt := x.debugHalt || (s.sortDev x.pending).contains .halt
      stillAt := if (s.sortDev x.pending).contains .halt then some s.clk.now else x.stillAt
      a := { x.a with ret := cA, waiting := false }, b := { x.b with ret := cB, waiting := false } }) := by
  show execDeliveryRequest l cA cB s = _
  rw [execDeliveryRequest, if_neg (by simp [hp, hg, ha, hb])]
  rfl

/-- Only a compared lane runs on through a WAIT (03 R73). -/
theorem Lane.overWaits_split {x : Lane} (h : x.split = true) : x.overWaits = x.waitOver := by
  simp [Lane.overWaits, h]

/-- Settles O14: one equation of a delivery, read for a compared and for a split lane; the other two commands put their event to the delivery
unit. -/
theorem deliveryCompletes : Obligations.DeliveryCompletes := by
  unfold Obligations.DeliveryCompletes
  refine ⟨?compared, ?split, ?timer, ?soft⟩
  case compared =>
    rintro l cA cB s d evs hp hg ha hb hs rfl rfl
    rw [answers, exec_deliveryRequest hp hg ha hb]
    exact congrArg Host.Outcome.next (State.onLane_congr (by simp [hs]))
  case split =>
    rintro l cA cB s evs hp hg ha hb hs rfl
    rw [answers, exec_deliveryRequest hp hg ha hb]
    exact congrArg Host.Outcome.next (State.onLane_congr (by simp [hs, Lane.overWaits_split hs]))
  case timer =>
    intro l s he hh
    exact congrArg Host.Outcome.next (if_pos (by simp [he, hh]))
  case soft =>
    intro a b s hg hh
    exact congrArg Host.Outcome.next (if_pos (by simp [hg, hh]))

end Sys2Proof.Machine
end

section
/-! The comparator of a lane (03 R59, R60, R63 to R69, R77, R81): the entry that a copy writes into its skew buffer, what the comparator makes
of the heads of the two buffers, and the commands on top of them. -/

namespace Sys2Proof.Machine
open Sys2Proof

/-! ## The entry of a skew buffer -/

/-- The hardware forms an item of the kind that the copy gives it. -/
@[simp] theorem formItem_kind (i : Item) (num checks : Nat) (c : Bool) : (formItem i num checks c).kind = i.kind := by
  unfold formItem
  dsimp only
  (repeat' split) <;> rfl

/-- A copy writes its item into its skew buffer, numbered and formed (03 R60, R63). -/
def State.written (s : State) (l : Nat) (c : Side) (i : Item) : State :=
  s.onLane l fun x => x.onCopy c fun y => { y with
    items := y.items + 1, checks := if i.kind = 5 then y.checks + 1 else y.checks, waiting := decide (i.kind = 6), exc := none
    skew := y.skew ++ [skewEntry s l c i] }

@[simp] theorem State.written_clk (s : State) (l : Nat) (c : Side) (i : Item) : (s.written l c i).clk = s.clk := rfl
@[simp] theorem State.written_inject (s : State) (l : Nat) (c : Side) (i : Item) : (s.written l c i).lanes.inject = s.lanes.inject := rfl

/-- The entry of an item that is neither a checkpoint nor a WAIT counts no checkpoint, and its copy runs on. -/
theorem State.written_running {s : State} {l : Nat} {c : Side} {i : Item} (h5 : i.kind ≠ 5) (h6 : i.kind ≠ 6) :
    s.written l c i = s.onLane l fun x => x.onCopy c fun y => { y with
      items := y.items + 1, waiting := false, exc := none, skew := y.skew ++ [skewEntry s l c i] } := by
  simp only [State.written, if_neg h5, decide_eq_false h6]

/-- What `emits` says of a lane and its copy. -/
theorem emits_iff {s : State} {l : Nat} {c : Side} : emits s l c = true ↔
    s.comparing l = true ∧ (s.laneAt l).wait = none ∧ ((s.laneAt l).copy c).waiting = false ∧ ((s.laneAt l).copy c).dead = false ∧
      s.lanes.inject = none ∧ ((s.laneAt l).copy c).muted = false := by
  simp [emits, and_assoc]

/-- Nothing is injected where a copy emits. -/
theorem inject_of_emits {s : State} {l : Nat} {c : Side} (he : emits s l c = true) : s.lanes.inject = none := by
  obtain ⟨_, _, _, _, hi, _⟩ := emits_iff.mp he
  exact hi

/-- Without an injected fault no injection has fired. -/
theorem State.firedIn_none {s : State} (l : Nat) (h : s.lanes.inject = none) : s.firedIn l = none := by
  simp [State.firedIn, h]

/-- Without an injected fault an item stays as the hardware forms it. -/
theorem State.injectAt_none {s : State} (l : Nat) (c : Side) (num : Nat) (i : Item) (h : s.lanes.inject = none) :
    s.injectAt l c num i = (i, s) := by
  simp [State.injectAt, h]

/-- An item of a copy that emits, with room in its buffer, is written there; with no entry overdue the comparator then pairs the heads (03 R63
to R65). -/
theorem State.emit_eq {s : State} {l : Nat} {c : Side} {i : Item} (f : CmpFault) (he : emits s l c = true) (h7 : i.kind ≠ 7)
    (hs : i.size ≠ 7) (hr : ((s.laneAt l).copy c).skew.length < 224) (ho : (s.written l c i).overdue l = none) :
    s.emit l c i f = ((s.written l c i).pairUp l c.other.num f).injectRepair l (skewEntry s l c i).item.addr.toNat := by
  obtain ⟨hc, hw, hcw, hd, hi, hm⟩ := emits_iff.mp he
  have h2 : ¬ 224 ≤ ((s.laneAt l).copy c).skew.length := by omega
  have h3 : ¬ 256 ≤ ((s.laneAt l).copy c).skew.length := by omega
  have hk : s.written l c i = s.onLane l fun x => x.onCopy c fun y => { y with
      items := ((s.laneAt l).copy c).items + 1, checks := if i.kind = 5 then y.checks + 1 else y.checks
      waiting := decide (i.kind = 6), exc := none, skew := y.skew ++ [skewEntry s l c i] } :=
    State.onLane_congr (by cases c <;> rfl)
  simp only [hk, skewEntry] at ho ⊢
  unfold State.emit
  rw [if_neg (by simpa [hc, hw, hcw, hd, h2] using ⟨h7, hs⟩)]
  simp only [State.injectAt_none l c _ _ hi, hm, h3, formItem_kind, Bool.false_eq_true, if_false, ho]

/-- Nothing is overdue while no entry of either buffer has waited longer than 2.0 µs (03 R65). -/
theorem State.overdue_none {s : State} {l : Nat} (ha : ∀ x ∈ (s.laneAt l).a.skew, s.clk.now ≤ x.at_ + 2000)
    (hb : ∀ x ∈ (s.laneAt l).b.skew, s.clk.now ≤ x.at_ + 2000) : s.overdue l = none := by
  have late {x : SkewEnt} (h : s.clk.now ≤ x.at_ + 2000) : (if x.at_ + 2000 < s.clk.now then some x else none) = none :=
    if_neg (Nat.not_lt.mpr h)
  unfold State.overdue
  dsimp only
  generalize (s.laneAt l).a.skew = as at *
  generalize (s.laneAt l).b.skew = bs at *
  cases as with
  | nil => cases bs with
    | nil => rfl
    | cons y ys => simp only [late (hb y List.mem_cons_self)]
  | cons x xs => cases bs with
    | nil => simp only [late (ha x List.mem_cons_self)]
    | cons y ys => simp only [late (ha x List.mem_cons_self), late (hb y List.mem_cons_self)]

/-! ## The first and the second item -/

/-- With a buffer empty there is nothing to pair. -/
theorem State.pairUp_alone {s : State} {l : Nat} (lead : Nat) (f : CmpFault) (h : (s.laneAt l).a.skew = [] ∨ (s.laneAt l).b.skew = []) :
    s.pairUp l lead f = s := by
  unfold State.pairUp
  rcases h with h | h <;> simp [h]

/-- Without a fault of the comparator, heads that are equal go on and heads that differ latch MISMATCH; both leave their buffers (03 R63, R68,
R77). -/
theorem State.pairUp_heads {s : State} {l lead : Nat} {x y : SkewEnt} {xs ys : List SkewEnt} (hx : (s.laneAt l).a.skew = x :: xs)
    (hy : (s.laneAt l).b.skew = y :: ys) (hi : s.lanes.inject = none) {k : State}
    (hk : k = s.onLane l fun z => { z with a := { z.a with skew := xs }, b := { z.b with skew := ys } }) :
    s.pairUp l lead .none = if itemEq x.item y.item then k.forward l x lead .none
      else k.latchFault l 1 lead x.num (some x.item) (some y.item) := by
  subst hk
  unfold State.pairUp
  simp only [hx, hy, State.firedIn_none l (show (s.onLane l _).lanes.inject = none from hi)]
  cases itemEq x.item y.item <;> rfl

/-- Without an injected fault an item has no line repaired. -/
theorem State.injectRepair_none {s : State} (l a : Nat) (h : s.lanes.inject = none) : s.injectRepair l a = s := by
  simp [State.injectRepair, State.firedIn_none l h]

/-- Copy A's buffer after an item of copy `c`. -/
theorem State.written_skew_a (s : State) (l : Fin 9) (c : Side) (i : Item) : ((s.written l.val c i).laneAt l.val).a.skew =
    (s.laneAt l.val).a.skew ++ if c = .a then [skewEntry s l.val .a i] else [] := by
  cases c <;> simp [State.written, Lane.onCopy]

/-- Copy B's buffer after an item of copy `c`. -/
theorem State.written_skew_b (s : State) (l : Fin 9) (c : Side) (i : Item) : ((s.written l.val c i).laneAt l.val).b.skew =
    (s.laneAt l.val).b.skew ++ if c = .b then [skewEntry s l.val .b i] else [] := by
  cases c <;> simp [State.written, Lane.onCopy]

/-- A copy's first item stands in its buffer (03 R63). -/
theorem State.emit_first {s : State} {l : Fin 9} {c : Side} {i : Item} (he : emits s l.val c = true) (h7 : i.kind ≠ 7) (hs : i.size ≠ 7)
    (ha : (s.laneAt l.val).a.skew = []) (hb : (s.laneAt l.val).b.skew = []) : s.emit l.val c i .none = s.written l.val c i := by
  have hwa := s.written_skew_a l c i
  have hwb := s.written_skew_b l c i
  rw [ha, List.nil_append] at hwa
  rw [hb, List.nil_append] at hwb
  have hi : (s.written l.val c i).lanes.inject = none := (State.written_inject ..).trans (inject_of_emits he)
  have ho : (s.written l.val c i).overdue l.val = none := by
    apply State.overdue_none <;> cases c <;> simp [hwa, hwb, skewEntry]
  rw [State.emit_eq _ he h7 hs (by cases c <;> simp [Lane.copy, ha, hb]) ho,
    State.pairUp_alone _ _ (by cases c <;> simp [hwa, hwb]), State.injectRepair_none _ _ hi]

/-- Copy B's item meets the entry of copy A: both buffers are empty, and the comparator gives its verdict (03 R63, R68, R77). -/
theorem State.emit_second {s k : State} {l : Fin 9} {x e : SkewEnt} {i : Item} (he : emits s l.val .b = true) (hk : i.kind.toNat < 5)
    (hs : i.size ≠ 7) (ha : (s.laneAt l.val).a.skew = [x]) (hb : (s.laneAt l.val).b.skew = []) (ht : s.clk.now ≤ x.at_ + 2000)
    (hy : e = skewEntry s l.val .b i)
    (hu : k = s.onLane l.val fun z => { z with
      a := { z.a with skew := [] }, b := { z.b with items := z.b.items + 1, waiting := false, exc := none, skew := [] } }) :
    s.emit l.val .b i .none = (if itemEq x.item e.item then k.forward l.val x 0 .none
      else k.latchFault l.val 1 0 x.num (some x.item) (some e.item)).injectRepair l.val e.item.addr.toNat := by
  subst hy
  have hn {n : BitVec 3} (hn : 5 ≤ n.toNat) : i.kind ≠ n := by rintro rfl; omega
  have hwa := s.written_skew_a l .b i
  have hwb := s.written_skew_b l .b i
  rw [ha, if_neg (by decide), List.append_nil] at hwa
  rw [hb, if_pos rfl, List.nil_append] at hwb
  have hi : (s.written l.val .b i).lanes.inject = none := (State.written_inject ..).trans (inject_of_emits he)
  have ho : (s.written l.val .b i).overdue l.val = none := State.overdue_none (by simp [hwa, ht]) (by simp [hwb, skewEntry])
  have hw : k = (s.written l.val .b i).onLane l.val fun z => { z with a := { z.a with skew := [] }, b := { z.b with skew := [] } } := by
    rw [hu, State.written_running (hn (by decide)) (hn (by decide)), State.onLane_onLane]
    rfl
  rw [State.emit_eq _ he (hn (by decide)) hs (by simp [Lane.copy, hb]) ho,
    show Side.b.other.num = 0 from rfl, State.pairUp_heads hwa hwb hi hw]

/-! ## Returns and repairs -/

/-- The answer to the oldest awaited item, with no code error and no injected fault, reaches both copies; an error response raises the same
access fault in both (03 R69, R70). -/
theorem exec_readReturn {s : State} {l : Fin 9} {r : Ret} {rest : List Ret} {d : Option (List Byte)} (hc : s.comparing l.val = true)
    (ha : (s.laneAt l.val).awaiting = r :: rest) (hr : r.reply = some d) (hi : s.lanes.inject = none) :
    exec (.readReturn l .none .none) s = .next (s.onLane l.val fun x => { x with
      awaiting := rest, returned := d
      a := { x.a with exc := if d.isNone then some (accessCause r.item.fetch r.item.kind.toNat) else none }
      b := { x.b with exc := if d.isNone then some (accessCause r.item.fetch r.item.kind.toNat) else none } }) := by
  have hn (c : Side) : (s.onLane l.val fun x => { x with awaiting := rest }).injectedErr l.val c r.num = .none := by
    simp [State.injectedErr, State.firedIn_none _ (show (s.onLane l.val _).lanes.inject = none from hi)]
  show execReadReturn l .none .none s = _
  simp [execReadReturn, ha, hr, hc, hn, uncorrectable, State.onLane_onLane]

/-- A parity error in a line that the lane may cache, in a copy whose island runs, is repaired (03 R67). -/
theorem exec_l1ParityError {s : State} {l : Fin 9} {c : Side} {line : Nat} (hc : s.comparing l.val = true)
    (hd : ((s.laneAt l.val).copy c).dead = false) (hl : s.cacheable l.val line = true) :
    exec (.l1ParityError l c line) s = .next (s.repair l.val c line) :=
  congrArg Host.Outcome.next (if_pos (by simp [hc, hd, hl]))

/-- The first repair read of a second is counted, with its data, and writes no record (03 R67). -/
theorem State.repair_first {s : State} {l : Nat} {c : Side} {line : Nat} (hr : ((s.laneAt l).copy c).repairAt = []) :
    s.repair l c line = s.onLane l fun x => x.onCopy c fun y => { y with
      repairs := satAdd 64 y.repairs 1, repairAt := [s.clk.now], repaired := s.repairData ((s.laneAt l).copy c) line } := by
  simp [State.repair, hr]

/-! ## The commands -/

/-- Settles O17: the first item by `emit_first`, the second by `emit_second` and its verdict, the others by the equation of their
command. -/
theorem comparatorCompletes : Obligations.ComparatorCompletes := by
  unfold Obligations.ComparatorCompletes
  refine ⟨?first, ?wfi, ?wfiSplit, ?equal, ?differs, ?skewTime, ?readReturn, ?parity, ?parityFirst⟩
  case first =>
    intro l cp it s he h7 h6 h5 hs ha hb
    show Host.Outcome.next (s.emit l.val cp it .none) = _
    rw [State.emit_first he h7 hs ha hb, State.written_running h5 h6]
    refine congrArg Host.Outcome.next (State.onLane_congr ?_)
    cases cp <;> simp [Lane.onCopy, ha, hb]
  case wfi =>
    intro l cp it s he hs ha hb h7
    show Host.Outcome.next (if (s.laneAt l.val).split then _ else s.emit l.val cp { it with kind := 6 } .none) = _
    rw [hs, if_neg Bool.false_ne_true,
      State.emit_first (i := { it with kind := 6 }) he (show (6 : BitVec 3) ≠ 7 by decide) h7 ha hb]
    refine congrArg Host.Outcome.next (State.onLane_congr ?_)
    cases cp <;> simp [Lane.onCopy, ha, hb]
  case wfiSplit =>
    intro l cp it s hs hg
    show Host.Outcome.next (if _ then _ else _) = _
    rw [if_pos hs, if_pos hg]
  case equal =>
    intro l ent it e s k he hk hs ha hb ht hy hq hu
    show Host.Outcome.next (s.emit l.val .b it .none) = _
    rw [State.emit_second he hk hs ha hb ht hy hu, if_pos hq]
  case differs =>
    intro l ent it e s k he hk hs ha hb ht hy hq hu
    show Host.Outcome.next (s.emit l.val .b it .none) = _
    rw [State.emit_second he hk hs ha hb ht hy hu, hq, if_neg Bool.false_ne_true]
  case skewTime =>
    rintro l ent rest s k hc ha hb rfl
    show execSkewTime l s = _
    simp [execSkewTime, hc, ha, hb]
  case readReturn =>
    intro l r rest d s hc ha hr hi
    exact exec_readReturn hc ha hr hi
  case parity =>
    intro l cp line s hc hd hl
    exact exec_l1ParityError hc hd hl
  case parityFirst =>
    intro l cp line s hc hd hl hr
    rw [answers, exec_l1ParityError hc hd hl, State.repair_first hr]

end Sys2Proof.Machine
end

section
/-! Forcing (04 R105 to R112, 13 R370): the entry that FORCE_SET puts into the table, and the three commands past their checks. -/

namespace Sys2Proof.Machine
open Sys2Proof

/-! ## The force table -/

/-- The entry put into the table is the one found on its point. -/
theorem find?_putForce (f : Force) (l : List Force) : (putForce f l).find? (·.point = f.point) = some f := by
  induction l with
  | nil => simp [putForce]
  | cons g l ih =>
    unfold putForce
    by_cases he : f.point = g.point
    · simp [he]
    · by_cases hl : f.point.toNat < g.point.toNat
      · simp [he, hl]
      · rw [if_neg he, if_neg hl, List.find?_cons_of_neg (by simp [Ne.symm he]), ih]

/-- An accepted entry stands on its point as PENDING, with its value and its party (04 R106, R111). -/
theorem State.forceAt_acceptForce (s : State) (p : Point) (v party ver : Nat) :
    ∃ f, (s.acceptForce p v party ver).forceAt p = some f ∧ f.pending = true ∧ f.value = BitVec.ofNat 16 v ∧ f.party = party := by
  have hp (f : Force) (h : f.point = p) : (putForce f s.img.force).find? (·.point = p) = some f := h ▸ find?_putForce f _
  simp only [State.acceptForce]
  cases hf : s.forceAt p with
  | none => exact ⟨_, hp _ rfl, rfl, rfl, rfl⟩
  | some g => exact ⟨_, hp _ (by simpa using List.find?_some hf), rfl, rfl, rfl⟩

/-- The store takes the table as it stands. -/
@[simp] theorem Img.save_force (i : Img) : i.save.force = i.force := by
  unfold Img.save
  split <;> rfl

/-- The table written is the table held. -/
@[simp] theorem State.setForces_force (s : State) (l : List Force) : (s.setForces l).img.force = l := by
  simp [State.setForces]

/-- The lines that become dirty leave the force version as it is. -/
@[simp] theorem State.mark_forceVer (s : State) (a k : Nat) : (s.mark a k).pair.forceVer = s.pair.forceVer := by
  unfold State.mark
  split <;> rfl

/-- Writing the table leaves the force version to its caller. -/
@[simp] theorem State.setForces_forceVer (s : State) (l : List Force) : (s.setForces l).pair.forceVer = s.pair.forceVer := by
  simp [State.setForces]

/-- While a network runs, a change waits for its cycle (04 R107). -/
theorem State.forceIdle_running {s : State} (h : s.cyc.running = true) : s.forceIdle = s := by
  simp [State.forceIdle, h]

/-! ## FORCE_SET -/

/-- Every request entry accepted under the next force version, the table kept in its store (04 R106, R107). -/
def State.takeForces (s : State) (l : List (Point × Nat × Nat)) (party : Nat) : State :=
  let k := l.foldl (fun t e => t.acceptForce e.1 e.2.1 party s.nextVer) s
  ({ k with pair := { k.pair with forceVer := s.nextVer } } : State).setForces k.img.force

/-- A passing FORCE_SET takes its entries and waits for its completion. -/
theorem exec_forceSet {s b : State} {c : Cmd} (hb : b = begun s 0x0050 c 1 (c.inlZero 0)) (hc : passes s 0x0050 c 1 (c.inlZero 0) = true)
    (hm : c.length % 8 = 0) (hl : 8 ≤ c.length) (hu : c.length ≤ 2048) (hp : b.primary = true)
    (ho : b.forcesOk (parseForces c.buf (c.length / 8)) = true) :
    exec (.forceSet c) s = .next (((b.takeForces (parseForces c.buf (c.length / 8)) (b.partyOf c)).addRun
      (mkRun 0x0050 c (b.partyOf c) false 0 (.force b.nextVer 0))).forceIdle) := by
  subst hb
  have hbuf : (c.length % 8 ≠ 0 || c.length < 8 || 2048 < c.length) = false := by simp; omega
  show Host.Outcome.next (s.hostCmd _ _ _ _ _) = _
  rw [hostCmd_of_passes _ hc]
  simp only [hbuf, hp, ho, Bool.not_true, Bool.false_eq_true, if_false]
  rfl

/-- The table that one request entry leaves: the entry stands PENDING under the next version, and memory, network and cycle are as before. -/
theorem State.takeForces_one (s : State) (p : Point) (v r party : Nat) :
    (∃ f, (s.takeForces [(p, v, r)] party).forceAt p = some f ∧ f.pending = true ∧ f.value = BitVec.ofNat 16 v ∧ f.party = party) ∧
    (s.takeForces [(p, v, r)] party).pair.forceVer = s.pair.forceVer + 1 ∧ (s.takeForces [(p, v, r)] party).mem = s.mem ∧
    (s.takeForces [(p, v, r)] party).net = s.net ∧ (s.takeForces [(p, v, r)] party).cyc = s.cyc := by
  have hf : (s.takeForces [(p, v, r)] party).forceAt p = (s.acceptForce p v party s.nextVer).forceAt p := by
    simp [State.takeForces, State.forceAt]
  refine ⟨hf ▸ s.forceAt_acceptForce p v party s.nextVer, ?_⟩
  simp [State.takeForces, State.acceptForce, State.nextVer]

/-! ## FORCE_RELEASE and FORCE_LIST -/

/-- The release of the entries that a condition selects is taken, or answered EMPTY where it selects none (04 R107, R112); an entry whose
release is under way counts as not forced (log entry 95). -/
theorem releaseWhere_eq (c : Cmd) (sel : Force → Bool) (b : State) : releaseWhere c sel b =
    if b.img.force.countP (freedBy b sel) = 0 then b.final 0x0051 c stEmpty dNone
    else ((b.acceptReleases (freedBy b sel) (b.partyOf c) b.nextVer).addRun
      (mkRun 0x0051 c (b.partyOf c) false 0 (.force b.nextVer (b.img.force.countP (freedBy b sel))))).forceIdle := rfl

/-- A passing FORCE_RELEASE of named points releases those of them that are forced. -/
theorem exec_forceRelease {s b : State} {c : Cmd} (hb : b = begun s 0x0051 c 1 (c.inf 0 4 / 2 = 0 && c.inlZero 4))
    (hc : passes s 0x0051 c 1 (c.inf 0 4 / 2 = 0 && c.inlZero 4) = true) (ha : c.inf 0 4 % 2 = 0) (hm : c.length % 4 = 0)
    (hl : 4 ≤ c.length) (hu : c.length ≤ 1024) (hp : b.primary = true)
    (ho : (parsePoints c.buf (c.length / 4)).all (pointR97 b.mapCfg) = true) :
    exec (.forceRelease c) s = .next (releaseWhere c (fun f => (parsePoints c.buf (c.length / 4)).contains f.point) b) := by
  subst hb
  have hbuf : (c.length % 4 ≠ 0 || c.length < 4 || 1024 < c.length) = false := by simp; omega
  show Host.Outcome.next (s.hostCmd _ _ _ _ _) = _
  rw [hostCmd_of_passes _ hc, if_neg (by omega), hbuf, if_neg Bool.false_ne_true]
  simp only [releaseOwn, hp, ho, Bool.not_true, Bool.false_eq_true, if_false]

/-- A passing FORCE_RELEASE with ALL releases every forced point. -/
theorem exec_forceReleaseAll {s b : State} {c : Cmd} (hb : b = begun s 0x0051 c 0 (c.inf 0 4 / 2 = 0 && c.inlZero 4))
    (hc : passes s 0x0051 c 0 (c.inf 0 4 / 2 = 0 && c.inlZero 4) = true) (ha : c.inf 0 4 % 2 = 1) (hp : b.primary = true) :
    exec (.forceReleaseAll c) s = .next (releaseWhere c (fun _ => true) b) := by
  subst hb
  show Host.Outcome.next (s.hostCmd _ _ _ _ _) = _
  rw [hostCmd_of_passes _ hc, if_neg (by omega)]
  simp only [hp, Bool.not_true, Bool.false_eq_true, if_false]

/-! ## The commands -/

/-- Settles O9: FORCE_SET by `takeForces`, whose one entry is the one found on its point; the releases by `releaseWhere_eq`, which counts
the selected entries; FORCE_LIST where its index is below the total. -/
theorem forceCommandsComplete : Obligations.ForceCommandsComplete := by
  unfold Obligations.ForceCommandsComplete
  refine ⟨?set, ?setOne, ?release, ?releaseAll, ?releaseNone, ?list⟩
  case set =>
    rintro c s b k hb hc hm hl hu hp ho rfl
    exact exec_forceSet hb hc hm hl hu hp ho
  case setOne =>
    intro c s b hb hc hl hp ho hr
    obtain ⟨⟨f, hf, hpend, hval, hparty⟩, hver, hmem, hnet, hcyc⟩ := b.takeForces_one
      (BitVec.ofNat 32 (c.buf.field 0 4)) (c.buf.field 4 2) (c.buf.field 6 2) (b.partyOf c)
    have he := exec_forceSet hb hc (by omega) (by omega) (by omega) hp (by simpa [hl] using ho)
    have hone : parseForces c.buf (c.length / 8) = [(BitVec.ofNat 32 (c.buf.field 0 4), c.buf.field 4 2, c.buf.field 6 2)] := by
      rw [hl]
      rfl
    rw [hone, State.forceIdle_running (by simp [hcyc, hr])] at he
    exact ⟨_, f, he, hf, hpend, hval, hparty, hver, hmem, hnet⟩
  case release =>
    rintro c s b n k hb hc ha hm hl hu hp ho rfl rfl hn
    rw [answers, exec_forceRelease hb hc ha hm hl hu hp ho, releaseWhere_eq, if_neg hn]
  case releaseAll =>
    rintro c s b n k hb hc ha hp rfl rfl hn
    rw [answers, exec_forceReleaseAll hb hc ha hp, releaseWhere_eq, if_neg hn]
  case releaseNone =>
    intro c s b hb hc ha hp hn
    rw [answers, exec_forceReleaseAll hb hc ha hp, releaseWhere_eq, if_pos hn]
  case list =>
    rintro c s b rfl hc hi
    show Host.Outcome.next (s.hostCmd _ _ _ _ _) = _
    rw [hostCmd_of_passes _ hc]
    exact congrArg Host.Outcome.next (if_neg (Nat.not_le.mpr hi))

end Sys2Proof.Machine
end

section
/-! The rules of a station's own state (05 R122, R147): what reading a station gives after each update, what an update of an attachment keeps,
and what a frame that the station takes or passes on leaves behind. -/

namespace Sys2Proof.Machine
open Sys2Proof

/-! ## Reading a station -/

/-- A station is read under its own code. -/
@[simp] theorem State.station_code (s : State) (code : Nat) : (s.station code).code = code := by
  unfold State.station State.stnOf
  cases h : s.stn.find? (·.code = code) with
  | none => rfl
  | some x => simpa using List.find?_some h

/-- A station is read from the list of stations alone. -/
theorem State.station_of_stn_eq {s t : State} (code : Nat) (h : t.stn = s.stn) : t.station code = s.station code := by
  simp [State.station, State.stnOf, h]

/-- An updated station is read as updated, whether the model has met it or not. -/
theorem State.station_onStn (s : State) {code : Nat} {f : Stn → Stn} (hf : ∀ y, y.code = code → (f y).code = code) :
    (s.onStn code f).station code = f (s.station code) := by
  have hp : (fun y : Stn => decide ((if y.code = code then f y else y).code = code)) = fun y => decide (y.code = code) := by
    funext y
    by_cases h : y.code = code <;> simp [h, hf]
  unfold State.station State.stnOf State.onStn
  cases h : s.stn.find? (fun y => decide (y.code = code)) with
  | none =>
    have hn : s.stn.any (fun y => decide (y.code = code)) = false := by simpa using h
    simp [hn, List.find?_append, h, hf]
  | some x =>
    have hx : x.code = code := by simpa using List.find?_some h
    have hs : s.stn.any (fun y => decide (y.code = code)) = true := List.any_eq_true.2 ⟨x, List.mem_of_find?_eq_some h, by simp [hx]⟩
    simp [hs, List.find?_map, hp, h, hx]

/-- A station that has been stored is read. -/
theorem State.station_setStn (s : State) {code : Nat} {x : Stn} (h : x.code = code) : (s.setStn x).station code = x := by
  subst h
  exact s.station_onStn fun _ _ => rfl

@[simp] theorem State.station_reachNet (s : State) (n code : Nat) : (s.reachNet n).station code = s.station code :=
  State.station_of_stn_eq code (by simp)

/-! ## Attachments -/

/-- The updated attachment is read as updated. -/
@[simp] theorem Stn.ch_onCh (x : Stn) (ch : Side) (f : StnCh → StnCh) : (x.onCh ch f).ch ch = f (x.ch ch) := by
  cases ch <;> rfl

/-- An update of an attachment keeps everything else of the station. -/
@[simp] theorem Stn.onCh_frame (x : Stn) (ch : Side) (f : StnCh → StnCh) :
    (x.onCh ch f).code = x.code ∧ (x.onCh ch f).nst = x.nst ∧ (x.onCh ch f).n = x.n ∧ (x.onCh ch f).cur = x.cur ∧
    (x.onCh ch f).objs = x.objs ∧ (x.onCh ch f).pendWin = x.pendWin ∧ (x.onCh ch f).queue = x.queue ∧ (x.onCh ch f).pts = x.pts ∧
    (x.onCh ch f).parts = x.parts ∧ (x.onCh ch f).partsN = x.partsN ∧ (x.onCh ch f).acts = x.acts ∧ (x.onCh ch f).safe = x.safe ∧
    (x.onCh ch f).evts = x.evts ∧ (x.onCh ch f).resps = x.resps ∧ (x.onCh ch f).up = x.up ∧ (x.onCh ch f).down = x.down := by
  cases ch <;> exact ⟨rfl, rfl, rfl, rfl, rfl, rfl, rfl, rfl, rfl, rfl, rfl, rfl, rfl, rfl, rfl, rfl⟩

/-- An attachment has no part in the schedule that the station keeps. -/
@[simp] theorem Stn.schedule_onCh (x : Stn) (ch : Side) (f : StnCh → StnCh) :
    (x.onCh ch f).t = x.t ∧ (x.onCh ch f).arb = x.arb ∧ (x.onCh ch f).wins = x.wins := by
  cases ch <;> exact ⟨rfl, rfl, rfl⟩

/-- Counting a frame is an update of its attachment. -/
@[simp] theorem Stn.countDown_frame (x : Stn) (ch : Side) (r : Rx) :
    (x.countDown ch r).code = x.code ∧ (x.countDown ch r).nst = x.nst ∧ (x.countDown ch r).n = x.n ∧ (x.countDown ch r).cur = x.cur ∧
    (x.countDown ch r).objs = x.objs ∧ (x.countDown ch r).parts = x.parts ∧ (x.countDown ch r).partsN = x.partsN ∧
    (x.countDown ch r).acts = x.acts ∧ (x.countDown ch r).resps = x.resps ∧ (x.countDown ch r).down = x.down := by
  simp [Stn.countDown]

/-! ## Frames taken and passed on -/

/-- A frame that the station takes is counted, acted on and forwarded. -/
theorem State.stnTake_take {s : State} {ch : Side} {f : Frame} {room : Nat} {x : Stn} (code : Nat) (act : Stn → Stn)
    (h : x.judge f room = .take) : s.stnTake code ch f room x act = tookFrame s code ch f x act := by
  simp [State.stnTake, tookFrame, h]

/-- A frame for another station is counted and forwarded. -/
theorem State.stnTake_pass {s : State} {ch : Side} {f : Frame} {room : Nat} {x : Stn} (code : Nat) (act : Stn → Stn)
    (h : x.judge f room = .pass) : s.stnTake code ch f room x act = (s.setStn (x.countDown ch .pass)).forwarded code ch f := by
  simp [State.stnTake, h]

/-- A forwarding delay is at most 400 ns (05 R122). -/
theorem State.drawFwd_le (s : State) (code : Nat) (ch : Side) (up : Bool) : (s.drawFwd code ch up).1 ≤ 400 := by
  simp only [State.drawFwd]
  omega

/-- A forwarded frame stands behind those before it, at most 400 ns behind its arrival; its delay is noted at the attachment. -/
theorem State.station_forwarded (s : State) (code : Nat) (ch : Side) (f : Frame) :
    ∃ d ≤ 400, (s.forwarded code ch f).station code =
      { (s.station code).onCh ch fun k => k.noteFwd false d with
        down := (s.station code).down ++ [{ ch := ch, delay := d, f := f }] } := by
  refine ⟨_, s.drawFwd_le code ch false, ?_⟩
  have hs : (s.drawFwd code ch false).2.station code = s.station code := State.station_of_stn_eq code (by simp)
  simp only [State.forwarded]
  rw [State.station_onStn _ (by simp), hs]

/-- The station behind a frame that it takes: as the frame's own rule leaves it, but for the forwarding. -/
theorem station_tookFrame (s : State) {code : Nat} (ch : Side) (f : Frame) {x : Stn} {act : Stn → Stn}
    (h : (act (x.countDown ch .take)).code = code) :
    ∃ d, (tookFrame s code ch f x act).station code =
      { (act (x.countDown ch .take)).onCh ch fun k => k.noteFwd false d with
        down := (act (x.countDown ch .take)).down ++ [{ ch := ch, delay := d, f := f }] } := by
  obtain ⟨d, -, hd⟩ := (s.setStn (act (x.countDown ch .take))).station_forwarded code ch f
  rw [State.station_setStn s h] at hd
  exact ⟨d, hd⟩

end Sys2Proof.Machine
end

section
/-! Outputs of a station (05 R152 to R154, 07 R197, R198, 08 R211 to R218): each command of its outputs as one equation, then the station that
it leaves. -/

namespace Sys2Proof.Machine
open Sys2Proof

/-! ## OUT frames -/

/-- Safe values touch the output points alone. -/
@[simp] theorem Stn.toSafe_frame (x : Stn) (retains : Bool) :
    (x.toSafe retains).code = x.code ∧ (x.toSafe retains).n = x.n ∧ (x.toSafe retains).parts = x.parts ∧
    (x.toSafe retains).partsN = x.partsN ∧ (x.toSafe retains).acts = x.acts := by
  simp [Stn.toSafe]

/-- The FLAGS of a frame leave the frames taken in the cycle as they are. -/
@[simp] theorem Stn.seeFlags_frame (x : Stn) (f : Frame) :
    (x.seeFlags f).code = x.code ∧ (x.seeFlags f).n = x.n ∧ (x.seeFlags f).parts = x.parts ∧ (x.seeFlags f).partsN = x.partsN ∧
    (x.seeFlags f).acts = x.acts := by
  unfold Stn.seeFlags
  dsimp only
  (repeat' split) <;> simp

/-- The station of a kept part is the same one. -/
@[simp] theorem outKept_code (x : Stn) (f : Frame) : (outKept x f).code = x.code := by
  unfold outKept
  dsimp only
  (repeat' split) <;> simp

/-- The first copy of a part of the present cycle joins those kept. -/
theorem outKept_parts_first {x : Stn} {f : Frame} (hn : x.partsN = x.n) (hp : x.parts.any (·.num = f.part) = false) :
    (outKept x f).parts = x.parts ++ [{ num := f.part, last := f.last, bytes := f.payload, flags := f.flags }] := by
  simp [outKept, hn, hp]

/-- An OUT frame of the station in its window is taken: its part is kept. -/
theorem exec_stationOutRx_own {s : State} {code : Nat} {ch : Side} {f : Frame} {w : WinEnt} {x : Stn} (hx : x = s.station code)
    (hw : outWin x code f = some w) (ha : f.addr.toNat = code) (hj : x.judge f w.len = .take) (ht : f.ftype = 0x20) :
    exec (.stationOutRx code ch f) s = .next (tookFrame s code ch f x fun y => outKept y f) := by
  subst hx
  unfold outWin at hw
  show Host.Outcome.next (s.stnTake ..) = _
  simp only [hw, ht, ha, decide_true, Bool.and_self, if_true, Option.map_some, Option.getD_some, State.stnTake_take code _ hj,
    ne_eq, not_true_eq_false, decide_false, Option.isNone_some, Bool.or_self, Bool.false_eq_true, if_false]
  rfl

/-- A frame for another station is counted and passed on. -/
theorem exec_stationOutRx_other {s : State} {code : Nat} {ch : Side} {f : Frame} {x : Stn} (hx : x = s.station code)
    (ha : f.addr.toNat ≠ code) (hj : x.judge f x.maxLen = .pass) :
    exec (.stationOutRx code ch f) s = .next ((s.setStn (x.countDown ch .pass)).forwarded code ch f) := by
  subst hx
  show Host.Outcome.next (s.stnTake ..) = _
  simp only [ha, decide_false, Bool.and_false, Bool.false_eq_true, if_false, State.stnTake_pass code _ hj]

/-- The still point with a complete OUT stream: the parts are used up; a stream without LULL is applied, restarts the watchdog and ends the safe
state (07 R197, R198, 08 R218). -/
theorem exec_stationOutApply_stream {s : State} {code : Nat} {x : Stn} {b : List Byte} {fl : BitVec 16} (hx : x = s.station code)
    (ho : x.outStream = some (b, fl)) :
    exec (.stationOutApply code) s = .next (s.setStn (
      if fl.getLsbD 2 then { atStill x with parts := [] }
      else { atStill x with
        parts := [], wdt := 0, wdOn := decide (0 < x.doN + x.aoN), safe := false
        pts := x.outPoints.map fun p => (x.pt p).outApply (x.outVal b p) (x.partsN % 2 ^ 32) x.stillAt })) := by
  subst hx
  show Host.Outcome.next (s.setStn (match (s.station code).outStream with | none => _ | some (b, fl) => _)) = _
  rw [ho]
  rfl

/-! ## ACT frames -/

/-- An ACT part of a window that serves the station is taken once: its entries one by one, in their order (08 R211). -/
theorem exec_stationActRx_first {s : State} {code i : Nat} {ch : Side} {f : Frame} {w : WinEnt} {x : Stn} (hx : x = s.station code)
    (hw : x.wins[i]? = some w) (hj : x.judge f w.len = .take) (ht : f.ftype = 0x21) (hty : w.ty = 0x21) (hd : w.down = true)
    (hs : w.serves x.n = true) (ha : x.acts.contains (i, f.part) = false) :
    exec (.stationActRx code ch i f) s = .next (tookFrame s code ch f x fun y =>
      (List.range (f.length / 16)).foldl (fun z k => z.takeEnt s.netTime (actEntAt f.payload f.seq k))
        { y.seeFlags f with acts := x.acts ++ [(i, f.part)] }) := by
  subst hx
  show execStationActRx code ch i f s = _
  simp only [execStationActRx, hw, hd, if_true, State.stnTake_take code _ hj, tookFrame, ht, hty, Stn.countDown_frame, hs, ha,
    Bool.not_true, ne_eq, not_true_eq_false, decide_false, Bool.or_self, Bool.false_eq_true, if_false, Stn.seeFlags_frame]

/-- A part that was taken in this cycle is not taken again. -/
theorem exec_stationActRx_again {s : State} {code i : Nat} {ch : Side} {f : Frame} {w : WinEnt} {x : Stn} (hx : x = s.station code)
    (hw : x.wins[i]? = some w) (hj : x.judge f (if w.down then w.len else x.maxLen) = .take)
    (ha : x.acts.contains (i, f.part) = true) :
    exec (.stationActRx code ch i f) s = .next (tookFrame s code ch f x fun y => y) := by
  subst hx
  show execStationActRx code ch i f s = _
  simp only [execStationActRx, hw, State.stnTake_take code _ hj, tookFrame, Stn.countDown_frame, ha, Bool.or_true, if_true]

/-! ## The instant of an entry -/

/-- A point is read under its own address. -/
@[simp] theorem Stn.pt_point (x : Stn) (p : Point) : (x.pt p).point = p := by
  unfold Stn.pt
  cases h : x.pts.find? (·.point = p) with
  | none => rfl
  | some o => simpa using List.find?_some h

/-- An updated point is read as updated. -/
theorem Stn.pt_onPt (x : Stn) {p : Point} {f : PtOut → PtOut} (h : (f (x.pt p)).point = p) : (x.onPt p f).pt p = f (x.pt p) := by
  have hn : (x.pts.filter (·.point ≠ p)).find? (·.point = p) = none := by simp
  show (((x.pts.filter (·.point ≠ p)) ++ [f (x.pt p)]).find? (·.point = p)).getD { point := p } = _
  rw [List.find?_append, hn]
  simp [h]

/-- An entry is applied to a point, not to the station: code and queue stay. -/
@[simp] theorem Stn.applyEnt_frame (x : Stn) (e : ActEnt) : (x.applyEnt e).code = x.code ∧ (x.applyEnt e).queue = x.queue := by
  unfold Stn.applyEnt
  split <;> exact ⟨rfl, rfl⟩

/-- At a station out of its safe state an entry gives the terminal its value and holds the point (08 R218). -/
theorem Stn.pt_applyEnt {x : Stn} (e : ActEnt) (h : x.safe = false) :
    (x.applyEnt e).pt e.point = { x.pt e.point with held := true, actN := e.seq, actAt := e.time, term := e.value } := by
  rw [Stn.applyEnt, if_neg (by simp [h]), Stn.pt_onPt _ (by simp)]

/-- In its safe state a station leaves its terminals (log entry 29). -/
theorem Stn.applyEnt_safe {x : Stn} (e : ActEnt) (h : x.safe = true) : x.applyEnt e = x := by
  rw [Stn.applyEnt, if_pos h]

/-- The entries of a station without those of a point at an instant. -/
def Stn.without (x : Stn) (e : ActEnt) : Stn := { x with queue := x.queue.filter fun q => q.point ≠ e.point || q.time ≠ e.time }

/-- No entry of the point at that instant is left. -/
theorem Stn.not_mem_without {x : Stn} {e q : ActEnt} (h : q ∈ (x.without e).queue) : ¬(q.point = e.point ∧ q.time = e.time) := by
  have hq := (List.mem_filter.1 h).2
  rintro ⟨hp, ht⟩
  simp [hp, ht] at hq

/-- The next entry of a point leaves the queue at its start instant and is applied. -/
theorem exec_stationActInstant {s : State} {code : Nat} {p : Point} {e : ActEnt} {x : Stn} (hx : x = s.station code)
    (he : nextEnt p x.queue = some e) :
    exec (.stationActInstant code p) s = .next ((s.reachNet e.start).setStn ((x.without e).applyEnt e)) := by
  subst hx
  show execStationActInstant code p s = _
  simp only [execStationActInstant, he]
  rfl

/-! ## The commands -/

/-- Settles O42: each command by its equation above; what it leaves of the station is read by `station_setStn`, `station_forwarded` and
`station_tookFrame`. -/
theorem stationOutputsComplete : Obligations.StationOutputsComplete := by
  unfold Obligations.StationOutputsComplete
  refine ⟨?own, ?other, ?passed, ?kept, ?still, ?lull, ?out, ?act, ?again, ?instant, ?applied, ?safe, ?watchdog⟩
  case own =>
    intro code ch f w x s hx hw ha hj ht
    exact exec_stationOutRx_own hx hw ha hj ht
  case other =>
    intro code ch f x s hx ha hj
    exact exec_stationOutRx_other hx ha hj
  case passed =>
    intro code ch f x s hx ha hj
    obtain ⟨d, hd, ht⟩ := (s.setStn (x.countDown ch .pass)).station_forwarded code ch f
    rw [State.station_setStn s (by simp [hx])] at ht
    refine ⟨_, d, exec_stationOutRx_other hx ha hj, hd, ?_⟩
    simp [ht]
  case kept =>
    intro code ch f w x s hx hw ha hj ht hn hp
    obtain ⟨d, hd⟩ := station_tookFrame s (code := code) ch f (x := x) (act := fun y => outKept y f) (by simp [hx])
    refine ⟨_, exec_stationOutRx_own hx hw ha hj ht, ?_⟩
    simp [hd, outKept_parts_first (x := x.countDown ch .take) (f := f) (by simpa using hn) (by simpa using hp)]
  case still =>
    rintro code x s rfl ho
    show Host.Outcome.next (s.setStn (match (s.station code).outStream with | none => _ | some (b, fl) => _)) = _
    rw [ho]
    rfl
  case lull =>
    rintro code x b fl s rfl ho hl
    rw [answers, exec_stationOutApply_stream rfl ho, if_pos hl]
  case out =>
    rintro code x b fl s rfl ho hl
    rw [answers, exec_stationOutApply_stream rfl ho, if_neg (Bool.eq_false_iff.1 hl)]
  case act =>
    intro code ch i w f x s hx hw hj ht hty hd hs ha
    exact exec_stationActRx_first hx hw hj ht hty hd hs ha
  case again =>
    intro code ch i w f x s hx hw hj _ ha
    exact exec_stationActRx_again hx hw hj ha
  case instant =>
    intro code p e x s hx he
    exact exec_stationActInstant hx he
  case applied =>
    rintro code p e x s hx he rfl hs
    refine ⟨_, exec_stationActInstant hx he, ?_⟩
    rw [State.station_setStn _ (by simp [Stn.without, hx]), Stn.pt_applyEnt (x := x.without e) e hs, (Stn.applyEnt_frame _ e).2]
    exact ⟨rfl, rfl, rfl, fun q hq => Stn.not_mem_without hq⟩
  case safe =>
    intro code p e x s hx he hs
    refine ⟨_, exec_stationActInstant hx he, ?_⟩
    rw [State.station_setStn _ (by simp [Stn.without, hx]), Stn.applyEnt_safe (x := x.without e) e hs]
    rfl
  case watchdog =>
    rintro code h x s rfl ho hw hn
    show execStationWatchdogExpiry code s = _
    simp only [execStationWatchdogExpiry, ho]
    rw [if_neg (by simp [hw, hn])]

end Sys2Proof.Machine
end

section
/-! What a station sends (05 R137, R140, R148, R151, R154, R155, 06 R172 to R185): the answer to a request, the IN frames of a serving cycle, a
frame of its own in the arbitrating window, and the verdicts of its guardian. -/

namespace Sys2Proof.Machine
open Sys2Proof

/-! ## Requests -/

/-- A read within the object is answered with its bytes (05 R155). -/
theorem Stn.answer_read {x : Stn} {ch : Side} {p d : List Byte} (hop : field p 0 1 = 0) (hobj : field p 2 2 ≠ 0x8002)
    (hd : x.object ch (field p 2 2) = some d) (hlen : field p 4 4 + field p 8 2 ≤ d.length) (hmax : 12 + field p 8 2 ≤ x.maxLen)
    (hdup : (x.resps.any fun r => r.2.1 = x.n && field r.2.2 1 1 = field p 1 1 && field r.2.2 2 2 = field p 2 2 &&
      field r.2.2 4 4 = field p 4 4) = false) :
    x.answer ch p = { x with resps := x.resps ++
      [(ch, x.n, cfgBytes 2 (field p 1 1) (field p 2 2) (field p 4 4) 0 (slice d (field p 4 4) (field p 8 2)))] } := by
  simp only [Stn.answer, hop, hdup, hobj, hd]
  simp [hlen, hmax]

/-- HOLD takes its four bytes at once. -/
theorem Stn.write_hold {x : Stn} (ch : Side) {d : List Byte} (hn : alook 0x8004 x.objs = none) (hd : d.length = 4) :
    x.write ch 0x8004 0 d = (0, { x with objs := aset 0x8004 d x.objs }) := by
  simp [Stn.write, Stn.writeFixed, hn, hd, patch, List.drop_eq_nil_of_le]

/-- A write of HOLD with no response waiting is held and answered (05 R155, 07 R189). -/
theorem Stn.answer_writeHold {x : Stn} {ch : Side} {p : List Byte} (hop : field p 0 1 = 1) (hobj : field p 2 2 = 0x8004)
    (hofs : field p 4 4 = 0) (hcount : field p 8 2 = 4) (hlen : p.length = 16) (hr : x.resps = [])
    (hn : alook 0x8004 x.objs = none) :
    x.answer ch p = { x with
      objs := aset 0x8004 (slice p 12 4) x.objs, resps := [(ch, x.n, cfgBytes 3 (field p 1 1) 0x8004 0 0 [])] } := by
  have hs : (slice p 12 4).length = 4 := by simp [slice]
  simp [Stn.answer, hop, hobj, hofs, hcount, hlen, hr, Stn.write_hold ch hn hs]

/-- A request that the station takes is answered. -/
theorem exec_stationCfgRequest {s : State} {code : Nat} {ch : Side} {f : Frame} {x : Stn} (hx : x = s.station code)
    (hj : x.judge f x.maxLen = .take) (ht : f.ftype = 0x40) (hl : 12 ≤ f.length) :
    exec (.stationCfgRequest code ch f) s = .next (tookFrame s code ch f x fun y => y.answer ch f.payload) := by
  subst hx
  show Host.Outcome.next (s.stnTake ..) = _
  simp only [State.stnTake_take code _ hj, ht, hl, decide_true, Bool.and_self, if_true]

/-! ## IN frames -/

@[simp] theorem State.drawBits_stn (k : Nat) (s : State) : (s.drawBits k).2.stn = s.stn := by
  induction k generalizing s with
  | zero => rfl
  | succ k ih => simp [State.drawBits, ih]

@[simp] theorem State.drawBytes_stn (k : Nat) (s : State) : (s.drawBytes k).2.stn = s.stn := by
  induction k generalizing s with
  | zero => rfl
  | succ k ih => simp [State.drawBytes, ih]

@[simp] theorem State.drawEnc_stn (k i : Nat) (s : State) : (s.drawEnc k i).2.stn = s.stn := by
  induction k generalizing i s with
  | zero => rfl
  | succ k ih => simp [State.drawEnc, ih]

/-- What a station finds on itself is an EVT entry or nothing. -/
theorem State.drawFault_eq (s : State) (x : Stn) : ∃ e, (s.drawFault x).1 = { x with evts := e } ∧ (s.drawFault x).2.stn = s.stn := by
  unfold State.drawFault
  dsimp only
  split
  · exact ⟨_, rfl, by simp⟩
  · split
    · exact ⟨_, rfl, by simp⟩
    · exact ⟨x.evts, rfl, by simp⟩

/-- Forming the IN stream of a cycle changes no more of the station than its waiting events, the stream kept and the overflow shown. -/
theorem State.station_inStream (s : State) (code : Nat) (dev : Int) :
    ∃ e i o, (s.inStream (s.station code) dev).2.station code = { s.station code with evts := e, inS := i, overflow := o } := by
  have hform : ∃ e i o, (s.formIn (s.station code) dev).2.station code = { s.station code with evts := e, inS := i, overflow := o } := by
    obtain ⟨e, he, -⟩ := s.drawFault_eq (s.station code)
    simp only [State.formIn, he]
    exact ⟨_, _, _, State.station_setStn _ (s.station_code code)⟩
  have hkept : ∃ e i o, s.station code = { s.station code with evts := e, inS := i, overflow := o } := ⟨_, _, _, rfl⟩
  unfold State.inStream
  split
  · split
    · exact hkept
    · exact hform
  · exact hform

/-- The IN frames of a serving cycle go out on an integrated attachment of a station in SYNCED, once (06 R176, R177). -/
theorem exec_stationInSend {s k : State} {code : Nat} {ch : Side} {dev : Int} {x : Stn} {b : List Byte} {fl : Nat}
    (hx : x = s.station code) (hn : x.nst = .synced) (hq : x.quiet = false) (hi : (x.ch ch).integrated = true) (hw : x.inWins ≠ [])
    (hu : (x.up.any fun u => u.ch = ch && u.f.ftype = 0x10 && u.f.addr.toNat = code) = false) (hs : s.inStream x dev = ((b, fl), k)) :
    exec (.stationInSend code ch dev) s = .next (k.onStn code fun y => { y with up := y.up ++ y.inParts ch fl y.inWins b }) := by
  subst hx
  show execStationInSend code ch dev s = _
  rw [execStationInSend, if_neg (by simp [hn, hq, hi, hw, hu]), hs]

/-! ## The arbitrating window -/

/-- What bars a frame of the station's own does not hold where the station may start one (05 R140). -/
theorem not_barred_of_arbFree {x : Stn} {ch : Side} {at_ : Nat} (h : arbFree x ch at_ = true) :
    (x.nst = .listen || (x.ch ch).arbSent || !(x.ch ch).linkUp || !(x.ch ch).idleAt at_ ||
      decide (at_ + (if x.nst = .synced && (x.ch ch).held then (x.ch ch).pdUp.getD 0 else 0) + x.arb < x.t)) = false := by
  simp only [arbFree, Bool.and_eq_true, decide_eq_true_eq, Bool.not_eq_true'] at h
  obtain ⟨⟨⟨⟨hn, hs⟩, hl⟩, hi⟩, ht⟩ := h
  simp [hn, hs, hl, hi, ht]

/-- A waiting response that fits goes first (log entry 28), its TX written as it leaves (06 R173). -/
theorem exec_stationArbSend_response {s : State} {code at_ : Nat} {ch : Side} {x : Stn} {r : Side × Nat × List Byte}
    (hx : x = s.station code) (hf : arbFree x ch at_ = true) (hr : respDue x ch at_ = some r) :
    exec (.stationArbSend code ch at_) s = .next (s.setStn
      (({ x with resps := x.resps.filter (· ≠ r) } : Stn).arbOut ch 0x40 at_ (patchTx r.2.2 (x.cycleStart + at_)))) := by
  subst hx
  simp only [respDue, arbFits] at hr
  show execStationArbSend code ch at_ s = _
  simp only [execStationArbSend, not_barred_of_arbFree hf, hr, Bool.false_eq_true, if_false]

/-- Without one, a DELAY report that is due and fits goes, and counts as sent in this cycle (06 R172). -/
theorem exec_stationArbSend_report {s : State} {code at_ : Nat} {ch : Side} {x : Stn} (hx : x = s.station code)
    (hf : arbFree x ch at_ = true) (hr : respDue x ch at_ = none) (hd : x.reportDue ch = true) (hl : arbFits x ch at_ 56 = true) :
    exec (.stationArbSend code ch at_) s = .next (s.setStn ((x.onCh ch fun k => { k with repN := some x.n }).arbOut ch 0x40 at_
      (patchTx (cfgBytes 2 0 0x8003 0 0 (x.delayObj ch)) (x.cycleStart + at_)))) := by
  subst hx
  simp only [respDue, arbFits] at hr hl
  show execStationArbSend code ch at_ s = _
  simp only [execStationArbSend, not_barred_of_arbFree hf, hr, hd, hl, Bool.false_eq_true, if_false, Bool.and_self, if_true]
  cases ch <;> rfl

/-- Without either, the events of the attachment that one frame holds go (05 R154). -/
theorem exec_stationArbSend_events {s : State} {code at_ : Nat} {ch : Side} {x : Stn} {e : List (List Byte)}
    {l : List (Option Side × List Byte)} (hx : x = s.station code) (hf : arbFree x ch at_ = true) (hr : respDue x ch at_ = none)
    (hd : x.reportDue ch = false) (he : takeEvts ch x.evtRoom x.evts = (e, l)) (hne : e ≠ [])
    (hl : arbFits x ch at_ (16 * e.length) = true) :
    exec (.stationArbSend code ch at_) s =
      .next (s.setStn (({ x with evts := l } : Stn).arbOut ch 0x30 at_ e.flatten)) := by
  subst hx
  simp only [respDue, arbFits] at hr hl
  show execStationArbSend code ch at_ s = _
  simp only [execStationArbSend, not_barred_of_arbFree hf, hr, hd, he, hl, Bool.false_eq_true, if_false, Bool.false_and, Bool.and_true]
  rw [if_pos (by simpa using hne)]

/-! ## The guardian -/

/-- A frame that is heard is noted at the attachment: nothing else of the station changes. -/
@[simp] theorem Stn.hear_frame (x : Stn) (ch : Side) (fin : Nat) :
    (x.hear ch fin).code = x.code ∧ (x.hear ch fin).nst = x.nst ∧ (x.hear ch fin).t = x.t ∧ (x.hear ch fin).arb = x.arb ∧
    (x.hear ch fin).up = x.up ∧ ((x.hear ch fin).ch ch).g = (x.ch ch).g ∧ ((x.hear ch fin).ch ch).upFwd = (x.ch ch).upFwd := by
  simp [Stn.hear]

/-- Counting a frame from behind changes the counters of bad frames alone. -/
@[simp] theorem Stn.countUp_frame (x : Stn) (ch : Side) (room : Nat) (f : Frame) :
    (x.countUp ch room f).code = x.code ∧ (x.countUp ch room f).up = x.up ∧ ((x.countUp ch room f).ch ch).upFwd = (x.ch ch).upFwd ∧
    ((x.countUp ch room f).ch ch).cutoff = (x.ch ch).cutoff ∧ ((x.countUp ch room f).ch ch).arbEnd = (x.ch ch).arbEnd := by
  unfold Stn.countUp
  simp only [Stn.onCh_frame, Stn.ch_onCh, true_and]
  (repeat' split) <;> exact ⟨rfl, rfl, rfl⟩

/-- The frames that a station sends are no part of its attachments. -/
theorem Stn.ch_of_up (x : Stn) (l : List UpFrame) (ch : Side) : ({ x with up := l } : Stn).ch ch = x.ch ch := by
  cases ch <;> rfl

/-- A sound frame outside the arbitrating window is forwarded at most 400 ns behind its arrival and counted (05 R122, R157). -/
theorem State.station_passUp (s : State) {code : Nat} {x : Stn} (hx : x.code = code) (ch : Side) (room : Nat) (seen : Seen) {f : Frame}
    (hf : f.crcOk = true) :
    ∃ d ≤ 400, ((s.passUp x ch false room seen f false).station code).up = x.up ++ [{ ch := ch, at_ := seen.sfd + d, f := f }] ∧
      (((s.passUp x ch false room seen f false).station code).ch ch).upFwd = satAdd 32 (x.ch ch).upFwd 1 ∧
      (((s.passUp x ch false room seen f false).station code).ch ch).cutoff = (x.ch ch).cutoff := by
  refine ⟨_, s.drawFwd_le (x.countUp ch room f).code ch true, ?_⟩
  simp only [State.passUp, hf, Bool.false_eq_true, if_false, Bool.not_true, Bool.false_and]
  rw [State.station_setStn _ (by simp [hx])]
  refine ⟨by simp, ?_⟩
  rw [Stn.ch_of_up, Stn.ch_onCh]
  simp [StnCh.noteFwd]

/-- A refused frame at an OPEN port is counted and reported (06 R183, R185), whether or not the port becomes BECALMED with it. -/
theorem Stn.cutOff_counts (x : Stn) (ch : Side) (seen : Seen) :
    (x.cutOff ch seen).code = x.code ∧ (x.cutOff ch seen).up = x.up ∧ (x.cutOff ch seen).evts.length = x.evts.length + 1 ∧
    ((x.cutOff ch seen).ch ch).cutoff = satAdd 32 (x.ch ch).cutoff 1 ∧ ((x.cutOff ch seen).ch ch).cuts = (x.ch ch).cuts + 1 := by
  have hevt (y : Stn) (c i p t : Nat) : (y.evt (some ch) c i p t).ch ch = y.ch ch := by cases ch <;> rfl
  unfold Stn.cutOff
  dsimp only
  split <;> simp [hevt] <;> simp [Stn.evt]

/-- In COARSE a frame in the widened window behind an OPEN port is passed up (06 R184). -/
theorem exec_stationGuardFrame_coarse {s : State} {code : Nat} {ch : Side} {seen : Seen} {f : Frame} {x : Stn}
    (hx : x = (s.station code).hear ch seen.fin) (hn : x.nst = .coarse) (hw : x.inWide seen.sfd = true) (hg : (x.ch ch).g = .open_) :
    exec (.stationGuardFrame code ch seen f) s =
      .next (s.passUp x ch (x.t ≤ seen.sfd + x.arb + 2 * pdMax 63) x.maxLen seen f false) := by
  show execStationGuardFrame code ch seen f s = _
  simp only [execStationGuardFrame, ← hx]
  rw [if_neg (by simp [hn]), if_pos (by simp [hn]), if_pos (by simp [hw, hg])]

/-- In SYNCED a verdict that does not depend on the band of 06 R179 is carried out. -/
theorem exec_stationGuardFrame_sure {s : State} {code : Nat} {ch : Side} {seen : Seen} {f : Frame} {x : Stn} {v : Pass}
    (hx : x = (s.station code).hear ch seen.fin) (hn : x.nst = .synced) (hh : (x.ch ch).held = true) (hu : (x.ch ch).upD ≠ [])
    (hv : guardSure x ch seen f v) : exec (.stationGuardFrame code ch seen f) s = .next (s.guarded x ch seen f v) := by
  obtain ⟨hs, hw⟩ := hv
  have hu' : (x.ch ch).upD.isEmpty = false := by simpa using hu
  show execStationGuardFrame code ch seen f s = _
  simp only [execStationGuardFrame, ← hx]
  rw [if_neg (by simp [hn]), if_neg (by simp [hn, hh])]
  simp only [hu', Bool.false_eq_true, if_false, hs, hw, if_true, Nat.zero_mod]

/-- The same before the first frame forwarded upstream, with the free delay of the shift (log entry 98). -/
theorem exec_stationGuardFrame_first {s k : State} {code g : Nat} {ch : Side} {seen : Seen} {f : Frame} {x : Stn} {v : Pass}
    (hx : x = (s.station code).hear ch seen.fin) (hn : x.nst = .synced) (hh : (x.ch ch).held = true) (hu : (x.ch ch).upD = [])
    (hd : s.drawNat = (g, k)) (hs : x.judgeUp ((x.ch ch).pdUp.getD 0 + g % 401) guardNs seen f = v)
    (hw : x.judgeUp ((x.ch ch).pdUp.getD 0 + g % 401) (guardNs + 8) seen f = v) :
    exec (.stationGuardFrame code ch seen f) s = .next (k.guarded x ch seen f v) := by
  have hu' : (x.ch ch).upD.isEmpty = true := by simpa using hu
  show execStationGuardFrame code ch seen f s = _
  simp only [execStationGuardFrame, ← hx]
  rw [if_neg (by simp [hn]), if_neg (by simp [hn, hh])]
  simp only [hu', if_true, hd, hs, hw, Nat.zero_mod]

/-- A BECALMED port passes nothing: the station is stored with the violation or without (06 R182). -/
theorem State.guarded_becalmed (s : State) {x : Stn} {ch : Side} (seen : Seen) (f : Frame) (v : Pass) (hg : (x.ch ch).g = .becalmed) :
    ∃ d, s.guarded x ch seen f v = s.setStn (x.onCh ch fun k => { k with dirtyM := d }) := by
  cases v with
  | go arb room => exact ⟨(x.ch ch).dirtyM, by simp only [State.guarded, hg]; cases ch <;> rfl⟩
  | refused | cut => exact ⟨true, by simp only [State.guarded, hg]⟩

/-! ## The commands -/

/-- Settles O43: requests by `answer_read` and `answer_writeHold`, IN frames by `station_inStream`, the arbitrating window by its three
equations, and the guardian by its verdict: `station_passUp` forwards, `cutOff_counts` cuts off, `guarded_becalmed` passes nothing. -/
theorem stationSendingCompletes : Obligations.StationSendingCompletes := by
  unfold Obligations.StationSendingCompletes
  refine ⟨?request, ?read, ?hold, ?inSend, ?inFrame, ?response, ?report, ?events, ?coarse, ?wide, ?sure, ?first, ?passed, ?refused,
    ?becalmed⟩
  case request =>
    intro code ch f x s hx hj ht hl
    exact exec_stationCfgRequest hx hj ht hl
  case read =>
    rintro code ch f x y d s hx rfl hj ht hl hop hobj hd hlen hmax hdup
    have hcode : x.code = code := by simp [hx]
    have ha := Stn.answer_read hop hobj hd hlen hmax hdup
    obtain ⟨d, hd⟩ := station_tookFrame s (code := code) ch f (x := x) (act := fun y => y.answer ch f.payload) (by simp [ha, hcode])
    refine ⟨_, exec_stationCfgRequest hx hj ht hl, ?_⟩
    simp [hd, ha]
  case hold =>
    intro code ch f x s hx hj ht hl hop hobj hofs hcount hp hr hn
    have hcode : x.code = code := by simp [hx]
    have ha := Stn.answer_writeHold (x := x.countDown ch .take) (ch := ch) hop hobj hofs hcount hp (by simpa using hr) (by simpa using hn)
    obtain ⟨d, hd⟩ := station_tookFrame s (code := code) ch f (x := x) (act := fun y => y.answer ch f.payload) (by simp [ha, hcode])
    refine ⟨_, exec_stationCfgRequest hx hj ht (by omega), ?_⟩
    simp [hd, ha, alook_aset]
  case inSend =>
    intro code ch dev x b fl k s hx hn hq hi hw hu hs
    exact exec_stationInSend hx hn hq hi hw hu hs
  case inFrame =>
    rintro code ch dev w pd x s rfl hn hq hi hw hu hp
    obtain ⟨⟨⟨b, fl⟩, k⟩, hs⟩ : ∃ r, s.inStream (s.station code) dev = r := ⟨_, rfl⟩
    obtain ⟨e, i, o, hk⟩ := s.station_inStream code dev
    rw [hs] at hk
    have hup : ((k.onStn code fun y => { y with up := y.up ++ y.inParts ch fl y.inWins b }).station code) =
        { k.station code with up := (k.station code).up ++ (k.station code).inParts ch fl (k.station code).inWins b } :=
      State.station_onStn _ fun y hy => hy
    refine ⟨_, (s.station code).frame 0x10 (winPart w) (winLast w) fl (b.take w.len),
      exec_stationInSend rfl hn hq hi (by simp [hw]) (by simp [hu]) hs, ?_⟩
    rw [hup, hk]
    refine ⟨?_, rfl, rfl, rfl, rfl, rfl, rfl⟩
    have hpd : (({ s.station code with evts := e, inS := i, overflow := o } : Stn).ch ch).pdUp = some pd := by cases ch <;> exact hp
    show (s.station code).up ++ Stn.inParts _ ch fl (s.station code).inWins b = _
    rw [hu, hw, Stn.inParts, hpd]
    rfl
  case response =>
    intro code ch at_ x r s hx hf hr
    exact exec_stationArbSend_response hx hf hr
  case report =>
    intro code ch at_ x s hx hf hr hd hl
    exact exec_stationArbSend_report hx hf hr hd hl
  case events =>
    intro code ch at_ x e l s hx hf hr hd he hne hl
    exact exec_stationArbSend_events hx hf hr hd he hne hl
  case coarse =>
    intro code ch seen f x s hx hn hw hg
    exact exec_stationGuardFrame_coarse hx hn hw hg
  case wide =>
    rintro code ch seen f x s rfl hn hw hg hf ht
    obtain ⟨y, hy⟩ : ∃ y, y = (s.station code).hear ch seen.fin := ⟨_, rfl⟩
    have hlate : decide (y.t ≤ seen.sfd + y.arb + 2 * pdMax 63) = false := by simpa [hy] using ht
    obtain ⟨d, hd, hup, hfwd, -⟩ := s.station_passUp (code := code) (x := y) (by simp [hy]) ch y.maxLen seen hf
    refine ⟨_, seen.sfd + d, exec_stationGuardFrame_coarse hy (by simpa [hy] using hn) (by simpa [hy, Stn.inWide] using hw)
      (by simpa [hy] using hg), by omega, by omega, ?_⟩
    rw [hlate, hup, hfwd]
    simp [hy]
  case sure =>
    intro code ch seen f x v s hx hn hh hu hv
    exact exec_stationGuardFrame_sure hx hn hh hu hv
  case first =>
    intro code ch seen f x v s k g hx hn hh hu hd hs hw
    exact exec_stationGuardFrame_first hx hn hh hu hd hs hw
  case passed =>
    intro code ch seen f room x s hx hn hh hu hv hg hf
    obtain ⟨d, hd, ht, -, hcut⟩ := s.station_passUp (code := code) (x := x) (by simp [hx]) ch room seen hf
    have he : s.guarded x ch seen f (.go false room) = s.passUp x ch false room seen f false := by simp [State.guarded, hg]
    refine ⟨_, seen.sfd + d, exec_stationGuardFrame_sure hx hn hh hu hv, by omega, by omega, ?_⟩
    rw [he]
    exact ⟨ht, hcut⟩
  case refused =>
    intro code ch seen f x s hx hn hh hu hv hg
    have he : s.guarded x ch seen f .refused = s.setStn (x.cutOff ch seen) := by simp [State.guarded, hg]
    obtain ⟨hcode, hup, hevts, hcutoff, hcuts⟩ := x.cutOff_counts ch seen
    refine ⟨_, exec_stationGuardFrame_sure hx hn hh hu hv, ?_⟩
    rw [he, State.station_setStn s (by rw [hcode, hx]; simp)]
    exact ⟨hcutoff, hcuts, hup, hevts⟩
  case becalmed =>
    intro code ch seen f x v s hx hn hh hu hv hg
    obtain ⟨d, hd⟩ := s.guarded_becalmed seen f v hg
    refine ⟨_, exec_stationGuardFrame_sure hx hn hh hu hv, ?_⟩
    rw [hd, State.station_setStn s (by simp [hx])]
    simp [hg]

end Sys2Proof.Machine
end

section
/-! Frames from stations at the module (05 R126, R147, R154 to R157, 06 R173, R178 to R182): reading a station of the manager and a branch of the
star after an update, then each receiver as one equation. -/

namespace Sys2Proof.Machine
open Sys2Proof

/-! ## Reading a station of the manager and a branch -/

/-- A station of the manager is found under its code. -/
theorem State.code_of_stnAt {s : State} {code : Nat} {x : StnM} (h : s.stnAt code = some x) : x.code = code := by
  simpa using List.find?_some h

/-- An updated station of the manager is read as updated. -/
theorem State.stnAt_onStnM (s : State) {code : Nat} {f : StnM → StnM} (hf : ∀ y, y.code = code → (f y).code = code) :
    (s.onStnM code f).stnAt code = (s.stnAt code).map f := by
  have hp : (fun y : StnM => decide ((if y.code = code then f y else y).code = code)) = fun y => decide (y.code = code) := by
    funext y
    by_cases h : y.code = code <;> simp [h, hf]
  unfold State.stnAt State.onStnM
  cases h : s.stnM.find? (·.code = code) with
  | none => simp [List.find?_map, hp, h]
  | some x =>
    have hx : x.code = code := by simpa using List.find?_some h
    simp [List.find?_map, hp, h, hx]

/-- An updated branch is read as updated. -/
@[simp] theorem State.br_onBr (s : State) {i : Nat} (h : i < 16) (f : Branch → Branch) : (s.onBr i f).net.br[i] = f s.net.br[i] := by
  simp [State.onBr, h]

/-! ## IN frames -/

/-- Where no position stands behind a BECALMED station port there is no BECALM_END. -/
theorem State.becalmOver_none {s : State} (ch : Side) (code l : Nat) (h : s.net.stnBecalm = []) : s.becalmOver ch code l = s := by
  simp [State.becalmOver, h]

/-- A BECALM_END leaves the cycle as it is. -/
@[simp] theorem State.becalmOver_cyc (s : State) (ch : Side) (code l : Nat) : (s.becalmOver ch code l).cyc = s.cyc := by
  unfold State.becalmOver
  dsimp only
  split <;> simp

/-- An IN part from its window fills the hidden bank until input close (05 R126). -/
theorem exec_inFrameRx {s : State} {ch : Side} {f : Frame} {c : NetCfg} (hc : s.net.cfg = some c) (ht : s.taken ch f 0x10 = true)
    (hf : inFits c f s.cyc.n = true) (hn : s.cyc.commitN ≠ some s.cyc.n) :
    exec (.inFrameRx ch f) s = .next (inBanked (s.becalmOver ch f.addr.toNat c.l) f) := by
  unfold inFits at hf
  show execInFrameRx ch f s = _
  simp only [execInFrameRx, hc, ht, State.becalmOver_cyc, hf, hn]
  rfl

/-- The first copy of a part joins those of its station. -/
theorem stnAt_inBanked {s : State} {f : Frame} {x : StnM} (hx : s.stnAt f.addr.toNat = some x)
    (hp : (x.parts.any (·.num = f.part)) = false) : ((inBanked s f).stnAt f.addr.toNat).map (·.parts) =
      some (x.parts ++ [{ num := f.part, last := f.last, bytes := f.payload, flags := f.flags }]) := by
  rw [inBanked, State.stnAt_onStnM, hx]
  · simp only [Option.map_some, hp, Bool.false_eq_true, if_false]
  · intro y hy
    split <;> exact hy

/-! ## The guardian of the star -/

/-- A judgement that does not depend on the band of 06 R179 draws nothing. -/
theorem State.judge_sure {s : State} {c : NetCfg} {b : Nat} {seen : Seen} {f : Frame} {a : Admit}
    (hs : c.judgeUp b s.cyc.n guardNs seen f = a) (hw : c.judgeUp b s.cyc.n (guardNs + 8) seen f = a) :
    s.judge c b seen f = (a, s) := by
  simp [State.judge, hs, hw]

/-- A judgement leaves the network as it is. -/
theorem State.net_of_judge {s k : State} {c : NetCfg} {b : Nat} {seen : Seen} {f : Frame} {a : Admit}
    (h : s.judge c b seen f = (a, k)) : k.net = s.net := by
  have hn : (s.judge c b seen f).2.net = s.net := by simp
  rwa [h] at hn

/-- At an OPEN branch an admitted frame goes on. -/
theorem exec_upstreamFrame_admitted {s k : State} {b : Fin 16} {seen : Seen} {f : Frame} {c : NetCfg} {room : Nat}
    (hc : s.net.cfg = some c) (hr : s.cyc.running = true) (hg : (s.net.br[b]).g = .open_)
    (hj : s.judge c b.val seen f = (.admitted room, k)) :
    exec (.upstreamFrameAtGuardian b seen f) s = .next (k.admitted c b.val room f) := by
  have hk := State.net_of_judge hj
  show execUpstreamFrameAtGuardian b seen f s = _
  simp only [execUpstreamFrameAtGuardian, hc, hr, hg, hj, hk]
  rfl

/-- Any other frame is cut off there. -/
theorem exec_upstreamFrame_cutOff {s k : State} {b : Fin 16} {seen : Seen} {f : Frame} {c : NetCfg} (hc : s.net.cfg = some c)
    (hr : s.cyc.running = true) (hg : (s.net.br[b]).g = .open_)
    (hj : s.judge c b.val seen f = (.refused, k) ∨ s.judge c b.val seen f = (.cut, k)) :
    exec (.upstreamFrameAtGuardian b seen f) s = .next (k.cutOff b.val) := by
  show execUpstreamFrameAtGuardian b seen f s = _
  rcases hj with hj | hj
  all_goals
    have hk := State.net_of_judge hj
    simp only [execUpstreamFrameAtGuardian, hc, hr, hg, hj, hk]
    rfl

/-- At a BECALMED branch a frame passes nowhere; unless it would be admitted it is a violation (06 R182). -/
theorem exec_upstreamFrame_becalmed {s : State} {b : Fin 16} (seen : Seen) (f : Frame) {c : NetCfg} (hc : s.net.cfg = some c)
    (hr : s.cyc.running = true) (hg : (s.net.br[b]).g = .becalmed) :
    exec (.upstreamFrameAtGuardian b seen f) s = .next (s.judge c b.val seen f).2 ∨
    exec (.upstreamFrameAtGuardian b seen f) s = .next ((s.judge c b.val seen f).2.onBr b.val fun x => { x with dirtyM := true }) := by
  obtain ⟨⟨a, k⟩, hj⟩ : ∃ r, s.judge c b.val seen f = r := ⟨_, rfl⟩
  have hk := State.net_of_judge hj
  show execUpstreamFrameAtGuardian b seen f s = _ ∨ execUpstreamFrameAtGuardian b seen f s = _
  simp only [execUpstreamFrameAtGuardian, hc, hr, hg, hj, hk]
  cases a with
  | admitted room => exact .inl rfl
  | refused | cut => exact .inr rfl

/-- A valid frame of an OPEN branch counts on the module's own channel. -/
theorem State.br_admitted {s : State} {c : NetCfg} {b : Fin 16} {room : Nat} {f : Frame} (hf : f.crcOk = true)
    (hd : s.discardOf c f room = none) : (s.admitted c b.val room f).net.br[b] =
      (s.net.br[b]).onCount s.slot fun k => { k with frames := satAdd 32 k.frames 1 } := by
  simp [State.admitted, hf, hd]

/-! ## Responses and reports -/

/-- A field of a run of bytes lies at its offset in the whole. -/
theorem field_slice (l : List Byte) {o n i k : Nat} (h : i + k ≤ n) : field (slice l o n) i k = field l (o + i) k := by
  have hb : slice (slice l o n) i k = slice l (o + i) k := by
    refine List.map_congr_left fun j hj => ?_
    have hj' : i + j < n := by have := List.mem_range.1 hj; omega
    simp [byteAt, slice, List.getD_eq_getElem?_getD, hj', Nat.add_assoc]
  rw [field, field, hb]

/-- The holder takes the response to a request it holds. -/
theorem exec_cfgResponseRx {s : State} {ch : Side} {f : Frame} {c : NetCfg} {r : CfgReq} (hc : s.net.cfg = some c)
    (ht : s.taken ch f 0x40 = true) (hh : s.holder = true)
    (hr : (s.net.reqs.find? fun r => r.code = f.addr.toNat && r.tag = (byteAt f.payload 1).toNat && r.sentN.isSome) = some r) :
    exec (.cfgResponseRx ch f) s = .next (s.cfgAnswer c r f.payload).pumpCfg := by
  show execCfgResponseRx ch f s = _
  simp only [execCfgResponseRx, hc, ht, hh, hr]
  rfl

/-- Nothing is sent where no request waits. -/
theorem State.pumpCfg_nil {s : State} (h : s.net.reqs = []) : s.pumpCfg = s := by
  simp [State.pumpCfg, h]

/-- Updates of a branch leave the requests. -/
@[simp] theorem State.onBr_reqs (s : State) (i : Nat) (f : Branch → Branch) : (s.onBr i f).net.reqs = s.net.reqs := rfl

/-- A reading of the counters of the one station of the manager is kept there. -/
theorem State.countersRead_one {s : State} {x : StnM} (d : List Byte) (hx : s.stnM = [x]) :
    (s.countersRead x.code d).net.reqs = s.net.reqs ∧
    (s.countersRead x.code d).stnM = [{ x with arbA := field d 16 4, arbB := field d 48 4 }] ∧
    (s.countersRead x.code d).mem = s.mem := by
  have hs : s.stnAt x.code = some x := by simp [State.stnAt, hx]
  simp only [State.countersRead, hs, State.onStnM_frame, State.onBr_reqs, State.onBr_frame, true_and, and_true]
  simp only [State.onStnM, State.onBr_frame, hx, List.map_cons, if_true, List.map_nil]

/-- The response to the one request held, for the counters of the one station: the reading is kept, the request is done (05 R157). -/
theorem State.cfgAnswer_counters {s : State} (c : NetCfg) {r : CfgReq} {x : StnM} {p : List Byte} (hr : s.net.reqs = [r])
    (hx : s.stnM = [x]) (hcode : r.code = x.code) (hwhy : r.why = .counters) (hop : field p 0 1 = 2) (hlen : field p 8 2 = 64)
    (hst : field p 10 2 = 0) :
    (s.cfgAnswer c r p).net.reqs = [] ∧ (s.cfgAnswer c r p).stnM = [{ x with arbA := field p 28 4, arbB := field p 60 4 }] ∧
      (s.cfgAnswer c r p).mem = s.mem := by
  have he : s.cfgAnswer c r p =
      ({ s with net := { s.net with reqs := s.net.reqs.filter (· ≠ r) } } : State).countersRead x.code (slice p 12 64) := by
    simp only [State.cfgAnswer, hop, hst, hlen, State.cfgOk, State.stnAt, hx, hcode, hwhy]
    simp
  obtain ⟨hreqs, hstn, hmem⟩ := State.countersRead_one (s := { s with net := { s.net with reqs := s.net.reqs.filter (· ≠ r) } })
    (slice p 12 64) hx
  rw [field_slice p (by decide), field_slice p (by decide)] at hstn
  rw [he, hreqs]
  exact ⟨by simp [hr], hstn, hmem⟩

/-- A module that does not hold VANE passes its star's report on. -/
theorem exec_delayReportRx {s : State} {ch : Side} {t4 : Nat} {f : Frame} (ht : s.taken ch f 0x40 = true)
    (hop : field f.payload 0 1 = 2) (htag : field f.payload 1 1 = 0) (hobj : field f.payload 2 2 = 0x8003)
    (hlen : field f.payload 8 2 = 44) :
    exec (.delayReportRx ch t4 f) s = .next (
      if s.holder then s.delayReport ch t4 f.addr.toNat (slice f.payload 12 44)
      else if ch = s.slot then s.send (.delay t4 f) else s) := by
  show execDelayReportRx ch t4 f s = _
  rw [execDelayReportRx, if_neg (by simp [ht, hop, htag, hobj, hlen])]
  split
  · rfl
  · split <;> rfl

/-! ## The commands -/

/-- Settles O39: each receiver by its equation above; a banked part is read by `stnAt_inBanked`, a counted frame by `br_admitted`, a reading of
counters by `cfgAnswer_counters`. -/
theorem stationFramesComplete : Obligations.StationFramesComplete := by
  unfold Obligations.StationFramesComplete
  refine ⟨?inFrame, ?banked, ?admitted, ?counted, ?cutOff, ?becalmed, ?evt, ?response, ?dropped, ?counters, ?delay, ?passOn⟩
  case inFrame =>
    intro ch f c s hc ht hf hn
    exact exec_inFrameRx hc ht hf hn
  case banked =>
    intro ch f c x s hc ht hf hn hb hx hp
    refine ⟨_, exec_inFrameRx hc ht hf hn, ?_⟩
    rw [State.becalmOver_none ch _ _ hb]
    exact ⟨stnAt_inBanked hx hp, rfl⟩
  case admitted =>
    intro b seen f c k s room hc hr hg hj
    exact exec_upstreamFrame_admitted hc hr hg hj
  case counted =>
    intro b seen f c room s hc hg hr hs hw hf hd
    refine ⟨_, exec_upstreamFrame_admitted hc hr hg (State.judge_sure hs hw), ?_⟩
    rw [State.br_admitted hf hd]
    cases hsl : s.slot <;> simpa [Branch.onCount] using hg
  case cutOff =>
    intro b seen f c k s hc hr hg hj
    exact exec_upstreamFrame_cutOff hc hr hg hj
  case becalmed =>
    intro b seen f c s hc hr hg
    rcases exec_upstreamFrame_becalmed seen f hc hr hg with he | he
    · exact ⟨_, he, by simpa using hg⟩
    · exact ⟨_, he, by simpa using hg⟩
  case evt =>
    intro ch f s ht hl hm
    show execEvtFrameRx ch f s = _
    rw [execEvtFrameRx, if_neg (by simp [ht, hl, hm])]
  case response =>
    intro ch f c r s hc ht hh hr
    exact exec_cfgResponseRx hc ht hh hr
  case dropped =>
    intro ch f c s hc ht hh hr
    show execCfgResponseRx ch f s = _
    simp only [execCfgResponseRx, hc, ht, hh, hr]
    rfl
  case counters =>
    intro ch f c r x s hc ht hh hr hx hxc hrc htag hsent hwhy hop hlen hst _
    have hfind : (s.net.reqs.find? fun r => r.code = f.addr.toNat && r.tag = (byteAt f.payload 1).toNat && r.sentN.isSome) = some r := by
      simp [hr, hrc, htag, hsent]
    obtain ⟨hreqs, hstn, hmem⟩ := State.cfgAnswer_counters c hr hx (hrc.trans hxc.symm) hwhy hop hlen hst
    refine ⟨_, exec_cfgResponseRx hc ht hh hfind, ?_⟩
    rw [State.pumpCfg_nil hreqs]
    exact ⟨hreqs, hstn, hmem⟩
  case delay =>
    intro ch t4 f s ht hop htag hobj hlen hh
    rw [answers, exec_delayReportRx ht hop htag hobj hlen, if_pos hh]
  case passOn =>
    intro t4 f s ht hop htag hobj hlen hh
    rw [answers, exec_delayReportRx ht hop htag hobj hlen, if_neg (by simp [hh]), if_pos rfl]

end Sys2Proof.Machine
end

section
/-! Requests, timers and the partner's part at the module (05 R125, R157, R556, 07 R192, R193, R200): what sending leaves of the requests, then
each timer, each message of the partner and STATION_REINTEGRATE as one equation. -/

namespace Sys2Proof.Machine
open Sys2Proof

/-! ## The requests made -/

/-- What a request is about: station, object, purpose. Sending it changes its TAG and cycle alone. -/
def CfgReq.subject (r : CfgReq) : Nat × Nat × CfgFor := (r.code, r.obj, r.why)

/-- A request that takes the place of one about the same leaves what is asked. -/
theorem map_subject_set {l : List CfgReq} {i : Nat} {r q : CfgReq} (hr : l[i]? = some r) (hq : q.subject = r.subject) :
    (l.set i q).map CfgReq.subject = l.map CfgReq.subject := by
  obtain ⟨hi, rfl⟩ := List.getElem?_eq_some_iff.1 hr
  rw [List.map_set, hq, ← List.getElem_map CfgReq.subject (h := by simpa using hi), List.set_getElem_self]

/-- Sending one request leaves what is asked, and the last reading of the counters. -/
theorem State.pumpOne_subjects (s : State) (i : Nat) :
    (s.pumpOne i).net.reqs.map CfgReq.subject = s.net.reqs.map CfgReq.subject ∧ (s.pumpOne i).net.pollN = s.net.pollN := by
  unfold State.pumpOne
  split
  next r c hr hc =>
    dsimp only
    split
    · exact ⟨rfl, rfl⟩
    · split
      · exact ⟨rfl, rfl⟩
      · split
        · exact ⟨rfl, rfl⟩
        · simp only [State.send_frame]
          exact ⟨map_subject_set hr rfl, rfl⟩
  next => exact ⟨rfl, rfl⟩

/-- So does sending what can be sent. -/
theorem State.pumpCfg_subjects (s : State) :
    s.pumpCfg.net.reqs.map CfgReq.subject = s.net.reqs.map CfgReq.subject ∧ s.pumpCfg.net.pollN = s.net.pollN := by
  unfold State.pumpCfg
  split
  · exact ⟨foldl_kept (fun s : State => s.net.reqs.map CfgReq.subject) _ (fun s i => (s.pumpOne_subjects i).1) _ _,
      foldl_kept (fun s : State => s.net.pollN) _ (fun s i => (s.pumpOne_subjects i).2) _ _⟩
  · exact ⟨rfl, rfl⟩

/-- What is asked joins the requests. -/
theorem State.ask_subjects (s : State) (l : List CfgReq) :
    (s.ask l).net.reqs.map CfgReq.subject = (s.net.reqs ++ l).map CfgReq.subject ∧ (s.ask l).net.pollN = s.net.pollN :=
  State.pumpCfg_subjects _

/-- Requests about the same are for the same station, object and purpose. -/
theorem CfgReq.subject_eq {q r : CfgReq} : q.subject = r.subject ↔ q.code = r.code ∧ q.obj = r.obj ∧ q.why = r.why := by
  simp [CfgReq.subject]

/-- Whatever stands among the requests or is asked stands afterwards, sent or not. -/
theorem State.exists_ask {s : State} {l : List CfgReq} {r : CfgReq} (hr : r ∈ s.net.reqs ++ l) :
    ∃ q ∈ (s.ask l).net.reqs, q.code = r.code ∧ q.obj = r.obj ∧ q.why = r.why := by
  have hm : r.subject ∈ (s.ask l).net.reqs.map CfgReq.subject := (s.ask_subjects l).1 ▸ List.mem_map_of_mem hr
  obtain ⟨q, hq, he⟩ := List.mem_map.1 hm
  exact ⟨q, hq, CfgReq.subject_eq.1 he⟩

/-- Only the lines of the pair say who holds VANE. -/
theorem State.holder_of_pair_eq {s t : State} (h : t.pair = s.pair) : t.holder = s.holder := by
  simp [State.holder, h]

/-! ## Timers -/

/-- An overdue request is abandoned: in the holder by what it was for (05 R556). -/
theorem exec_cfgRequestTimeout {s : State} {b : Fin 16} {tag : Nat} {r : CfgReq} (ho : overdue s b tag = some r) :
    exec (.cfgRequestTimeout b tag) s = .next (if !s.holder then s.dropReqs fun q => q = r
      else if r.why.inclusion then (s.dropReqs fun q => q = r).refuseStn r.code 11
      else if r.why = .counters then s.dropReqs fun q => q = r
      else (s.dropReqs fun q => q = r).ask [{ r with sentN := none, tag := 0 }]).pumpCfg := by
  have hh : (s.dropReqs fun q => q = r).holder = s.holder := State.holder_of_pair_eq (by simp)
  show (match overdue s b tag with | none => _ | some r => _) = _
  rw [ho, ← hh]

/-- A module that is not the holder sends no request. -/
theorem State.pumpCfg_not_holder {s : State} (h : s.holder = false) : s.pumpCfg = s := by
  simp [State.pumpCfg, h]

/-- A REFUSED station, and an ABSENT one with path delays held, is checked again after 256 cycles (07 R192). -/
theorem exec_stationRetryTimer {s : State} {code : Nat} {x : StnM} (hx : s.stnAt code = some x) (hh : s.holder = true)
    (hn : x.since + 256 ≤ s.cyc.n) (hs : x.st = .refused ∨ (x.st = .absent ∧ (x.da.held = true ∨ x.db.held = true))) :
    exec (.stationRetryTimer code) s = .next (s.readIdentity code) := by
  show execStationRetryTimer code s = _
  simp only [execStationRetryTimer, hx]
  rw [if_pos (by simpa [hh, hn] using hs)]

/-- A station of the manager is read from its list alone. -/
theorem State.stnAt_of_stnM_eq {s t : State} (code : Nat) (h : t.stnM = s.stnM) : t.stnAt code = s.stnAt code := by
  simp [State.stnAt, h]

@[simp] theorem State.stnAt_dropReqs (s : State) (p : CfgReq → Bool) (code : Nat) : (s.dropReqs p).stnAt code = s.stnAt code :=
  State.stnAt_of_stnM_eq code (by simp)

@[simp] theorem State.stnAt_ask (s : State) (l : List CfgReq) (code : Nat) : (s.ask l).stnAt code = s.stnAt code :=
  State.stnAt_of_stnM_eq code (by simp)

/-- A moved station is read as moved. -/
theorem State.stnAt_moveStn (s : State) {code : Nat} {f : StnM → StnM} (hf : ∀ y, y.code = code → (f y).code = code) :
    (s.moveStn code f).stnAt code = (s.stnAt code).map f := by
  rw [← s.stnAt_onStnM hf]
  exact State.stnAt_of_stnM_eq code (by simp [State.moveStn])

/-- A station whose IDENTITY is read stands in CHECKING, and the request for it is made (07 R188, R192). -/
theorem State.readIdentity_checking {s : State} {code : Nat} {x : StnM} (hx : s.stnAt code = some x) :
    ((s.readIdentity code).stnAt code).map (·.st) = some .checking ∧
      ((s.readIdentity code).net.reqs.any fun r => r.code = code && r.obj = 0x8000) = true := by
  constructor
  · rw [State.readIdentity, State.stnAt_ask, State.stnAt_moveStn, State.stnAt_dropReqs, hx]
    · rfl
    · exact fun _ hy => hy
  · rw [State.readIdentity]
    obtain ⟨q, hq, hc, ho, -⟩ := State.exists_ask (List.mem_append_right _ (List.mem_singleton_self _))
    exact List.any_eq_true.2 ⟨q, hq, by simp [hc, ho]⟩

/-- The request for the counters of a station. -/
def countersReq (x : StnM) : CfgReq :=
  { code := x.code, tag := 0, obj := 0x8005, ofs := 0, write := false, count := 64, why := .counters }

/-- The included stations whose counters are not being read. -/
def State.pollStns (s : State) : List StnM :=
  s.stnM.filter fun x => x.st = .included && !(s.net.reqs.any fun r => r.code = x.code && r.why = .counters)

/-- The holder reads the counters of each of them (05 R157). -/
theorem exec_countersPoll {s : State} (hh : s.holder = true) (hr : s.cyc.running = true) (hp : s.pollDue = true) :
    exec .countersPoll s =
      .next (({ s with net := { s.net with pollN := some s.cyc.n } } : State).ask (s.pollStns.map countersReq)) := by
  show execCountersPoll s = _
  rw [execCountersPoll, if_neg (by simp [hh, hr, hp])]
  rfl

/-- For an included station a request for its counters stands, or is among those of the poll. -/
theorem State.exists_countersReq {s : State} {x : StnM} (hm : x ∈ s.stnM) (hs : x.st = .included) :
    ∃ r ∈ s.net.reqs ++ s.pollStns.map countersReq, r.code = x.code ∧ r.why = .counters := by
  by_cases hb : ∃ r ∈ s.net.reqs, r.code = x.code ∧ r.why = .counters
  · obtain ⟨r, hr, hc⟩ := hb
    exact ⟨r, List.mem_append_left _ hr, hc⟩
  · refine ⟨countersReq x, List.mem_append_right _ (List.mem_map_of_mem (List.mem_filter.2 ⟨hm, ?_⟩)), rfl, rfl⟩
    simpa [hs] using hb

/-! ## From the partner -/

/-- A window's content goes to the star that does not hold VANE, in time or left out (05 R125). -/
theorem exec_partnerContentRx_window {s : State} {i late : Nat} (f : Frame) {c : NetCfg} {w : WinEnt} (hc : s.net.cfg = some c)
    (hw : c.wins[i]? = some w) (hh : s.holder = false) (hl : s.linked = true) (hr : s.cyc.running = true) :
    exec (.partnerContentRx i late f) s = .next (if 3000 < late then s.pairLate i w
      else { s with net := { s.net with fromPair := s.net.fromPair ++ [(i, f)] } }) := by
  show execPartnerContentRx i late f s = _
  simp only [execPartnerContentRx, hc, hh, hl, hr, hw, Bool.not_true, Bool.or_self, Bool.false_eq_true, if_false]
  split <;> rfl

/-! ## STATION_REINTEGRATE -/

/-- The manager's stations have no part in who gives a command. -/
theorem State.partyOf_onStnM (s : State) (code : Nat) (f : StnM → StnM) (c : Cmd) : (s.onStnM code f).partyOf c = s.partyOf c := rfl

/-- In the holder the command acts on a configured station by its state (07 R200): it includes a RETURNED one, checks a REFUSED one again, and
clears WAS_LOST of any. -/
theorem exec_stationReintegrate_holder {s b : State} {c : Cmd} {cfg : NetCfg} {x : StnM}
    (hb : b = begun s 0x0082 c 0 (c.inlZero 2)) (hc : passes s 0x0082 c 0 (c.inlZero 2) = true) (hp : b.primary = true)
    (hh : b.holder = true) (hn : b.net.cfg = some cfg) (hi : c.inf 0 2 < 1024) (hm : (cfg.parOf (c.inf 0 2)).isSome = true)
    (hx : b.stnAt (c.inf 0 2) = some x) :
    exec (.stationReintegrate c) s = .next (
      if x.st = .returned then
        (((b.onStnM (c.inf 0 2) fun y => { y with wasLost := false }).moveStn (c.inf 0 2)
          fun y => { y with st := .included, since := b.cyc.n, withheld := false }).recordBy 0x0503
          (srcOf 5 (c.inf 0 2)) [] (b.partyOf c) false).final 0x0082 c stOk dNone (BitVec.ofNat 64 (backFrom b))
      else if x.st = .refused then
        ((b.onStnM (c.inf 0 2) fun y => { y with wasLost := false }).readIdentity (c.inf 0 2)).final 0x0082 c stOk dNone
      else ((b.onStnM (c.inf 0 2) fun y => { y with wasLost := false }).tellStn (c.inf 0 2)).final 0x0082 c stOk dNone) := by
  show Host.Outcome.next (s.hostCmd _ _ _ _ _) = _
  rw [hostCmd_of_passes _ hc, ← hb, ownPrimary_primary _ _ _ hp]
  simp only [hn, hm, Nat.not_le.2 hi, hh, hx, decide_false, Bool.not_true, Bool.or_self, Bool.false_eq_true, if_false]
  cases x.st <;> simp only [reduceCtorEq, if_true, if_false, State.onStnM_frame, State.partyOf_onStnM, backFrom]

/-! ## The commands -/

/-- Settles O40: timers, the partner's messages and STATION_REINTEGRATE by their equations above; `readIdentity_checking` and
`exists_countersReq` say what is asked, `exists_ask` that it stands once it is sent. -/
theorem stationTimersComplete : Obligations.StationTimersComplete := by
  unfold Obligations.StationTimersComplete
  refine ⟨?inclusion, ?counters, ?again, ?other, ?retry, ?checking, ?joining, ?poll, ?noPoll, ?polled, ?state, ?lost, ?content, ?late,
    ?cfg, ?returned, ?refused, ?cleared, ?notHolder, ?unknown⟩
  case inclusion =>
    intro b tag r s ho hh hw
    rw [answers, exec_cfgRequestTimeout ho]
    simp only [hh, hw, Bool.not_true, Bool.false_eq_true, if_false, if_true]
  case counters =>
    intro b tag r s ho hw
    have hi : CfgFor.counters.inclusion = false := rfl
    rw [answers, exec_cfgRequestTimeout ho]
    simp only [hw, hi, if_true, Bool.false_eq_true, if_false, ite_self]
  case again =>
    intro b tag r s ho hh hi hw
    rw [answers, exec_cfgRequestTimeout ho]
    simp only [hh, hi, hw, Bool.not_true, Bool.false_eq_true, if_false]
  case other =>
    intro b tag r s ho hh
    rw [answers, exec_cfgRequestTimeout ho, if_pos (by simp [hh])]
    exact congrArg _ (State.pumpCfg_not_holder (by rw [State.holder_of_pair_eq (s := s) (by simp), hh]))
  case retry =>
    intro code x s hx hh hn hs
    exact exec_stationRetryTimer hx hh hn hs
  case checking =>
    intro code x s hx hh hn hs
    obtain ⟨hst, hreq⟩ := State.readIdentity_checking hx
    exact ⟨_, exec_stationRetryTimer hx hh hn (.inl hs), hst, hreq, by simp⟩
  case joining =>
    intro code x s hx hh hs hc hw
    show execJoiningTimeout code s = _
    simp only [execJoiningTimeout, hx, hh, hs, hc, hw]
    rfl
  case poll =>
    intro s hh hr hp
    exact exec_countersPoll hh hr hp
  case noPoll =>
    intro s hh hr hp
    show execCountersPoll s = _
    rw [execCountersPoll, if_pos (by simp [hp])]
  case polled =>
    intro x s hh hr hp hm hs
    refine ⟨_, exec_countersPoll hh hr hp, ?_, by simp, by simp, (State.ask_subjects _ _).2⟩
    obtain ⟨r, hr, hc, hw⟩ := State.exists_countersReq hm hs
    obtain ⟨q, hq, hqc, -, hqw⟩ :=
      State.exists_ask (s := { s with net := { s.net with pollN := some s.cyc.n } }) (l := s.pollStns.map countersReq) hr
    exact List.any_eq_true.2 ⟨q, hq, by simp [hqc, hqw, hc, hw]⟩
  case state =>
    intro code st w miss good losses refusal s hh hl hn
    show execStationStateRx code st w miss good losses refusal s = _
    rw [execStationStateRx, if_neg (by simp [hh, hl])]
    cases hx : s.stnAt code with
    | none => rfl
    | some x =>
      have hno : (decide (SSt.ofCode st = .lost) && decide (x.st ≠ .lost) && w) = false := by
        rw [Bool.eq_false_iff]
        intro h
        simp only [Bool.and_eq_true, decide_eq_true_eq] at h
        obtain ⟨⟨hlost, hwas⟩, hw⟩ := h
        exact hwas (hn ⟨hlost, hw⟩ x hx)
      simp only [hno]
      rfl
  case lost =>
    intro code st miss good losses refusal x s hh hl hst hx hs
    show execStationStateRx code st true miss good losses refusal s = _
    rw [execStationStateRx, if_neg (by simp [hh, hl])]
    simp only [hst, hx]
    rw [if_pos (by simp [hs])]
    rfl
  case content =>
    intro i late f c w s hc hw hh hl hr ht
    rw [answers, exec_partnerContentRx_window f hc hw hh hl hr, if_neg (by omega)]
  case late =>
    intro i late f c w s hc hw hh hl hr ht
    rw [answers, exec_partnerContentRx_window f hc hw hh hl hr, if_pos ht]
  case cfg =>
    rintro i late f c a s hc hw hh hl hr rfl ht
    show execPartnerContentRx i late f s = _
    simp only [execPartnerContentRx, hc, hh, hl, hr, hw, Nat.not_lt.2 ht]
    rfl
  case returned =>
    rintro c s b cfg x k hb hc hp hh hn hi hm hx hs rfl
    rw [answers, exec_stationReintegrate_holder hb hc hp hh hn hi hm hx, if_pos hs]
  case refused =>
    intro c s b cfg x hb hc hp hh hn hi hm hx hs
    rw [answers, exec_stationReintegrate_holder hb hc hp hh hn hi hm hx, if_neg (by simp [hs]), if_pos hs]
  case cleared =>
    intro c s b cfg x hb hc hp hh hn hi hm hx hs hs'
    rw [answers, exec_stationReintegrate_holder hb hc hp hh hn hi hm hx, if_neg hs, if_neg hs']
  case notHolder =>
    rintro c s b cfg rfl hc hp hh hn hi hm
    show Host.Outcome.next (s.hostCmd _ _ _ _ _) = _
    rw [hostCmd_of_passes _ hc, ownPrimary_primary _ _ _ hp]
    simp only [hn, hm, Nat.not_le.2 hi, hh]
    rfl
  case unknown =>
    rintro c s b rfl hc hp hi
    show Host.Outcome.next (s.hostCmd _ _ _ _ _) = _
    rw [hostCmd_of_passes _ hc, ownPrimary_primary _ _ _ hp, if_pos (by simp [hi])]

end Sys2Proof.Machine
end

section
/-! The cold start (06 R158 to R168): an exchange over the pair link while no cycle runs, the proposal of a network and the partner's CSTART. -/

namespace Sys2Proof.Machine
open Sys2Proof

/-! ## Exchanges over the pair link -/

/-- A corrected clock leaves the network's state as it is. -/
@[simp] theorem State.lockTo_net (s : State) (last : Option Nat) (offset : Int) : (s.lockTo last offset).net = s.net := rfl

/-- Before its star runs, a listening module corrects its time by a valid transfer and passes the SYNC content (06 R158, R159). -/
theorem exec_timeTransfer_listening {s k : State} {d took : Nat} (ofs : Int) (hl : s.linked = true) (hr : s.cyc.running = false)
    (ht : took ≤ 100000) (hs : s.net.start = .listen) (hk : s.transfer d = (k, true)) (hks : k.net.start = .listen) :
    exec (.timeTransfer d took ofs none) s = .next (k.lockTo none ofs).passSync := by
  show execTimeTransfer d took ofs none s = _
  simp [execTimeTransfer, hl, hr, hs, hk, hks, Nat.not_lt.2 ht]

/-- An exchange that is no valid transfer is held and has no other effect. -/
theorem exec_timeTransfer_invalid {s k : State} {d took : Nat} (ofs : Int) (content : Option SyncContent) (hl : s.linked = true)
    (hr : s.cyc.running = false) (ht : took ≤ 100000) (hk : s.transfer d = (k, false)) :
    exec (.timeTransfer d took ofs content) s = .next k := by
  show execTimeTransfer d took ofs content s = _
  simp [execTimeTransfer, hl, hr, hk, Nat.not_lt.2 ht]

/-! ## Proposals and contention -/

/-- The end of listening: a network is proposed, or listening begins anew where a partner that drives its line gave no valid transfer (06 R160,
R161). -/
theorem exec_listenTimerExpiry {s : State} {c : NetCfg} {e : Nat} (hc : s.net.cfg = some c) (he : s.net.listenEnd = some e)
    (hs : s.net.start = .listen) :
    exec .listenTimerExpiry s = .next (if !(s.reach e).xferValid && (s.reach e).pair.other then
      ((s.reach e).record 0x0403 (srcOf 4 32) []).listen else (s.reach e).proposeNet c) := by
  show execListenTimerExpiry s = _
  simp only [execListenTimerExpiry, hc, he]
  exact if_neg (by simp [hs])

/-- A proposal goes out on all 16 branches and stands until the contention ends. -/
theorem State.proposeNet_net (s : State) (c : NetCfg) :
    (s.proposeNet c).net.start = .contend ∧ (s.proposeNet c).net.tx.length = 16 ∧
    (s.proposeNet c).net.proposal = some (ownCstart s.seedTime c) := by
  simp [State.proposeNet, ownCstart]

/-- Against a partner of lower rank a proposing module withdraws and follows (06 R163). -/
theorem State.contend_lower {s : State} {other : Nat} (joinAt t : Nat) (h : other < rankIn s.net.rank s.slot) :
    s.contend other joinAt t = s.silence.follow joinAt t :=
  if_pos h

/-- The state with the rank that the partner's CSTART shows. -/
def State.rankHeard (s : State) (x : CStart) : State := { s with net := { s.net with partnerRank := some x.rank } }

/-- A CSTART of the partner over the link: followed while listening, contended with while proposing, else its rank alone is kept (06 R167). -/
theorem exec_partnerCstartRx {s : State} (x : CStart) (hl : s.linked = true) :
    exec (.partnerCstartRx x) s = .next (
      if s.net.start = .listen then (s.rankHeard x).follow x.startTime x.tNs
      else if s.net.start = .contend then (s.rankHeard x).contend x.rank x.startTime x.tNs
      else s.rankHeard x) := by
  show execPartnerCstartRx x s = _
  rw [execPartnerCstartRx, if_neg (by simp [hl])]
  dsimp only
  split
  case h_1 h => rw [if_pos h]; rfl
  case h_2 h => rw [if_neg (by simp [h]), if_pos h]; rfl
  case h_3 hn hc => rw [if_neg hn, if_neg hc]; rfl

/-! ## The commands -/

/-- Settles O30: exchanges, the end of listening and the partner's CSTART by their equations above; the three timers under their guards. -/
theorem coldStartCompletes : Obligations.ColdStartCompletes := by
  unfold Obligations.ColdStartCompletes
  refine ⟨?valid, ?invalid, ?propose, ?anew, ?proposed, ?follow, ?withdraw, ?rank, ?cycle0, ?lead, ?due, ?silent⟩
  case valid =>
    intro d took ofs s k hl hr ht hs hk hks
    exact exec_timeTransfer_listening ofs hl hr ht hs hk hks
  case invalid =>
    intro d took ofs content s k hl hr ht hk
    exact exec_timeTransfer_invalid ofs content hl hr ht hk
  case propose =>
    rintro c e s k hc he hs rfl hv
    rw [answers, exec_listenTimerExpiry hc he hs, if_neg (by simp only [hv, Bool.false_eq_true, not_false_eq_true])]
  case anew =>
    rintro c e s k hc he hs rfl hv ho
    rw [answers, exec_listenTimerExpiry hc he hs, if_pos (by simp only [hv, ho, Bool.not_false, Bool.and_self])]
  case proposed =>
    rintro c s t rfl
    exact s.proposeNet_net c
  case follow =>
    intro x s hl hs
    rw [answers, exec_partnerCstartRx x hl, if_pos hs]
    rfl
  case withdraw =>
    intro x s hl hs hx
    rw [answers, exec_partnerCstartRx x hl, if_neg (by simp [hs]), if_pos hs,
      State.contend_lower (s := s.rankHeard x) x.startTime x.tNs hx]
    rfl
  case rank =>
    intro x s hl hs hc
    rw [answers, exec_partnerCstartRx x hl, if_neg hs, if_neg hc]
    rfl
  case cycle0 =>
    rintro x s u hs hp hr rfl
    show execCstartStartTime s = _
    simp only [execCstartStartTime, hs, hp]
    exact if_neg (by simp [hr])
  case lead =>
    rintro x s k hs hp hr rfl
    show execContentionEnd s = _
    simp only [execContentionEnd, hs, hp]
    exact if_neg (by simp [hr])
  case due =>
    rintro s k hs ho rfl
    show execTransferLossTimer s = _
    rw [execTransferLossTimer, if_neg (by simp [hs])]
    exact if_pos (by simp [ho])
  case silent =>
    intro s hs ho
    show execTransferLossTimer s = _
    rw [execTransferLossTimer, if_neg (by simp [hs])]
    exact if_neg (by simp [ho])

end Sys2Proof.Machine
end

section
/-! Time at a station (06 R171, R176, R177, 07 R192): what the rules of time leave of a station and its attachments, then its four commands. -/

namespace Sys2Proof.Machine
open Sys2Proof

/-! ## Reading time, attachments and points -/

/-- An update of an attachment keeps reference, TIME_OK and schedule of the station. -/
@[simp] theorem Stn.onCh_time (x : Stn) (ch : Side) (f : StnCh → StnCh) :
    (x.onCh ch f).ref = x.ref ∧ (x.onCh ch f).timeOk = x.timeOk ∧ (x.onCh ch f).sched = x.sched := by
  cases ch <;> exact ⟨rfl, rfl, rfl⟩

/-- The other attachment keeps what it held. -/
@[simp] theorem Stn.ch_onCh_other (x : Stn) (ch : Side) (f : StnCh → StnCh) : (x.onCh ch f).ch ch.other = x.ch ch.other := by
  cases ch <;> rfl

/-- The frames that a station forwards are no part of its attachments. -/
theorem Stn.ch_of_down (x : Stn) (l : List DownFrame) (ch : Side) : ({ x with down := l } : Stn).ch ch = x.ch ch := by
  cases ch <;> rfl

/-- The note of a forwarding delay keeps path delays, integration and counters. -/
@[simp] theorem StnCh.noteFwd_frame (k : StnCh) (up : Bool) (d : Nat) :
    (k.noteFwd up d).pdDown = k.pdDown ∧ (k.noteFwd up d).pdUp = k.pdUp ∧ (k.noteFwd up d).integrated = k.integrated ∧
    (k.noteFwd up d).downFwd = k.downFwd := by
  unfold StnCh.noteFwd
  split <;> exact ⟨rfl, rfl, rfl, rfl⟩

/-- The count of a frame that is taken: DOWN_FWD of its attachment (05 R157). -/
theorem Stn.ch_countDown_take (x : Stn) (ch : Side) :
    (x.countDown ch .take).ch ch = { x.ch ch with downFwd := satAdd 32 (x.ch ch).downFwd 1 } :=
  x.ch_onCh ch _

/-- It leaves the queue and the other attachment. -/
@[simp] theorem Stn.countDown_kept (x : Stn) (ch : Side) (r : Rx) :
    (x.countDown ch r).queue = x.queue ∧ (x.countDown ch r).ch ch.other = x.ch ch.other := by
  simp [Stn.countDown]

/-- FLAGS of a frame concern outputs: network state and attachments stay. -/
@[simp] theorem Stn.seeFlags_time (x : Stn) (f : Frame) :
    (x.seeFlags f).nst = x.nst ∧ ∀ ch, (x.seeFlags f).ch ch = x.ch ch := by
  unfold Stn.seeFlags
  dsimp only
  (repeat' split) <;> exact ⟨rfl, fun ch => by cases ch <;> rfl⟩

/-- What the forwarding of a frame that the station takes leaves of its time, its queue and its attachments. -/
theorem station_tookFrame_time (s : State) {code : Nat} (ch : Side) (f : Frame) {x y : Stn} {act : Stn → Stn}
    (hy : act (x.countDown ch .take) = y) (hc : y.code = code) :
    ∃ d, ((tookFrame s code ch f x act).station code).nst = y.nst ∧ ((tookFrame s code ch f x act).station code).ref = y.ref ∧
      ((tookFrame s code ch f x act).station code).n = y.n ∧ ((tookFrame s code ch f x act).station code).sched = y.sched ∧
      ((tookFrame s code ch f x act).station code).timeOk = y.timeOk ∧ ((tookFrame s code ch f x act).station code).queue = y.queue ∧
      ((tookFrame s code ch f x act).station code).ch ch = (y.ch ch).noteFwd false d ∧
      ((tookFrame s code ch f x act).station code).ch ch.other = y.ch ch.other := by
  subst hy
  obtain ⟨d, hd⟩ := station_tookFrame s ch f hc
  rw [hd]
  refine ⟨d, by simp, by simp, by simp, by simp, by simp, by simp, ?_, ?_⟩
  · exact (Stn.ch_of_down _ _ ch).trans (Stn.ch_onCh _ ch _)
  · exact (Stn.ch_of_down _ _ ch.other).trans (Stn.ch_onCh_other _ ch _)

/-! ## SYNC -/

/-- A frame that is taken has a good CRC (05 R147). -/
theorem Stn.crcOk_of_take {x : Stn} {f : Frame} {room : Nat} (h : x.judge f room = .take) : f.crcOk = true := by
  by_contra hc
  simp [Stn.judge, eq_false_of_ne_true hc] at h

/-- A SYNC that is taken has 48 bytes. -/
theorem Stn.length_of_take_sync {x : Stn} {f : Frame} {room : Nat} (h : x.judge f room = .take) (ht : f.ftype = 0x01) :
    f.length = 48 := by
  by_contra hl
  simp [Stn.judge, Stn.crcOk_of_take h, Stn.breaks, ht, hl] at h

/-- A SYNC begins no cycle at a station in LISTEN. -/
theorem Stn.advance_listen {x : Stn} (c : SyncContent) (whole : Bool) (h : x.nst = .listen) : x.advance c whole = x := by
  unfold Stn.advance
  split <;> simp [h]

/-- Time as it is taken from a SYNC: COARSE, on its channel, in its cycle and schedule. -/
theorem Stn.takeTime_time (x : Stn) (ch : Side) (c : SyncContent) :
    (x.takeTime ch c).nst = .coarse ∧ (x.takeTime ch c).ref = ch ∧ (x.takeTime ch c).n = c.cycle ∧
    (x.takeTime ch c).sched = c.sched ∧ (x.takeTime ch c).timeOk = false :=
  ⟨rfl, rfl, rfl, rfl, rfl⟩

/-- Taking time does not rename the station. -/
@[simp] theorem Stn.takeTime_code (x : Stn) (ch : Side) (c : SyncContent) : (x.takeTime ch c).code = x.code := by
  unfold Stn.takeTime
  simp only [Stn.onCh_frame]
  split <;> rfl

/-- In LISTEN the second of two consistent SYNC gives time; what it announces is noted beside it (06 R171, R177). -/
theorem Stn.onSync_second {x : Stn} {ch : Side} {p c : SyncContent} (f : Frame) (ofs : Int) (h : x.nst = .listen)
    (hp : (x.ch ch).sync = some p) (hc : syncNext p c = true) :
    ∃ a, x.onSync ch f c true ofs = { x.takeTime ch c with announced := a } := by
  simp only [Stn.onSync, h, hp, hc, Bool.and_self, if_true]
  split <;> exact ⟨_, rfl⟩

/-- A SYNC of the right form is judged in the cycle that it begins, and acted on where the station takes it. -/
theorem exec_stationSyncRx_take {s : State} {code : Nat} {ch : Side} {f : Frame} {x : Stn} (ok : Bool) (ofs : Int)
    (hx : x = (s.station code).advance (syncDec f.payload f.sched) (s.wholeSched (s.station code))) (ht : f.ftype = 0x01)
    (hl : f.length = 48) (hc : f.crcOk = true) (hj : x.judge f 48 = .take) :
    exec (.stationSyncRx code ch f ok ofs) s =
      .next (tookFrame s code ch f x fun y => (y.seeFlags f).onSync ch f (syncDec f.payload f.sched) ok ofs) := by
  subst hx
  show execStationSyncRx code ch f ok ofs s = _
  simp only [execStationSyncRx, ht, hl, hc, decide_true, Bool.and_self, if_true, State.stnTake_take code _ hj]

/-! ## CSTART -/

/-- An attachment whose integration a CSTART has ended (06 R177). -/
def StnCh.unmeasured (k : StnCh) : StnCh :=
  { k with pdDown := none, pdUp := none, near := 0, fine := false, integrated := false }

/-- The three rows of 06 R177 for a CSTART. -/
theorem Stn.onCstart_eq (x : Stn) (ch : Side) :
    x.onCstart ch = if x.nst = .listen then x
      else if (x.ch ch.other).integrated then x.onCh ch StnCh.unmeasured else x.dropTime.onCh ch StnCh.unmeasured :=
  rfl

/-- Dropping time keeps the station's points (08 R214). -/
@[simp] theorem Stn.dropTime_frame (x : Stn) :
    x.dropTime.code = x.code ∧ x.dropTime.nst = .listen ∧ x.dropTime.timeOk = false ∧ x.dropTime.queue = [] ∧
    x.dropTime.pts = x.pts :=
  ⟨rfl, rfl, rfl, rfl, rfl⟩

/-- A CSTART that the station takes is acted on. -/
theorem exec_stationCstartRx_take {s : State} {code : Nat} {ch : Side} {f : Frame} {x : Stn} (hx : x = s.station code)
    (ht : f.ftype = 0x02) (hj : x.judge f 32 = .take) :
    exec (.stationCstartRx code ch f) s = .next (tookFrame s code ch f x fun y => y.onCstart ch) := by
  subst hx
  show Host.Outcome.next (s.stnTake ..) = _
  simp only [State.stnTake_take code _ hj, ht, if_true]

/-! ## Cycles without a SYNC -/

/-- Behind the fourth cycle without any SYNC the station has dropped time; its outputs stay as they are. -/
theorem Stn.missed_fourth {x : Stn} (ha : x.a.got = false) (hb : x.b.got = false) (hd : 3 ≤ x.dark) :
    ∃ y : Stn, x.missed = y.dropTime ∧ y.code = x.code ∧ y.pts = x.pts := by
  simp only [Stn.missed, Stn.onBoth, ha, hb, Bool.or_self, Bool.false_eq_true, if_false]
  rw [if_pos (by omega)]
  exact ⟨_, rfl, rfl, rfl⟩

/-- The rows for a cycle without a SYNC are judged in the present cycle, or in the next one, which then begins; in LISTEN the cycle only passes. -/
theorem exec_stationSyncMissed {s : State} {code : Nat} {x : Stn} (hx : x = s.station code) :
    exec (.stationSyncMissed code) s = .next (s.setStn (
      if x.nst = .listen then x.newCycle (x.n + 1) (s.wholeSched x)
      else if x.missesNow then x.missed
      else (x.newCycle (x.n + 1) (s.wholeSched x)).missed)) := by
  subst hx
  rfl

/-! ## Restart -/

/-- An output point behind a restart: its terminal alone. -/
def PtOut.restarted (o : PtOut) : PtOut := { point := o.point, term := o.term }

/-- A restarted point keeps its terminal and is not held. -/
theorem PtOut.restarted_frame (o : PtOut) : o.restarted.term = o.term ∧ o.restarted.held = false := ⟨rfl, rfl⟩

/-- Points restarted one by one are read as restarted, listed or not. -/
theorem Stn.pt_of_restarted {x y : Stn} (h : y.pts = x.pts.map PtOut.restarted) (p : Point) : y.pt p = (x.pt p).restarted := by
  have hp : (fun o : PtOut => decide (o.point = p)) ∘ PtOut.restarted = fun o => decide (o.point = p) := rfl
  rw [Stn.pt, h, List.find?_map, hp, Stn.pt]
  cases x.pts.find? (fun o => decide (o.point = p)) <;> rfl

/-- The station behind a restart: as from power-up, but for its link bits, its objects other than WINDOWS and its terminals at their safe values
(07 R189, R192, R198). -/
def Stn.restarted (x : Stn) (retains : Bool) : Stn :=
  { code := x.code, a := { linkUp := x.a.linkUp, linkDown := x.a.linkDown }, b := { linkUp := x.b.linkUp, linkDown := x.b.linkDown }
    objs := dropObj 0x8002 x.objs, pts := (x.toSafe retains).pts.map PtOut.restarted }

/-- A restart of the control function stores that station. -/
theorem exec_stationRestart {s : State} {code : Nat} {x : Stn} (retains : Bool) (hx : x = s.station code) :
    exec (.stationRestart code retains) s = .next (s.setStn (x.restarted retains)) := by
  have hc : x.code = code := by simp [hx]
  rw [Stn.restarted, hc]
  subst hx
  rfl

/-! ## The commands -/

/-- Settles O41: SYNC, CSTART, missed cycles and restart by their equations above; what forwarding leaves is read by
`station_tookFrame_time`. -/
theorem stationTimeCompletes : Obligations.StationTimeCompletes := by
  unfold Obligations.StationTimeCompletes
  refine ⟨?sync, ?coarse, ?cstart, ?listening, ?dropped, ?kept, ?passes, ?now, ?next, ?dark, ?restart⟩
  case sync =>
    intro code ch f ok ofs x s hx ht hl hc hj
    exact exec_stationSyncRx_take ok ofs hx ht hl hc hj
  case coarse =>
    intro code ch f ofs x p s hx hn hj ht hp hnext
    have hadv : x = (s.station code).advance (syncDec f.payload f.sched) (s.wholeSched (s.station code)) := by
      rw [← hx, Stn.advance_listen _ _ hn]
    have hsync : (((x.countDown ch .take).seeFlags f).ch ch).sync = some p := by simp [Stn.ch_countDown_take, hp]
    obtain ⟨a, ha⟩ := Stn.onSync_second (x := (x.countDown ch .take).seeFlags f) f ofs (by simp [hn]) hsync hnext
    obtain ⟨d, hnst, href, hcyc, hsched, hok, -⟩ := station_tookFrame_time s (code := code) ch f
      (act := fun y => (y.seeFlags f).onSync ch f (syncDec f.payload f.sched) true ofs) ha (by simp [hx])
    refine ⟨_, exec_stationSyncRx_take true ofs hadv ht (Stn.length_of_take_sync hj ht) (Stn.crcOk_of_take hj) hj, ?_⟩
    rw [hnst, href, hcyc, hsched, hok]
    exact Stn.takeTime_time ((x.countDown ch .take).seeFlags f) ch (syncDec f.payload f.sched)
  case cstart =>
    intro code ch f x s hx ht hj
    exact exec_stationCstartRx_take hx ht hj
  case listening =>
    intro code ch f x s hx ht hj hn
    obtain ⟨d, hnst, -, -, -, -, hq, hch, -⟩ := station_tookFrame_time s (code := code) ch f (act := fun y => y.onCstart ch)
      ((Stn.onCstart_eq (x.countDown ch .take) ch).trans (if_pos (by simp [hn]))) (by simp [hx])
    refine ⟨_, exec_stationCstartRx_take hx ht hj, ?_⟩
    simp [hnst, hq, hch, hn, Stn.ch_countDown_take]
  case dropped =>
    intro code ch f x s hx ht hj hn hi
    obtain ⟨d, hnst, -, -, -, -, hq, hch, -⟩ := station_tookFrame_time s (code := code) ch f (act := fun y => y.onCstart ch)
      ((Stn.onCstart_eq (x.countDown ch .take) ch).trans ((if_neg (by simp [hn])).trans (if_neg (by simp [hi])))) (by simp [hx])
    refine ⟨_, exec_stationCstartRx_take hx ht hj, ?_⟩
    simp [hnst, hq, hch, StnCh.unmeasured]
  case kept =>
    intro code ch f x s hx ht hj hn hi
    obtain ⟨d, hnst, -, -, -, -, hq, hch, hother⟩ := station_tookFrame_time s (code := code) ch f (act := fun y => y.onCstart ch)
      ((Stn.onCstart_eq (x.countDown ch .take) ch).trans ((if_neg (by simp [hn])).trans (if_pos (by simp [hi])))) (by simp [hx])
    refine ⟨_, exec_stationCstartRx_take hx ht hj, ?_⟩
    simp [hnst, hq, hch, hother, StnCh.unmeasured]
  case passes =>
    intro code x s hx hn
    rw [answers, exec_stationSyncMissed hx, if_pos hn]
  case now =>
    intro code x s hx hn hm
    rw [answers, exec_stationSyncMissed hx, if_neg hn, if_pos hm]
  case next =>
    intro code x s hx hn hm
    rw [answers, exec_stationSyncMissed hx, if_neg hn, if_neg (by simp [hm])]
  case dark =>
    intro code x s hx hn hm ha hb hd
    obtain ⟨y, hy, hcode, hpts⟩ := Stn.missed_fourth ha hb hd
    have hread : (s.setStn y.dropTime).station code = y.dropTime := s.station_setStn (hcode.trans (by simp [hx]))
    refine ⟨s.setStn y.dropTime, ?_, ?_⟩
    · rw [answers, exec_stationSyncMissed hx, if_neg hn, if_pos hm, hy]
    · rw [hread]
      simp [hpts]
  case restart =>
    intro code retains x s hx
    have hcode : (x.restarted retains).code = code := show x.code = code by simp [hx]
    have hread : (s.setStn (x.restarted retains)).station code = x.restarted retains := s.station_setStn hcode
    refine ⟨_, exec_stationRestart retains hx, ?_⟩
    rw [hread]
    refine ⟨rfl, rfl, rfl, rfl, rfl, rfl, rfl, rfl, rfl, fun p _ => ?_⟩
    rw [Stn.pt_of_restarted (x := x.toSafe retains) rfl p]
    exact PtOut.restarted_frame _

end Sys2Proof.Machine
end

section
/-! A write of a word by the code of a compared lane that takes effect at once (03 R59 to R69): the item that both copies emit, the bytes that
its transaction stores, the register that it reaches, and what the state is afterwards. -/

namespace Sys2Proof.Machine
open Sys2Proof

/-! ## The item and its transaction -/

/-- What `carries` says of the lane, of its copies and their buffers, and of the way of the write. -/
theorem carries_iff {s : State} {l : Fin 8} {a : Nat} {v : Word} : Sys2Proof.carries s l a v = true ↔
    (s.laneAt l.val).split = false ∧ s.copyGoes l.val .a = true ∧ s.copyGoes l.val .b = true ∧ emits s l.val .a = true ∧
      emits s l.val .b = true ∧ (s.laneAt l.val).a.skew = [] ∧ (s.laneAt l.val).b.skew = [] ∧
      (s.laneAt l.val).a.items = (s.laneAt l.val).b.items ∧ reaches (paired s l a v) (laneHeld s l a v).t = true := by
  simp [Sys2Proof.carries, and_assoc]

/-- The comparator finds no difference between an item and itself (03 R63). -/
@[simp] theorem itemEq_self (i : Item) : itemEq i i = true := by
  simp [itemEq, fieldDiff, dataDiff, bitIf]

/-- The hardware gives a write item its SEQ and nothing else, whatever the copy's checkpoints and the caches (03 R60). -/
theorem formItem_writeItem (p : BitVec 2) (a size : Nat) (v : Word) (num checks : Nat) (c : Bool) :
    formItem (writeItem p a size v) num checks c = { writeItem p a size v with seq := BitVec.ofNat 9 num } := by
  simp [formItem, writeItem]

/-- The item of a lane's write of a word. -/
theorem laneItem_eq (s : State) (l : Fin 8) (a : Nat) (v : Word) : laneItem s l a v =
    { writeItem (s.lanePriv l.val .a) a 8 v with seq := BitVec.ofNat 9 ((s.laneAt l.val).a.items + 1) } :=
  formItem_writeItem ..

@[simp] theorem laneItem_kind (s : State) (l : Fin 8) (a : Nat) (v : Word) : (laneItem s l a v).kind = 1 := by
  rw [laneItem_eq]; rfl

@[simp] theorem laneItem_size (s : State) (l : Fin 8) (a : Nat) (v : Word) : (laneItem s l a v).size = 3 := by
  rw [laneItem_eq]; rfl

@[simp] theorem laneItem_fetch (s : State) (l : Fin 8) (a : Nat) (v : Word) : (laneItem s l a v).fetch = false := by
  rw [laneItem_eq]; rfl

@[simp] theorem laneItem_be (s : State) (l : Fin 8) (a : Nat) (v : Word) :
    (laneItem s l a v).be = BitVec.ofNat 64 ((2 ^ 8 - 1) * 2 ^ (a % 64)) := by
  rw [laneItem_eq]; rfl

@[simp] theorem laneItem_data (s : State) (l : Fin 8) (a : Nat) (v : Word) :
    (laneItem s l a v).data = BitVec.ofNat 512 (v.toNat * 2 ^ (8 * (a % 64))) := by
  rw [laneItem_eq, ← Nat.mod_eq_of_lt v.isLt]; rfl

/-- The address of a lane's write, which has 40 bits (01 R24). -/
theorem laneItem_addr (s : State) (l : Fin 8) {a : Nat} (v : Word) (ha : a < 2 ^ 40) : (laneItem s l a v).addr.toNat = a := by
  rw [laneItem_eq]
  exact (BitVec.toNat_ofNat ..).trans (Nat.mod_eq_of_lt ha)

/-- The bytes of a number, one by one. -/
theorem getElem_le {k n i : Nat} (h : i < (le k n).length) : (le k n)[i] = BitVec.ofNat 8 (n / 256 ^ i) := by
  induction k generalizing n i with
  | zero => simp at h
  | succ k ih =>
    cases i with
    | zero => simp [le]
    | succ i => simp [le, ih, Nat.div_div_eq_div_mul, Nat.pow_succ']

/-- A byte of a word that stands from byte `f` on in the data of an item. -/
theorem byte_of_shifted (v : Word) {f : Nat} (j : Nat) (hf : f ≤ 56) :
    ((BitVec.ofNat 512 (v.toNat * 2 ^ (8 * f)) >>> (8 * (f + j))).setWidth 8 : Byte) = BitVec.ofNat 8 (v.toNat / 256 ^ j) := by
  have hexp : 64 + 8 * f ≤ 512 := by omega
  have hlt : v.toNat * 2 ^ (8 * f) < 2 ^ (64 + 8 * f) := by
    rw [Nat.pow_add]
    exact Nat.mul_lt_mul_of_pos_right v.isLt (by positivity)
  apply BitVec.eq_of_toNat_eq
  rw [BitVec.toNat_setWidth, BitVec.toNat_ushiftRight, BitVec.toNat_ofNat, BitVec.toNat_ofNat,
    Nat.mod_eq_of_lt (hlt.trans_le (Nat.pow_le_pow_right Nat.two_pos hexp)), Nat.shiftRight_eq_div_pow, Nat.mul_add, Nat.pow_add,
    Nat.mul_comm v.toNat, Nat.mul_div_mul_left _ _ (by positivity), Nat.pow_mul 2 8 j]

/-- The byte enables of a word that stands from byte `f` on. -/
theorem enabled_of_shifted {f j : Nat} (hf : f ≤ 56) (hj : j < 8) :
    (BitVec.ofNat 64 ((2 ^ 8 - 1) * 2 ^ f)).getLsbD (f + j) = true := by
  have h64 : f + j < 64 := by omega
  simp only [BitVec.getLsbD_ofNat, Nat.testBit_mul_two_pow, Nat.testBit_two_pow_sub_one, Nat.add_sub_cancel_left, h64, hj,
    Nat.le_add_right, decide_true, Bool.and_self]

/-- A write whose bytes are all enabled stores its data. -/
theorem blend_enabled {t : Txn} (old : List Byte) (hm : ∀ i < t.size, t.mask.getD i true = true) (hd : t.data.length = t.size) :
    blend t old = t.data := by
  apply List.ext_getElem
  · simp [blend, hd]
  · intro i h1 h2
    have hi := hm i (hd ▸ h2)
    rw [List.getD_eq_getElem?_getD] at hi
    simp [blend, hi, h2]

/-- The transaction of a lane's aligned write of a word stores that word (03 R60, R68). -/
theorem blend_laneHeld (s : State) (l : Fin 8) {a : Nat} (v : Word) (old : List Byte) (ha : a < 2 ^ 40) (h8 : a % 8 = 0) :
    blend (laneHeld s l a v).t old = le 8 v.toNat := by
  have hf : a % 64 ≤ 56 := by omega
  have hdata : (laneHeld s l a v).t.data = le 8 v.toNat := by
    apply List.ext_getElem
    · simp [laneHeld, itemTxn]
    · intro i h1 h2
      simp only [laneHeld, itemTxn, List.getElem_map, List.getElem_range, laneItem_addr s l v ha, laneItem_data, getElem_le]
      exact byte_of_shifted v i hf
  rw [blend_enabled _ _ (by simp [laneHeld, itemTxn]), hdata]
  intro i hi
  have hi : i < 8 := by simpa [laneHeld, itemTxn] using hi
  simpa [laneHeld, itemTxn, laneItem_addr s l v ha, hi] using enabled_of_shifted hf hi

/-! ## Its way to the register -/

/-- A transaction that nothing holds or refuses comes to its target, whether a compared item stands behind it or not. -/
theorem State.txn_arrives {s : State} {h : Held} (hr : reaches s h.t = true) : s.txn h = s.atTarget State.heldTxn h := by
  simp only [reaches, Bool.and_eq_true, Bool.not_eq_true', Option.isNone_iff_eq_none] at hr
  obtain ⟨⟨⟨⟨⟨hgate, hbar⟩, hwb⟩, hpower⟩, hpark⟩, hclock⟩ := hr
  simp [State.txn, State.passTxn, hgate, hbar, hwb, hpower, hpark, hclock]

/-- At its target a transaction without a code error has the effect of the register that it addresses. -/
theorem State.atTarget_register {s : State} {h : Held} {slot : Nat} (k : State → Held → State) (hs : slotOf h.t.addr = some slot)
    (he : h.t.err = .none) : s.atTarget k h = (s.slotAccess h.t slot k).done h := by
  simp [State.atTarget, hs, he]

/-- A write of a whole word reaches a register below slot 26 with that word. -/
theorem State.slotAccess_word {s : State} {t : Txn} {slot : Nat} {v : Word} (k : State → Held → State) (hd : described slot = true)
    (hl : slot < 26) (hk : t.kind = 1) (hs : t.size = 8) (hb : ∀ old, blend t old = le 8 v.toNat) :
    s.slotAccess t slot k = (s.regWrite slot t.copy (t.addr % 0x10000) v k).answer [] := by
  have hv : BitVec.ofNat 64 (unle (le 8 v.toNat)) = v := by
    rw [unle_le, Nat.mod_eq_of_lt (by exact v.isLt), BitVec.ofNat_toNat, BitVec.setWidth_eq]
  have hw : txnWrites t = true := by simp [txnWrites, hk]
  have h6 : slot ≠ 26 := by omega
  have h7 : slot ≠ 27 := by omega
  have h8 : slot ≠ 28 := by omega
  simp [State.slotAccess, hd, hw, hs, hb, hv, h6, h7, h8]

/-! ## The two copies -/

/-- An updated task lane reads as the update of what it was. -/
@[simp] theorem State.laneAt_onLane_task (s : State) (l : Fin 8) (f : Lane → Lane) :
    (s.onLane l.val f).laneAt l.val = f (s.laneAt l.val) :=
  s.laneAt_onLane l.castSucc f

/-- Two updates of a task lane are one. -/
theorem State.onLane_onLane_task (s : State) (l : Fin 8) (f g : Lane → Lane) :
    (s.onLane l.val f).onLane l.val g = s.onLane l.val fun x => g (f x) :=
  s.onLane_onLane l.castSucc f g

/-- Copy A's write stands in its buffer, and copy A runs on (03 R63). -/
theorem State.written_word (s : State) (l : Nat) (p : BitVec 2) (a : Nat) (v : Word) :
    s.written l .a (writeItem p a 8 v) = s.onLane l fun x => { x with a := { x.a with
      items := x.a.items + 1, waiting := false, exc := none, skew := x.a.skew ++ [skewEntry s l .a (writeItem p a 8 v)] } } :=
  State.written_running (show (1 : BitVec 3) ≠ 5 by decide) (show (1 : BitVec 3) ≠ 6 by decide)

/-- Copy B executes, and emits, after a write of copy A as before it. -/
theorem State.emits_b_written {s : State} {l : Fin 8} (p : BitVec 2) (a : Nat) (v : Word) (hg : s.copyGoes l.val .b = true)
    (he : emits s l.val .b = true) : (s.written l.val .a (writeItem p a 8 v)).copyGoes l.val .b = true ∧
      emits (s.written l.val .a (writeItem p a 8 v)) l.val .b = true := by
  rw [written_word]
  refine ⟨?_, ?_⟩
  · simpa [State.copyGoes, State.laneGoes, Lane.copy] using hg
  · simpa [emits, State.comparing, Lane.copy] using he

/-- A matched write goes on as a transaction, and its place on the return path is kept (03 R68, R69). -/
theorem State.forward_write (s : State) (l lead : Nat) {x : SkewEnt} (hk : x.item.kind = 1) :
    s.forward l x lead .none = (s.onLane l fun y => { y with
      awaiting := y.awaiting ++ [{ num := x.num, lead := lead, item := x.item }] }).txn
        { t := itemTxn l x.item .none, item := some x.item, lane := l, num := x.num, lead := lead } := by
  simp [State.forward, hk]

/-- The pair is copy A's item, then copy B's, both taken from their buffers, and the place on the return path. -/
theorem paired_eq_written (s : State) (l : Fin 8) (a : Nat) (v : Word) : paired s l a v =
    ((s.written l.val .a (writeItem (s.lanePriv l.val .a) a 8 v)).onLane l.val fun z => { z with
      a := { z.a with skew := [] }, b := { z.b with items := z.b.items + 1, waiting := false, exc := none, skew := [] } }).onLane l.val
      fun z => { z with awaiting := z.awaiting ++ [{ num := (s.laneAt l.val).a.items + 1, lead := 0, item := laneItem s l a v }] } := by
  rw [State.written_word, State.onLane_onLane_task, State.onLane_onLane_task]
  rfl

/-- Copy A's entry of a write by the lane's code. -/
theorem skewEntry_word (s : State) (l : Fin 8) (a : Nat) (v : Word) : skewEntry s l.val .a (writeItem (s.lanePriv l.val .a) a 8 v) =
    { num := (s.laneAt l.val).a.items + 1, at_ := s.clk.now, item := laneItem s l a v } := by
  simp [skewEntry, formItem_writeItem, laneItem_eq, Lane.copy]

/-- The first copy's write stands in its buffer (03 R63). -/
theorem State.laneWrite_first {s : State} {l : Fin 8} (p : BitVec 2) (a : Nat) (v : Word) (hs : (s.laneAt l.val).split = false)
    (hg : s.copyGoes l.val .a = true) (he : emits s l.val .a = true) (hskA : (s.laneAt l.val).a.skew = [])
    (hskB : (s.laneAt l.val).b.skew = []) : s.laneWrite l .a p a 8 v = s.written l.val .a (writeItem p a 8 v) := by
  rw [State.laneWrite_compared _ _ _ _ hg hs]
  exact State.emit_first (l := l.castSucc) he (show (1 : BitVec 3) ≠ 7 by decide) (show (3 : BitVec 3) ≠ 7 by decide) hskA hskB

/-- The second copy's write, whose copy has emitted as much, is equal to the first one's: it goes on, once for both (03 R63, R68). -/
theorem State.laneWrite_second {s u : State} {l : Fin 8} {a : Nat} {v : Word} (hs : (s.laneAt l.val).split = false)
    (hg : s.copyGoes l.val .b = true) (he : emits s l.val .b = true) (hskA : (s.laneAt l.val).a.skew = [])
    (hskB : (s.laneAt l.val).b.skew = []) (hnum : (s.laneAt l.val).a.items = (s.laneAt l.val).b.items)
    (hu : u = s.written l.val .a (writeItem (s.lanePriv l.val .a) a 8 v)) : u.laneWrite l .b (s.lanePriv l.val .a) a 8 v =
      ((paired s l a v).txn (laneHeld s l a v)).injectRepair l.val (laneItem s l a v).addr.toNat := by
  obtain ⟨hg', he'⟩ := State.emits_b_written (s.lanePriv l.val .a) a v hg he
  have hpair := paired_eq_written s l a v
  rw [← hu] at hg' he' hpair
  have hlane : u.laneAt l.val = { s.laneAt l.val with a := { (s.laneAt l.val).a with
      items := (s.laneAt l.val).a.items + 1, waiting := false, exc := none
      skew := [{ num := (s.laneAt l.val).a.items + 1, at_ := s.clk.now, item := laneItem s l a v }] } } := by
    rw [hu, State.written_word, State.laneAt_onLane_task, hskA, skewEntry_word]
    rfl
  have hitem : (skewEntry u l.val .b (writeItem (s.lanePriv l.val .a) a 8 v)).item = laneItem s l a v := by
    simp [skewEntry, formItem_writeItem, laneItem_eq, hlane, Lane.copy, hnum]
  have htime : u.clk.now ≤ s.clk.now + 2000 := by
    rw [hu, State.written_clk]
    exact Nat.le_add_right ..
  have hmatch := State.emit_second (l := l.castSucc) (x := { num := (s.laneAt l.val).a.items + 1, at_ := s.clk.now, item := laneItem s l a v })
    (i := writeItem (s.lanePriv l.val .a) a 8 v) he' (show (1 : BitVec 3).toNat < 5 by decide) (show (3 : BitVec 3) ≠ 7 by decide)
    (by simp [hlane]) (by simp [hlane, hskB]) htime rfl rfl
  rw [Fin.val_castSucc, hitem, itemEq_self, if_pos rfl, State.forward_write _ _ _ (laneItem_kind ..)] at hmatch
  rw [State.laneWrite_compared _ _ _ _ hg' (by simp [hlane, hs]), hmatch, hpair]
  rfl

/-- A write of a word by the code of a compared lane that reaches a register has that register's effect once, for both copies (03 R59, R68). -/
theorem State.laneWrites_carried {s : State} {l : Fin 8} {a slot : Nat} {v : Word} (hc : Sys2Proof.carries s l a v = true) (h8 : a % 8 = 0)
    (hs : slotOf a = some slot) (hd : described slot = true) (hl : slot < 26) :
    s.laneWrites l a v = carried s l a v fun x => x.regWrite slot .a (a % 0x10000) v State.heldTxn := by
  obtain ⟨hcmp, hgoA, hgoB, heA, heB, hskA, hskB, hnum, hreach⟩ := carries_iff.mp hc
  have ha : a < 2 ^ 40 := by
    by_contra hbig
    simp [slotOf, show ¬ a < 0x10300000 by omega] at hs
  have haddr : (laneHeld s l a v).t.addr = a := laneItem_addr s l v ha
  have hkind : (laneHeld s l a v).t.kind = 1 := by
    simp only [laneHeld, itemTxn, laneItem_kind, laneItem_fetch]
    rfl
  have hsize : (laneHeld s l a v).t.size = 8 := by simp [laneHeld, itemTxn]
  rw [State.laneWrites, hcmp, if_neg Bool.false_ne_true]
  dsimp only
  rw [State.laneWrite_first _ _ _ hcmp hgoA heA hskA hskB, State.laneWrite_second hcmp hgoB heB hskA hskB hnum rfl, State.txn_arrives hreach,
    State.atTarget_register _ (haddr.symm ▸ hs) rfl, State.slotAccess_word _ hd hl hkind hsize (blend_laneHeld s l v · ha h8), haddr]
  rfl

/-! ## The state afterwards -/

/-- A write whose register's effect leaves no fault armed has that effect, its answer goes to the lane, and no line is repaired. -/
theorem carried_eq {s : State} {l : Fin 8} {a : Nat} {v : Word} {f : State → State} (hi : (f (paired s l a v)).lanes.inject = none) :
    carried s l a v f = ((f (paired s l a v)).answer []).done (laneHeld s l a v) :=
  State.injectRepair_none _ _ hi

/-- An answer that reaches its lane leaves the tasks as they were. -/
@[simp] theorem State.taskAt_done (s : State) (h : Held) (n : Nat) : (s.done h).taskAt n = s.taskAt n := by
  unfold State.done
  (repeat' split) <;> rfl

/-- Actuation, memory and tasks are afterwards as the register's effect leaves them. -/
theorem carried_frame {s : State} {l : Fin 8} {a : Nat} {v : Word} {f : State → State} (hi : (f (paired s l a v)).lanes.inject = none) :
    (carried s l a v f).act = (f (paired s l a v)).act ∧ (carried s l a v f).mem = (f (paired s l a v)).mem ∧
      ∀ n, (carried s l a v f).taskAt n = (f (paired s l a v)).taskAt n := by
  rw [carried_eq hi]
  refine ⟨?_, ?_, fun n => ?_⟩
  · simp [State.answer]
  · simp [State.answer]
  · rw [State.taskAt_done, State.taskAt_answer]

/-- The pair leaves memory, the armed fault and the running task as they were. -/
@[simp] theorem paired_mem (s : State) (l : Fin 8) (a : Nat) (v : Word) : (paired s l a v).mem = s.mem := rfl

@[simp] theorem paired_inject (s : State) (l : Fin 8) (a : Nat) (v : Word) : (paired s l a v).lanes.inject = s.lanes.inject := rfl

@[simp] theorem curTask_paired (s : State) (l : Fin 8) (a : Nat) (v : Word) :
    ((paired s l a v).laneAt l.val).a.curTask = (s.laneAt l.val).a.curTask := by
  simp [paired]

/-- Where a write takes effect at once, no fault is armed. -/
theorem inject_of_carries {s : State} {l : Fin 8} {a : Nat} {v : Word} (hc : Sys2Proof.carries s l a v = true) : s.lanes.inject = none := by
  obtain ⟨-, -, -, he, -⟩ := carries_iff.mp hc
  exact inject_of_emits he

end Sys2Proof.Machine
end

section
/-! Timed actuation and the IEEE 1588 reference (08 R202 to R210, R217, R218): the push window of a lane, what a commit leaves, an entry of the
local queue at its instant, and the reference on an Announce, a Sync and silence. -/

namespace Sys2Proof.Machine
open Sys2Proof

/-! ## The push window -/

/-- The registers of a lane's push window lie in slot 22. -/
theorem slotOf_actWindow (l : Fin 8) {o : Nat} (ho : o < 0x100) : slotOf (actWindow l.val + o) = some 22 := by
  have hl : l.val < 8 := l.isLt
  have ha : actWindow l.val = 0x10168000 + 0x100 * l.val := rfl
  simp only [slotOf, Bool.and_eq_true, decide_eq_true_eq]
  rw [if_pos (by omega), Option.some_inj]
  omega

/-- A write to slot 22 in a lane's push window is one to that register of the lane. -/
theorem State.regWrite_actWindow (s : State) (l : Fin 8) (c : Side) {o : Nat} (v : Word) (k : State → Held → State) (ho : o < 0x100) :
    s.regWrite 22 c ((actWindow l.val + o) % 0x10000) v k = s.actWrite l.val o v := by
  have hl : l.val < 8 := l.isLt
  have ha : actWindow l.val = 0x10168000 + 0x100 * l.val := rfl
  have hm : (actWindow l.val + o) % 0x10000 = 0x8000 + 0x100 * l.val + o := by omega
  have hq : (0x8000 + 0x100 * l.val + o - 0x8000) / 0x100 = l.val := by omega
  have hr : (0x8000 + 0x100 * l.val + o - 0x8000) % 0x100 = o := by omega
  have hin : (decide (0x8000 ≤ 0x8000 + 0x100 * l.val + o) && decide (0x8000 + 0x100 * l.val + o < 0x8800)) = true :=
    Bool.and_eq_true_iff.mpr ⟨decide_eq_true (by omega), decide_eq_true (by omega)⟩
  show s.write22 _ v = _
  rw [hm, State.write22, if_pos hin, hq, hr]

/-- A write to a lane's push window that takes effect at once has the effect of its register (08 R207). -/
theorem State.laneWrites_actWindow {s : State} {l : Fin 8} {o : Nat} {v : Word} (ho : o < 0x100) (h8 : o % 8 = 0)
    (hc : Sys2Proof.carries s l (actWindow l.val + o) v = true) :
    s.laneWrites l (actWindow l.val + o) v = carried s l (actWindow l.val + o) v fun x => x.actWrite l.val o v := by
  rw [State.laneWrites_carried hc (by simp only [actWindow]; omega) (slotOf_actWindow l ho) (by decide) (by decide)]
  simp only [State.regWrite_actWindow _ _ _ _ _ ho]

/-- NET_ACT_PUSH_T commits the entry. -/
theorem exec_netActPushT {s : State} {l : Fin 8} {time : Word} (hc : Sys2Proof.carries s l (actWindow l.val + 8) time = true) :
    exec (.netActPushT l time) s = .next (carried s l (actWindow l.val + 8) time (pushes l time)) :=
  congrArg Host.Outcome.next (State.laneWrites_actWindow (by decide) (by decide) hc)

/-- NET_ACT_PUSH_A of a lane holds a value. -/
def State.setPushA (l : Fin 8) (v : Word) (s : State) : State :=
  { s with act := { s.act with pushA := s.act.pushA.setIfInBounds l.val v } }

/-- ACT_CANCEL writes NET_ACT_PUSH_A with CANCEL, then NET_ACT_PUSH_T. -/
theorem exec_actCancel {s : State} {l : Fin 8} {v time : Word} (hv : v = s.act.pushA.toList.getD l.val 0 ||| (1 <<< 48))
    (hA : Sys2Proof.carries s l (actWindow l.val) v = true)
    (hT : Sys2Proof.carries (carried s l (actWindow l.val) v (State.setPushA l v)) l (actWindow l.val + 8) time = true) :
    exec (.actCancel l time) s = .next (carried (carried s l (actWindow l.val) v (State.setPushA l v)) l (actWindow l.val + 8) time
      (pushes l time)) := by
  have hv' : s.act.pushA[l] ||| (1 <<< 48) = v := by simp [hv]
  have hset : s.laneWrites l (actWindow l.val) v = carried s l (actWindow l.val) v (State.setPushA l v) :=
    State.laneWrites_actWindow (o := 0) (by decide) rfl hA
  show Host.Outcome.next ((s.laneWrites l (actWindow l.val) (s.act.pushA[l] ||| (1 <<< 48))).laneWrites l (actWindow l.val + 8) time) = _
  rw [hv', hset, State.laneWrites_actWindow (by decide) (by decide) hT]
  rfl

/-- In a split lane the copy that runs a task writes by itself (03 R59). -/
theorem State.laneWrites_split {s : State} {l : Fin 8} {c : Side} {a : Nat} {v : Word} (hs : (s.laneAt l.val).split = true)
    (hc : c = if (s.laneAt l.val).a.idle && !(s.laneAt l.val).b.idle then .b else .a) (hg : s.copyGoes l.val c = true) :
    s.laneWrites l a v = s.txn (Held.of (writeTxn l c (s.lanePriv l.val c) a 8 v)) := by
  rw [State.laneWrites, hs, if_pos rfl, ← hc]
  exact State.laneWrite_split _ _ _ _ hg hs

/-! ## Commits, 08 R207 to R210 -/

/-- A commit that fails a check is refused with its code (08 R208). -/
theorem State.commitAct_refused {s : State} {e : ActEnt} {r : Bool} (task : Option Nat) (hk : s.actCode e r ≠ 0) :
    s.commitAct task e r = (s.actCode e r, s.rejectAct task) := by
  simp [State.commitAct, hk]

/-- A task's commit for a network point that passes the checks joins the pool; a cancel is logged (08 R209, 09 R250). -/
theorem State.commitAct_net {s : State} {e : ActEnt} {r : Bool} (task : Nat) (hk : s.actCode e r = 0) (hp : ptStn e.point ≠ localCode) :
    s.commitAct (some task) e r = (0, if e.cancel then (s.acceptNet e).logAct e else s.acceptNet e) := by
  simp [State.commitAct, State.acceptAct, hk, hp]

/-- A record leaves the tasks as they were. -/
@[simp] theorem State.taskAt_record (s : State) (code src n : Nat) (l : List Nat) : (s.record code src l).taskAt n = s.taskAt n := by
  simp [State.taskAt]

/-- A refusal for a task is counted for it and leaves the queues (08 R208). -/
theorem State.rejectAct_task (s : State) (n : Nat) : (s.rejectAct (some n)).act = s.act ∧
    (s.rejectAct (some n)).lanes.inject = s.lanes.inject ∧
    (n < 32 → (s.rejectAct (some n)).taskAt n = { s.taskAt n with rejected := satAdd 64 (s.taskAt n).rejected 1 }) := by
  refine ⟨?_, ?_, fun hn => ?_⟩
  · simp [State.rejectAct]
  · simp only [State.rejectAct, State.record_frame]
    rfl
  · rw [State.rejectAct, taskAt_record, taskAt_onTask _ hn]

/-- What a refused push leaves: its code, and one more refusal of the task that the lane runs (08 R207, R208). -/
theorem State.push_refused {s : State} {l : Fin 8} {a time : Word} {k : Nat}
    (hk : s.actCode (pushEntry a time) ((a >>> 49) ≠ 0) = k) (h0 : k ≠ 0) :
    (s.push l.val a time).act = { s.act with result := s.act.result.setIfInBounds l.val k } ∧
    (s.push l.val a time).lanes.inject = s.lanes.inject ∧
    ((s.laneAt l.val).a.curTask < 32 → ((s.push l.val a time).taskAt (s.laneAt l.val).a.curTask).rejected =
      satAdd 64 (s.taskAt (s.laneAt l.val).a.curTask).rejected 1) := by
  obtain ⟨hact, hinj, htask⟩ := s.rejectAct_task (s.laneAt l.val).a.curTask
  simp only [State.push, State.commitAct_refused _ (hk ▸ h0), hk]
  exact ⟨by rw [hact], hinj, fun hn => congrArg Task.rejected (htask hn)⟩

/-- What an accepted push for a network point leaves: result 0 and the entry in the pool, from which a cancel has taken what it removes (08 R207,
R209, R210). -/
theorem State.push_net {s : State} {l : Fin 8} {a time : Word} {e : ActEnt} (he : e = pushEntry a time)
    (hk : s.actCode e ((a >>> 49) ≠ 0) = 0) (hp : ptStn e.point ≠ localCode) :
    (s.push l.val a time).act.pool =
      (if e.cancel then s.act.pool.filter fun x => !(x.point = e.point && e.time ≤ x.time) else s.act.pool) ++ [e] ∧
    (s.push l.val a time).act.result = s.act.result.setIfInBounds l.val 0 ∧ (s.push l.val a time).act.localQ = s.act.localQ ∧
    (e.cancel = false → (s.push l.val a time).act.log = s.act.log) ∧ (s.push l.val a time).lanes = s.lanes := by
  subst he
  simp only [State.push, State.commitAct_net _ hk hp]
  cases hc : (pushEntry a time).cancel
  case false => simp [State.acceptNet, hc]
  case true => simp [State.logAct, State.acceptNet, hc]

/-- A write of NET_ACT_PUSH_A that takes effect at once changes that register alone. -/
theorem carried_setPushA {s : State} {l : Fin 8} {a : Nat} {v : Word} (hc : Sys2Proof.carries s l a v = true) :
    (carried s l a v (State.setPushA l v)).act = { s.act with pushA := s.act.pushA.setIfInBounds l.val v } := by
  have hi : (State.setPushA l v (paired s l a v)).lanes.inject = none := (paired_inject ..).trans (inject_of_carries hc)
  exact (carried_frame (f := State.setPushA l v) hi).1

/-- The push that a paired write makes is that of the value in the lane's NET_ACT_PUSH_A. -/
theorem pushes_paired (s : State) (l : Fin 8) (a : Nat) (v time : Word) :
    pushes l time (paired s l a v) = (paired s l a v).push l.val (s.act.pushA.toList.getD l.val 0) time := rfl

/-- A commit for a network point that takes effect at once and passes the checks: result 0, the entry in the pool, the local queue as it was. -/
theorem carried_push_net {s t : State} {l : Fin 8} {a : Nat} {v time : Word} {e : ActEnt} (hc : Sys2Proof.carries s l a time = true)
    (hv : s.act.pushA.toList.getD l.val 0 = v) (he : e = pushEntry v time) (hk : (paired s l a time).actCode e ((v >>> 49) ≠ 0) = 0)
    (hp : ptStn e.point ≠ localCode) (ht : t = carried s l a time (pushes l time)) :
    t.act.pool = (if e.cancel then s.act.pool.filter fun x => !(x.point = e.point && e.time ≤ x.time) else s.act.pool) ++ [e] ∧
    t.act.result[l] = 0 ∧ t.act.localQ = s.act.localQ ∧ (e.cancel = false → t.act.log = s.act.log) ∧ t.mem = s.mem := by
  obtain ⟨hpool, hres, hloc, hlog, hlanes⟩ := State.push_net (l := l) he hk hp
  have hpush := hv ▸ pushes_paired s l a time time
  have hi : (pushes l time (paired s l a time)).lanes.inject = none := by
    rw [hpush, hlanes, paired_inject, inject_of_carries hc]
  obtain ⟨hact, hmem, -⟩ := carried_frame (f := pushes l time) hi
  rw [ht, hact, hmem, hpush]
  refine ⟨hpool, ?_, hloc, hlog, ?_⟩
  · simp [hres]
  · simp

/-- A commit that takes effect at once and fails a check: its code stands, it is counted for the task, and no queue changes. -/
theorem carried_push_refused {s t : State} {l : Fin 8} {a k : Nat} {v time : Word} (hc : Sys2Proof.carries s l a time = true)
    (hv : s.act.pushA.toList.getD l.val 0 = v) (hk : (paired s l a time).actCode (pushEntry v time) ((v >>> 49) ≠ 0) = k) (h0 : k ≠ 0)
    (ht : t = carried s l a time (pushes l time)) :
    t.act = { s.act with result := s.act.result.setIfInBounds l.val k } ∧ t.mem = s.mem ∧
    ((s.laneAt l.val).a.curTask < 32 →
      (t.taskAt (s.laneAt l.val).a.curTask).rejected = satAdd 64 (s.taskAt (s.laneAt l.val).a.curTask).rejected 1) := by
  obtain ⟨hres, hinj, htask⟩ := State.push_refused (l := l) hk h0
  have hpush := hv ▸ pushes_paired s l a time time
  have hi : (pushes l time (paired s l a time)).lanes.inject = none := by
    rw [hpush, hinj, paired_inject, inject_of_carries hc]
  obtain ⟨hact, hmem, htasks⟩ := carried_frame (f := pushes l time) hi
  rw [curTask_paired] at htask
  rw [ht, hact, hmem, htasks, hpush]
  exact ⟨hres, by simp, htask⟩

/-! ## The local queue, 08 R217 -/

/-- An updated channel reads as the update of what it was. -/
theorem State.lch_onLch (s : State) (ch : Fin 16) (f : LioCh → LioCh) : (s.onLch ch.val f).lch ch.val = f (s.lch ch.val) := by
  simp [State.lch, State.onLch]

/-- The output stages follow; of a channel they change the switch alone (10 R268). -/
theorem State.lch_switches (s : State) (ch : Fin 16) : ∃ on, s.switches.lch ch.val = { s.lch ch.val with sw := on } := by
  refine ⟨(s.switches.lch ch.val).sw, ?_⟩
  simp [State.lch, State.switches]

/-- An entry is applied at its channel: the command, held, under its SEQ (08 R217, R218). -/
theorem State.lch_applyLocal {s : State} {ch : Fin 16} {e : ActEnt} (hc : ptIdx e.point = ch.val) :
    ((s.applyLocal e).lch ch.val).cmd = e.value.getLsbD 0 ∧ ((s.applyLocal e).lch ch.val).held = true ∧
      ((s.applyLocal e).lch ch.val).actN = e.seq := by
  obtain ⟨on, hon⟩ := State.lch_switches
    (s.onLch ch.val fun c => { c with cmd := e.value.getLsbD 0, held := true, actN := e.seq, actAt := e.time }) ch
  rw [State.applyLocal, hc, hon, lch_onLch]
  exact ⟨rfl, rfl, rfl⟩

/-- LOCAL_ACT_INSTANT takes the entry that is next from the queue and applies it at its start instant. -/
theorem exec_localActInstant {s k : State} {ch : Fin 16} {e : ActEnt} (hn : nextLocal ch.val s.act.localQ = some e)
    (hk : k = s.reachNet (localStart e)) : exec (.localActInstant ch) s = .next (({ k with act := { k.act with
      localQ := k.act.localQ.filter fun x => !(x.point = e.point && x.time = e.time) } } : State).applyLocal e) := by
  show execLocalActInstant ch s = _
  rw [execLocalActInstant, hn, hk]

/-! ## The reference, 08 R202 to R206 -/

/-- An Announce on an enabled port, in the domain and on the transport of the time source block, is heard (08 R203). -/
theorem exec_ptpAnnounceRx {s : State} {p : Fin 2} {m : Announce} (hp : s.timeSrc.ports.testBit p.val = true)
    (hd : m.domain = s.timeSrc.domain) (ht : m.transport = s.timeSrc.transport) :
    exec (.ptpAnnounceRx p m) s = .next ({ s with act := { s.act with masters := heardMasters s p m } } : State).selectMaster := by
  show execPtpAnnounceRx p m s = _
  rw [execPtpAnnounceRx, if_neg (by simp [hp, hd, ht])]
  rfl

/-- An acceptable master is in the domain and on the transport of the time source block (08 R203, R204). -/
theorem domain_transport_of_acceptable {src : TimeSrc} {x : Nat × Announce} (h : acceptable src x = true) :
    x.2.domain = src.domain ∧ x.2.transport = src.transport := by
  simp only [acceptable, Bool.and_eq_true, decide_eq_true_eq] at h
  obtain ⟨⟨⟨⟨-, hd⟩, ht⟩, -⟩, -⟩ := h
  exact ⟨hd, ht⟩

/-- An acceptable master that is the only one heard is the best. -/
theorem bestMaster_single {src : TimeSrc} {x : Nat × Announce} (h : acceptable src x = true) : bestMaster src [x] = some x := by
  simp [bestMaster, h]

/-- While the reference is not LOCKED it brings no TAI_UTC (17 R450). -/
theorem State.utcFromRef_unlocked {s : State} (h : s.act.ref ≠ .locked) : s.utcFromRef = s := by
  unfold State.utcFromRef
  split
  · rw [if_neg h]
  · rfl

/-- The time source block is one of the configuration's parts: no update of the actuation's and the reference's part changes it. -/
theorem State.timeSrc_act (s : State) (x : Act) : ({ s with act := x } : State).timeSrc = s.timeSrc := rfl

/-- The first master that is heard, if it is acceptable, is selected and begins ACQUIRE (08 R203, R206). -/
theorem State.selectMaster_first {s : State} {x : Nat × Announce} (ha : acceptable s.timeSrc x = true) (hr : s.act.ref = .free)
    (hm : s.act.master = none) : ({ s with act := { s.act with masters := [x] } } : State).selectMaster = { s with act := { s.act with
      masters := [x], master := some x, utc := if x.2.utcValid then some x.2.utcOffset else none, ref := .acquire, near := 0, far := 0
      syncAt := s.clk.now } } := by
  simp only [State.selectMaster, State.timeSrc_act, bestMaster_single ha, hr, hm]
  rw [State.utcFromRef_unlocked (by simp)]
  simp

/-- A Sync of the selected master is measured (08 R204 to R206). -/
theorem exec_ptpSyncRx {s : State} {p : Fin 2} {m : PtpSync} (h : oursSync s p m = true) :
    exec (.ptpSyncRx p m) s = .next (s.measured (s.thetaOf m)) :=
  congrArg Host.Outcome.next (if_pos h)

/-- The sixteenth Sync in a row within 1 µs locks the reference (08 R206). -/
theorem State.measured_locks {s : State} {θ : Int} (hr : s.act.ref = .acquire) (ht : θ.natAbs ≤ 1000) (hn : 15 ≤ s.act.near) :
    s.measured θ = ((({ s with act := { s.act with
      theta := θ, near := s.act.near + 1, far := 0, syncAt := s.clk.now, ref := .locked } } : State).record 0x0408 (srcOf 4 32)
        []).calLocked).utcFromRef := by
  have h16 : 16 ≤ s.act.near + 1 := by omega
  simp only [State.measured, hr, ht, h16, if_true]

/-- The sixteenth Sync in a row beyond 1 µs unlocks it (08 R206). -/
theorem State.measured_unlocks {s : State} {θ : Int} (hr : s.act.ref = .locked) (ht : 1000 < θ.natAbs) (hf : 15 ≤ s.act.far) :
    s.measured θ = ({ s with act := { s.act with
      theta := θ, near := 0, far := s.act.far + 1, syncAt := s.clk.now, ref := .acquire } } : State).record 0x0409 (srcOf 4 32) [] := by
  have h16 : 16 ≤ s.act.far + 1 := by omega
  have hb : ¬ θ.natAbs ≤ 1000 := by omega
  simp only [State.measured, hr, hb, h16, if_true, if_false]

/-- Without a Sync for 3 s the master that fell silent is forgotten and the reference lost (08 R206). -/
theorem exec_ptpSyncTimeout {s k : State} {m : Nat × Announce} (hr : s.act.ref = .acquire ∨ s.act.ref = .locked)
    (hm : s.act.master = some m) (hk : k = s.reach (s.act.syncAt + 3000000000)) :
    exec .ptpSyncTimeout s = .next ({ k with act := { k.act with
      masters := k.act.masters.filter fun x => !(x.1 = m.1 && x.2.source = m.2.source) } } : State).loseRef := by
  subst hk
  show execPtpSyncTimeout s = _
  rw [execPtpSyncTimeout, if_pos (by simpa using hr)]
  simp [hm]

/-! ## The commands -/

/-- Settles O24: pushes by the effect of the write that both copies emit, what they leave by `push_net` and `push_refused`; the local queue and
the reference by the equations of their commands. -/
theorem actuationAndReferenceComplete : Obligations.ActuationAndReferenceComplete := by
  unfold Obligations.ActuationAndReferenceComplete
  refine ⟨?push, ?pushNet, ?pushRefused, ?pushSplit, ?cancel, ?cancelNet, ?instant, ?localChannel, ?announce, ?first, ?sync, ?locks, ?unlocks,
    ?silent⟩
  case push =>
    rintro l time s _ rfl hc
    exact exec_netActPushT hc
  case pushNet =>
    rintro l time s _ e t rfl hc he hcan hp hk rfl
    obtain ⟨hpool, hres, hloc, hlog, hmem⟩ := carried_push_net hc rfl he hk hp rfl
    rw [hcan, if_neg Bool.false_ne_true] at hpool
    exact ⟨exec_netActPushT hc, hpool, hres, hloc, hlog hcan, hmem⟩
  case pushRefused =>
    rintro l time s _ e k t rfl hc rfl hk h0 ht
    obtain ⟨hact, hmem, htask⟩ := carried_push_refused hc rfl hk h0 ht
    refine ⟨ht ▸ exec_netActPushT hc, by rw [hact], by simp [hact], by rw [hact], hmem, ?_⟩
    rintro x rfl hx
    exact htask hx
  case pushSplit =>
    rintro l time s cp _ hs hcp hg rfl
    exact congrArg Host.Outcome.next (State.laneWrites_split hs hcp hg)
  case cancel =>
    rintro l time s _ v _ rfl hv hA rfl hT
    exact exec_actCancel hv hA hT
  case cancelNet =>
    rintro l time s _ v k e t rfl hv hA hset hT he hp hk ht
    replace hset : k = carried s l (actWindow l.val) v (State.setPushA l v) := hset
    have hact : k.act = { s.act with pushA := s.act.pushA.setIfInBounds l.val v } := by
      rw [hset, carried_setPushA hA]
    have hcan : e.cancel = true := by simp [he, pushEntry, hv]
    obtain ⟨hpool, hres, hloc, -, -⟩ := carried_push_net hT (by simp [hact]) he hk hp ht
    rw [hcan, if_pos rfl, hact] at hpool
    subst hset
    exact ⟨ht ▸ exec_actCancel hv hA hT, hres, hpool, by rw [hloc, hact]⟩
  case instant =>
    rintro ch e s k hn hk
    exact exec_localActInstant hn hk
  case localChannel =>
    intro ch e s hn hc
    obtain ⟨hcmd, hheld, hseq⟩ := State.lch_applyLocal hc
    refine ⟨_, exec_localActInstant hn rfl, hcmd, hheld, hseq, ?_, ?_, ?_⟩
    · rintro x hx ⟨hpoint, htime⟩
      simp [hpoint, htime] at hx
    · simp
    · simp
  case announce =>
    intro p m s hp hd ht
    exact exec_ptpAnnounceRx hp hd ht
  case first =>
    intro p m s hp ha hh hr hm
    obtain ⟨hd, ht⟩ : m.domain = s.timeSrc.domain ∧ m.transport = s.timeSrc.transport := domain_transport_of_acceptable ha
    have hheard : heardMasters s p m = [(p.val, m)] := by simp [heardMasters, hh]
    rw [answers, exec_ptpAnnounceRx hp hd ht, hheard, State.selectMaster_first ha hr hm]
  case sync =>
    intro p m s h
    exact exec_ptpSyncRx h
  case locks =>
    intro p m s h hr ht hn
    rw [answers, exec_ptpSyncRx h, State.measured_locks hr ht hn]
  case unlocks =>
    intro p m s h hr ht hf
    rw [answers, exec_ptpSyncRx h, State.measured_unlocks hr ht hf]
  case silent =>
    intro s m k hr hm hk _
    exact exec_ptpSyncTimeout hr hm hk

end Sys2Proof.Machine
end

section
/-! Residue-coded words (09 R222, R224): what the fields of a word hold, and why one flipped bit shows. -/

namespace Sys2Proof.Machine
open Sys2Proof

/-! ## The fields of a word -/

/-- The number of a word made of a value. -/
theorem toNat_mkWord (v : Int) : (mkWord v).toNat = (v % 2 ^ 58).toNat + (v % 61).toNat * 2 ^ 58 := by
  rw [mkWord, BitVec.toNat_ofNat]
  omega

/-- The residue of a word is what stands above. -/
theorem wres_eq_div (w : Word) : wres w = w.toNat / 2 ^ 58 := by
  rw [wres, BitVec.toNat_ushiftRight, Nat.shiftRight_eq_div_pow]

theorem wval_mkWord {v : Int} (h : inRange v = true) : wval (mkWord v) = v := by
  obtain ⟨hlo, hhi⟩ : -(2 ^ 57) ≤ v ∧ v < 2 ^ 57 := by simpa [inRange] using h
  have hbits : (mkWord v).setWidth 58 = BitVec.ofInt 58 v := by
    apply BitVec.eq_of_toNat_eq
    rw [BitVec.toNat_setWidth, toNat_mkWord, Nat.add_mul_mod_self_right, BitVec.toNat_ofInt, Nat.cast_pow, Nat.cast_ofNat]
    exact Nat.mod_eq_of_lt (by omega)
  rw [wval, hbits, BitVec.toInt_ofInt, Int.bmod_eq_of_le]
  · norm_num at hlo ⊢
    exact hlo
  · norm_num at hhi ⊢
    exact hhi

theorem wres_mkWord (v : Int) : (wres (mkWord v) : Int) = v % 61 := by
  rw [wres_eq_div, toNat_mkWord]
  omega

theorem wordOk_iff {w : Word} : wordOk w = true ↔ (wres w : Int) = wval w % 61 := by
  simp [wordOk]

theorem wordOk_mkWord {v : Int} (h : inRange v = true) : wordOk (mkWord v) = true := by
  rw [wordOk_iff, wres_mkWord, wval_mkWord h]

/-- A word's 58 bits bound its value (09 R222). -/
theorem wval_bounds (w : Word) : -(2 ^ 57) ≤ wval w ∧ wval w < 2 ^ 57 :=
  ⟨BitVec.le_toInt _, BitVec.toInt_lt⟩

/-- A residue is below the modulus, so a word with 61 to 63 in its place fails the check (09 R224). -/
theorem wres_le_of_wordOk {w : Word} (h : wordOk w = true) : wres w ≤ 60 := by
  have hres := wordOk_iff.mp h
  omega

/-! ## One flipped bit, 09 R224 -/

/-- To flip a bit that is clear adds its weight. -/
theorem toNat_xor_twoPow {n k : Nat} {x : BitVec n} (hk : k < n) (hx : x.getLsbD k = false) :
    (x ^^^ BitVec.twoPow n k).toNat = x.toNat + 2 ^ k := by
  have hand : x &&& BitVec.twoPow n k = 0#n := by simp [BitVec.and_twoPow, hx]
  have hxor : x ^^^ BitVec.twoPow n k = x + BitVec.twoPow n k := by
    rw [BitVec.add_eq_or_of_and_eq_zero _ _ hand]
    refine BitVec.eq_of_getLsbD_eq fun i hi => ?_
    by_cases hik : k = i
    · simp [← hik, hx]
    · simp [BitVec.getLsbD_twoPow, hik]
  rw [hxor, BitVec.toNat_add_of_and_eq_zero hand, BitVec.toNat_twoPow_of_lt hk]

/-- 2 has order 60 modulo 61: the weight of no value bit is a multiple of 61, nor does it become one where the flip turns the sign. -/
theorem two_pow_mod_61 : ∀ k < 58, 2 ^ k % 61 ≠ 0 ∧ 2 ^ k % 61 ≠ 2 ^ 58 % 61 := by decide

/-- A value of which one clear bit is flipped has another residue. -/
theorem toInt_emod_xor_of_clear {k : Nat} {x : BitVec 58} (hk : k < 58) (hx : x.getLsbD k = false) :
    (x ^^^ BitVec.twoPow 58 k).toInt % 61 ≠ x.toInt % 61 := by
  have hadd := toNat_xor_twoPow hk hx
  obtain ⟨hzero, hsign⟩ := two_pow_mod_61 k hk
  generalize x ^^^ BitVec.twoPow 58 k = y at hadd ⊢
  generalize 2 ^ k = p at hadd hzero hsign
  rw [BitVec.toInt_eq_toNat_cond, BitVec.toInt_eq_toNat_cond]
  omega

/-- A value of which one bit is flipped has another residue. -/
theorem toInt_emod_xor {k : Nat} (x : BitVec 58) (hk : k < 58) : (x ^^^ BitVec.twoPow 58 k).toInt % 61 ≠ x.toInt % 61 := by
  by_cases hx : x.getLsbD k = false
  · exact toInt_emod_xor_of_clear hk hx
  · have hclear : (x ^^^ BitVec.twoPow 58 k).getLsbD k = false := by simpa [hk] using hx
    have hback := toInt_emod_xor_of_clear hk hclear
    rw [BitVec.xor_assoc, BitVec.xor_self, BitVec.xor_zero] at hback
    exact hback.symm

/-- A flipped value bit leaves the residue field, and the value has another residue. -/
theorem wordOk_flip_value {w : Word} {k : Nat} (hk : k < 58) (h : wordOk w = true) : wordOk (w ^^^ BitVec.twoPow 64 k) = false := by
  have hres : wres (w ^^^ BitVec.twoPow 64 k) = wres w := by
    have hout : BitVec.twoPow 64 k >>> 58 = 0#64 := by
      refine BitVec.eq_of_getLsbD_eq fun i _ => ?_
      simp [show ¬ k = 58 + i by omega]
    rw [wres, wres, BitVec.ushiftRight_xor_distrib, hout, BitVec.xor_zero]
  have hval : wval (w ^^^ BitVec.twoPow 64 k) % 61 ≠ wval w % 61 := by
    have hin : (BitVec.twoPow 64 k).setWidth 58 = BitVec.twoPow 58 k := by
      refine BitVec.eq_of_getLsbD_eq fun i hi => ?_
      simp [show k < 64 by omega, hi, eq_comm]
    rw [wval, wval, BitVec.setWidth_xor, hin]
    exact toInt_emod_xor _ hk
  rw [← Bool.not_eq_true, wordOk_iff, hres, wordOk_iff.mp h]
  exact hval.symm

/-- A flipped bit of the residue field leaves the value, and the residue field is another. -/
theorem wordOk_flip_residue {w : Word} {k : Nat} (hk : 58 ≤ k) (h64 : k < 64) (h : wordOk w = true) :
    wordOk (w ^^^ BitVec.twoPow 64 k) = false := by
  have hval : wval (w ^^^ BitVec.twoPow 64 k) = wval w := by
    have hout : (BitVec.twoPow 64 k).setWidth 58 = 0#58 := by
      refine BitVec.eq_of_getLsbD_eq fun i hi => ?_
      simp [show ¬ k = i by omega]
    rw [wval, wval, BitVec.setWidth_xor, hout, BitVec.xor_zero]
  rw [← Bool.not_eq_true, wordOk_iff, hval, ← wordOk_iff.mp h, Nat.cast_inj, wres, wres, BitVec.ushiftRight_xor_distrib]
  intro heq
  have hbit := congrArg (BitVec.getLsbD · (k - 58)) (BitVec.eq_of_toNat_eq heq)
  simp [show 58 + (k - 58) = k by omega, h64] at hbit

/-- Settles O50: value and residue by the fields of `mkWord`; of one flipped bit the field in which it lies decides. -/
theorem wordsHoldTheirResidue : Obligations.WordsHoldTheirResidue := by
  unfold Obligations.WordsHoldTheirResidue
  refine ⟨fun v hv => ⟨wval_mkWord hv, wres_mkWord v, wordOk_mkWord hv⟩, wval_bounds, fun w hw => wres_le_of_wordOk hw, ?_⟩
  intro w k hw
  have hflip : ((1 <<< k.val : Nat) : Word) = BitVec.twoPow 64 k.val := by
    apply BitVec.eq_of_toNat_eq
    rw [BitVec.toNat_twoPow, Nat.shiftLeft_eq, one_mul]
    rfl
  rw [hflip]
  rcases Nat.lt_or_ge k.val 58 with hk | hk
  · exact wordOk_flip_value hk hw
  · exact wordOk_flip_residue hk k.isLt hw

end Sys2Proof.Machine
end

section
/-! Tracking commands (09 R234 to R237): the window that a write of TRK_CMD_GO reaches, the effect of each command past its checks, and what the
command leaves. -/

namespace Sys2Proof.Machine
open Sys2Proof

/-! ## The command window -/

/-- TRK_CMD_GO of a lane lies in slot 20. -/
theorem slotOf_goAddr (l : Fin 8) : slotOf (goAddr l) = some 20 := by
  have hl : l.val < 8 := l.isLt
  have ha : goAddr l = 0x10148000 + 0x100 * l.val + 0x30 := rfl
  simp only [slotOf, Bool.and_eq_true, decide_eq_true_eq]
  rw [if_pos (by omega), Option.some_inj]
  omega

/-- A write to TRK_CMD_GO of a lane gives the command whose code it writes, with no reserved bit set. -/
theorem State.regWrite_goAddr (s : State) (l : Fin 8) (c : Side) {op : Nat} (k : State → Held → State) (hop : op < 16) :
    s.regWrite 20 c (goAddr l % 0x10000) (BitVec.ofNat 64 op) k = s.trkGo l.val op false := by
  have hl : l.val < 8 := l.isLt
  have ha : goAddr l = 0x10148000 + 0x100 * l.val + 0x30 := rfl
  have hm : goAddr l % 0x10000 = 0x8000 + 0x100 * l.val + 0x30 := by omega
  have hq : (0x8000 + 0x100 * l.val + 0x30 - 0x8000) / 0x100 = l.val := by omega
  have hr : (0x8000 + 0x100 * l.val + 0x30 - 0x8000) % 0x100 = 0x30 := by omega
  have hin : (decide (0x8000 ≤ 0x8000 + 0x100 * l.val + 0x30) && decide (0x8000 + 0x100 * l.val + 0x30 < 0x8800)) = true :=
    Bool.and_eq_true_iff.mpr ⟨decide_eq_true (by omega), decide_eq_true (by omega)⟩
  have hcode : (BitVec.ofNat 64 op).toNat % 16 = op := by
    rw [BitVec.toNat_ofNat]
    omega
  have hrsvd : BitVec.ofNat 64 op >>> 4 = 0 := by
    apply BitVec.eq_of_toNat_eq
    rw [BitVec.toNat_ushiftRight, BitVec.toNat_ofNat, Nat.shiftRight_eq_div_pow]
    exact Nat.div_eq_of_lt (by omega)
  show s.write20 _ _ = _
  rw [hm, State.write20, if_pos hin, hq, hr]
  show s.trkGo l.val ((BitVec.ofNat 64 op).toNat % 16) (decide (BitVec.ofNat 64 op >>> 4 ≠ 0)) = _
  rw [hcode, hrsvd]
  rfl

/-- A command that both copies give is taken once (03 R59). -/
theorem State.trkCmd_carried {s : State} {l : Fin 8} {op : Nat} (hop : op < 16)
    (hc : Sys2Proof.carries s l (goAddr l) (BitVec.ofNat 64 op) = true) :
    s.trkCmd l op = carried s l (goAddr l) (BitVec.ofNat 64 op) fun x => x.trkGo l.val op false := by
  have hw : s.trkCmd l op = s.laneWrites l (goAddr l) (BitVec.ofNat 64 op) := rfl
  rw [hw, State.laneWrites_carried hc (by simp only [goAddr, trkWindow]; omega) (slotOf_goAddr l) (by decide) (by decide)]
  simp only [State.regWrite_goAddr _ _ _ _ hop]

/-- Of the effect of a write only its value at the pair matters. -/
theorem carried_congr {s u : State} {l : Fin 8} {a : Nat} {v : Word} {f : State → State} (h : f (paired s l a v) = u) :
    carried s l a v f = carried s l a v fun _ => u :=
  h ▸ rfl

/-! ## Verdict and effect, 09 R235, R236 -/

/-- A command past its checks has its effect and leaves its result. -/
theorem State.trkGo_effect {s u : State} {l : Fin 8} {op code obj : Nat} (h : s.cmdCode op false (trkWin s l) = 0)
    (he : s.cmdEffect op (trkWin s l) = (code, obj, u)) : s.trkGo l.val op false = leaves u l (trkWin s l) code obj := by
  rw [trkWin] at h he ⊢
  simp only [State.trkGo, h, he, if_true, leaves]

/-- A command that fails a check leaves its code and does nothing else. -/
theorem State.trkGo_refused {s : State} {l : Fin 8} {op : Nat} (h : s.cmdCode op false (trkWin s l) ≠ 0) :
    s.trkGo l.val op false = leaves s l (trkWin s l) (s.cmdCode op false (trkWin s l)) (objNo (trkWin s l)) := by
  rw [trkWin] at h ⊢
  simp only [State.trkGo, h, if_false, leaves, objNo]

/-- CREATE takes the first free record and places the object that it makes. -/
theorem State.cmdEffect_create {s : State} {w : CmdWin} {g : Seg} {p : State ⊕ Nat} (hg : s.trk.enabled (segNo w) = some g)
    (hp : s.place (madeObj s w) g w.position = p) :
    s.cmdEffect 1 w = p.elim (fun v => (0, freeFrom 0 s.trk.objs, v)) fun c => (7, objNo w, s.trkFault (segNo w) c) := by
  simp only [madeObj, segNo] at hg hp
  simp only [State.cmdEffect, hg, hp]
  cases p <;> rfl

/-- MOVE takes the object from its segment, counts the hop and places it anew. -/
theorem State.cmdEffect_move {s : State} {w : CmdWin} {o : Obj} {g : Seg} {p : State ⊕ Nat} (ho : s.trk.obj (objNo w) = some o)
    (hg : (s.unlinkObj (objNo w)).trk.enabled (segNo w) = some g)
    (hp : (s.unlinkObj (objNo w)).place { o with hops := satAdd 16 o.hops 1 } g w.position = p) :
    s.cmdEffect 4 w = p.elim (fun v => (0, objNo w, v)) fun c => (7, objNo w, s.trkFault (segNo w) c) := by
  simp only [objNo, segNo] at ho hg hp
  simp only [State.cmdEffect, ho, hg, hp]
  cases p <;> rfl

/-! ## What a command leaves -/

/-- A command from a compared lane that passes its checks (09 R236). -/
theorem State.trkCmd_effect {s u : State} {l : Fin 8} {op code obj : Nat} (hop : op < 16)
    (hc : Sys2Proof.carries s l (goAddr l) (BitVec.ofNat 64 op) = true)
    (h : (paired s l (goAddr l) (BitVec.ofNat 64 op)).cmdCode op false (trkWin s l) = 0)
    (he : (paired s l (goAddr l) (BitVec.ofNat 64 op)).cmdEffect op (trkWin s l) = (code, obj, u)) :
    s.trkCmd l op = carried s l (goAddr l) (BitVec.ofNat 64 op) fun _ => leaves u l (trkWin s l) code obj :=
  (State.trkCmd_carried hop hc).trans (carried_congr (State.trkGo_effect h he))

/-- A command from a compared lane that fails a check (09 R235). -/
theorem State.trkCmd_refused {s u : State} {l : Fin 8} {op : Nat} (hop : op < 16)
    (hc : Sys2Proof.carries s l (goAddr l) (BitVec.ofNat 64 op) = true) (hu : u = paired s l (goAddr l) (BitVec.ofNat 64 op))
    (h : u.cmdCode op false (trkWin s l) ≠ 0) : s.trkCmd l op = carried s l (goAddr l) (BitVec.ofNat 64 op) fun _ =>
      leaves u l (trkWin s l) (u.cmdCode op false (trkWin s l)) (objNo (trkWin s l)) := by
  subst hu
  exact (State.trkCmd_carried hop hc).trans (carried_congr (State.trkGo_refused h))

/-- The tracking engine is afterwards as the register's effect leaves it. -/
theorem carried_trk {s : State} {l : Fin 8} {a : Nat} {v : Word} {f : State → State} (hi : (f (paired s l a v)).lanes.inject = none) :
    (carried s l a v f).trk = (f (paired s l a v)).trk := by
  rw [carried_eq hi]
  simp [State.answer]

/-- A command that fails a check leaves its code; objects, segments, memory, actuation and the verdict over its residues are as before. -/
theorem State.trkCmd_refused_frame {s : State} {l : Fin 8} {op : Nat} (hop : op < 16)
    (hc : Sys2Proof.carries s l (goAddr l) (BitVec.ofNat 64 op) = true)
    (h : (paired s l (goAddr l) (BitVec.ofNat 64 op)).cmdCode op false (trkWin s l) ≠ 0) :
    (trkWin (s.trkCmd l op) l).code = (paired s l (goAddr l) (BitVec.ofNat 64 op)).cmdCode op false (trkWin s l) ∧
    (s.trkCmd l op).trk.objs = s.trk.objs ∧ (s.trkCmd l op).trk.segs = s.trk.segs ∧ (s.trkCmd l op).mem = s.mem ∧
    (s.trkCmd l op).act = s.act ∧ (s.trkCmd l op).trk.cmdFlt = s.trk.cmdFlt := by
  have hi : (paired s l (goAddr l) (BitVec.ofNat 64 op)).lanes.inject = none := (paired_inject ..).trans (inject_of_carries hc)
  rw [State.trkCmd_refused hop hc rfl h]
  generalize State.cmdCode _ op false (trkWin s l) = code
  obtain ⟨hact, hmem, -⟩ := carried_frame (s := s) (l := l) (a := goAddr l) (v := BitVec.ofNat 64 op)
    (f := fun _ => leaves (paired s l (goAddr l) (BitVec.ofNat 64 op)) l (trkWin s l) code (objNo (trkWin s l))) hi
  rw [trkWin, hact, hmem, carried_trk hi]
  refine ⟨?_, rfl, rfl, rfl, rfl, rfl⟩
  simp [leaves, State.onTrk]

/-- Where no residue check fails in a command, the verdict stands as it is. -/
theorem residue_false {s : State} (h : s.trk.cmdFlt = false) : residue s false = s := by
  simp [residue, State.onTrk, ← h]

/-- CREATE gives its command under the verdict over its residues, which ends with it (09 R235). -/
theorem exec_create (l : Fin 8) (r : Bool) (s : State) : exec (.create l r) s = .next (residue ((residue s r).trkCmd l 1) false) := rfl

/-- So does MOVE. -/
theorem exec_move (l : Fin 8) (r : Bool) (s : State) : exec (.move l r) s = .next (residue ((residue s r).trkCmd l 4) false) := rfl

/-- Each of the five commands that fails a check, and in which no residue check fails, is its write of TRK_CMD_GO and nothing else. -/
theorem answers_trkCmd_refused {s : State} {l : Fin 8} {op : Nat} {i : Instr} (hop : (op, i) ∈ trkOps l)
    (hs : s.trk.cmdFlt = false) (ht : (s.trkCmd l op).trk.cmdFlt = false) : answers i s (s.trkCmd l op) := by
  simp only [trkOps, List.mem_cons, Prod.mk.injEq, List.not_mem_nil, or_false] at hop
  obtain ⟨rfl, rfl⟩ | ⟨rfl, rfl⟩ | ⟨rfl, rfl⟩ | ⟨rfl, rfl⟩ | ⟨rfl, rfl⟩ := hop
  · rw [answers, exec_create, residue_false hs, residue_false ht]
  · rfl
  · rfl
  · rw [answers, exec_move, residue_false hs, residue_false ht]
  · rfl

/-- The operation codes are four bits wide (09 R234). -/
theorem op_lt_of_mem_trkOps {l : Fin 8} {op : Nat} {i : Instr} (h : (op, i) ∈ trkOps l) : op < 16 := by
  simp only [trkOps, List.mem_cons, Prod.mk.injEq, List.not_mem_nil, or_false] at h
  omega

/-- Settles O27: each command is the write of TRK_CMD_GO that both copies give; past its checks `cmdEffect` says what it leaves, before them its
code is all that changes. -/
theorem trackingCommandsComplete : Obligations.TrackingCommandsComplete := by
  unfold Obligations.TrackingCommandsComplete
  refine ⟨?create, ?createFault, ?delete, ?setTag, ?move, ?moveFault, ?unfreeze, ?refused⟩
  case create =>
    rintro l r s _ _ _ g v rfl hc rfl rfl h hg hp
    rw [answers, exec_create, State.trkCmd_effect (by decide) hc h (State.cmdEffect_create hg hp)]
    rfl
  case createFault =>
    rintro l r s _ _ _ g c rfl hc rfl rfl h hg hp
    rw [answers, exec_create, State.trkCmd_effect (by decide) hc h (State.cmdEffect_create hg hp)]
    rfl
  case delete =>
    rintro l s _ _ hc rfl rfl h
    exact congrArg Host.Outcome.next (State.trkCmd_effect (by decide) hc h rfl)
  case setTag =>
    rintro l s _ _ hc rfl rfl h
    exact congrArg Host.Outcome.next (State.trkCmd_effect (by decide) hc h rfl)
  case move =>
    rintro l r s _ _ _ o g v rfl hc rfl rfl h ho hg hp
    rw [answers, exec_move, State.trkCmd_effect (by decide) hc h (State.cmdEffect_move ho hg hp)]
    rfl
  case moveFault =>
    rintro l r s _ _ _ o g c rfl hc rfl rfl h ho hg hp
    rw [answers, exec_move, State.trkCmd_effect (by decide) hc h (State.cmdEffect_move ho hg hp)]
    rfl
  case unfreeze =>
    rintro l s _ _ hc rfl rfl h
    exact congrArg Host.Outcome.next (State.trkCmd_effect (by decide) hc h rfl)
  case refused =>
    rintro l s _ op i rfl hop hs hc h
    obtain ⟨hcode, hobjs, hsegs, hmem, hact, hflt⟩ := State.trkCmd_refused_frame (op_lt_of_mem_trkOps hop) hc h
    exact ⟨_, answers_trkCmd_refused hop hs (hflt.trans hs), hcode, hobjs, hsegs, hmem, hact⟩

end Sys2Proof.Machine
end

section
/-! Local input and output (10 R261 to R274): a channel and a group after an update and behind the switch condition, what clearing a trip does,
the commands of the channels, and the supply of a group. -/

namespace Sys2Proof.Machine
open Sys2Proof

/-! ## A channel and its group after an update -/

/-- Updating a channel leaves the others as they were. -/
theorem State.lch_onLch_ne (s : State) {c : Nat} (f : LioCh → LioCh) {ch : Fin 16} (h : c ≠ ch.val) :
    (s.onLch c f).lch ch.val = s.lch ch.val := by
  simp [State.lch, State.onLch, h]

/-- Two updates of a channel are one. -/
theorem State.onLch_onLch (s : State) (ch : Fin 16) (f k : LioCh → LioCh) :
    (s.onLch ch.val f).onLch ch.val k = s.onLch ch.val fun c => k (f c) := by
  rw [State.onLch, State.lch_onLch]
  simp [State.onLch]

/-- Updating a channel leaves the supplies as they were. -/
@[simp] theorem State.grp_onLch (s : State) (c : Nat) (f : LioCh → LioCh) (g : Side) : (s.onLch c f).lio.grp g = s.lio.grp g := by
  cases g <;> rfl

/-- So do the switches that follow them. -/
@[simp] theorem State.grp_switches (s : State) (g : Side) : s.switches.lio.grp g = s.lio.grp g := by
  cases g <;> rfl

/-- An updated group reads as the update of what it was. -/
@[simp] theorem State.grp_onGrp (s : State) (g : Side) (f : LioGrp → LioGrp) : (s.onGrp g f).lio.grp g = f (s.lio.grp g) := by
  cases g <;> rfl

/-- The switch condition: a commanded output of the holder, under a supply that lets it work, without a trip (10 R267). -/
theorem State.sw_switches (s : State) (ch : Fin 16) : (s.switches.lch ch.val).sw =
    (decide ((s.lch ch.val).cfg.mode = 2) && (s.lch ch.val).cmd && s.holder && upSupply (s.supplyOf ch.val) && (s.lch ch.val).trip.isNone) := by
  simp [State.lch, State.switches]
  rfl

/-- The supplies that let no output work are LOW and RECOVERING. -/
theorem upSupply_eq_false {u : Supply} : upSupply u = false ↔ u = .low ∨ u = .recovering := by
  cases u <;> decide

/-- A supply that lets outputs work is neither of the two. -/
theorem not_down_of_upSupply {u : Supply} (h : upSupply u = true) : u ≠ .low ∧ u ≠ .recovering :=
  not_or.mp (mt upSupply_eq_false.mpr (Bool.not_eq_false _ ▸ h))

/-! ## The channels of a group, 10 R255 -/

/-- Channel i of a group. -/
def grpCh (g : Side) (i : Fin 8) : Fin 16 := ⟨8 * g.num + i.val, by cases g <;> simp only [Side.num] <;> omega⟩

/-- Its group is the one that it was counted in. -/
theorem chGroup_of_lt (g : Side) {c : Nat} (hc : c < 8) : chGroup (8 * g.num + c) = g := by
  cases g
  · exact if_pos (by simp only [Side.num]; omega)
  · exact if_neg (by simp only [Side.num]; omega)

/-- Every channel of a group has the group's supply. -/
theorem State.supplyOf_grp (s : State) (g : Side) {c : Nat} (hc : c < 8) : s.supplyOf (8 * g.num + c) = (s.lio.grp g).st := by
  rw [State.supplyOf, chGroup_of_lt g hc]

/-! ## Clearing a trip, 10 R270, R273 -/

/-- Without a trip there is nothing to clear. -/
theorem State.clearTrip_none {s : State} {c : Nat} (h : (s.lch c).trip = none) : s.clearTrip c = s := by
  simp [State.clearTrip, h]

/-- Under a supply that lets outputs work the trip is gone. -/
theorem State.clearTrip_up {s : State} {c : Nat} (h : (s.lch c).trip.isSome = true) (hu : upSupply (s.supplyOf c) = true) :
    s.clearTrip c = untripped s c := by
  obtain ⟨hlow, hrec⟩ := not_down_of_upSupply hu
  rw [Option.isSome_iff_ne_none] at h
  simp [State.clearTrip, untripped, h, hlow, hrec]

/-- Under any other the clear is held. -/
theorem State.clearTrip_down {s : State} {c : Nat} (h : (s.lch c).trip.isSome = true) (hu : upSupply (s.supplyOf c) = false) :
    s.clearTrip c = s.onLch c fun x => { x with clrHeld := true } := by
  rw [Option.isSome_iff_ne_none] at h
  simp [State.clearTrip, h, upSupply_eq_false.mp hu]

/-- All that clearing a trip can do. -/
theorem State.clearTrip_cases (s : State) (c : Nat) :
    s.clearTrip c = s ∨ s.clearTrip c = untripped s c ∨ s.clearTrip c = s.onLch c fun x => { x with clrHeld := true } := by
  cases ht : (s.lch c).trip with
  | none => exact .inl (State.clearTrip_none ht)
  | some u =>
    have hs : (s.lch c).trip.isSome = true := by rw [ht]; rfl
    cases hu : upSupply (s.supplyOf c) with
    | true => exact .inr (.inl (State.clearTrip_up hs hu))
    | false => exact .inr (.inr (State.clearTrip_down hs hu))

/-- The switches leave the trips as they were. -/
theorem State.trip_switches (s : State) (ch : Fin 16) : (s.switches.lch ch.val).trip = (s.lch ch.val).trip := by
  obtain ⟨on, hon⟩ := State.lch_switches s ch
  rw [hon]

/-- Clearing a trip leaves the supplies as they were. -/
@[simp] theorem State.grp_clearTrip (s : State) (c : Nat) (g : Side) : (s.clearTrip c).lio.grp g = s.lio.grp g := by
  obtain h | h | h := State.clearTrip_cases s c <;> simp [h, untripped]

/-- A channel whose trip is gone has none. -/
theorem trip_untripped (s : State) (ch : Fin 16) : ((untripped s ch.val).lch ch.val).trip = none := by
  rw [untripped, State.trip_switches, State.lch_onLch, State.lch_onLch]

/-- Clearing the trip of another channel leaves this one's. -/
theorem State.trip_clearTrip_ne (s : State) {c : Nat} {ch : Fin 16} (h : c ≠ ch.val) :
    ((s.clearTrip c).lch ch.val).trip = (s.lch ch.val).trip := by
  obtain hc | hc | hc := State.clearTrip_cases s c
  · rw [hc]
  · rw [hc, untripped, State.trip_switches, State.lch_onLch_ne _ _ h, State.lch_onLch_ne _ _ h]
  · rw [hc, State.lch_onLch_ne _ _ h]

/-- After clearing, a channel under a supply that lets it work has no trip. -/
theorem State.trip_clearTrip {s : State} {ch : Fin 16} (hu : upSupply (s.supplyOf ch.val) = true) :
    ((s.clearTrip ch.val).lch ch.val).trip = none := by
  cases ht : (s.lch ch.val).trip with
  | none => rw [State.clearTrip_none ht, ht]
  | some u => rw [State.clearTrip_up (by rw [ht]; rfl) hu, trip_untripped]

/-- Clearing makes no trip. -/
theorem State.trip_clearTrip_none {s : State} {ch : Fin 16} (c : Nat) (h : (s.lch ch.val).trip = none) :
    ((s.clearTrip c).lch ch.val).trip = none := by
  by_cases hc : c = ch.val
  · rw [hc, State.clearTrip_none h, h]
  · rw [State.trip_clearTrip_ne s hc, h]

/-! ## LIO_TRIP_CLR, 10 R270, R275 -/

/-- One bit of LIO_TRIP_CLR. -/
def clrBit (g : Side) (v : Word) (s : State) (c : Nat) : State := if v.getLsbD c then s.clearTrip (8 * g.num + c) else s

/-- LIO_TRIP_CLR takes its eight bits in turn. -/
theorem State.tripMask_eq (s : State) (g : Side) (v : Word) : s.tripMask g v = (List.range 8).foldl (clrBit g v) s := rfl

/-- A bit leaves the recorder and the supplies as they were, and makes no trip. -/
theorem clrBit_frame (g : Side) (v : Word) (s : State) (c : Nat) : (clrBit g v s c).recd = s.recd ∧
    (∀ k, (clrBit g v s c).lio.grp k = s.lio.grp k) ∧
    ∀ ch : Fin 16, (s.lch ch.val).trip = none → ((clrBit g v s c).lch ch.val).trip = none := by
  unfold clrBit
  split
  · exact ⟨by simp, fun k => State.grp_clearTrip s _ k, fun ch h => State.trip_clearTrip_none _ h⟩
  · exact ⟨rfl, fun _ => rfl, fun _ h => h⟩

/-- The bits of a mask clear the trips that they select, in whichever order, once the group's supply lets its outputs work. -/
theorem trip_foldl_clrBit {g : Side} {v : Word} {i : Fin 8} (hv : v.getLsbD i.val = true) {l : List Nat} {s : State}
    (hu : upSupply (s.lio.grp g).st = true) (h : i.val ∈ l ∨ (s.lch (grpCh g i).val).trip = none) :
    ((l.foldl (clrBit g v) s).lch (grpCh g i).val).trip = none := by
  induction l generalizing s with
  | nil => simpa using h
  | cons c l ih =>
    obtain ⟨-, hgrp, hkeep⟩ := clrBit_frame g v s c
    rw [List.foldl_cons]
    refine ih (by rwa [hgrp]) ?_
    by_cases hc : c = i.val
    · have hb : clrBit g v s c = s.clearTrip (grpCh g i).val := by rw [hc, clrBit, if_pos hv]; rfl
      exact .inr (hb ▸ State.trip_clearTrip ((s.supplyOf_grp g i.isLt).symm ▸ hu))
    · exact h.imp (fun hm => (List.mem_cons.mp hm).resolve_left (Ne.symm hc)) (hkeep _)

/-- LIO_TRIP_CLR under a supply that lets outputs work: the selected trips are gone; it writes no memory and no record. -/
theorem State.tripMask_clears {s : State} {g : Side} (v : Word) (hu : upSupply (s.lio.grp g).st = true) :
    (s.tripMask g v).recd = s.recd ∧ ∀ i : Fin 8, v.getLsbD i.val = true → ((s.tripMask g v).lch (8 * g.num + i.val)).trip = none := by
  rw [State.tripMask_eq]
  exact ⟨foldl_kept State.recd _ (fun s c => (clrBit_frame g v s c).1) _ s,
    fun i hv => trip_foldl_clrBit hv hu (.inl (List.mem_range.mpr i.isLt))⟩

/-! ## Trips, 10 R270, R274 -/

/-- A trip of a closed switch under a supply that lets it work. -/
theorem State.tripCh_up {s : State} {c : Nat} (code : Nat) (hm : (s.lch c).cfg.mode = 2) (hs : (s.lch c).sw = true)
    (ht : (s.lch c).trip = none) (hu : upSupply (s.supplyOf c) = true) :
    s.tripCh c code = (tripped s c code).switches.chFault c code (freshTrip s c) := by
  obtain ⟨hlow, hrec⟩ := not_down_of_upSupply hu
  cases hl : (s.lch c).lastTrip <;> simp [State.tripCh, tripped, freshTrip, hm, hs, ht, hlow, hrec, hl]

/-! ## The supply of a group, 10 R273 -/

/-- While a group is LOW all its output switches are open. -/
theorem State.sw_switches_low {s : State} {g : Side} (h : (s.lio.grp g).st = .low) (i : Fin 8) :
    (s.switches.lch (8 * g.num + i.val)).sw = false := by
  have hs : upSupply (s.supplyOf (grpCh g i).val) = false := by
    rw [show s.supplyOf (grpCh g i).val = .low from (s.supplyOf_grp g i.isLt).trans h]
    rfl
  exact (s.sw_switches (grpCh g i)).trans (by rw [hs, Bool.and_false, Bool.false_and])

/-- SUPPLY_LOW from VALID or SAG: LOW, to be released as a fault, with its record, and the switches follow. -/
theorem exec_supplyLow {s : State} {g : Side} (h : (s.lio.grp g).st = .valid ∨ (s.lio.grp g).st = .sag) :
    exec (.supplyLow g) s = .next ((s.onGrp g fun x => { x with st := .low, due := x.due ++ [0x21] }).supplyRec 0x0803 g).switches :=
  congrArg Host.Outcome.next (if_pos (by simpa using h))

/-! ## The commands -/

/-- Settles O25: each command in its branch; trips through `clearTrip_up`, and LIO_TRIP_CLR by induction on the bits that it takes. -/
theorem localChannelsComplete : Obligations.LocalChannelsComplete := by
  unfold Obligations.LocalChannelsComplete
  refine ⟨?input, ?outputLevel, ?band, ?wireBroken, ?wireWhole, ?stuckLow, ?stuckHigh, ?agrees, ?trips, ?retry, ?clear, ?cleared⟩
  case input =>
    rintro ch high e s _ hm rfl
    exact if_pos hm
  case outputLevel =>
    intro ch high e s hm
    exact (if_neg (by omega)).trans (if_pos hm)
  case band =>
    intro ch s hm hb
    exact if_pos (by simp [hm, hb])
  case wireBroken =>
    intro ch s hm hf hw
    exact (if_neg (by simp [hm, hf, hw])).trans (if_pos rfl)
  case wireWhole =>
    intro ch s hm hf hw
    exact (if_neg (by simp [hm, hf, hw])).trans (if_neg Bool.false_ne_true)
  case stuckLow =>
    intro ch s hm hs ho
    exact (if_neg (by simp [hm, hs])).trans ((if_neg Bool.false_ne_true).trans (if_neg ho))
  case stuckHigh =>
    intro ch s hm hs ho hh
    exact (if_neg (by simp [hm, hs])).trans ((if_pos rfl).trans (if_neg (by simp [hh, ho])))
  case agrees =>
    intro ch s ho
    rw [State.onLch_onLch]
    exact congrArg Host.Outcome.next (if_neg ho)
  case trips =>
    intro ch s hm hs ht hu
    exact ⟨congrArg Host.Outcome.next (State.tripCh_up 3 hm hs ht hu), congrArg Host.Outcome.next (State.tripCh_up 4 hm hs ht hu)⟩
  case retry =>
    rintro ch u s _ ht hr rfl hk hu
    exact congrArg Host.Outcome.next ((if_pos (by simp [ht, hr])).trans (State.clearTrip_up (by rw [hk]; rfl) hu))
  case clear => exact fun _ _ _ => rfl
  case cleared =>
    intro g v s hu
    obtain ⟨hrecd, htrip⟩ := State.tripMask_clears v ((s.supplyOf_grp g (c := 0) (by decide)) ▸ hu)
    exact ⟨s.tripMask g v, rfl, State.tripMask_mem s g v, hrecd, htrip⟩

/-- Settles O26: each command in the state that it starts from; that LOW opens the switches is the switch condition of 10 R267. -/
theorem suppliesComplete : Obligations.SuppliesComplete := by
  unfold Obligations.SuppliesComplete
  refine ⟨?sag, ?low, ?opens, ?rise, ?recovers, ?dip, ?back⟩
  case sag => exact fun g s h => congrArg Host.Outcome.next (if_pos h)
  case low => exact fun g s h => exec_supplyLow h
  case opens =>
    intro g s h
    exact ⟨_, exec_supplyLow h, by simp, by simp, State.sw_switches_low (by simp)⟩
  case rise =>
    intro g s h
    show execSupplyRise g s = _
    rw [execSupplyRise, h]
  case recovers =>
    intro g s h
    show execSupplyRise g s = _
    rw [execSupplyRise, h]
  case dip => exact fun g s h => congrArg Host.Outcome.next (if_pos h)
  case back =>
    rintro g lv s _ h rfl
    exact if_neg (not_not_intro h)

end Sys2Proof.Machine
end

section
/-! Lanes beside their tasks (01 R21, 03 R84, 11 R298): waking and parking, and what follows the record of a lane fault. -/

namespace Sys2Proof.Machine
open Sys2Proof

/-- Where nothing waits, nothing is granted. -/
@[simp] theorem State.grantAll_nil (k : State → Held → State) (n : Nat) (s : State) : State.grantAll k n [] s = s := by
  cases n <;> simp [State.grantAll, State.grant]

/-- With no transaction at a crossing, waking leaves memory, the clock, and the parts of the pair and of the host. -/
theorem State.wakeLanes_frame {s : State} (hc : s.wb.crossing = []) :
    s.wakeLanes.mem = s.mem ∧ s.wakeLanes.clk = s.clk ∧ s.wakeLanes.pair = s.pair ∧ s.wakeLanes.host = s.host := by
  simp [State.wakeLanes, hc]

/-- With no transaction at a crossing, every task lane is awake after waking, and one that was parked has its L1 caches to invalidate. -/
theorem State.wakeLanes_lane {s : State} (hc : s.wb.crossing = []) (i : Fin 9) (hi : i.val < 8) :
    s.wakeLanes.lanes.lane[i] = { s.lanes.lane[i] with
      parked := false, l1Inval := (s.lanes.lane[i]).l1Inval || (s.lanes.lane[i]).parked } := by
  simp [State.wakeLanes, hc, hi]

/-- A standby that has not woken and is not hot wakes its lanes and notes the time. -/
theorem exec_laneWake_cold {s : State} (hr : s.pair.role = .standby) (hw : s.pair.wokenAt = none) (hh : s.pair.hot = false) :
    exec .laneWake s = .next { s.wakeLanes with pair := { s.wakeLanes.pair with wokenAt := some s.wakeLanes.clk.now } } := by
  show Host.Outcome.next s.standbyWake = _
  simp [State.standbyWake, hr, hw, hh]

/-- A hot one only notes the time. -/
theorem exec_laneWake_hot {s : State} (hr : s.pair.role = .standby) (hw : s.pair.wokenAt = none) (hh : s.pair.hot = true) :
    exec .laneWake s = .next { s with pair := { s.pair with wokenAt := some s.clk.now } } := by
  show Host.Outcome.next s.standbyWake = _
  simp [State.standbyWake, hr, hw, hh]

/-- The state in which the records of lane faults that were due stand in the archive (16 R429). -/
def State.faultsArchived (s : State) : State :=
  (s.recd.due.filter (·.code = 0x0200)).foldl State.archiveOne
    { s with recd := { s.recd with due := s.recd.due.filter (·.code ≠ 0x0200) } }

/-- With no record due nothing is archived. -/
theorem State.faultsArchived_none {s : State} (h : s.recd.due = []) : s.faultsArchived = s := by
  have hr : ({ s.recd with due := [] } : Recd) = s.recd := by rw [← h]
  simp [State.faultsArchived, h, hr]

/-- LANE_FAULT_FLASH_COMMIT: a module that left pair duty for a lane fault asks its partner for a reset, once (03 R84). -/
theorem exec_laneFaultFlashCommit (s : State) : exec .laneFaultFlashCommit s =
    .next (if s.faultsArchived.lanes.faulted && s.faultsArchived.lanes.resetReq.isNone then
      ({ s.faultsArchived with lanes := { s.faultsArchived.lanes with resetReq := some s.faultsArchived.clk.now } } : State).send
        .resetRequest else s.faultsArchived) := rfl

/-- Settles O18: waking by the equations of a cold and a hot standby and `wakeLanes_lane`; the record of a lane fault by
`exec_laneFaultFlashCommit`. -/
theorem lanesWakeAndFollowFaults : Obligations.LanesWakeAndFollowFaults := by
  unfold Obligations.LanesWakeAndFollowFaults
  refine ⟨?cold, ?awake, ?hot, ?parks, ?asks, ?noFault, ?stranded⟩
  case cold =>
    rintro s _ hr hw hh rfl
    exact exec_laneWake_cold hr hw hh
  case awake =>
    intro s hr hw hh hc
    obtain ⟨hmem, hclk, -, -⟩ := State.wakeLanes_frame hc
    refine ⟨_, exec_laneWake_cold hr hw hh, ?_, hmem, ?_⟩
    · exact congrArg (fun c : Clk => some c.now) hclk
    · intro i hi
      show (s.wakeLanes.lanes.lane[i]).parked = false ∧ (_ → (s.wakeLanes.lanes.lane[i]).l1Inval = true)
      rw [State.wakeLanes_lane hc i hi]
      exact ⟨rfl, fun hp => Bool.or_eq_true_iff.mpr (.inr hp)⟩
  case hot =>
    intro s hr hw hh
    exact exec_laneWake_hot hr hw hh
  case parks =>
    rintro u s _ hw rfl hr hh
    show execLaneParkTimeout s = _
    simp only [execLaneParkTimeout, hw, hr, hh]
    rfl
  case asks =>
    intro s hf hq hd
    rw [answers, exec_laneFaultFlashCommit, State.faultsArchived_none hd, hf, hq]
    rfl
  case noFault =>
    intro s k hk hf
    have hk : k = s.faultsArchived := hk
    subst hk
    rw [answers, exec_laneFaultFlashCommit, hf]
    rfl
  case stranded =>
    rintro u s _ hq rfl
    show execPairResetRequestTimeout s = _
    rw [execPairResetRequestTimeout, hq]

end Sys2Proof.Machine
end

section
/-! The VANE lines (11 R278 to R287, R298 to R303): what a role and a message leave of the pair's part, and each command where it takes effect. -/

namespace Sys2Proof.Machine
open Sys2Proof

/-! ## A role, a message and a released line in the pair's part -/

/-- Taking a role changes the role alone of the pair's part. -/
@[simp] theorem State.setRole_pair (s : State) (r : Role) : (s.setRole r).pair = { s.pair with role := r } := by
  unfold State.setRole
  split
  case isTrue h => subst h; rfl
  case isFalse => simp

/-- A message waits with those to be sent; the rest of the pair's part is as it was. -/
theorem State.send_pair (s : State) (m : PairMsg) : ∃ l, (s.send m).pair = { s.pair with sent := l } := by
  unfold State.send
  split
  · exact ⟨_, rfl⟩
  · exact ⟨_, rfl⟩

/-- A released line leaves what the module knows of the other line, and the instant of a takeover that is due. -/
theorem State.releaseVane_other (s : State) :
    s.releaseVane.pair.other = s.pair.other ∧ s.releaseVane.pair.takeFrom = s.pair.takeFrom := by
  simp [State.releaseVane, State.watchHolder]

/-! ## Roles while the partner's line is asserted, 11 R286 -/

/-- The beginning of a rejoin outside pair duty leaves the lines. -/
theorem State.startRejoin_frame {s : State} (h : s.pair.role ≠ .standby) :
    s.startRejoin.pair.other = s.pair.other ∧ s.startRejoin.pair.takeFrom = s.pair.takeFrom ∧ s.startRejoin.mem = s.mem ∧
      s.startRejoin.keys = s.keys := by
  simp only [State.startRejoin, decide_eq_false h, Bool.false_eq_true, if_false]
  generalize hu : (State.setRole _ _) = u
  obtain ⟨l, hl⟩ := u.send_pair .rejoin
  subst hu
  rw [hl]
  simp

/-- While the partner's line is asserted, a module that takes its role asserts nothing: it joins, or is out. -/
theorem State.roleAgain_frame {s : State} (h : s.pair.other = true) :
    s.roleAgain.pair.other = true ∧ s.roleAgain.pair.takeFrom = s.pair.takeFrom ∧ s.roleAgain.mem = s.mem ∧ s.roleAgain.keys = s.keys := by
  unfold State.roleAgain State.takeRole
  split
  case isFalse => exact ⟨h, rfl, rfl, rfl⟩
  case isTrue =>
    split
    case isTrue => exact ⟨h, rfl, rfl, rfl⟩
    case isFalse hr =>
      split
      case isTrue => simp [h]
      case isFalse =>
        obtain ⟨ho, ht, hm, hk⟩ := State.startRejoin_frame (s := s) (by simp [not_not.mp hr])
        exact ⟨ho.trans h, ht, hm, hk⟩

/-! ## The lines -/

/-- The levels at the pins as the module follows them: the line seen, the holder watched, the switches following. -/
def State.lineFollowed (s : State) (l : Side) (v : Bool) : State := (lineSeen s l v).watchHolder.switches

/-- Both lines asserted in slot B within 100 ns of its own assertion: it withdraws (11 R278). -/
def State.arbitrated (s : State) : State :=
  if s.pair.drive && s.pair.own && s.pair.other && s.slot = .b && s.clk.now ≤ s.pair.driveAt + 100 then s.releaseVane else s

/-- The slot is not part of a line. -/
@[simp] theorem State.lineFollowed_slot (s : State) (l : Side) (v : Bool) : (s.lineFollowed l v).slot = s.slot := by
  simp only [State.lineFollowed, State.switches_frame, State.watchHolder_frame, lineSeen]
  split <;> rfl

/-- Nor does arbitration change it. -/
@[simp] theorem State.arbitrated_slot (s : State) : s.arbitrated.slot = s.slot := by
  unfold State.arbitrated
  split <;> simp

/-- A change of a line is followed, arbitrated, and acted on where it is the partner's. -/
theorem exec_vaneLineChange (l : Side) (v : Bool) (s : State) : exec (.vaneLineChange l v) s =
    .next (if l = s.slot then (s.lineFollowed l v).arbitrated
      else if v then (s.lineFollowed l v).arbitrated.roleAgain else (s.lineFollowed l v).arbitrated.releaseSeen) := by
  have hs : (s.lineFollowed l v).arbitrated.slot = s.slot := by simp
  show Host.Outcome.next (if l = (s.lineFollowed l v).arbitrated.slot then _ else _) = _
  rw [hs]
  rfl

/-- No arbitration in slot A, or while the module does not drive its line against the partner's. -/
theorem State.arbitrated_none {s : State}
    (h : (s.pair.drive && s.pair.own && s.pair.other && s.slot = .b && s.clk.now ≤ s.pair.driveAt + 100) = false) : s.arbitrated = s := by
  rw [State.arbitrated, h]
  rfl

/-- Arbitration leaves what the module knows of the partner's line, a takeover that is due, memory and keys. -/
theorem State.arbitrated_frame (s : State) : s.arbitrated.pair.other = s.pair.other ∧ s.arbitrated.pair.takeFrom = s.pair.takeFrom ∧
    s.arbitrated.mem = s.mem ∧ s.arbitrated.keys = s.keys := by
  unfold State.arbitrated
  split
  case isFalse => exact ⟨rfl, rfl, rfl, rfl⟩
  case isTrue =>
    obtain ⟨ho, ht⟩ := s.releaseVane_other
    exact ⟨ho, ht, by simp, by simp⟩

/-- The partner's line is seen asserted: no takeover is due any more. -/
theorem State.lineFollowed_asserted {s : State} {l : Side} (hl : l ≠ s.slot) :
    (s.lineFollowed l true).pair.other = true ∧ (s.lineFollowed l true).pair.takeFrom = none ∧ (s.lineFollowed l true).mem = s.mem ∧
      (s.lineFollowed l true).keys = s.keys := by
  simp [State.lineFollowed, State.watchHolder, lineSeen, hl]

/-! ## Takeover, sentinel, no holder -/

/-- A CURRENT standby that is not locked out and may assert takes over at the still point of its cycle, unless that has passed; without a
running network at once (11 R299, R300; log entry 85). -/
theorem exec_takeover {s k : State} {u : Nat} (hu : s.pair.takeFrom = some u) (hk : k = s.reach (u + 27000)) (hr : k.pair.role = .standby)
    (hc : k.pair.current = true) (hl : k.lanes.lockout = false) (hm : k.mayAssert = true)
    (hp : (k.cyc.running && decide (k.stillOf k.cyc.n < k.netTime)) = false) :
    exec .takeover s = .next ((if k.cyc.running then k.reachNet (k.stillOf k.cyc.n) else k).becomePrimary false) := by
  subst hk
  show execTakeover s = _
  simp only [execTakeover, hu, hr, hc, hl, hm, hp]
  rfl

/-- A primary whose line does not follow its drive 2 µs after the last change of it halts its lanes and leaves pair duty (11 R281). -/
theorem exec_sentinelCheck_deaf {s : State} (ht : s.pair.driveAt + 2000 ≤ s.clk.now) (hd : s.pair.drive = true) (ho : s.pair.own = false)
    (hp : s.primary = true) {k : State}
    (hk : k = (({ s with pair := { s.pair with resetOut := false } } : State).record 0x0900 (srcOf 8 0) []).haltLanes) :
    exec .sentinelCheck s = .next (({ k with net := { k.net with ready := [] }, lanes := { k.lanes with faulted := true } } :
      State).leavePair 5) := by
  subst hk
  have hp' : (({ s with pair := { s.pair with resetOut := false } } : State).record 0x0900 (srcOf 8 0) []).primary = true := by
    simpa [State.primary] using hp
  show execSentinelCheck s = _
  unfold execSentinelCheck
  rw [if_neg (Nat.not_lt.mpr ht), if_pos (by simp [hd, ho])]
  simp only [if_pos hp']

/-- A line that follows its drive, beside a released one, leaves no finding (11 R281). -/
theorem exec_sentinelCheck_sound {s : State} (ht : s.pair.driveAt + 2000 ≤ s.clk.now) (hd : s.pair.drive = s.pair.own)
    (ho : s.pair.other = false) :
    exec .sentinelCheck s = .next { s with pair := { s.pair with resetOut := false, stuck := false, conflict := false } } := by
  refine (if_neg (Nat.not_lt.mpr ht)).trans ((if_neg (by simp [hd])).trans ?_)
  simp [hd, ho]

/-- 1 ms without a holder is seen, and recorded by a module that is not OUT (11 R303). -/
theorem exec_noHolder {s k : State} {u : Nat} (hu : s.pair.noHolderAt = some u) (hn : s.pair.noHolder = false) (hh : s.holder = false)
    (hk : k = s.reach (u + 1000000)) (hr : k.pair.role ≠ .out) :
    exec .noHolder s = .next (({ k with pair := { k.pair with noHolder := true } } : State).record 0x0907 (srcOf 8 0) []) := by
  subst hk
  show execNoHolder s = _
  simp only [execNoHolder, hu, hn, hh, Bool.or_self, Bool.false_eq_true, if_false, if_neg hr]

/-- Settles O34: a change of a line by `exec_vaneLineChange` and what arbitration and a role leave; the other commands by their equations. -/
theorem vaneLinesComplete : Obligations.VaneLinesComplete := by
  unfold Obligations.VaneLinesComplete
  refine ⟨?slotA, ?line, ?asserted, ?still, ?unscheduled, ?deaf, ?sound, ?noHolder, ?slotB, ?reset⟩
  case slotA =>
    intro v s k ha hk
    have hk : k = s.lineFollowed .a v := hk
    rw [answers, exec_vaneLineChange, if_pos ha.symm, State.arbitrated_none (by simp [ha]), hk]
  case line =>
    intro l v s k hk ha
    have hk : k = s.lineFollowed l v := hk
    rw [answers, exec_vaneLineChange, ← hk, State.arbitrated_none ha]
  case asserted =>
    intro l s hl
    obtain ⟨ho, ht, hm, hk⟩ := State.lineFollowed_asserted hl
    obtain ⟨ho', ht', hm', hk'⟩ := (s.lineFollowed l true).arbitrated_frame
    obtain ⟨ho'', ht'', hm'', hk''⟩ := State.roleAgain_frame (ho'.trans ho)
    refine ⟨_, ?_, ho'', ht''.trans (ht'.trans ht), hm''.trans (hm'.trans hm), hk''.trans (hk'.trans hk)⟩
    rw [answers, exec_vaneLineChange, if_neg hl, if_pos rfl]
  case still =>
    intro u s k hu hk hr hc hl hm hrun hp
    rw [answers, exec_takeover hu hk hr hc hl hm (by simp [hp]), if_pos hrun]
  case unscheduled =>
    intro u s hu hr hc hl hm hrun
    rw [answers, exec_takeover hu rfl hr hc hl hm (by rw [hrun]; rfl), hrun]
    rfl
  case deaf =>
    intro s k ht hd ho hp hk
    exact exec_sentinelCheck_deaf ht hd ho hp hk
  case sound =>
    intro s ht hd ho
    exact exec_sentinelCheck_sound ht hd ho
  case noHolder =>
    intro u s k hu hn hh hk hr
    exact exec_noHolder hu hn hh hk hr
  case slotB =>
    intro s hr hb hl hlock ho hs
    show execSlotBAssertWait s = _
    rw [execSlotBAssertWait, if_pos (by simp [hr, hb, hl, hlock, ho, hs]), State.firstPrimary]
  case reset =>
    intro s h
    exact congrArg Host.Outcome.next (if_pos h)

end Sys2Proof.Machine
end

section
/-! The pair link (11 R283 to R286, 12 R326 to R329, 14 R393): the role that a heartbeat leaves, and the messages of the partner where they take
effect. -/

namespace Sys2Proof.Machine
open Sys2Proof

/-! ## The role in a heartbeat -/

/-- Marking lines dirty leaves the role. -/
@[simp] theorem State.mark_role (s : State) (a k : Nat) : (s.mark a k).pair.role = s.pair.role := by
  unfold State.mark
  split <;> rfl

/-- So does a message. -/
@[simp] theorem State.send_role (s : State) (m : PairMsg) : (s.send m).pair.role = s.pair.role := by
  obtain ⟨l, hl⟩ := s.send_pair m
  rw [hl]

/-- Changes of forces that complete leave the role. -/
@[simp] theorem State.forceEnds_role (s : State) (k : Nat) : (s.forceEnds k).pair.role = s.pair.role := by
  have hrec : ∀ (s : State) (c : FChange), (s.forceRec c k).pair.role = s.pair.role := fun s c => by simp [State.forceRec]
  unfold State.forceEnds
  dsimp only
  split
  case isTrue => rfl
  case isFalse =>
    refine (foldl_kept (fun s => s.pair.role) _ (fun s r => ?_) _ _).trans ?_
    · split
      · split <;> simp
      · rfl
    · simp only [State.setForces, mark_role]
      exact foldl_kept (fun s => s.pair.role) _ hrec _ _

/-- A long operation that stops leaves the role. -/
@[simp] theorem State.suspendRun_role (s : State) (r : Run) : (s.suspendRun r).pair.role = s.pair.role := by
  simp [State.suspendRun]

/-- So does the end of an FW_HANDOVER. -/
@[simp] theorem State.handoverEnd_role (s : State) (st d : Nat) (r0 : Word) : (s.handoverEnd st d r0).pair.role = s.pair.role := by
  unfold State.handoverEnd
  dsimp only
  split <;> simp

/-- So does a step of it. -/
@[simp] theorem State.handoverStep_role (s : State) (k : Nat) : (s.handoverStep k).pair.role = s.pair.role := by
  unfold State.handoverStep
  dsimp only
  (repeat' split) <;> simp [State.progress]

/-- And what a heartbeat moves in it. -/
@[simp] theorem State.handoverBeat_role (s : State) (h : Heartbeat) : (s.handoverBeat h).pair.role = s.pair.role := by
  unfold State.handoverBeat State.handoverFail
  dsimp only
  (repeat' split) <;> simp

/-- A primary whose standby turns out STALE stays what it is. -/
@[simp] theorem State.standbyStale_role (s : State) (h : Heartbeat) : (s.standbyStale h).pair.role = s.pair.role := by
  unfold State.standbyStale State.dirtySlice State.markStale
  dsimp only
  (repeat' split) <;> simp

/-- Passing an image leaves the role. -/
@[simp] theorem State.passImage_role (s : State) (i : AppImage) : (s.passImage i).pair.role = s.pair.role := by
  have hp : (s.passed i).2.pair.role = s.pair.role := by
    unfold State.passed
    split <;> rfl
  exact (State.send_role _ _).trans hp

/-- Sending the states of stations leaves the role. -/
@[simp] theorem State.tellStns_role (s : State) (p : StnM → Bool) : (s.tellStns p).pair.role = s.pair.role :=
  foldl_kept (fun s => s.pair.role) _ (fun s _ => s.send_role _) _ s

/-- What a partner that joins is sent leaves the role. -/
@[simp] theorem State.shipBase_role (s : State) (h : Heartbeat) : (s.shipBase h).pair.role = s.pair.role := by
  unfold State.shipBase
  refine (foldl_kept (fun s => s.pair.role) _ (fun s _ => s.send_role _) _ _).trans ?_
  simp only [State.send_role, State.tellStns_role]
  have himages : ∀ (l : List AppSlot) (u : State), (l.foldl (fun s x => match x.img with
      | some i => s.passImage i
      | none => s) u).pair.role = u.pair.role :=
    foldl_kept (fun s => s.pair.role) _ fun u x => by split <;> simp
  split <;> split
  · simp
  · exact (himages _ _).trans (State.send_role _ _)
  · rfl
  · exact himages _ _

/-- A primary that takes a heartbeat stays primary. -/
@[simp] theorem State.beatPrimary_role (s : State) (prev : Nat) (h : Heartbeat) : (s.beatPrimary prev h).pair.role = s.pair.role := by
  unfold State.beatPrimary State.forceIdle
  dsimp only
  (repeat' split) <;> simp

/-! ## Heartbeats, 11 R284, R285 -/

/-- A heartbeat that is taken is held as the partner's last; a partner that has left pair duty with it is gone; the module acts on it by its
role. -/
theorem exec_heartbeatRx {s : State} {h : Heartbeat} (hl : s.linked = true) (hc : h.crcOk = true) (hk : h.kind = 1) {u : State}
    (hu : u = ((if s.partnerDuty && !(heard s h).partnerDuty then (heard s h).partnerAway else heard s h).takeBeat
      ((s.pair.hb.map (·.role)).getD 0) h)) :
    exec (.heartbeatRx h) s = .next (if s.pair.hbLost && u.pair.role = .standby then u.startRejoin else u) := by
  subst hu
  show execHeartbeatRx h s = _
  rw [execHeartbeatRx, if_neg (by simp [hl, hc, hk])]
  rfl

/-- Holding a heartbeat leaves the role. -/
@[simp] theorem heard_role (s : State) (h : Heartbeat) : (heard s h).pair.role = s.pair.role := rfl

/-- A module that is no standby follows no Calm of its partner. -/
theorem State.followCalm_none {s : State} {h : Heartbeat} (hr : s.pair.role ≠ .standby) : s.followCalm h = s :=
  if_pos (by simp [hr])

/-- A module out of duty acts on no heartbeat. -/
theorem State.takeBeat_out {s : State} {prev : Nat} {h : Heartbeat} (hr : s.pair.role = .out) : s.takeBeat prev h = s := by
  simp [State.takeBeat, State.primary, hr, State.followCalm_none]

/-- A primary takes its part of a heartbeat. -/
theorem State.takeBeat_primary {s : State} {prev : Nat} {h : Heartbeat} (hr : s.pair.role = .primary) :
    s.takeBeat prev h = s.beatPrimary prev h := by
  simp [State.takeBeat, State.primary, hr, State.followCalm_none]

/-- A standby that holds the force table of its primary follows its Calm (04 R117, 02 R55). -/
theorem State.takeBeat_standby {s : State} {prev : Nat} {h : Heartbeat} (hr : s.pair.role = .standby) (hf : s.forcesHeld = true) :
    s.takeBeat prev h = s.followCalm h := by
  simp [State.takeBeat, State.primary, hr, hf]

/-- A partner that shows PRIMARY does not leave pair duty with its heartbeat. -/
theorem partnerDuty_heard_primary {s : State} {h : Heartbeat} (hr : h.role = 1) : (s.partnerDuty && !(heard s h).partnerDuty) = false := by
  unfold State.partnerDuty
  split
  case h_1 x hx =>
    by_cases hv : s.pair.leave = 0 <;> simp [heard, hr, hv]
  case h_2 => rfl

/-- A fault message is an early heartbeat of a partner that leaves pair duty: a standby wakes, the partner is gone, the module acts on what it
shows, and a primary goes through with a reset request (11 R282, R284). -/
theorem exec_faultMessageRx {s k u : State} {h : Heartbeat} {q : Bool} (hl : s.linked = true) (hc : h.crcOk = true) (hk : h.kind = 2)
    (hh : k = ({ s with pair := { s.pair with
      hb := some h, hbAt := s.clk.now, hbLost := false, leave := h.leaveCause
      partnerPrim := h.role = 1 || (s.pair.partnerPrim && s.pair.other), partnerReq := s.pair.partnerReq || q } } : State))
    (hu : u = (k.standbyWake.partnerAway.takeBeat ((s.pair.hb.map (·.role)).getD 0) h).issueReset) (ho : u.chg.handover ≠ 1) :
    exec (.faultMessageRx h q) s = .next u := by
  have hh : k = { s.heldBeat h h.leaveCause with pair := { (s.heldBeat h h.leaveCause).pair with
      partnerReq := (s.heldBeat h h.leaveCause).pair.partnerReq || q } } := hh
  show execFaultMessageRx h q s = _
  unfold execFaultMessageRx
  rw [if_neg (by simp [hl, hc, hk])]
  dsimp only
  rw [← hh, ← hu, if_neg ho]

/-- The state in which a heartbeat that failed to come has left the module, its partner gone (11 R285). -/
def State.beatLost (s : State) : State := ({ s with pair := { s.pair with hbLost := true } } : State).standbyWake.partnerAway

/-- A heartbeat that fails to come: the partner is gone; while its line is driven, the loss is recorded and a standby STALE (11 R285). -/
theorem exec_heartbeatLost {s k : State} (hl : s.pair.hbLost = false) (hb : s.pair.hb.isSome = true)
    (hk : k = (if s.cyc.running then s.reach (s.pair.hbAt + 2 * s.t + 10000) else s).beatLost) :
    exec .heartbeatLost s = if k.pair.other then
      .next ((if k.pair.role = .standby then k.goStale else k).record 0x0904 (srcOf 8 0) []) else .next k := by
  subst hk
  have hn : s.pair.hb.isNone = false := by simpa using hb
  show execHeartbeatLost s = _
  rw [execHeartbeatLost, if_neg (by simp [hl, hn])]
  rfl

/-! ## The link, 11 R283, 14 R393 -/

/-- A lane that fails leaves the link to the other, with a record; without any the link is not authenticated, and a module that waits takes its
role. -/
theorem exec_pairLaneFail {s : State} {k : Fin 2} {l : BitVec 2} (hk : s.pair.lanes.getLsbD k.val = true)
    (hl : l = s.pair.lanes &&& ~~~(1#2 <<< k.val)) :
    exec (.pairLaneFail k) s =
      .next (({ s with pair := { s.pair with lanes := l, auth := s.pair.auth && l ≠ 0 } } : State).record 0x0903 (srcOf 8 0) []).roleAgain := by
  subst hl
  exact if_neg (by simp [hk])

/-- A hello that does not authenticate fails the link, with a record. -/
theorem exec_pairAuth_fails {s : State} {h : PairHello} (hl : s.pair.lanes ≠ 0) (ha : s.authOk h = false) :
    exec (.pairAuth h) s =
      .next (({ s with pair := { s.pair with auth := false } } : State).record 0x0C06 (srcOf 8 0) []) := by
  show execPairAuth h s = _
  simp only [execPairAuth, ha, if_neg hl]
  rfl

/-- One that does gives the partner's unit key and the pair key; another partner's firmware is not known yet. -/
theorem exec_pairAuth {s u k : State} {h : PairHello} (hl : s.pair.lanes ≠ 0) (ha : s.authOk h = true)
    (hu : u = ({ s with pair := { s.pair with auth := true } } : State)) (hk : k = u.draw.2) :
    exec (.pairAuth h) s = .next (({ k with
      pair := { k.pair with unit := h.unit, key := Config.pairKey (Config.x25519 (first32 u.draw.1) h.eph) }
      chg := { k.chg with partner := if h.unit ≠ u.pair.unit then none else k.chg.partner } } : State).send .auth).tellFw := by
  subst hu hk
  show execPairAuth h s = _
  simp only [execPairAuth, ha, if_neg hl]
  rfl

/-! ## Reports, 12 R316 to R331 -/

/-- A report on the next configuration ends the NET_CONFIGURE that waits for it (13 R368). -/
theorem exec_partnerReportRx_netConfig {s : State} {r : Run} {sched : Nat} {y : Bool} (ok : Bool)
    (hr : (s.host.runs.find? fun r => match r.work with
      | .netConfigure _ _ _ => true
      | _ => false) = some r) (hw : r.work = .netConfigure sched true y) :
    exec (.partnerReportRx .netConfig ok) s = .next
      (if ok then s.endRun r stOk dNone (BitVec.ofNat 64 sched) 0 else s.endRun r stFailed dPartner) := by
  show Host.Outcome.next (s.netReported ok) = _
  unfold State.netReported
  split
  case h_1 x hx =>
    cases hx.symm.trans hr
    simp only [hw]
  case h_2 hx => cases hx.symm.trans hr

/-- Settles O33: heartbeats by `exec_heartbeatRx` and what the module's role takes of them; the other messages, the link and the reports by
their equations. -/
theorem pairLinkCompletes : Obligations.PairLinkCompletes := by
  unfold Obligations.PairLinkCompletes
  refine ⟨?out, ?primary, ?standby, ?fault, ?lostQuiet, ?lost, ?lane, ?auth, ?authFails, ?netConfig, ?steps, ?firmware, ?send⟩
  case out =>
    intro h s hl hc hk hr hd
    rw [answers, exec_heartbeatRx hl hc hk rfl, hd, Bool.false_and, if_neg Bool.false_ne_true, State.takeBeat_out (s := heard s h) hr]
    simp [hr]
  case primary =>
    rintro h s _ hl hc hk hp rfl hd
    have hr : s.pair.role = .primary := of_decide_eq_true hp
    rw [answers, exec_heartbeatRx hl hc hk rfl, hd, if_neg Bool.false_ne_true, State.takeBeat_primary (s := heard s h) hr]
    simp [hr]
  case standby =>
    rintro h s _ hl hc hk hr hh rfl hf hb
    rw [answers, exec_heartbeatRx hl hc hk rfl, partnerDuty_heard_primary hh, if_neg Bool.false_ne_true, 
      State.takeBeat_standby (s := heard s h) hr hf, hb]
    rfl
  case fault =>
    intro h q s k u hl hc hk hh hu ho
    exact exec_faultMessageRx hl hc hk hh hu ho
  case lostQuiet =>
    intro s k hl hb hr hk ho
    have hk : k = s.beatLost := hk
    rw [answers, exec_heartbeatLost hl hb rfl, hr, if_neg Bool.false_ne_true, ← hk, ho]
    rfl
  case lost =>
    rintro s _ k hl hb hrun rfl hk ho hr
    have hk : k = (s.reach (s.pair.hbAt + 2 * s.t + 10000)).beatLost := hk
    rw [answers, exec_heartbeatLost hl hb rfl, hrun, if_pos rfl, ← hk, if_pos ho, if_pos hr]
  case lane =>
    intro k s l hk hl
    exact exec_pairLaneFail hk hl
  case auth =>
    intro h s u k hl ha hu hk
    exact exec_pairAuth hl ha hu hk
  case authFails =>
    intro h s hl ha
    exact exec_pairAuth_fails hl ha
  case netConfig =>
    intro s r sched y hr hw
    exact ⟨exec_partnerReportRx_netConfig true hr hw, exec_partnerReportRx_netConfig false hr hw⟩
  case steps => exact fun ok s => ⟨rfl, rfl, rfl, rfl⟩
  case firmware => exact fun tr ru g ok s => ⟨rfl, rfl, rfl, rfl⟩
  case send =>
    intro s hr
    show execHeartbeatSend s = _
    simp only [execHeartbeatSend, hr, if_true]

end Sys2Proof.Machine
end

section
/-! Switch and rejoin (03 R85, 11 R304 to R307): the three commands where they take effect. -/

namespace Sys2Proof.Machine
open Sys2Proof

/-- PAIR_SWITCH at a primary with a CURRENT standby and no switch or rejoin under way begins and waits (11 R304). -/
theorem exec_pairSwitch {s b : State} {c : Cmd} (hb : b = begun s 0x0090 c 0 (c.inlZero 0)) (hc : passes s 0x0090 c 0 (c.inlZero 0) = true)
    (hp : b.primary = true) (hs : b.pair.switch_ = none) (hr : b.pair.rejoin = none) (hj : b.pair.partnerJoins = false)
    (hh : b.pair.hb.map (·.role) ≠ some 3) (hw : b.switchable = true) :
    exec (.pairSwitch c) s = .next (({ b with pair := { b.pair with switch_ := some {} } } : State).addRun
      (mkRun 0x0090 c (b.partyOf c) false 0 .pairSwitch)) := by
  show execPairSwitch c s = _
  rw [execPairSwitch, hostCmd_of_passes _ hc, ← hb, ownPrimary_primary _ _ _ hp]
  simp only [hs, hr, hj, hh, hw]
  rfl

/-- PAIR_REJOIN past its checks, at a module beside a PRIMARY that is neither locked out nor failed and has room for a long operation: accepted,
JOINING, the base phase (11 R306, R307). -/
theorem exec_pairRejoin {s b : State} {c : Cmd} {r : Run} (hb : b = begun s 0x0091 c 0 (c.inf 0 4 < 2 && c.inlZero 4))
    (hg : s.canBegin 0x0091 c = true)
    (hc : (s.unqueue 0x0091 c).checks 0x0091 c 0 (c.inf 0 4 < 2 && c.inlZero 4) (rejoinAllowed s c) = none)
    (hp : b.primary = false) (hj : b.pair.rejoin = none) (hl : b.lanes.lockout = false) (ht : b.pwr.selfFail = false)
    (hpp : b.partnerPrimary = true) (hfar : b.genFar = false) (hn : b.longOps < 8)
    (hr : r = mkRun 0x0091 c (b.partyOf c) true 0 .rejoin) :
    exec (.pairRejoin c) s = .next ((b.startRejoin.accept r 0x0091 c).progress r 1 0 0) := by
  subst hr
  show execPairRejoin c s = _
  rw [execPairRejoin, State.hostCmdBy_runs hg hc (.inl (by decide)), ← begun, ← hb]
  simp only [hl, Bool.and_false, Bool.false_eq_true, if_false, hp, hj, ht, hpp, hfar, Nat.not_le.mpr hn]
  rfl

/-- SWITCH_FINAL_CLOSE in time, with every compared task idle and no transfer outstanding: the held releases and the pool are sent, the final
transfer closes and awaits its acknowledgement (11 R305). -/
theorem exec_switchFinalClose {s k : State} {w : Switch} (hs : s.pair.switch_ = some w) (hp : s.primary = true) (hc : w.phase = .cut)
    (hi : s.comparedIdle = true) (hu : s.pair.unacked = none)
    (hl : (s.cyc.running && decide (s.stillOf w.k < s.netTime + 25000)) = false)
    (hk : k = (s.haltSplit.send (.held (s.cyc.heldRel ++ s.dueRels) s.act.pool)).closeTransfer true) (ha : k.pair.unacked.isSome = true) :
    exec .switchFinalClose s = .next { k with pair := { k.pair with switch_ := some { w with phase := .closing } } } := by
  subst hk
  show execSwitchFinalClose s = _
  simp only [execSwitchFinalClose, hs]
  simp [hp, hc, hi, hu, hl, ha]

/-- Settles O35: each command by its equation. -/
theorem switchAndRejoinComplete : Obligations.SwitchAndRejoinComplete := by
  unfold Obligations.SwitchAndRejoinComplete
  refine ⟨?switch, ?final, ?rejoin⟩
  case switch =>
    rintro c s b _ hb hc hp hs hr hj hh hw rfl
    exact exec_pairSwitch hb hc hp hs hr hj hh hw
  case final =>
    intro s w k hs hp hc hi hu hl hk ha
    exact exec_switchFinalClose hs hp hc hi hu hl hk ha
  case rejoin =>
    intro c s b r hb hg hc _ hp hj hl ht hpp hfar hn hr
    exact exec_pairRejoin hb hg hc hp hj hl ht hpp hfar hn hr

end Sys2Proof.Machine
end

section
/-! The primary's mirror (11 R291 to R293): what a close, a missed acknowledgement and a block sent again leave, and each command where it takes
effect. -/

namespace Sys2Proof.Machine
open Sys2Proof

/-! ## Closing a transfer, 11 R291, R293 -/

/-- With nothing changed since the previous close no force changes are shipped. -/
theorem State.shipForces_none {s : State} (hd : s.pair.dirty = []) (hf : s.pair.forceShipped = s.pair.forceVer) : s.shipForces = s :=
  if_pos (by simp [hd, hf])

/-- Without dirty lines no block is shipped. -/
@[simp] theorem State.shipLines_nil (s : State) : s.shipLines [] = s := rfl

/-- A message leaves the sequence of the open transfer. -/
@[simp] theorem State.send_openSeq (s : State) (m : PairMsg) : (s.send m).openSeq = s.openSeq := by
  obtain ⟨l, hl⟩ := s.send_pair m
  simp [State.openSeq, hl]

/-- The transfer that closes has counted its volume. -/
def State.counted (s : State) : State :=
  { s.drawNat.2 with pair := { s.pair with again := 0, resent := 0, closeN := some s.cyc.n, dirty := [] } }

/-- The close block of a transfer without lines goes out, and its acknowledgement is awaited. -/
def State.closedEmpty (s : State) (final : Bool) : State :=
  let s := s.send (.close s.openSeq 0 s.chg.commitDue s.pair.slice (s.auditDigest s.pair.slice))
  ({ s with pair := { s.pair with
    unacked := some (s.openSeq, 0, 0, final), unackedCommit := s.chg.commitDue.isSome, slice := s.nextSlice } } : State).volume 0

/-- A close of a shipping primary with nothing dirty and nothing to count: only the close block goes out. -/
theorem State.closeTransfer_clean {s : State} (final : Bool) (hs : s.shipping = true) (hu : s.pair.unacked = none) (hd : s.pair.dirty = [])
    (hb : s.pair.shipped = []) (ha : s.pair.again = 0) (hr : s.pair.resent = 0) (hf : s.pair.forceShipped = s.pair.forceVer) :
    s.closeTransfer final = s.counted.closedEmpty final := by
  have hn : ∀ k, s.pair.resent + k % (s.pair.again + 1) = 0 := fun k => by simp [ha, hr, Nat.mod_one]
  unfold State.closeTransfer
  rw [if_neg (by simp [hs]), if_neg (by simp [hu]), State.shipForces_none hd hf]
  simp only [State.drawNat_frame, hn, hd, List.take_nil, List.drop_nil, State.shipLines_nil, List.length_nil, Nat.not_lt_zero, if_false]
  simp only [State.counted, State.closedEmpty, State.drawNat_frame, hb, List.length_nil, Nat.add_zero]

/-- What it leaves: the acknowledgement is awaited, and nothing is dirty. -/
theorem State.closedEmpty_frame (s : State) (final : Bool) :
    (s.closedEmpty final).pair.unacked = some (s.openSeq, 0, 0, final) ∧ (s.closedEmpty final).pair.dirty = s.pair.dirty ∧
      (s.closedEmpty final).mem = s.mem ∧ (s.closedEmpty final).img = s.img ∧ (s.closedEmpty final).net = s.net := by
  obtain ⟨l, hl⟩ := s.send_pair (.close s.openSeq 0 s.chg.commitDue s.pair.slice (s.auditDigest s.pair.slice))
  simp [State.closedEmpty, State.volume, hl]

/-! ## A transfer that is given up, 11 R292, R293 -/

/-- A transfer that cannot close makes the standby STALE. -/
theorem State.cannotClose_frame (s : State) (kib : Nat) :
    (s.cannotClose kib).pair.partnerCur = false ∧ (s.cannotClose kib).pair.unacked = s.pair.unacked ∧ (s.cannotClose kib).img = s.img ∧
      (s.cannotClose kib).net = s.net := by
  unfold State.cannotClose State.markStale
  split
  case isTrue => simp
  case isFalse h => simp [eq_false_of_ne_true h]

/-- One that is given up waits no more. -/
theorem State.giveUp_frame (s : State) (kib : Nat) :
    (s.giveUp kib).pair.unacked = none ∧ (s.giveUp kib).pair.partnerCur = false ∧ (s.giveUp kib).mem = s.mem ∧
      (s.giveUp kib).img = s.img ∧ (s.giveUp kib).net = s.net := by
  unfold State.giveUp
  obtain ⟨hc, hu, hi, hn⟩ := State.cannotClose_frame _ kib
  exact ⟨hu, hc, State.cannotClose_mem _ _, hi, hn⟩

/-- A missed acknowledgement of a transfer that is not final gives it up. -/
theorem State.ackMissed_plain (s : State) (n : Nat) : s.ackMissed n false = s.giveUp (kibOf n) := by
  simp only [State.ackMissed, Bool.false_and, Bool.false_eq_true, if_false]

/-- MIRROR_ACK_DEADLINE gives up the transfer that waits. -/
theorem exec_mirrorAckDeadline {s : State} {q n k : Nat} {f : Bool} (hu : s.pair.unacked = some (q, n, k, f)) :
    exec .mirrorAckDeadline s = .next ((atAckLimit s f).ackMissed n f) := by
  show execMirrorAckDeadline s = _
  rw [execMirrorAckDeadline, hu]
  rfl

/-- Bringing the clock to the deadline leaves the image and the network. -/
theorem atAckLimit_frame (s : State) (f : Bool) :
    (atAckLimit s f).mem = s.mem ∧ (atAckLimit s f).img = s.img ∧ (atAckLimit s f).net = s.net := by
  unfold atAckLimit
  split <;> simp

/-! ## A block sent again, 11 R292 -/

/-- A block sent again is counted and recorded. -/
def State.sentAgain (s : State) (seq block : Nat) (lines : List Nat) : State :=
  ({ s.shipBlock seq block lines with
    pair := { (s.shipBlock seq block lines).pair with resends := satAdd 64 s.pair.resends 1 } } : State).record 0x090C (srcOf 8 0) [block]

/-- A block that is shipped is a message. -/
theorem State.shipBlock_pair (s : State) (seq block : Nat) (lines : List Nat) :
    ∃ l, (s.shipBlock seq block lines).pair = { s.pair with sent := l } :=
  s.send_pair _

/-- A block sent again leaves the transfer that waits, and what the budget depends on. -/
theorem State.sentAgain_frame (s : State) (seq block : Nat) (lines : List Nat) :
    (s.sentAgain seq block lines).pair.unacked = s.pair.unacked ∧ (s.sentAgain seq block lines).pair.lanes = s.pair.lanes ∧
      (s.sentAgain seq block lines).net = s.net := by
  obtain ⟨l, hl⟩ := s.shipBlock_pair seq block lines
  have hn : (s.shipBlock seq block lines).net = s.net := by simp [State.shipBlock]
  simp [State.sentAgain, hl, hn]

/-- The budget depends on the cycle and on the lanes of the link (11 R293). -/
theorem State.budget_congr {s u : State} (hn : u.net = s.net) (hl : u.pair.lanes = s.pair.lanes) : u.budget = s.budget := by
  simp only [State.budget, State.t, hn, hl]

/-- RESEND_REQUEST_RX for a block of the open transfer: it counts against the budget at the close. -/
theorem exec_resendRequestRx_open {s : State} {blk : Nat} {l : List Nat} (hw : s.pair.unacked = none) (hb : s.pair.shipped[blk]? = some l) :
    exec (.resendRequestRx blk) s = .next { s.sentAgain s.openSeq blk l with
      pair := { (s.sentAgain s.openSeq blk l).pair with resent := (s.sentAgain s.openSeq blk l).pair.resent + l.length } } := by
  obtain ⟨m, hm⟩ := s.shipBlock_pair s.openSeq blk l
  have hu := (s.sentAgain_frame s.openSeq blk l).1.trans hw
  unfold State.sentAgain at hu ⊢
  have hr : (s.shipBlock s.openSeq blk l).pair.resends = s.pair.resends := by rw [hm]
  rw [← hr] at hu ⊢
  show execResendRequestRx blk s = _
  simp only [execResendRequestRx, hb, hw, Option.map_none, Option.getD_none, hu]

/-- For a block of the transfer that waits it counts at once. -/
theorem exec_resendRequestRx_waiting {s k : State} {blk q n b : Nat} {f : Bool} {l : List Nat} (hw : s.pair.unacked = some (q, n, b, f))
    (hb : s.pair.shipped[blk]? = some l) (hk : k = ({ s.sentAgain q blk l with
      pair := { (s.sentAgain q blk l).pair with unacked := some (q, n + l.length, b, f) } } : State).volume (n + l.length)) :
    exec (.resendRequestRx blk) s = .next (if s.budget < 64 * (n + l.length) then k.giveUp (kibOf (n + l.length)) else k) := by
  have hbud : k.budget = s.budget := by
    obtain ⟨-, hlanes, hnet⟩ := s.sentAgain_frame q blk l
    exact State.budget_congr (by simp [hk, hnet]) (by simp [hk, State.volume, hlanes])
  rw [← hbud]
  subst hk
  obtain ⟨m, hm⟩ := s.shipBlock_pair q blk l
  have hu := (s.sentAgain_frame q blk l).1.trans hw
  unfold State.sentAgain at hu ⊢
  have hr : (s.shipBlock q blk l).pair.resends = s.pair.resends := by rw [hm]
  rw [← hr] at hu ⊢
  show execResendRequestRx blk s = _
  simp only [execResendRequestRx, hb, hw, Option.map_some, Option.getD_some, hu]

/-! ## Acknowledgements, 11 R293 -/

/-- The transfer that waits, acknowledged: it closes, with COMMIT where it carried it, and a switch goes on behind a final one (11 R293, R305). -/
def State.ackTaken (s : State) (seq : Nat) (final : Bool) : State := { s with
  pair := { acked s seq with switch_ := if final then s.pair.switch_.map fun w => { w with phase := .acked } else s.pair.switch_ }
  chg := { s.chg with commitDue := if s.pair.unackedCommit then none else s.chg.commitDue } }

/-- Where no COMMIT is due the change is as it was. -/
theorem State.ackTaken_noCommit {s : State} (seq : Nat) (final : Bool) (hc : s.chg.commitDue = none) : s.ackTaken seq final = { s with
    pair := { acked s seq with
      switch_ := if final then s.pair.switch_.map fun w => { w with phase := .acked } else s.pair.switch_ } } := by
  have hchg : ({ s.chg with commitDue := if s.pair.unackedCommit then none else s.chg.commitDue } : Chg) = s.chg := by
    rw [hc, ite_self, ← hc]
  rw [State.ackTaken, hchg]

/-- TRANSFER_ACK_RX in time: a STALE standby becomes CURRENT, with a record, unless COMMIT is still due. -/
theorem exec_transferAckRx {s u : State} {q n k : Nat} {f : Bool} (hu : s.pair.unacked = some (q, n, k, f)) (ht : ackInTime s f = true)
    (hk : u = s.ackTaken q f) :
    exec (.transferAckRx q) s = if u.pair.partnerCur || u.chg.commitDue.isSome then .next u
      else .next (({ u with pair := { u.pair with partnerCur := true } } : State).record 0x090B (srcOf 8 0) []) := by
  subst hk
  have ht : (s.cyc.running && decide (s.ackLimit f < s.netTime)) = false := Bool.not_eq_true' _ ▸ ht
  show execTransferAckRx q s = _
  simp only [execTransferAckRx, hu, ht, ne_eq, not_true, if_false, Bool.false_eq_true]
  rfl

/-- One that comes too late closes nothing. -/
theorem exec_transferAckRx_late {s : State} {q n k : Nat} {f : Bool} (hu : s.pair.unacked = some (q, n, k, f)) (ht : ackInTime s f = false) :
    exec (.transferAckRx q) s = .next (s.ackMissed n f) := by
  have ht : (s.cyc.running && decide (s.ackLimit f < s.netTime)) = true := Bool.not_eq_false' _ ▸ ht
  show execTransferAckRx q s = _
  simp only [execTransferAckRx, hu, ht, ne_eq, not_true, if_false, if_true]

/-! ## The close of a cycle, 11 R291 -/

/-- MIRROR_TRANSFER_CLOSE without a running network closes at once. -/
theorem exec_mirrorTransferClose_idle {s : State} (hr : s.cyc.running = false) :
    exec .mirrorTransferClose s = .next (s.closeTransfer false) :=
  congrArg Host.Outcome.next (if_neg (by simp [hr]))

/-- In a running cycle that has not closed yet it closes as soon as the owners are done, else at the output cut-off. -/
theorem exec_mirrorTransferClose {s : State} (hr : s.cyc.running = true) (hn : s.pair.closeN ≠ some s.cyc.n) :
    exec .mirrorTransferClose s = .next
      ((if s.ownersDone then s else s.reachNet (s.cycleStart + (s.net.cfg.map (·.o)).getD 0)).closeTransfer false) :=
  congrArg Host.Outcome.next ((if_pos hr).trans (if_neg hn))

end Sys2Proof.Machine
end

section
/-! The standby's mirror and the base copy (11 R292, R294, R295, R307): what comes over the link where it takes effect. -/

namespace Sys2Proof.Machine
open Sys2Proof

/-! ## Blocks, 11 R292 -/

/-- Lines without an error in their codes pass the mirror engine as they are (03 R89, R90). -/
theorem State.engChecked_clean {s : State} {l : List Span} (h : ∀ y ∈ l, y.err = .none) : s.engChecked l = s := by
  have hs : l.countP (·.err = .single) = 0 := List.countP_eq_zero.mpr fun y hy => by simp [h y hy]
  have hu : l.any (uncorrectable ·.err) = false := List.any_eq_false.mpr fun y hy => by simp [h y hy, uncorrectable]
  simp [State.engChecked, hs, hu]

/-- MIRROR_BLOCK_RX of lines without an error: a good block is staged, one that differs is not, unless its transfer has ended without a
close. -/
theorem exec_mirrorBlockRx {x blk : Nat} {lines : List Span} {fv : Option Nat} {d : BitVec 128} {s : State} (hr : s.receiving = true)
    (he : ∀ y ∈ lines, y.err = .none) :
    exec (.mirrorBlockRx x blk lines fv d) s = .next (if d = blockDigest x blk lines then s.stageBlock x blk lines fv
      else if s.pair.voided = some x then s else s.blockDiffers x blk) := by
  have hu : lines.any (uncorrectable ·.err) = false := List.any_eq_false.mpr fun y hy => by simp [he y hy, uncorrectable]
  show execMirrorBlockRx x blk lines fv d s = _
  rw [execMirrorBlockRx, if_neg (by simp [hr]), State.engChecked_clean he, hu]
  simp only [Bool.not_false, Bool.and_true, decide_eq_true_eq]

/-- A close block that is not held is not tried. -/
theorem State.tryClose_none {s : State} (h : s.pair.heldClose = none) : s.tryClose = s := by
  rw [State.tryClose, h]

/-- A good block has its force lines written and its others staged, beside those of its transfer. -/
theorem State.stageBlock_staged {x blk : Nat} {lines : List Span} {fv : Option Nat} {s k : State}
    (hk : k = (s.writeLines (lines.filter fun x => forceLine x.addr)).auditGot (fun a => fv.isSome && forceLine a))
    (hc : k.pair.heldClose = none) (hv : k.pair.voided ≠ some x) (hj : k.rejoinStands = false) :
    s.stageBlock x blk lines fv = { k with pair := { k.pair with
      forceVer := fv.getD k.pair.forceVer
      staging := k.pair.staging.filter (fun b => b.1 = x && b.2.1 ≠ blk) ++ [(x, blk, lines.filter fun x => !forceLine x.addr)] } } := by
  subst hk
  have hj' : ∀ p : Pair, ({ (s.writeLines (lines.filter fun x => forceLine x.addr)).auditGot (fun a => fv.isSome && forceLine a) with
    pair := p } : State).rejoinStands = false := fun _ => hj
  simp only [State.stageBlock, hj', Bool.or_false, decide_eq_true_eq, if_neg hv]
  exact State.tryClose_none hc

/-! ## Closes, 11 R292, R295 -/

/-- The blocks of a close that have neither come nor differed. -/
def State.missing (s : State) (c : CloseBlk) : List Nat :=
  (List.range c.blocks).filter fun k => !(s.pair.staging.any fun b => b.1 = c.xfer && b.2.1 = k) && s.timesDiffered k = 0

/-- Of a complete transfer none is missing. -/
theorem State.missing_complete {s : State} {c : CloseBlk} (h : s.complete_ c.xfer c.blocks = true) : s.missing c = [] := by
  refine List.filter_eq_nil_iff.mpr fun k hk => ?_
  rw [List.all_eq_true.mp h k hk]
  simp

/-- CLOSE_BLOCK_RX at a standby that takes it: the blocks that are missing are asked for, and the close is tried. -/
theorem exec_closeBlockRx {s : State} {c : CloseBlk} (ht : takesClose s c.xfer = true) :
    exec (.closeBlockRx c.xfer c.blocks c.commit c.slice c.audit c.fin) s =
      .next (((closing s c).missing c).foldl (fun s k => s.send (.resend k)) (closing s c)).tryClose := by
  simp only [takesClose, Bool.and_eq_true, Bool.not_eq_true'] at ht
  obtain ⟨⟨⟨hr, hv⟩, hj⟩, -⟩ := ht
  exact if_neg (by simp [hr, hv, hj])

/-- A complete transfer is applied, where no rejoin stops here. -/
theorem State.tryClose_complete {s u : State} {c : CloseBlk} (ht : takesClose s c.xfer = true) (hu : u = closing s c)
    (hc : u.complete_ c.xfer c.blocks = true) : u.tryClose = u.applyClose c := by
  simp only [takesClose, Bool.and_eq_true, Bool.not_eq_true'] at ht
  obtain ⟨⟨-, hj⟩, hd⟩ := ht
  have hnone : s.host.runs.filter (fun r => r.suspendDue && isRejoin r) = [] :=
    List.filter_eq_nil_iff.mpr fun r hr => by simpa using List.any_eq_false.mp hd r hr
  have hruns : u.host.runs = s.host.runs := by rw [hu, closing]
  have hp : u.rejoinPause = u := by rw [State.rejoinPause, hruns, hnone, List.foldl_nil]
  have hh : u.pair.heldClose = some c := by rw [hu, closing]
  have hj' : u.rejoinStands = false := by rw [State.rejoinStands, hruns]; exact hj
  simp only [State.tryClose, hh, hc, hp, hj', Bool.not_true, Bool.false_eq_true, if_false]

/-- An incomplete one waits. -/
theorem State.tryClose_incomplete {s : State} {c : CloseBlk} (hh : s.pair.heldClose = some c) (hc : s.complete_ c.xfer c.blocks = false) :
    s.tryClose = s := by
  simp only [State.tryClose, hh, hc, Bool.not_false, if_true]

/-- The close block of a complete transfer: it is applied, and its slice audited. -/
theorem exec_closeBlockRx_complete {s u : State} {c : CloseBlk} (ht : takesClose s c.xfer = true) (hu : u = closing s c)
    (hc : u.complete_ c.xfer c.blocks = true) :
    exec (.closeBlockRx c.xfer c.blocks c.commit c.slice c.audit c.fin) s =
      .next ((applied u c).audited (c.audit = (written u c).auditDigest c.slice) c.slice) := by
  rw [exec_closeBlockRx ht, ← hu, State.missing_complete hc, List.foldl_nil, State.tryClose_complete ht hu hc]
  rfl

/-- The close block of a transfer that lacks one block asks for it and waits. -/
theorem exec_closeBlockRx_lacks {s u : State} {c : CloseBlk} {k : Nat} (ht : takesClose s c.xfer = true) (hu : u = closing s c)
    (hc : u.complete_ c.xfer c.blocks = false) (hm : u.missing c = [k]) :
    exec (.closeBlockRx c.xfer c.blocks c.commit c.slice c.audit c.fin) s = .next (u.send (.resend k)) := by
  obtain ⟨l, hl⟩ := u.send_pair (.resend k)
  have hh : (u.send (.resend k)).pair.heldClose = some c := by rw [hl, hu]; rfl
  have hc' : (u.send (.resend k)).complete_ c.xfer c.blocks = false := by
    unfold State.complete_ at hc ⊢
    rw [hl]
    exact hc
  rw [exec_closeBlockRx ht, ← hu, hm, List.foldl_cons, List.foldl_nil, State.tryClose_incomplete hh hc']

/-! ## Snapshots, 11 R294 -/

/-- SNAPSHOT_TRANSFER_RX at a standby whose check block agrees: the snapshot is held, and its values kept for HOLD. -/
theorem exec_snapshotTransferRx {n : Nat} {lines : List Span} {s k : State} (hr : s.receiving = true)
    (hk : k = lines.foldl (fun s x => s.storeIn 7 1 x.addr x.bytes) s) :
    exec (.snapshotTransferRx n lines (some (snapCheck n lines))) s =
      .next (({ k with pair := { k.pair with snapSeq := n % 2 ^ 32 } } : State).keepSent n) := by
  subst hk
  show execSnapshotTransferRx n lines _ s = _
  rw [execSnapshotTransferRx, if_pos (by simp [hr])]

/-- One whose check block does not agree is discarded. -/
theorem exec_snapshotTransferRx_discards {n : Nat} {lines : List Span} {ch : Option (BitVec 128)} {s : State}
    (h : ch ≠ some (snapCheck n lines)) : exec (.snapshotTransferRx n lines ch) s = .next s := by
  show execSnapshotTransferRx n lines ch s = _
  rw [execSnapshotTransferRx, if_neg (by simp [h])]

/-! ## The base copy, 11 R307 -/

/-- BASE_CHUNK_RX at a joining module: a chunk is kept while the rejoin stands suspended, else taken. -/
theorem exec_baseChunkRx {c : Span} {s : State} (hr : s.pair.role = .joining) : exec (.baseChunkRx c) s = .next
    (if s.rejoinStands then { s with pair := { s.pair with heldChunks := s.pair.heldChunks ++ [c] } } else s.takeChunk c) := by
  show execBaseChunkRx c s = _
  rw [execBaseChunkRx, if_neg (not_not_intro hr), apply_ite Host.Outcome.next]

/-- A chunk without an error, outside the force table and within the same 64 MiB, is written and counted. -/
theorem State.takeChunk_written {c : Span} {s k : State} (he : c.err = .none) (hf : forceLine c.addr = false) (hk : k = s.writeLine c)
    (hm : k.pair.baseDone / 0x4000000 = (k.pair.baseDone + c.bytes.length) / 0x4000000) :
    s.takeChunk c = ({ k with
      pair := { k.pair with baseDone := k.pair.baseDone + c.bytes.length }
      host := { k.host with
        runs := k.host.runs.map fun r =>
          if isRejoin r then { r with done := k.pair.baseDone + c.bytes.length } else r } } : State).rejoinPause := by
  have hu : uncorrectable c.err = false := by simp [he, uncorrectable]
  have hlt : ¬ k.pair.baseDone / 0x4000000 < (k.pair.baseDone + c.bytes.length) / 0x4000000 := by omega
  rw [State.takeChunk, State.engChecked_clean (by simpa using he), hu, if_neg Bool.false_ne_true, ← hk, hf]
  simp only [Bool.false_eq_true, if_false, if_neg hlt]

/-- An event leaves the commands under way. -/
@[simp] theorem State.event_runs (s : State) (code : Nat) (p : List Byte) : (s.event code p).host.runs = s.host.runs := by
  unfold State.event
  dsimp only
  (repeat' split) <;> rfl

/-- A role leaves the commands under way. -/
@[simp] theorem State.setRole_runs (s : State) (r : Role) : (s.setRole r).host.runs = s.host.runs := by
  unfold State.setRole
  split <;> simp

/-- Progress of a long operation leaves the pair's part. -/
@[simp] theorem State.progress_pair (s : State) (r : Run) (step done total : Nat) : (s.progress r step done total).pair = s.pair := by
  simp [State.progress]

/-- The base copy is complete: the lanes rest, the copy is STALE, Calm is the primary's. -/
def State.baseDone (s : State) : State := { s.restLanes with
  pair := { s.restLanes.pair with current := false, rejoin := s.restLanes.pair.rejoin.map fun _ => 2 }
  calm := { s.restLanes.calm with follower := s.restLanes.calm.on } }

/-- BASE_COPY_DONE at a joining module: a STALE standby, its lanes parked or, hot, awake, with progress for its rejoin (11 R286, R298). -/
theorem exec_baseCopyDone {s u : State} (hr : s.pair.role = .joining) (ht : s.pwr.selfFail = false) (hj : s.rejoinStands = false)
    (hu : u = (if s.baseDone.pair.hot then s.baseDone.wakeLanes else s.baseDone.parkLanes).setRole .standby) :
    exec .baseCopyDone s = .next ((u.host.runs.filter fun r => match r.work with
      | .rejoin => true
      | _ => false).foldl (fun s r => s.progress r 2 r.done 0) u) := by
  subst hu
  show execBaseCopyDone s = _
  rw [execBaseCopyDone, if_neg (by simp [hr, ht, hj])]
  rfl

/-- Where no transaction waits at a crossing it leaves memory. -/
theorem State.baseDone_rested {s : State} (hc : s.wb.crossing = []) :
    (if s.baseDone.pair.hot then s.baseDone.wakeLanes else s.baseDone.parkLanes).mem = s.mem ∧
      (if s.baseDone.pair.hot then s.baseDone.wakeLanes else s.baseDone.parkLanes).pair.current = false := by
  split
  · obtain ⟨hm, -, hp, -⟩ := State.wakeLanes_frame (s := s.baseDone) hc
    exact ⟨hm, congrArg Pair.current hp⟩
  · simp [State.baseDone]

/-- Settles O32: the primary's commands by their equations and what a clean close and a transfer given up leave; the standby's by theirs, where a
close is tried on what its staging holds. -/
theorem mirrorCompletes : Obligations.MirrorCompletes := by
  unfold Obligations.MirrorCompletes
  refine ⟨?idle, ?closed, ?owners, ?cutoff, ?clean, ?deadline, ?givenUp, ?again, ?againOpen, ?ack, ?ackFinal, ?ackLate, ?block, ?differs,
    ?complete, ?audit, ?lacks, ?snapshot, ?discards, ?chunk, ?heldChunk, ?copied, ?standby⟩
  case idle =>
    intro s hr
    exact exec_mirrorTransferClose_idle hr
  case closed =>
    intro s hr hn
    exact congrArg Host.Outcome.next ((if_pos hr).trans (if_pos hn))
  case owners =>
    intro s hr hn ho
    rw [answers, exec_mirrorTransferClose hr hn, if_pos ho]
  case cutoff =>
    intro s c hr hn ho hc
    rw [answers, exec_mirrorTransferClose hr hn, ho, hc]
    rfl
  case clean =>
    intro s hr hs hu hd hb ha hn hf
    obtain ⟨hack, hdirty, hmem, himg, hnet⟩ := s.counted.closedEmpty_frame false
    refine ⟨_, exec_mirrorTransferClose_idle hr, ?_⟩
    rw [State.closeTransfer_clean false hs hu hd hb ha hn hf]
    exact ⟨hack, hdirty, hmem, himg, hnet⟩
  case deadline =>
    intro s q n k f hu
    exact exec_mirrorAckDeadline hu
  case givenUp =>
    intro s q n k hu
    obtain ⟨hack, hcur, hmem, himg, hnet⟩ := (atAckLimit s false).giveUp_frame (kibOf n)
    obtain ⟨hmem', himg', hnet'⟩ := atAckLimit_frame s false
    refine ⟨_, exec_mirrorAckDeadline hu, ?_⟩
    rw [State.ackMissed_plain]
    exact ⟨hack, hcur, hmem.trans hmem', himg.trans himg', hnet.trans hnet'⟩
  case again =>
    rintro s blk q n k f l u hw hb hu hbud
    have hu : u = s.sentAgain q blk l := hu
    rw [answers, exec_resendRequestRx_waiting hw hb rfl, if_neg (Nat.not_lt.mpr hbud), hu]
  case againOpen =>
    rintro s blk l u hw hb hu
    have hu : u = s.sentAgain s.openSeq blk l := hu
    rw [answers, exec_resendRequestRx_open hw hb, hu]
  case ack =>
    intro s q n k hu ht hp hc
    rw [answers, exec_transferAckRx hu ht rfl, State.ackTaken_noCommit _ _ hc, hc, if_neg (by simp [acked, hp])]
    rfl
  case ackFinal =>
    intro s q n k hu ht hp hc
    rw [answers, exec_transferAckRx hu ht rfl, State.ackTaken_noCommit _ _ hc, if_pos (by simp [acked, hp])]
    rfl
  case ackLate =>
    intro s q n k f hu ht
    exact exec_transferAckRx_late hu ht
  case block =>
    intro x blk lines fv d s k hr hd he hk hc hv hj
    rw [answers, exec_mirrorBlockRx hr he, if_pos hd, State.stageBlock_staged hk hc hv hj]
  case differs =>
    intro x blk lines fv d s hr hd he hv
    rw [answers, exec_mirrorBlockRx hr he, if_neg hd, if_neg hv]
  case complete =>
    intro c s u ht hu hc ha hl
    rw [answers, exec_closeBlockRx_complete ht hu hc, decide_eq_true ha, State.audited, if_pos rfl, if_pos hl]
  case audit =>
    intro c s u ht hu hc ha
    rw [answers, exec_closeBlockRx_complete ht hu hc, decide_eq_false ha]
  case lacks =>
    intro c s u k ht hu hc hm
    exact exec_closeBlockRx_lacks ht hu hc (hu ▸ hm)
  case snapshot =>
    intro n lines s k hr hk
    exact exec_snapshotTransferRx hr hk
  case discards =>
    intro n lines ch s h
    exact exec_snapshotTransferRx_discards h
  case chunk =>
    intro c s k hr hj he hf hk hm
    rw [answers, exec_baseChunkRx hr, hj, if_neg Bool.false_ne_true, State.takeChunk_written he hf hk hm]
  case heldChunk =>
    intro c s hr hj
    rw [answers, exec_baseChunkRx hr, if_pos hj]
  case copied =>
    intro s k u hr ht hj hk hu hh hruns
    have hu : u = s.baseDone := by rw [hu, hk]; rfl
    have hruns' : (u.parkLanes.setRole .standby).host.runs = [] := (State.setRole_runs _ _).trans hruns
    rw [answers, exec_baseCopyDone hr ht hj rfl, ← hu, hh, if_neg Bool.false_ne_true, hruns']
    rfl
  case standby =>
    intro s hr ht hj hc
    obtain ⟨hmem, hcur⟩ := State.baseDone_rested hc
    refine ⟨_, exec_baseCopyDone hr ht hj rfl, ?_, ?_, ?_⟩
    · exact (foldl_kept (fun s => s.pair.role) _ (fun s r => by simp) _ _).trans (State.setRole_role _ _)
    · exact (foldl_kept (fun s => s.pair.current) _ (fun s r => by simp) _ _).trans (by simpa using hcur)
    · exact (foldl_kept (fun s => s.mem) _ (fun s r => by simp) _ _).trans (by simpa using hmem)

end Sys2Proof.Machine
end

section
/-! What the operations of the model leave alone: the queue of waiting commands and the boot counter. In the order of the model's files. -/

namespace Sys2Proof.Machine
open Sys2Proof

/-- The queue of waiting commands and the boot counter stand. -/
@[simp, reducible] def Still (s t : State) : Prop := t.pending = s.pending ∧ t.keys.boot = s.keys.boot

theorem Still.trans {s t u : State} (h : Still s t) (k : Still t u) : Still s u := ⟨k.1.trans h.1, k.2.trans h.2⟩

/-- A run over a list leaves them, where each of its steps does. -/
@[simp] theorem foldl_still {α : Type*} (f : State → α → State) (h : ∀ s a, Still s (f s a)) (l : List α) (s : State) :
    Still s (l.foldl f s) :=
  ⟨foldl_kept State.pending f (fun s a => (h s a).1) l s, foldl_kept (·.keys.boot) f (fun s a => (h s a).2) l s⟩

/-- The same for a run that carries a value beside the state. -/
@[simp] theorem foldl_fst_still {α β : Type*} (f : State × β → α → State × β) (h : ∀ r a, Still r.1 (f r a).1) (l : List α)
    (r : State × β) :
    Still r.1 (l.foldl f r).1 := by
  induction l generalizing r with
  | nil => simp
  | cons a l ih => exact (h r a).trans (ih (f r a))

@[simp] theorem pending_ite (c : Prop) [Decidable c] (s t : State) : (if c then s else t).pending = if c then s.pending else t.pending :=
  apply_ite State.pending c s t

@[simp] theorem boot_ite (c : Prop) [Decidable c] (s t : State) :
    (if c then s else t).keys.boot = if c then s.keys.boot else t.keys.boot :=
  apply_ite (·.keys.boot) c s t

/-! ## Machine/Ops.lean -/

@[simp] theorem State.tick_still (s : State) : Still s s.tick := by
  simp [State.tick]

@[simp] theorem State.draw_still (s : State) : Still s s.draw.2 := by
  simp [State.draw]

@[simp] theorem State.restLanes_still (s : State) : Still s s.restLanes := by
  simp [State.restLanes]

@[simp] theorem State.startLanes_still (s : State) : Still s s.startLanes := by
  simp [State.startLanes]

@[simp] theorem State.invalL1_still (s : State) : Still s s.invalL1 := by
  simp [State.invalL1]

/-! ## Machine/Flags.lean -/

@[simp] theorem State.eraseBlocks_still (s : State) (p : SetHead → Bool) : Still s (s.eraseBlocks p) := by
  simp [State.eraseBlocks]

/-! ## Machine/Crypto.lean -/

@[simp] theorem State.passed_still (s : State) (i : AppImage) : Still s (s.passed i).2 := by
  unfold State.passed
  split <;> simp

@[simp] theorem State.passImage_still (s : State) (i : AppImage) : Still s (s.passImage i) := by
  simp [State.passImage]

@[simp] theorem State.keepSecret_still (s : State) (i : AppImage) : Still s (s.keepSecret i) := by
  simp [State.keepSecret]

/-! ## Machine/Halt.lean -/

@[simp] theorem State.assertVane_still (s : State) : Still s s.assertVane := by
  simp [State.assertVane]

@[simp] theorem State.latchCalm_still (s : State) (cause : Nat) (follower : Bool) (its : List Nat) (party : Nat) :
    Still s (s.latchCalm cause follower its party) := by
  simp [State.latchCalm]

@[simp] theorem State.countFault_still (s : State) (injected : Bool) : Still s (s.countFault injected) := by
  simp [State.countFault]

@[simp] theorem State.faultRecord_still (s : State) (lane : Nat) (pay : List Byte) (follow : Bool) :
    Still s (s.faultRecord lane pay follow) := by
  simp [State.faultRecord]

@[simp] theorem State.reactFault_still (s : State) (mgt : Bool) (leave : Nat) : Still s (s.reactFault mgt leave) := by
  simp [State.reactFault]

@[simp] theorem State.laneFault_still (s : State) (lane : Nat) (pay : List Byte) (injected : Bool) :
    Still s (s.laneFault lane pay injected) := by
  simp [State.laneFault]

@[simp] theorem State.release_still (s : State) (r : Rel) : Still s (s.release r) := by
  unfold State.release
  (repeat' split) <;> simp

@[simp] theorem State.releaseEvents_still (s : State) (p : EvSrc → Bool) (bytes : List Byte) : Still s (s.releaseEvents p bytes) :=
  foldl_still _ (fun s a => by simp) _ _

/-! ## Machine/TrackTable.lean -/

@[simp] theorem State.takeSnapshots_still (s : State) (standby : Bool) : Still s (s.takeSnapshots standby) := by
  simp [State.takeSnapshots]

/-! ## Machine/Command.lean -/

@[simp] theorem State.onSess_still (s : State) (n : Nat) (f : Sess → Sess) : Still s (s.onSess n f) := by
  simp [State.onSess]

@[simp] theorem State.unknownEnts_still (k : Nat) (s : State) : Still s (State.unknownEnts k s).2 := by
  induction k with
  | zero => simp [State.unknownEnts]
  | succ k ih => simp [State.unknownEnts, ih]

@[simp] theorem State.fetchAll_still (s : State) : Still s s.fetchAll := by
  simp [State.fetchAll]

@[simp] theorem State.unqueue_still (s : State) (op : Nat) (c : Cmd) : Still s (s.unqueue op c) := by
  unfold State.unqueue
  (repeat' split) <;> simp

@[simp] theorem State.readBuf_still (s : State) (c : Cmd) (dir : Nat) (inlOk : Bool) : Still s (s.readBuf c dir inlOk) := by
  unfold State.readBuf
  (repeat' split) <;> simp

@[simp] theorem State.useId_still (s : State) (op : Nat) (c : Cmd) (dir : Nat) (inlOk : Bool) : Still s (s.useId op c dir inlOk) := by
  simp [State.useId]

@[simp] theorem State.failedAt_still (s : State) (op : Nat) (c : Cmd) (d : Nat) : Still s (s.failedAt op c d) := by
  simp [State.failedAt]

@[simp] theorem State.chunkDone_still (s : State) (r : Run) (done total : Nat) : Still s (s.chunkDone r done total) := by
  simp [State.chunkDone]

/-! ## Machine/Force.lean -/

@[simp] theorem State.forceRec_still (s : State) (c : FChange) (k : Nat) : Still s (s.forceRec c k) := by
  simp [State.forceRec]

@[simp] theorem State.forceEnds_still (s : State) (k : Nat) : Still s (s.forceEnds k) := by
  unfold State.forceEnds
  dsimp only
  split
  · simp
  · exact Still.trans (by simp) (foldl_still _ (fun s r => by (repeat' split) <;> simp) _ _)

@[simp] theorem State.forceIdle_still (s : State) : Still s s.forceIdle := by
  simp [State.forceIdle]

@[simp] theorem State.effectForces_still (s : State) (out : Bool) : Still s (s.effectForces out) := by
  simp [State.effectForces]

@[simp] theorem State.dropForces_still (s : State) (p : Force → Bool) (cause : Nat) : Still s (s.dropForces p cause) := by
  simp [State.dropForces]

@[simp] theorem State.orphans_still (s : State) (img : Option AppImage) : Still s (s.orphans img) := by
  simp [State.orphans]

@[simp] theorem State.acceptForce_still (s : State) (p : Point) (v party ver : Nat) : Still s (s.acceptForce p v party ver) := by
  simp [State.acceptForce]

@[simp] theorem State.acceptReleases_still (s : State) (hit : Force → Bool) (party ver : Nat) :
    Still s (s.acceptReleases hit party ver) := by
  simp [State.acceptReleases]

@[simp] theorem releaseWhere_still (c : Cmd) (sel : Force → Bool) (s : State) : Still s (releaseWhere c sel s) := by
  simp [releaseWhere]

@[simp] theorem releaseOwn_still (c : Cmd) (pts : List Point) (s : State) : Still s (releaseOwn c pts s) := by
  simp [releaseOwn]

/-! ## Machine/Rtc.lean -/

@[simp] theorem State.netEstablished_still (s : State) (seeded : Bool) : Still s (s.netEstablished seeded) := by
  simp [State.netEstablished]

@[simp] theorem State.rtcReport_still (s : State) : Still s s.rtcReport.2 := by
  unfold State.rtcReport
  dsimp only
  (repeat' split) <;> simp

/-! ## Machine/Ageing.lean -/

@[simp] theorem State.autoStep_still (s : State) (kind inst i : Nat) : Still s (s.autoStep kind inst i) := by
  simp [State.autoStep]

@[simp] theorem State.exhaust_still (s : State) (kind inst i : Nat) : Still s (s.exhaust kind inst i) := by
  simp [State.exhaust]

@[simp] theorem State.propose_still (s : State) (p : Proposes) : Still s (s.propose p) := by
  simp [State.propose]

@[simp] theorem State.planOne_still (s : State) (i : Nat) : Still s (s.planOne i) := by
  simp [State.planOne]

/-! ## Machine/LocalIo.lean -/

@[simp] theorem State.setLevel_still (s : State) (ch : Nat) (high event : Bool) (edge : Nat) : Still s (s.setLevel ch high event edge) := by
  simp [State.setLevel]

@[simp] theorem State.outputFault_still (s : State) (ch code : Nat) : Still s (s.outputFault ch code) := by
  simp [State.outputFault]

@[simp] theorem State.tripCh_still (s : State) (ch code : Nat) : Still s (s.tripCh ch code) := by
  simp [State.tripCh]

@[simp] theorem State.tripMask_still (s : State) (group : Side) (v : Word) : Still s (s.tripMask group v) := by
  simp [State.tripMask]

@[simp] theorem State.installLio_still (s : State) (b : List LioCfg) : Still s (s.installLio b) := by
  simp [State.installLio]

@[simp] theorem State.latchLocal_still (s : State) : Still s s.latchLocal := by
  simp [State.latchLocal]

@[simp] theorem State.outLocal_still (s : State) (n : Nat) : Still s (s.outLocal n) := by
  simp [State.outLocal]

@[simp] theorem State.outSnapshot_still (s : State) : Still s s.outSnapshot := by
  simp [State.outSnapshot]

@[simp] theorem State.supplyFaults_still (s : State) : Still s s.supplyFaults := by
  simp [State.supplyFaults]

/-! ## Machine/Tracking.lean -/

@[simp] theorem State.unlinkObj_still (s : State) (n : Nat) : Still s (s.unlinkObj n) := by
  unfold State.unlinkObj
  (repeat' split) <;> simp

@[simp] theorem State.linkObj_still (s : State) (o : Obj) (l : List Nat) : Still s (s.linkObj o l) := by
  unfold State.linkObj
  dsimp only
  (repeat' split) <;> simp

@[simp] theorem State.markTrkDiff_still (s : State) (old : Trk) : Still s (s.markTrkDiff old) :=
  foldl_still _ (fun s k => foldl_still _ (fun s n => by split <;> simp) _ _) _ _

@[simp] theorem State.dropEvent_still (s : State) (seg code : Nat) : Still s (s.dropEvent seg code) := by
  simp [State.dropEvent]

@[simp] theorem State.eventFault_still (s : State) (seg obj : Nat) : Still s (s.eventFault seg obj).2 := by
  unfold State.eventFault
  dsimp only
  (repeat' split) <;> simp

@[simp] theorem State.countEvent_still (s : State) : Still s s.countEvent := by
  simp [State.countEvent]

@[simp] theorem State.advanceSeg_still (s : State) (n still : Nat) (old : Nat → SrcSt) (g : Seg) :
    Still s (s.advanceSeg n still old g) := by
  unfold State.advanceSeg
  dsimp only
  (repeat' split) <;> simp

@[simp] theorem State.windowEvent_still (s : State) (act num obj time : Nat) : Still s (s.windowEvent act num obj time) := by
  simp [State.windowEvent]

@[simp] theorem State.windowAct_still (s : State) (seg obj : Nat) (e : ActEnt) : Still s (s.windowAct seg obj e) := by
  simp [State.windowAct]

@[simp] theorem State.passWin_still (s : State) (obj i : Nat) : Still s (s.passWin obj i) := by
  simp [State.passWin]

@[simp] theorem State.examine_still (s : State) (seg i obj : Nat) : Still s (s.examine seg i obj).1 := by
  unfold State.examine
  dsimp only
  (repeat' split) <;> simp

@[simp] theorem State.loadOffsets_still (s : State) (seg : Nat) (l : List Nat) : Still s (s.loadOffsets seg l) := by
  simp [State.loadOffsets]

@[simp] theorem State.segWindows_still (s : State) (seg : Nat) (l : List Nat) : Still s (s.segWindows seg l) := by
  unfold State.segWindows
  split
  · simp
  · exact foldl_still _ (fun s i => foldl_still _ (fun s o => by split <;> simp) _ _) _ _

@[simp] theorem State.objWindows_still (s : State) (seg obj k : Nat) : Still s (s.objWindows seg obj k) := by
  induction k generalizing s with
  | zero => simp [State.objWindows]
  | succ k ih =>
    unfold State.objWindows
    dsimp only
    (repeat' split) <;> simp [ih]

@[simp] theorem State.handTo_still (s : State) (seg : Nat) (o : Obj) (h : HoCfg) (past : Coded) (time : Nat) :
    Still s (s.handTo seg o h past time).1 := by
  unfold State.handTo
  dsimp only
  (repeat' split) <;> simp

@[simp] theorem State.leaveTrack_still (s : State) (obj : Nat) : Still s (s.leaveTrack obj) := by
  simp [State.leaveTrack]

@[simp] theorem State.handOver_still (s : State) (a : Arrivals) (seg obj : Nat) : Still s (s.handOver a seg obj).1 := by
  unfold State.handOver
  dsimp only
  (repeat' split) <;> simp

@[simp] theorem State.segEvents_still (s : State) (a : Arrivals) (seg : Nat) : Still s (s.segEvents a seg).1 := by
  unfold State.segEvents
  split
  · simp
  · split
    · split <;> simp
    · exact Still.trans (by simp) (foldl_fst_still _ (fun r o => by split <;> simp) _ _)

@[simp] theorem State.arrive_still (s : State) (a : Arrivals) (obj k : Nat) : Still s (s.arrive a obj k).1 := by
  induction k generalizing s a with
  | zero => simp [State.arrive]
  | succ k ih =>
    unfold State.arrive
    split
    · simp
    · dsimp only
      (repeat' split) <;> simp [ih]

@[simp] theorem State.markLeft_still (s : State) : Still s s.markLeft := by
  simp [State.markLeft]

@[simp] theorem State.recommit_still (s : State) : Still s s.recommit := by
  simp [State.recommit]

@[simp] theorem State.backlogged_still (s : State) (late : Bool) : Still s (s.backlogged late) := by
  simp [State.backlogged]

@[simp] theorem State.trackCommit_still (s : State) (n : Nat) (w : TrkWork) : Still s (s.trackCommit n w) := by
  simp [State.trackCommit]

/-- An object that is placed leaves the queue and the boot counter. -/
theorem State.place_still {s t : State} {o : Obj} {g : Seg} {pos : Int} (h : s.place o g pos = .inl t) : Still s t := by
  unfold State.place at h
  dsimp only at h
  repeat' split at h
  all_goals cases h
  simp

@[simp] theorem State.cmdEffect_still (s : State) (op : Nat) (w : CmdWin) : Still s (s.cmdEffect op w).2.2 := by
  unfold State.cmdEffect
  dsimp only
  (repeat' split) <;> simp
  · exact State.place_still ‹_›
  · exact Still.trans (State.unlinkObj_still _ _) (State.place_still ‹_›)

@[simp] theorem State.trkGo_still (s : State) (lane op : Nat) (rsvd : Bool) : Still s (s.trkGo lane op rsvd) := by
  unfold State.trkGo
  dsimp only
  (repeat' split) <;> simp

/-! ## Machine/Windbreak.lean -/

@[simp] theorem State.violate_still (s : State) (t : Txn) (reason region addr : Nat) (straddle : Bool) :
    Still s (s.violate t reason region addr straddle) := by
  simp [State.violate]

@[simp] theorem State.storeIn_still (s : State) (cls : Fin 8) (engine a : Nat) (bs : List Byte) : Still s (s.storeIn cls engine a bs) := by
  simp [State.storeIn]

@[simp] theorem State.updateSet_still (s : State) : Still s s.updateSet := by
  simp [State.updateSet]

@[simp] theorem State.loadSet_still (s : State) (v : Nat) : Still s (s.loadSet v) := by
  simp [State.loadSet]

@[simp] theorem State.rgnWrite_still (s : State) (r : Fin 64) (reg : Nat) (v : Word) : Still s (s.rgnWrite r reg v) := by
  simp [State.rgnWrite]

/-! ## Machine/Recorder.lean -/

@[simp] theorem State.exportCopy_still (s : State) (r : Run) (upto : Nat) : Still s (s.exportCopy r upto).1 := by
  unfold State.exportCopy
  (repeat' split) <;> simp

@[simp] theorem State.exportEnd_still (s : State) (r : Run) (ok : Bool) : Still s (s.exportEnd r ok) := by
  unfold State.exportEnd
  dsimp only
  (repeat' split) <;> simp

@[simp] theorem State.clearedSpan_still (s : State) : Still s s.clearedSpan.2.2 := by
  unfold State.clearedSpan
  split <;> simp

@[simp] theorem clearOwn_still (c : Cmd) (action : Nat) (s : State) : Still s (clearOwn c action s) := by
  simp [clearOwn]

@[simp] theorem State.archiveOne_still (s : State) (r : Rec) : Still s (s.archiveOne r) := by
  simp [State.archiveOne]

@[simp] theorem State.flushHold_still (s : State) : Still s s.flushHold := by
  simp [State.flushHold]

@[simp] theorem State.serveRing_still (s : State) : Still s s.serveRing := by
  simp [State.serveRing]

/-! ## Machine/LaneTasks.lean -/

@[simp] theorem State.setLaneCtx_still (s : State) (l : Nat) (c : Word × Word × Word × Word × Word × Word × Word) :
    Still s (s.setLaneCtx l c) := by
  simp [State.setLaneCtx]

@[simp] theorem State.preempt_still (s : State) (l : Nat) (c : Side) (t : TaskCfg) : Still s (s.preempt l c t) := by
  simp [State.preempt]

@[simp] theorem State.dispatch_still (s : State) (l : Nat) (c : Side) (t : TaskCfg) : Still s (s.dispatch l c t) := by
  unfold State.dispatch
  split <;> simp

@[simp] theorem State.curWrite_still (s : State) (l : Nat) (c : Side) (v : Word) : Still s (s.curWrite l c v) := by
  unfold State.curWrite
  dsimp only
  (repeat' split) <;> simp

@[simp] theorem State.taskDone_still (s : State) (l : Nat) (c : Side) (v : Word) : Still s (s.taskDone l c v) := by
  unfold State.taskDone
  dsimp only
  (repeat' split) <;> simp

/-! ## Machine/Reset.lean -/

@[simp] theorem State.settleCtrl_still (s : State) : Still s s.settleCtrl := by
  unfold State.settleCtrl
  dsimp only
  (repeat' split) <;> simp

@[simp] theorem State.wipeArchive_still (s : State) : Still s s.wipeArchive := by
  simp [State.wipeArchive]

@[simp] theorem State.wipeSettings_still (s : State) : Still s s.wipeSettings := by
  simp [State.wipeSettings]

@[simp] theorem State.wipePlan_still (s : State) : Still s s.wipePlan := by
  simp [State.wipePlan]

@[simp] theorem State.wipeKeys_still (s : State) : Still s s.wipeKeys := by
  simp [State.wipeKeys]

@[simp] theorem State.wipeBkp_still (s : State) : Still s s.wipeBkp := by
  simp [State.wipeBkp]

@[simp] theorem State.wipeApps_still (s : State) : Still s s.wipeApps := by
  simp [State.wipeApps]

@[simp] theorem State.wipeFor_still (s : State) (target : Nat) : Still s (s.wipeFor target) := by
  unfold State.wipeFor
  split <;> simp

@[simp] theorem State.fuse_still (s : State) (x : StateChange) : Still s (s.fuse x) := by
  simp [State.fuse]

@[simp] theorem State.finishChange_still (s : State) : Still s s.finishChange := by
  unfold State.finishChange
  split <;> simp

@[simp] theorem State.clearedForces_still (s : State) (gone : List Force) : Still s (s.clearedForces gone) := by
  simp [State.clearedForces]

/-! ## Machine/HostRings.lean -/

@[simp] theorem State.sqTail_still (s : State) (q v : Nat) (ents : List SqEnt) : Still s (s.sqTail q v ents) := by
  simp [State.sqTail]

@[simp] theorem State.flushCq_still (s : State) (q : Nat) : Still s (s.flushCq q) := by
  simp [State.flushCq]

@[simp] theorem State.cqHead_still (s : State) (q v : Nat) : Still s (s.cqHead q v) := by
  simp [State.cqHead]

@[simp] theorem State.evError_still (s : State) (reason : Nat) : Still s (s.evError reason) := by
  simp [State.evError]

@[simp] theorem State.evHead_still (s : State) (v : Nat) : Still s (s.evHead v) := by
  simp [State.evHead]

@[simp] theorem State.doorbell_still (s : State) (o v : Nat) : Still s (s.doorbell o v) := by
  simp [State.doorbell]

@[simp] theorem State.queueEnable_still (s : State) : Still s s.queueEnable := by
  unfold State.queueEnable
  dsimp only
  (repeat' split) <;> simp

@[simp] theorem State.stopQueue_still (s : State) (q : Fin 8) : Still s (s.stopQueue q) := by
  simp [State.stopQueue]

@[simp] theorem State.evSettle_still (s : State) : Still s s.evSettle := by
  simp [State.evSettle]

@[simp] theorem State.evDisable_still (s : State) : Still s s.evDisable := by
  simp [State.evDisable]

@[simp] theorem State.evEnable_still (s : State) : Still s s.evEnable := by
  unfold State.evEnable
  dsimp only
  (repeat' split) <;> simp

@[simp] theorem State.resetWrite_still (s : State) (k : Nat) : Still s (s.resetWrite k) := by
  simp [State.resetWrite]

@[simp] theorem State.stopRings_still (s : State) : Still s s.stopRings := by
  simp [State.stopRings]

@[simp] theorem State.pairCtrl_still (s : State) (v : Word) : Still s (s.pairCtrl v) := by
  simp [State.pairCtrl]

@[simp] theorem State.ethApply_still (s : State) (port : Fin 2) (v : Nat) : Still s (s.ethApply port v) := by
  simp [State.ethApply]

/-! ## Machine/Interconnect.lean -/

@[simp] theorem State.hqWrite_still (s : State) (o : Nat) (v : Word) (f : HQ → HQ) : Still s (s.hqWrite o v f) := by
  simp [State.hqWrite]

@[simp] theorem State.evWrite_still (s : State) (o : Nat) (v : Word) (f : EvRing → EvRing) : Still s (s.evWrite o v f) := by
  simp [State.evWrite]

@[simp] theorem State.ethWrite_still (s : State) (p : Fin 2) (o : Nat) (v : Word) : Still s (s.ethWrite p o v) := by
  unfold State.ethWrite
  (repeat' split) <;> simp

@[simp] theorem State.msiWrite_still (s : State) (o : Nat) (v : Word) : Still s (s.msiWrite o v) := by
  simp [State.msiWrite]

@[simp] theorem State.write4_still (s : State) (o : Nat) (v : Word) : Still s (s.write4 o v) := by
  unfold State.write4
  (repeat' split) <;> simp

@[simp] theorem State.writeLane_still (s : State) (l : Nat) (c : Side) (o : Nat) (v : Word) : Still s (s.writeLane l c o v) := by
  unfold State.writeLane
  split <;> simp

@[simp] theorem State.trkWrite_still (s : State) (l reg : Nat) (v : Word) : Still s (s.trkWrite l reg v) := by
  unfold State.trkWrite
  split <;> simp

@[simp] theorem State.write20_still (s : State) (o : Nat) (v : Word) : Still s (s.write20 o v) := by
  simp [State.write20]

@[simp] theorem State.actWrite_still (s : State) (l reg : Nat) (v : Word) : Still s (s.actWrite l reg v) := by
  unfold State.actWrite
  split <;> simp

@[simp] theorem State.write22_still (s : State) (o : Nat) (v : Word) : Still s (s.write22 o v) := by
  simp [State.write22]

@[simp] theorem State.faultPay_still (s : State) (lane kind lead item : Nat) (a b : Option Item) (injected : Bool) :
    Still s (s.faultPay lane kind lead item a b injected).2 := by
  constructor <;> (unfold State.faultPay; simp)

@[simp] theorem State.endInject_still (s : State) (i : Inject) (ok : Bool) (r0 : Nat) : Still s (s.endInject i ok r0) := by
  unfold State.endInject
  dsimp only
  (repeat' split) <;> simp

@[simp] theorem State.latchFault_still (s : State) (lane kind lead item : Nat) (a b : Option Item) :
    Still s (s.latchFault lane kind lead item a b) := by
  unfold State.latchFault
  dsimp only
  (repeat' split) <;> simp

@[simp] theorem State.memFault_still (s : State) (addr cls : Nat) : Still s (s.memFault addr cls) := by
  simp [State.memFault]

@[simp] theorem State.answer_still (s : State) (d : List Byte) : Still s (s.answer d) := by
  simp [State.answer]

@[simp] theorem State.codeRefuse_still (s : State) (h : Held) (mem : Bool) : Still s (s.codeRefuse h mem) := by
  unfold State.codeRefuse
  (repeat' split) <;> simp

@[simp] theorem State.breakRes_still (s : State) (a : Nat) : Still s (s.breakRes a) := by
  simp [State.breakRes]

@[simp] theorem State.putBytes_still (s : State) (a : Nat) (d : List Byte) : Still s (s.putBytes a d) := by
  simp [State.putBytes]

@[simp] theorem State.memAccess_still (s : State) (h : Held) : Still s (s.memAccess h) := by
  unfold State.memAccess
  dsimp only
  (repeat' split) <;> simp

@[simp] theorem State.injectAt_still (s : State) (lane : Nat) (copy : Side) (num : Nat) (i : Item) :
    Still s (s.injectAt lane copy num i).2 := by
  unfold State.injectAt
  dsimp only
  (repeat' split) <;> simp

@[simp] theorem State.injectRepair_still (s : State) (lane addr : Nat) : Still s (s.injectRepair lane addr) := by
  unfold State.injectRepair
  (repeat' split) <;> simp

@[simp] theorem State.latchOne_still (s : State) (lane kind : Nat) (c : Side) (num : Nat) (i : Item) :
    Still s (s.latchOne lane kind c num i) := by
  unfold State.latchOne
  split <;> simp

/-! ## Machine/Mirror.lean -/

@[simp] theorem State.endLull_still (s : State) : Still s s.endLull := by
  simp [State.endLull]

@[simp] theorem State.shipBlock_still (s : State) (xfer block : Nat) (lines : List Nat) : Still s (s.shipBlock xfer block lines) := by
  simp [State.shipBlock]

@[simp] theorem State.shipLines_still (s : State) (lines : List Nat) : Still s (s.shipLines lines) := by
  simp [State.shipLines]

@[simp] theorem State.markStale_still (s : State) : Still s s.markStale := by
  simp [State.markStale]

@[simp] theorem State.cannotClose_still (s : State) (kib : Nat) : Still s (s.cannotClose kib) := by
  simp [State.cannotClose]

@[simp] theorem State.shipForces_still (s : State) : Still s s.shipForces := by
  simp [State.shipForces]

@[simp] theorem State.closeTransfer_still (s : State) (final : Bool) : Still s (s.closeTransfer final) := by
  simp [State.closeTransfer]

@[simp] theorem State.giveUp_still (s : State) (kib : Nat) : Still s (s.giveUp kib) := by
  simp [State.giveUp]

@[simp] theorem State.ackMissed_still (s : State) (lines : Nat) (final : Bool) : Still s (s.ackMissed lines final) := by
  simp [State.ackMissed]

@[simp] theorem State.writeLine_still (s : State) (x : Span) : Still s (s.writeLine x) := by
  simp [State.writeLine]

@[simp] theorem State.engChecked_still (s : State) (l : List Span) : Still s (s.engChecked l) := by
  simp [State.engChecked]

@[simp] theorem State.writeLines_still (s : State) (l : List Span) : Still s (s.writeLines l) :=
  foldl_still _ (fun s a => by simp) _ _

@[simp] theorem State.rejoinPause_still (s : State) : Still s s.rejoinPause := by
  unfold State.rejoinPause
  simp [foldl_kept]

@[simp] theorem State.standbySwitch_still (s : State) : Still s s.standbySwitch := by
  unfold State.standbySwitch
  split <;> simp

@[simp] theorem State.becomeCurrent_still (s : State) : Still s s.becomeCurrent := by
  simp [State.becomeCurrent]

@[simp] theorem State.takeFinal_still (s : State) (fin : Option FinalClose) : Still s (s.takeFinal fin) := by
  unfold State.takeFinal
  split <;> simp

@[simp] theorem State.auditGot_still (s : State) (got : Nat → Bool) : Still s (s.auditGot got) := by
  simp [State.auditGot]

@[simp] theorem State.audited_still (s : State) (ok : Bool) (slice : Nat) : Still s (s.audited ok slice) := by
  simp [State.audited]

@[simp] theorem State.applyClose_still (s : State) (c : CloseBlk) : Still s (s.applyClose c) := by
  simp [State.applyClose]

@[simp] theorem State.tryClose_still (s : State) : Still s s.tryClose := by
  unfold State.tryClose
  dsimp only
  (repeat' split) <;> simp

@[simp] theorem State.stageBlock_still (s : State) (xfer block : Nat) (lines : List Span) (forceVer : Option Nat) :
    Still s (s.stageBlock xfer block lines forceVer) := by
  simp [State.stageBlock]

@[simp] theorem State.blockDiffers_still (s : State) (xfer block : Nat) : Still s (s.blockDiffers xfer block) := by
  simp [State.blockDiffers]

@[simp] theorem State.shipSnapshot_still (s : State) (old : List Host.Cell) : Still s (s.shipSnapshot old) := by
  simp [State.shipSnapshot]

@[simp] theorem State.keepSent_still (s : State) (cycle : Nat) : Still s (s.keepSent cycle) := by
  unfold State.keepSent
  split <;> simp

@[simp] theorem State.takeChunk_still (s : State) (chunk : Span) : Still s (s.takeChunk chunk) := by
  simp [State.takeChunk]

@[simp] theorem State.rejoinOn_still (s : State) : Still s s.rejoinOn :=
  foldl_still _ (fun s a => by simp) _ _

/-! ## Machine/App.lean -/

@[simp] theorem State.safeChanged_still (s : State) (old new_ : List PtCfg) : Still s (s.safeChanged old new_) := by
  simp [State.safeChanged]

@[simp] theorem State.install_still (s : State) (i : AppImage) : Still s (s.install i) := by
  simp [State.install]

@[simp] theorem State.loadDone_still (s : State) (i : AppImage) : Still s (s.loadDone i) := by
  simp [State.loadDone]

@[simp] theorem State.loadEnd_still (s : State) (r : Run) (i : AppImage) : Still s (s.loadEnd r i) := by
  simp [State.loadEnd]

@[simp] theorem State.discardHeld_still (s : State) : Still s s.discardHeld := by
  simp [State.discardHeld]

@[simp] theorem State.bothStaged_still (s : State) : Still s s.bothStaged := by
  unfold State.bothStaged
  (repeat' split) <;> simp

@[simp] theorem State.stageApp_still (s : State) (recv i : AppImage) : Still s (s.stageApp recv i) := by
  simp [State.stageApp]

@[simp] theorem State.stageFw_still (s : State) (i : AppImage) : Still s (s.stageFw i) := by
  simp [State.stageFw]

@[simp] theorem State.fwStaged_still (s : State) (r : Run) : Still s (s.fwStaged r) := by
  simp [State.fwStaged]

@[simp] theorem State.partnerSays_still (s : State) (r : Run) (ok : Bool) (status : Nat) : Still s (s.partnerSays r ok status) := by
  unfold State.partnerSays
  (repeat' split) <;> simp

@[simp] theorem State.partnerDone_still (s : State) (kind : ReportKind) (ok : Bool) (status : Nat) :
    Still s (s.partnerDone kind ok status) := by
  unfold State.partnerDone
  (repeat' split) <;> simp

@[simp] theorem State.heardMeanwhile_still (s : State) : Still s s.heardMeanwhile := by
  unfold State.heardMeanwhile
  split <;> simp

@[simp] theorem State.partnerGone_still (s : State) : Still s s.partnerGone := by
  unfold State.partnerGone
  split <;> simp

@[simp] theorem State.activateStaged_still (s : State) : Still s s.activateStaged := by
  unfold State.activateStaged
  (repeat' split) <;> simp

@[simp] theorem State.haltSplit_still (s : State) : Still s s.haltSplit :=
  foldl_still _ (fun s t => by dsimp only; split <;> simp) _ _

@[simp] theorem State.migrate_still (s : State) (rs : List MigRule) (b : AppBody) : Still s (s.migrate rs b) := by
  unfold State.migrate
  simp [foldl_kept]

@[simp] theorem State.abandon_still (s : State) (c : Change) : Still s (s.abandon c) := by
  unfold State.abandon
  dsimp only
  (repeat' split) <;> simp

@[simp] theorem State.changeTracking_still (s : State) (b : AppBody) : Still s (s.changeTracking b) := by
  simp [State.changeTracking]

@[simp] theorem State.changeForces_still (s : State) (c : Change) : Still s (s.changeForces c) := by
  simp [State.changeForces]

@[simp] theorem State.dropRel_still (s : State) (n : Nat) : Still s (s.dropRel n) := by
  simp [State.dropRel]

@[simp] theorem State.changeTasks_still (s : State) (old new_ : List TaskCfg) : Still s (s.changeTasks old new_) := by
  simp [State.changeTasks]

@[simp] theorem State.fromQueue_still (s : State) (t : TaskCfg) : Still s (s.fromQueue t) := by
  unfold State.fromQueue
  (repeat' split) <;> simp

@[simp] theorem State.readyBackground_still (s : State) : Still s s.readyBackground := by
  simp [State.readyBackground]

@[simp] theorem State.deliverHeld_still (s : State) : Still s s.deliverHeld := by
  simp [State.deliverHeld]

@[simp] theorem State.forceVars_still (s : State) : Still s s.forceVars :=
  foldl_still _ (fun s f => by dsimp only; (repeat' split) <;> simp) _ _

@[simp] theorem State.changeInstant_still (s : State) : Still s s.changeInstant := by
  have ended (t : State) (k : Word) : Still t (match t.changeRun with
      | some r => t.endRun r stOk dNone k
      | none => t) := by split <;> simp
  unfold State.changeInstant
  split
  · simp
  · (repeat' split) <;> first | exact Still.trans (by simp) (ended _ _) | simp

@[simp] theorem State.appStart_still (s : State) : Still s s.appStart := by
  simp [State.appStart]

/-! ## Machine/Firmware.lean -/

@[simp] theorem State.markTrial_still (s : State) : Still s s.markTrial := by
  simp [State.markTrial]

@[simp] theorem State.handoverOrder_still (s : State) : Still s s.handoverOrder := by
  simp [State.handoverOrder]

@[simp] theorem State.confirmFw_still (s : State) : Still s s.confirmFw := by
  simp [State.confirmFw]

@[simp] theorem State.fallbackFw_still (s : State) : Still s s.fallbackFw := by
  simp [State.fallbackFw]

@[simp] theorem State.startFails_still (s : State) : Still s s.startFails := by
  simp [State.startFails]

/-! ## Machine/NetCfg.lean -/

@[simp] theorem State.storeCfg_still (s : State) (c : NetCfg) : Still s (s.storeCfg c) := by
  simp [State.storeCfg]

@[simp] theorem State.dueLio_still (s : State) (b : List LioCfg) : Still s (s.dueLio b) := by
  simp [State.dueLio]

@[simp] theorem State.lioTaken_still (s : State) : Still s s.lioTaken := by
  simp [State.lioTaken]

@[simp] theorem State.netReported_still (s : State) (ok : Bool) : Still s (s.netReported ok) := by
  unfold State.netReported
  (repeat' split) <;> simp

@[simp] theorem holdNext_still (c : Cmd) (cfg : NetCfg) (s : State) : Still s (holdNext c cfg s) := by
  simp [holdNext]

@[simp] theorem State.beginSched_still (s : State) (run cfg : NetCfg) : Still s (s.beginSched run cfg) := by
  simp [State.beginSched]

@[simp] theorem netNow_still (c : Cmd) (run cfg : NetCfg) (s : State) : Still s (netNow c run cfg s) := by
  simp [netNow]

/-! ## Machine/Pair.lean -/

@[simp] theorem State.partnerAway_still (s : State) : Still s s.partnerAway := by
  simp [State.partnerAway]

@[simp] theorem State.leaveMessage_still (s : State) : Still s s.leaveMessage := by
  simp [State.leaveMessage]

@[simp] theorem State.startRejoin_still (s : State) : Still s s.startRejoin := by
  simp [State.startRejoin]

@[simp] theorem State.tellStns_still (s : State) (p : StnM → Bool) : Still s (s.tellStns p) := by
  simp [State.tellStns]

@[simp] theorem State.shipBase_still (s : State) (h : Heartbeat) : Still s (s.shipBase h) := by
  have sent (t : State) (m : PairMsg) : Still t (t.send m) := by simp
  refine Still.trans (Still.trans ?_ (Still.trans (State.tellStns_still _ _) (sent _ _))) (foldl_still _ (fun s c => by simp) _ _)
  dsimp only
  split <;> split
  · simp
  · simp
  · refine Still.trans ?_ (foldl_still _ (fun s x => by split <;> simp) _ _)
    simp
  · exact foldl_still _ (fun s x => by split <;> simp) _ _

@[simp] theorem State.followCalm_still (s : State) (h : Heartbeat) : Still s (s.followCalm h) := by
  simp [State.followCalm]

@[simp] theorem State.dirtySlice_still (s : State) : Still s s.dirtySlice := by
  unfold State.dirtySlice
  dsimp only
  (repeat' split) <;> simp

@[simp] theorem State.standbyStale_still (s : State) (h : Heartbeat) : Still s (s.standbyStale h) := by
  simp [State.standbyStale]

@[simp] theorem State.handoverBeat_still (s : State) (h : Heartbeat) : Still s (s.handoverBeat h) := by
  unfold State.handoverBeat
  dsimp only
  (repeat' split) <;> simp

@[simp] theorem State.beatPrimary_still (s : State) (prev : Nat) (h : Heartbeat) : Still s (s.beatPrimary prev h) := by
  simp [State.beatPrimary]

@[simp] theorem State.heldBeat_still (s : State) (hb : Heartbeat) (leave : Nat) : Still s (s.heldBeat hb leave) := by
  simp [State.heldBeat]

@[simp] theorem State.takeBeat_still (s : State) (prev : Nat) (hb : Heartbeat) : Still s (s.takeBeat prev hb) := by
  simp [State.takeBeat]

@[simp] theorem State.issueReset_still (s : State) : Still s s.issueReset := by
  simp [State.issueReset]

@[simp] theorem State.firstPrimary_still (s : State) : Still s s.firstPrimary := by
  simp [State.firstPrimary]

@[simp] theorem State.takeRole_still (s : State) : Still s s.takeRole := by
  simp [State.takeRole]

@[simp] theorem State.roleAgain_still (s : State) : Still s s.roleAgain := by
  simp [State.roleAgain]

@[simp] theorem State.tasksAnew_still (s : State) (flag : Bool) : Still s (s.tasksAnew flag) := by
  simp [State.tasksAnew]

@[simp] theorem State.stationsAnew_still (s : State) : Still s s.stationsAnew := by
  simp [State.stationsAnew]

@[simp] theorem State.tellAnew_still (s : State) : Still s s.tellAnew := by
  simp [State.tellAnew]

@[simp] theorem State.voidChange_still (s : State) : Still s s.voidChange := by
  simp [State.voidChange]

@[simp] theorem State.switchOut_still (s : State) : Still s s.switchOut := by
  simp [State.switchOut]

@[simp] theorem State.rejoinCancel_still (s : State) : Still s s.rejoinCancel := by
  simp [State.rejoinCancel]

/-! ## Machine/Extract.lean -/

@[simp] theorem State.hifOff_still (s : State) : Still s s.hifOff := by
  simp [State.hifOff]

@[simp] theorem State.flashCommit_still (s : State) : Still s s.flashCommit := by
  simp [State.flashCommit]

@[simp] theorem State.memoryOff_still (s : State) : Still s s.memoryOff := by
  simp [State.memoryOff]

@[simp] theorem State.enterHold_still (s : State) : Still s s.enterHold := by
  simp [State.enterHold]

/-! ## Machine/Debug.lean -/

@[simp] theorem State.dbgRefuse_still (s : State) (its : List Nat) : Still s (s.dbgRefuse its) := by
  simp [State.dbgRefuse]

/-! ## Machine/Lifecycle.lean -/

@[simp] theorem State.lifeRecord_still (s : State) (target party : Nat) : Still s (s.lifeRecord target party) := by
  simp [State.lifeRecord]

@[simp] theorem State.lifeBurn_still (s : State) (x : StateChange) : Still s (s.lifeBurn x) := by
  simp [State.lifeBurn]

@[simp] theorem keySetDone_still (c : Cmd) (s : State) : Still s (keySetDone c s) := by
  simp [keySetDone]

@[simp] theorem closeParty_still (c : Cmd) (p : Sess → Bool) (s : State) : Still s (closeParty c p s) := by
  simp [closeParty]

/-! ## Machine/LongOps.lean -/

@[simp] theorem State.cancelRun_still (s : State) (r : Run) : Still s (s.cancelRun r) := by
  unfold State.cancelRun
  split <;> simp

@[simp] theorem State.verified_still (s : State) (r : Run) (checked failed : Nat) (ok : Bool) :
    Still s (s.verified r checked failed ok) := by
  simp [State.verified]

@[simp] theorem State.snapCopy_still (s : State) (r : Run) (b : List Byte) (done : Nat) : Still s (s.snapCopy r b done) := by
  unfold State.snapCopy
  split <;> simp

@[simp] theorem State.snapDone_still (s : State) (r : Run) (img : Option (List Byte)) (e : ChunkEnd) : Still s (s.snapDone r img e) := by
  unfold State.snapDone
  (repeat' split) <;> simp

/-! ## Machine/StationMgr.lean -/

@[simp] theorem State.refuseStn_still (s : State) (code reason : Nat) : Still s (s.refuseStn code reason) := by
  unfold State.refuseStn
  (repeat' split) <;> simp

@[simp] theorem State.joinStn_still (s : State) (c : NetCfg) (code : Nat) (p : StnPar) : Still s (s.joinStn c code p) := by
  simp [State.joinStn]

@[simp] theorem State.modeDue_still (s : State) (c : NetCfg) (code : Nat) : Still s (s.modeDue c code) := by
  unfold State.modeDue
  (repeat' split) <;> simp

@[simp] theorem State.readBack_still (s : State) (code : Nat) : Still s (s.readBack code) := by
  unfold State.readBack
  split <;> simp

@[simp] theorem State.countersRead_still (s : State) (code : Nat) (d : List Byte) : Still s (s.countersRead code d) := by
  unfold State.countersRead
  split <;> simp

@[simp] theorem State.cfgOk_still (s : State) (c : NetCfg) (r : CfgReq) (d : List Byte) : Still s (s.cfgOk c r d) := by
  unfold State.cfgOk
  dsimp only
  (repeat' split) <;> simp

@[simp] theorem State.cfgAnswer_still (s : State) (c : NetCfg) (r : CfgReq) (p : List Byte) : Still s (s.cfgAnswer c r p) := by
  simp [State.cfgAnswer]

@[simp] theorem State.becalmOver_still (s : State) (ch : Side) (code l : Nat) : Still s (s.becalmOver ch code l) := by
  simp [State.becalmOver]

@[simp] theorem State.cutOff_still (s : State) (branch : Nat) : Still s (s.cutOff branch) := by
  simp [State.cutOff]

@[simp] theorem State.guardCut_still (s : State) (ch : Side) (code pos param : Nat) : Still s (s.guardCut ch code pos param) := by
  simp [State.guardCut]

@[simp] theorem State.evtEntry_still (s : State) (ch : Side) (code : Nat) (e : List Byte) : Still s (s.evtEntry ch code e) := by
  unfold State.evtEntry
  dsimp only
  (repeat' split) <;> simp

@[simp] theorem State.delaysLost_still (s : State) (code : Nat) (ch : Side) : Still s (s.delaysLost code ch) := by
  unfold State.delaysLost
  dsimp only
  (repeat' split) <;> simp

@[simp] theorem State.delayReport_still (s : State) (ch : Side) (t4 code : Nat) (d : List Byte) :
    Still s (s.delayReport ch t4 code d) := by
  have measured (t : State) : Still t (match t.stnAt code with
      | some x => t.measure x ch
      | none => t) := by split <;> simp
  refine Still.trans ?_ (measured _)
  simp only [Still, State.onStnM_frame, pending_ite, boot_ite, State.delaysLost_still, ite_self, and_self]

/-! ## Machine/Cycle.lean -/

@[simp] theorem State.passSync_still (s : State) : Still s s.passSync := by
  unfold State.passSync
  dsimp only
  (repeat' split) <;> simp

@[simp] theorem State.leadTo_still (s : State) (side : Side) (st : Start) (n : Nat) : Still s (s.leadTo side st n) := by
  simp [State.leadTo]

@[simp] theorem State.timeLost_still (s : State) : Still s s.timeLost := by
  simp [State.timeLost]

@[simp] theorem State.leadStep_still (s : State) (n : Nat) : Still s (s.leadStep n).1 := by
  unfold State.leadStep
  (repeat' split) <;> simp

@[simp] theorem State.openBranches_still (s : State) : Still s s.openBranches := by
  simp [State.openBranches]

@[simp] theorem State.joinCycle_still (s : State) (c : NetCfg) (t : Nat) : Still s (s.joinCycle c t) := by
  unfold State.joinCycle
  dsimp only
  (repeat' split) <;> simp

@[simp] theorem State.leadAlone_still (s : State) (c : NetCfg) (t : Nat) : Still s (s.leadAlone c t) := by
  simp [State.leadAlone]

@[simp] theorem State.lioAtStill_still (s : State) : Still s s.lioAtStill := by
  unfold State.lioAtStill
  (repeat' split) <;> simp

@[simp] theorem State.switchStill_still (s : State) : Still s s.switchStill := by
  unfold State.switchStill
  (repeat' split) <;> simp

@[simp] theorem State.stnClose_still (s : State) (c : NetCfg) (x : StnM) : Still s (s.stnClose c x).1 := by
  simp [State.stnClose]

@[simp] theorem State.keepLocal_still (s : State) (l : List InPt) : Still s (s.keepLocal l) := by
  simp [State.keepLocal]

@[simp] theorem State.forceInputs_still (s : State) (l : List InPt) : Still s (s.forceInputs l).1 := by
  simp [State.forceInputs]

@[simp] theorem State.keepWord_still (s : State) (m : List Host.Cell) : Still s (s.keepWord m).2 := by
  simp [State.keepWord]

@[simp] theorem State.copyChecked_still (s : State) (e : CodeErr) : Still s (s.copyChecked e) := by
  unfold State.copyChecked
  split <;> simp

@[simp] theorem State.commitBank_still (s : State) (l : List InPt) (e : CodeErr) : Still s (s.commitBank l e) := by
  unfold State.commitBank
  dsimp only
  split <;> simp

@[simp] theorem State.commitInputs_still (s : State) (c : NetCfg) (e : CodeErr) : Still s (s.commitInputs c e) := by
  simp [State.commitInputs]

@[simp] theorem State.cyclicReleases_still (s : State) : Still s s.cyclicReleases :=
  foldl_still _ (fun s a => by simp) _ _

@[simp] theorem State.errorReleases_still (s : State) (l : List (Nat × List Byte)) : Still s (s.errorReleases l) :=
  foldl_still _ (fun _ _ => foldl_still _ (fun _ _ => State.release_still _ _) _ _) _ _

@[simp] theorem State.publish_still (s : State) : Still s s.publish := by
  unfold State.publish
  dsimp only
  split <;> simp

@[simp] theorem State.parkIdle_still (s : State) : Still s s.parkIdle := by
  simp [State.parkIdle]

@[simp] theorem State.forceOutputs_still (s : State) (l : List OutPt) : Still s (s.forceOutputs l).1 := by
  simp [State.forceOutputs]

@[simp] theorem State.markDiff_still (s : State) (old : List Host.Cell) (a k : Nat) : Still s (s.markDiff old a k) := by
  simp [State.markDiff]

@[simp] theorem State.takeOutputs_still (s : State) (l : List OutPt) : Still s (s.takeOutputs l) := by
  simp [State.takeOutputs]

@[simp] theorem State.readyFrame_still (s : State) (i : Nat) (f : Frame) : Still s (s.readyFrame i f) := by
  simp [State.readyFrame]

@[simp] theorem State.sendOut_still (s : State) (c : NetCfg) (x : StnM) : Still s (s.sendOut c x) := by
  simp [State.sendOut]

@[simp] theorem State.placeEntry_still (s : State) (places : List Place) (e : ActEnt) : Still s (s.placeEntry places e).1 := by
  unfold State.placeEntry
  dsimp only
  (repeat' split) <;> simp

@[simp] theorem State.placeCancels_still (s : State) (places : List Place) : Still s (s.placeCancels places).1 := by
  simp [State.placeCancels]

@[simp] theorem State.sendAct_still (s : State) (c : NetCfg) : Still s (s.sendAct c) := by
  simp [State.sendAct]

@[simp] theorem State.forceCame_still (s : State) (coming : List Point) : Still s (s.forceCame coming) := by
  simp [State.forceCame]

@[simp] theorem State.forceCancels_still (s : State) (cut : Nat) : Still s (s.forceCancels cut) := by
  simp [State.forceCancels]

@[simp] theorem State.lullOver_still (s : State) : Still s s.lullOver := by
  simp [State.lullOver]

@[simp] theorem State.switchCut_still (s : State) : Still s s.switchCut := by
  unfold State.switchCut
  (repeat' split) <;> simp

@[simp] theorem State.readyOutputs_still (s : State) : Still s s.readyOutputs := by
  simp [State.readyOutputs]

@[simp] theorem State.expects_still (s : State) (w : WinEnt) : Still s (s.expects w).2 := by
  unfold State.expects
  dsimp only
  (repeat' split) <;> simp

/-! ## Machine/ColdStart.lean -/

@[simp] theorem State.transfer_still (s : State) (d : Nat) : Still s (s.transfer d).1 := by
  unfold State.transfer
  dsimp only
  (repeat' split) <;> simp

@[simp] theorem State.contend_still (s : State) (other joinAt t : Nat) : Still s (s.contend other joinAt t) := by
  simp [State.contend]

@[simp] theorem State.partnerContent_still (s : State) (p : SyncContent) : Still s (s.partnerContent p) := by
  unfold State.partnerContent
  dsimp only
  (repeat' split) <;> simp

@[simp] theorem State.lockTo_still (s : State) (last : Option Nat) (offset : Int) : Still s (s.lockTo last offset) := by
  simp [State.lockTo]

@[simp] theorem State.seedTime_still (s : State) : Still s s.seedTime := by
  simp [State.seedTime]

@[simp] theorem State.proposeNet_still (s : State) (c : NetCfg) : Still s (s.proposeNet c) := by
  simp [State.proposeNet]

/-! ## Machine/Power.lean -/

@[simp] theorem State.holdupStart_still (s : State) : Still s s.holdupStart := by
  simp [State.holdupStart]

@[simp] theorem State.feedLost_still (s : State) (k : Side) (code : Nat) : Still s (s.feedLost k code) := by
  simp [State.feedLost]

@[simp] theorem State.nextStage_still (s : State) : Still s s.nextStage := by
  simp [State.nextStage]

@[simp] theorem State.bkpStart_still (s : State) (ok : Bool) : Still s (s.bkpStart ok) := by
  simp [State.bkpStart]

@[simp] theorem State.releaseReset_still (s : State) : Still s s.releaseReset := by
  simp [State.releaseReset]

@[simp] theorem State.checkSeals_still (s : State) (regions ring : Bool) : Still s (s.checkSeals regions ring) := by
  simp [State.checkSeals]

@[simp] theorem State.lullNetwork_still (s : State) : Still s s.lullNetwork := by
  unfold State.lullNetwork
  split <;> simp

@[simp] theorem State.startRecords_still (s : State) : Still s s.startRecords := by
  simp [State.startRecords]

@[simp] theorem State.putSetting_still (s : State) (v : SetVal) : Still s (s.putSetting v) := by
  unfold State.putSetting
  split <;> simp

@[simp] theorem State.readBlock_still (s : State) (id : Nat) : Still s (s.readBlock id) := by
  unfold State.readBlock
  dsimp only
  (repeat' split) <;> simp

@[simp] theorem State.readSettings_still (s : State) (bad : List (Nat × Nat × Nat)) : Still s (s.readSettings bad) := by
  simp [State.readSettings]

@[simp] theorem State.readKeys_still (s : State) (newer older : Bool) : Still s (s.readKeys newer older) := by
  unfold State.readKeys
  (repeat' split) <;> simp

@[simp] theorem State.loadActive_still (s : State) : Still s s.loadActive := by
  unfold State.loadActive
  (repeat' split) <;> simp

@[simp] theorem State.selfTestFails_still (s : State) : Still s s.selfTestFails := by
  simp [State.selfTestFails]

@[simp] theorem State.stopCopies_still (s : State) (c : Side) : Still s (s.stopCopies c) := by
  simp [State.stopCopies]

@[simp] theorem State.leaveDuty_still (s : State) (leave : Nat) : Still s (s.leaveDuty leave) := by
  simp [State.leaveDuty]

@[simp] theorem State.islandStops_still (s : State) (i : Nat) : Still s (s.islandStops i) := by
  simp [State.islandStops]

@[simp] theorem State.clockStops_still (s : State) (x1 : ClockSrc) : Still s (s.clockStops x1) := by
  unfold State.clockStops
  dsimp only
  (repeat' split) <;> simp

@[simp] theorem State.scrubCounts_still (s : State) (bad : Bool) : Still s (s.scrubCounts bad) := by
  simp [State.scrubCounts]

@[simp] theorem State.rngFails_still (s : State) : Still s s.rngFails := by
  simp [State.rngFails]

/-! ## Machine/Session.lean -/

@[simp] theorem openOwn_still (c : Cmd) (s : State) : Still s (openOwn c s) := by
  unfold openOwn
  dsimp only
  (repeat' split) <;> simp

@[simp] theorem proveOwn_still (c : Cmd) (sigOk : Bool) (shared : Key) (s : State) : Still s (proveOwn c sigOk shared s) := by
  unfold proveOwn
  dsimp only
  (repeat' split) <;> simp

/-! ## Machine/Stations.lean -/

@[simp] theorem State.drawBits_still (k : Nat) (s : State) : Still s (State.drawBits k s).2 := by
  induction k generalizing s with
  | zero => simp [State.drawBits]
  | succ k ih => simp [State.drawBits, ih]

@[simp] theorem State.drawBytes_still (k : Nat) (s : State) : Still s (State.drawBytes k s).2 := by
  induction k generalizing s with
  | zero => simp [State.drawBytes]
  | succ k ih => simp [State.drawBytes, ih]

@[simp] theorem State.drawEnc_still (k i : Nat) (s : State) : Still s (State.drawEnc k i s).2 := by
  induction k generalizing i s with
  | zero => simp [State.drawEnc]
  | succ k ih => simp [State.drawEnc, ih]

@[simp] theorem State.drawFault_still (s : State) (x : Stn) : Still s (s.drawFault x).2 := by
  unfold State.drawFault
  dsimp only
  (repeat' split) <;> simp

@[simp] theorem State.formIn_still (s : State) (x : Stn) (latchDev : Int) : Still s (s.formIn x latchDev).2 := by
  simp [State.formIn]

@[simp] theorem State.inStream_still (s : State) (x : Stn) (latchDev : Int) : Still s (s.inStream x latchDev).2 := by
  unfold State.inStream
  (repeat' split) <;> simp

@[simp] theorem State.passUp_still (s : State) (x : Stn) (ch : Side) (arb : Bool) (room : Nat) (seen : Seen) (f : Frame) (cut : Bool) :
    Still s (s.passUp x ch arb room seen f cut) := by
  simp [State.passUp]

@[simp] theorem State.guarded_still (s : State) (x : Stn) (ch : Side) (seen : Seen) (f : Frame) (v : Pass) :
    Still s (s.guarded x ch seen f v) := by
  unfold State.guarded
  split <;> simp

/-! ## Machine/StatusCmd.lean -/

@[simp] theorem State.spanOf_still (s : State) (l : List Rec) : Still s (s.spanOf l).2.2 := by
  unfold State.spanOf
  split <;> simp

@[simp] theorem State.sec9_still (s : State) : Still s s.sec9.2 := by
  simp [State.sec9]

@[simp] theorem State.section_still (s : State) (k : Nat) : Still s (s.section_ k).2 := by
  unfold State.section_
  split <;> simp

@[simp] theorem State.addSection_still (x : State × List Byte × Bool) (room k : Nat) : Still x.1 (State.addSection x room k).1 := by
  unfold State.addSection
  dsimp only
  (repeat' split) <;> simp

end Sys2Proof.Machine
end

section
/-! The operations that a reset can be part of: the queue stands all the same, and the boot counter does not fall (14 R381). -/

namespace Sys2Proof.Machine
open Sys2Proof

/-- A boot counter that has not fallen below `b` and stays within its 32 bits. -/
def Grows (b n : Nat) : Prop := b ≤ n ∧ n ≤ 0xFFFFFFFF

/-- The queue stands, and the boot counter does not fall. -/
@[simp, reducible] def Kept (s t : State) : Prop := t.pending = s.pending ∧ ∀ b, Grows b s.keys.boot → Grows b t.keys.boot

/-- Both are kept by rules that take a state to the next, and by those that run a transaction. -/
abbrev Keeps (k : State → State) : Prop := ∀ s, Kept s (k s)
abbrev KeepsOn (k : State → Held → State) : Prop := ∀ s h, Kept s (k s h)

theorem Still.kept {s t : State} (h : Still s t) : Kept s t := ⟨h.1, fun _ hb => h.2.symm ▸ hb⟩

theorem Kept.trans {s t u : State} (h : Kept s t) (k : Kept t u) : Kept s u := ⟨k.1.trans h.1, fun b hb => k.2 b (h.2 b hb)⟩

/-- The next boot counts one more, up to the top of the counter (14 R381). -/
theorem Grows.next {b n : Nat} (h : Grows b n) : Grows b (min (n + 1) 0xFFFFFFFF) := by
  unfold Grows at *
  omega

/-- A reset counts one boot. -/
theorem State.boot_takeReset (s : State) (kind : Nat) : (s.takeReset kind).keys.boot = min (s.keys.boot + 1) 0xFFFFFFFF := by
  simp [State.takeReset]

@[simp] theorem State.takeReset_kept (s : State) (kind : Nat) : Kept s (s.takeReset kind) := by
  refine ⟨by simp [State.takeReset], fun b hb => ?_⟩
  rw [s.boot_takeReset]
  exact hb.next

/-! ## Machine/HostRings.lean and Machine/Interconnect.lean -/

@[simp] theorem State.hifHost_kept (s : State) : Kept s s.hifHost := by
  unfold State.hifHost
  (repeat' split) <;> simp +contextual

@[simp] theorem State.hifWarm_kept (s : State) : Kept s s.hifWarm := by
  unfold State.hifWarm
  (repeat' split) <;> simp +contextual

@[simp] theorem State.write28_kept (s : State) (o : Nat) (v : Word) : Kept s (s.write28 o v) := by
  unfold State.write28
  (repeat' split) <;> simp +contextual

theorem State.grantAll_kept {k : State → Held → State} (hk : KeepsOn k) (n : Nat) (l : List Held) (s : State) :
    Kept s (State.grantAll k n l s) := by
  induction n generalizing l s with
  | zero => simp [State.grantAll]
  | succ n ih =>
    unfold State.grantAll
    split
    · simp
    · refine Kept.trans ?_ (ih _ _)
      simp +contextual [hk]

theorem State.openGate_kept {k : State → Held → State} (hk : KeepsOn k) (s : State) : Kept s (s.openGate k) :=
  State.grantAll_kept hk _ _ _

theorem State.updateClear_kept {k : State → Held → State} (hk : KeepsOn k) (s : State) : Kept s (s.updateClear k) := by
  unfold State.updateClear
  split
  · exact State.openGate_kept hk _
  · simp

theorem State.updateAbort_kept {k : State → Held → State} (hk : KeepsOn k) (s : State) : Kept s (s.updateAbort k) := by
  have ho := State.openGate_kept hk
  unfold State.updateAbort
  split <;> simp +contextual [ho]

theorem State.write8_kept {k : State → Held → State} (hk : KeepsOn k) (s : State) (o : Nat) (v : Word) : Kept s (s.write8 o v k) := by
  have hc := State.updateClear_kept hk
  unfold State.write8
  dsimp only
  (repeat' split) <;> simp +contextual [hc]

theorem State.regWrite_kept {k : State → Held → State} (hk : KeepsOn k) (s : State) (slot : Nat) (c : Side) (o : Nat) (v : Word) :
    Kept s (s.regWrite slot c o v k) := by
  have h8 := State.write8_kept hk
  unfold State.regWrite
  (repeat' split) <;> simp +contextual [h8]

theorem State.slotAccess_kept {k : State → Held → State} (hk : KeepsOn k) (s : State) (t : Txn) (slot : Nat) :
    Kept s (s.slotAccess t slot k) := by
  have hr := State.regWrite_kept hk
  unfold State.slotAccess
  dsimp only
  (repeat' split) <;> simp +contextual [hr]

theorem State.atTarget_kept {k : State → Held → State} (hk : KeepsOn k) (s : State) (e : Held) : Kept s (s.atTarget k e) := by
  have ha := State.slotAccess_kept hk
  unfold State.atTarget
  dsimp only
  (repeat' split) <;> simp +contextual [ha]

theorem State.passTxn_kept {k : State → Held → State} (hk : KeepsOn k) (s : State) (e : Held) : Kept s (s.passTxn k e) := by
  have ha := State.atTarget_kept hk
  unfold State.passTxn
  dsimp only
  (repeat' split) <;> simp +contextual [ha]

@[simp] theorem State.heldTxn_kept (s : State) (e : Held) : Kept s (s.heldTxn e) :=
  State.passTxn_kept (fun _ _ => by simp) s e

@[simp] theorem State.txn_kept (s : State) (e : Held) : Kept s (s.txn e) := by
  unfold State.txn
  split
  · simp
  · exact State.passTxn_kept State.heldTxn_kept s e

@[simp] theorem State.forward_kept (s : State) (lane : Nat) (x : SkewEnt) (lead : Nat) (e : CodeErr) :
    Kept s (s.forward lane x lead e) := by
  unfold State.forward
  dsimp only
  (repeat' split) <;> simp +contextual

@[simp] theorem State.pairUp_kept (s : State) (lane lead : Nat) (f : CmpFault) : Kept s (s.pairUp lane lead f) := by
  unfold State.pairUp
  dsimp only
  (repeat' split) <;> simp +contextual

@[simp] theorem State.emit_kept (s : State) (lane : Nat) (copy : Side) (i : Item) (f : CmpFault) : Kept s (s.emit lane copy i f) := by
  unfold State.emit
  dsimp only
  (repeat' split) <;> simp +contextual

@[simp] theorem State.wakeLanes_kept (s : State) : Kept s s.wakeLanes :=
  State.grantAll_kept State.heldTxn_kept _ _ _

@[simp] theorem State.standbyWake_kept (s : State) : Kept s s.standbyWake := by
  unfold State.standbyWake
  (repeat' split) <;> simp +contextual

/-! ## Machine/Pair.lean -/

@[simp] theorem State.becomePrimary_kept (s : State) (switch : Bool) : Kept s (s.becomePrimary switch) := by
  simp +contextual [State.becomePrimary]

@[simp] theorem State.releaseSeen_kept (s : State) : Kept s s.releaseSeen := by
  unfold State.releaseSeen
  dsimp only
  (repeat' split) <;> simp +contextual

/-! ## Machine/Lifecycle.lean -/

@[simp] theorem State.lifeReset_kept (s : State) : Kept s s.lifeReset := by
  unfold State.lifeReset
  split <;> simp +contextual

@[simp] theorem State.lifeStep_kept (s : State) (r : Run) (x : StateChange) : Kept s (s.lifeStep r x) := by
  unfold State.lifeStep
  split <;> simp +contextual

/-! ## Machine/Cycle.lean -/

@[simp] theorem State.firstReleases_kept (s : State) : Kept s s.firstReleases := by
  unfold State.firstReleases
  split <;> simp +contextual

@[simp] theorem State.hotAtStill_kept (s : State) : Kept s s.hotAtStill := by
  unfold State.hotAtStill
  dsimp only
  (repeat' split) <;> simp +contextual

@[simp] theorem State.commitPrimary_kept (s : State) (due lost back : List (Nat × List Byte)) (w : TrkWork) :
    Kept s (s.commitPrimary due lost back w) := by
  simp +contextual [State.commitPrimary]

@[simp] theorem State.inputClose_kept (s : State) (c : NetCfg) (w : TrkWork) : Kept s (s.inputClose c w) := by
  unfold State.inputClose
  dsimp only
  (repeat' split) <;> simp +contextual

/-! ## Machine/LaneIssue.lean -/

@[simp] theorem State.laneWrite_kept (s : State) (l : Fin 8) (c : Side) (priv : BitVec 2) (addr size : Nat) (v : Word) :
    Kept s (s.laneWrite l c priv addr size v) := by
  unfold State.laneWrite
  (repeat' split) <;> simp +contextual

@[simp] theorem State.laneWrites_kept (s : State) (l : Fin 8) (addr : Nat) (v : Word) : Kept s (s.laneWrites l addr v) := by
  unfold State.laneWrites
  dsimp only
  split <;> simp +contextual

@[simp] theorem State.trkCmd_kept (s : State) (lane : Fin 8) (op : Nat) : Kept s (s.trkCmd lane op) :=
  State.laneWrites_kept _ _ _ _

@[simp] theorem State.trkCmdFlt_kept (s : State) (lane : Fin 8) (op : Nat) (residue : Bool) : Kept s (s.trkCmdFlt lane op residue) := by
  simp +contextual [State.trkCmdFlt]

/-! ## Host commands -/

/-- A host command keeps queue and boot counter if its own rules do. -/
theorem State.hostCmdBy_kept {k : State → State} (hk : Keeps k) (s : State) (op : Nat) (c : Cmd) (dir : Nat) (inlOk ok : Bool) :
    Kept s (s.hostCmdBy op c dir inlOk ok k) := by
  obtain hr | ⟨st, d, -, hr⟩ | hr | hr := s.hostCmdBy_cases op dir c inlOk ok k
  · rw [hr]; simp
  · rw [hr]; simp
  · rw [hr]; simp
  · rw [hr]; exact Kept.trans (Still.kept (by simp)) (hk _)

theorem ownPrimary_kept {k : State → State} (hk : Keeps k) (op : Nat) (c : Cmd) : Keeps (ownPrimary op c k) := by
  intro s
  unfold ownPrimary
  (repeat' split) <;> simp +contextual [hk _]

theorem netCommon_kept {k : NetCfg → State → State} (hk : ∀ x, Keeps (k x)) (c : Cmd) : Keeps (netCommon c k) := by
  intro s
  unfold netCommon
  (repeat' split) <;> simp +contextual [hk _ _]

theorem keySet_kept {k : State → State} (hk : Keeps k) (c : Cmd) (action : Nat) (proofOk : Bool) : Keeps (keySet c action proofOk k) := by
  intro s
  unfold keySet
  dsimp only
  (repeat' split) <;> simp +contextual [hk _]

theorem testSet_kept {k : State → State} (hk : Keeps k) (c : Cmd) (set : Nat) : Keeps (testSet c set k) := by
  intro s
  unfold testSet
  (repeat' split) <;> simp +contextual [hk _]

end Sys2Proof.Machine
end

section
/-! Every command answers a next state with the queue as it was, and none lets the boot counter fall (14 R381). In the order of the model's files. -/

namespace Sys2Proof.Machine
open Sys2Proof

/-- A key list that is written anew counts no boot. -/
@[simp] theorem Keys.rewritten_boot (k : Keys) : k.rewritten.boot = k.boot := rfl

/-- The outcome is a next state, with the queue as it was and a boot counter that has not fallen. -/
def NextKept (s : State) (o : Host.Outcome State Fault Refusal) : Prop := ∃ t, o = .next t ∧ Kept s t

@[simp] theorem nextKept_next (s t : State) : NextKept s (.next t) ↔ Kept s t := by
  simp [NextKept]

/-- A command under the table of 14 R390, where its own rules keep them. -/
theorem nextKept_hostCmd {op : Nat} {c : Cmd} {dir : Nat} {inlOk : Bool} {k : State → State} (hk : Keeps k) (s : State) :
    NextKept s (.next (s.hostCmd op c dir inlOk k)) :=
  (nextKept_next _ _).2 (State.hostCmdBy_kept hk s op c dir inlOk _)

/-- A command with a permission of its own. -/
theorem nextKept_hostCmdBy {op : Nat} {c : Cmd} {dir : Nat} {inlOk ok : Bool} {k : State → State} (hk : Keeps k) (s : State) :
    NextKept s (.next (s.hostCmdBy op c dir inlOk ok k)) :=
  (nextKept_next _ _).2 (State.hostCmdBy_kept hk s op c dir inlOk ok)

/-- A command whose own rules are those of a primary. -/
theorem nextKept_ownPrimary {op : Nat} {c : Cmd} {dir : Nat} {inlOk : Bool} {k : State → State} (hk : Keeps k) (s : State) :
    NextKept s (.next (s.hostCmd op c dir inlOk (ownPrimary op c k))) :=
  nextKept_hostCmd (ownPrimary_kept hk op c) s

/-- A command of the life-cycle, with its own permission (14 R399, R402). -/
theorem nextKept_lifeCmd {c : Cmd} {dir : Nat} {k : State → State} (hk : Keeps k) (s : State) :
    NextKept s (.next (s.lifeCmd c dir k)) :=
  nextKept_hostCmdBy hk s

/-! ## Machine/Force.lean -/

theorem execForceSet_kept (c : Cmd) (s : State) : NextKept s (execForceSet c s) :=
  nextKept_hostCmd (fun t => by simp) s

theorem execForceRelease_kept (c : Cmd) (s : State) : NextKept s (execForceRelease c s) :=
  nextKept_hostCmd (fun t => by simp) s

theorem execForceReleaseAll_kept (c : Cmd) (s : State) : NextKept s (execForceReleaseAll c s) :=
  nextKept_hostCmd (fun t => by simp) s

theorem execForceList_kept (c : Cmd) (s : State) : NextKept s (execForceList c s) :=
  nextKept_hostCmd (fun t => by simp) s

/-! ## Machine/Rtc.lean -/

theorem execRtcGet_kept (c : Cmd) (s : State) : NextKept s (execRtcGet c s) :=
  nextKept_hostCmd (fun t => by simp) s

theorem execSetUtc_kept (c : Cmd) (s : State) : NextKept s (execSetUtc c s) :=
  nextKept_hostCmd (fun t => by simp) s

theorem execSetCivil_kept (c : Cmd) (s : State) : NextKept s (execSetCivil c s) :=
  nextKept_hostCmd (fun t => by simp) s

theorem execSetTrim_kept (c : Cmd) (s : State) : NextKept s (execSetTrim c s) :=
  nextKept_hostCmd (fun t => by simp) s

theorem execClearStamp_kept (c : Cmd) (s : State) : NextKept s (execClearStamp c s) :=
  nextKept_hostCmd (fun t => by simp) s

theorem execWriteBackup_kept (c : Cmd) (s : State) : NextKept s (execWriteBackup c s) :=
  nextKept_hostCmd (fun t => by simp) s

theorem execRtcShift_kept (c : Cmd) (s : State) : NextKept s (execRtcShift c s) :=
  nextKept_hostCmd (fun t => by simp) s

theorem execAlarmSetArm_kept (c : Cmd) (s : State) : NextKept s (execAlarmSetArm c s) :=
  nextKept_hostCmd (fun t => by simp) s

theorem execAlarmSetDisarm_kept (c : Cmd) (s : State) : NextKept s (execAlarmSetDisarm c s) :=
  nextKept_hostCmd (fun t => by simp) s

theorem execLeapSecond_kept (insert : Bool) (s : State) : NextKept s (execLeapSecond insert s) := by
  simp [execLeapSecond]

theorem execCalendarDiscipline_kept (s : State) : NextKept s (execCalendarDiscipline s) := by
  unfold execCalendarDiscipline
  dsimp only
  (repeat' split) <;> simp

theorem execAlarmFire_kept (s : State) : NextKept s (execAlarmFire s) := by
  unfold execAlarmFire
  split <;> simp

theorem execCalendarEnd_kept (s : State) : NextKept s (execCalendarEnd s) := by
  unfold execCalendarEnd
  split <;> simp

theorem execBatteryTest_kept (mv : Nat) (s : State) : NextKept s (execBatteryTest mv s) := by
  unfold execBatteryTest
  dsimp only
  (repeat' split) <;> simp

theorem execBkpSwitch_kept (s : State) : NextKept s (execBkpSwitch s) := by
  simp [execBkpSwitch]

/-! ## Machine/Actuation.lean -/

theorem execLocalActInstant_kept (ch : Fin 16) (s : State) : NextKept s (execLocalActInstant ch s) := by
  unfold execLocalActInstant
  split <;> simp

theorem execPtpAnnounceRx_kept (port : Fin 2) (m : Announce) (s : State) : NextKept s (execPtpAnnounceRx port m s) := by
  unfold execPtpAnnounceRx
  dsimp only
  (repeat' split) <;> simp

theorem execPtpSyncRx_kept (port : Fin 2) (m : PtpSync) (s : State) : NextKept s (execPtpSyncRx port m s) := by
  simp [execPtpSyncRx]

theorem execPtpSyncTimeout_kept (s : State) : NextKept s (execPtpSyncTimeout s) := by
  unfold execPtpSyncTimeout
  split <;> simp

/-! ## Machine/Ageing.lean -/

theorem execMarginMeasure_kept (kind inst : Nat) (value : Int) (s : State) : NextKept s (execMarginMeasure kind inst value s) := by
  unfold execMarginMeasure
  split <;> simp

theorem execMarginDaily_kept (dates : List (Nat × Nat × Nat)) (s : State) : NextKept s (execMarginDaily dates s) := by
  simp [execMarginDaily]

theorem execMarginReport_kept (c : Cmd) (s : State) : NextKept s (execMarginReport c s) :=
  nextKept_hostCmd (fun t => by simp) s

theorem execMarginReplan_kept (c : Cmd) (s : State) : NextKept s (execMarginReplan c s) := by
  refine nextKept_hostCmd (fun t => ?_) s
  split <;> simp

/-! ## Machine/LocalIo.lean -/

theorem execLioDebounceDone_kept (ch : Fin 16) (high : Bool) (edgeTime : Nat) (s : State) :
    NextKept s (execLioDebounceDone ch high edgeTime s) := by
  unfold execLioDebounceDone
  dsimp only
  (repeat' split) <;> simp

theorem execLioBand_kept (ch : Fin 16) (s : State) : NextKept s (execLioBand ch s) := by
  unfold execLioBand
  dsimp only
  (repeat' split) <;> simp

theorem execWireBreak_kept (ch : Fin 16) (below : Bool) (s : State) : NextKept s (execWireBreak ch below s) := by
  unfold execWireBreak
  dsimp only
  (repeat' split) <;> simp

theorem execLioOutputFault_kept (ch : Fin 16) (terminalHigh : Bool) (s : State) : NextKept s (execLioOutputFault ch terminalHigh s) := by
  unfold execLioOutputFault
  dsimp only
  (repeat' split) <;> simp

theorem execLioFaultClear_kept (ch : Fin 16) (s : State) : NextKept s (execLioFaultClear ch s) := by
  simp [execLioFaultClear]

theorem execOvercurrentTrip_kept (ch : Fin 16) (s : State) : NextKept s (execOvercurrentTrip ch s) := by
  simp [execOvercurrentTrip]

theorem execThermalTrip_kept (ch : Fin 16) (s : State) : NextKept s (execThermalTrip ch s) := by
  simp [execThermalTrip]

theorem execTripRetryExpiry_kept (ch : Fin 16) (s : State) : NextKept s (execTripRetryExpiry ch s) := by
  simp [execTripRetryExpiry]

theorem execLioTripClr_kept (group : Side) (v : Word) (s : State) : NextKept s (execLioTripClr group v s) := by
  simp [execLioTripClr]

theorem execSupplySag_kept (group : Side) (s : State) : NextKept s (execSupplySag group s) := by
  simp [execSupplySag]

theorem execSupplyLow_kept (group : Side) (s : State) : NextKept s (execSupplyLow group s) := by
  simp [execSupplyLow]

theorem execSupplyRise_kept (group : Side) (s : State) : NextKept s (execSupplyRise group s) := by
  unfold execSupplyRise
  split <;> simp

theorem execSupplyDip_kept (group : Side) (s : State) : NextKept s (execSupplyDip group s) := by
  simp [execSupplyDip]

theorem execRecoveringTimerExpiry_kept (group : Side) (levels : BitVec 8) (s : State) :
    NextKept s (execRecoveringTimerExpiry group levels s) := by
  unfold execRecoveringTimerExpiry
  dsimp only
  (repeat' split) <;> simp

/-! ## Machine/Windbreak.lean -/

theorem execWbUpdateSet_kept (s : State) : NextKept s (execWbUpdateSet s) := by
  simp [execWbUpdateSet]

theorem execWbLoadSet_kept (s : State) : NextKept s (execWbLoadSet s) := by
  simp [execWbLoadSet]

theorem execWbRgnWrite_kept (r : Fin 64) (reg : Fin 3) (v : Word) (s : State) : NextKept s (execWbRgnWrite r reg v s) := by
  simp [execWbRgnWrite]

theorem execWbAbortedClear_kept (s : State) : NextKept s (execWbAbortedClear s) := by
  simp [execWbAbortedClear]

/-! ## Machine/Recorder.lean -/

theorem execLogRead_kept (c : Cmd) (s : State) : NextKept s (execLogRead c s) :=
  nextKept_hostCmd (fun t => by simp) s

theorem execLogExport_kept (c : Cmd) (s : State) : NextKept s (execLogExport c s) :=
  nextKept_hostCmd (fun t => by simp) s

theorem execLogClearRing_kept (c : Cmd) (s : State) : NextKept s (execLogClearRing c s) :=
  nextKept_hostCmd (fun t => by simp) s

theorem execLogClearArchive_kept (c : Cmd) (s : State) : NextKept s (execLogClearArchive c s) :=
  nextKept_hostCmd (fun t => by simp) s

theorem execGustTableReplace_kept (c : Cmd) (s : State) : NextKept s (execGustTableReplace c s) :=
  nextKept_hostCmd (fun t => by simp) s

theorem execGustTableDefault_kept (c : Cmd) (s : State) : NextKept s (execGustTableDefault c s) :=
  nextKept_hostCmd (fun t => by simp) s

theorem execGustRefill_kept (code : Nat) (s : State) : NextKept s (execGustRefill code s) := by
  unfold execGustRefill
  (repeat' split) <;> simp

theorem execArchiveCommit_kept (s : State) : NextKept s (execArchiveCommit s) := by
  unfold execArchiveCommit
  split <;> simp

theorem execHoldBufferFlush_kept (s : State) : NextKept s (execHoldBufferFlush s) := by
  simp [execHoldBufferFlush]

/-! ## Machine/LaneTasks.lean -/

theorem execTaskTrap_kept (lane : Fin 8) (copy : Side) (cause addr : Nat) (s : State) :
    NextKept s (execTaskTrap lane copy cause addr s) := by
  unfold execTaskTrap
  (repeat' split) <;> simp

theorem execDeliveryRequest_kept (lane : Fin 9) (cA cB : Nat) (s : State) : NextKept s (execDeliveryRequest lane cA cB s) := by
  unfold execDeliveryRequest
  dsimp only
  (repeat' split) <;> simp

theorem execLaneTimerExpiry_kept (lane : Fin 9) (s : State) : NextKept s (execLaneTimerExpiry lane s) := by
  simp [execLaneTimerExpiry]

theorem execSoftwareInterrupt_kept (src dst : Fin 9) (s : State) : NextKept s (execSoftwareInterrupt src dst s) := by
  simp [execSoftwareInterrupt]

theorem execLaneFaultFlashCommit_kept (s : State) : NextKept s (execLaneFaultFlashCommit s) := by
  simp [execLaneFaultFlashCommit]

theorem execPairResetRequestTimeout_kept (s : State) : NextKept s (execPairResetRequestTimeout s) := by
  unfold execPairResetRequestTimeout
  split <;> simp

/-! ## Machine/HostRings.lean -/

theorem execHqSqTail_kept (q : Fin 8) (v : BitVec 32) (descs : List SqEnt) (ring : Dma) (s : State) :
    NextKept s (execHqSqTail q v descs ring s) := by
  simp [execHqSqTail]

theorem execHqCqHead_kept (q : Fin 8) (v : BitVec 32) (s : State) : NextKept s (execHqCqHead q v s) := by
  simp [execHqCqHead]

theorem execHqEvHead_kept (v : BitVec 32) (s : State) : NextKept s (execHqEvHead v s) := by
  simp [execHqEvHead]

theorem execQueueEnable_kept (s : State) : NextKept s (execQueueEnable s) := by
  simp [execQueueEnable]

theorem execQueueDisable_kept (s : State) : NextKept s (execQueueDisable s) := by
  simp [execQueueDisable]

theorem execQueueDrained_kept (q : Fin 8) (s : State) : NextKept s (execQueueDrained q s) := by
  simp [execQueueDrained]

theorem execEventRingEnable_kept (s : State) : NextKept s (execEventRingEnable s) := by
  simp [execEventRingEnable]

theorem execEventRingDisable_kept (s : State) : NextKept s (execEventRingDisable s) := by
  simp [execEventRingDisable]

theorem execInterruptHoldoffExpiry_kept (vec : Fin 16) (s : State) : NextKept s (execInterruptHoldoffExpiry vec s) := by
  unfold execInterruptHoldoffExpiry
  dsimp only
  (repeat' split) <;> simp

theorem execBusyEnter_kept (s : State) : NextKept s (execBusyEnter s) := by
  simp [execBusyEnter]

theorem execBusyEnd_kept (s : State) : NextKept s (execBusyEnd s) := by
  unfold execBusyEnd
  split <;> simp

theorem execHifResetHost_kept (s : State) : NextKept s (execHifResetHost s) := by
  simp +contextual [execHifResetHost]

theorem execHifResetWarm_kept (s : State) : NextKept s (execHifResetWarm s) := by
  simp +contextual [execHifResetWarm]

theorem execFirmwareWarmRestart_kept (s : State) : NextKept s (execFirmwareWarmRestart s) := by
  unfold execFirmwareWarmRestart
  split <;> simp +contextual

theorem execHifLinkReset_kept (s : State) : NextKept s (execHifLinkReset s) := by
  simp [execHifLinkReset]

theorem execTlsConnect_kept (port : Fin 2) (handshakeOk : Bool) (s : State) : NextKept s (execTlsConnect port handshakeOk s) := by
  unfold execTlsConnect
  dsimp only
  (repeat' split) <;> simp

theorem execTlsClose_kept (conn : Fin 4) (s : State) : NextKept s (execTlsClose conn s) := by
  simp [execTlsClose]

theorem execCapsuleRx_kept (conn : Fin 4) (cap : Capsule) (s : State) : NextKept s (execCapsuleRx conn cap s) := by
  unfold execCapsuleRx
  (repeat' split) <;> simp

theorem execPairCtrl_kept (v : Word) (s : State) : NextKept s (execPairCtrl v s) := by
  simp [execPairCtrl]

theorem execEthApply_kept (port : Fin 2) (s : State) : NextKept s (execEthApply port s) := by
  simp [execEthApply]

/-! ## Machine/Interconnect.lean -/

theorem execInterconnectTransaction_kept (t : Txn) (s : State) : NextKept s (execInterconnectTransaction t s) := by
  unfold execInterconnectTransaction
  split <;> simp +contextual

theorem execWbUpdateClear_kept (s : State) : NextKept s (execWbUpdateClear s) :=
  (nextKept_next _ _).2 (State.updateClear_kept State.heldTxn_kept s)

theorem execWbUpdateTimeout_kept (s : State) : NextKept s (execWbUpdateTimeout s) :=
  (nextKept_next _ _).2 (State.updateAbort_kept State.heldTxn_kept s)

theorem execComparedItem_kept (lane : Fin 9) (copy : Side) (it : Item) (flt : CmpFault) (s : State) :
    NextKept s (execComparedItem lane copy it flt s) := by
  simp +contextual [execComparedItem]

theorem execWfi_kept (lane : Fin 9) (copy : Side) (it : Item) (flt : CmpFault) (s : State) : NextKept s (execWfi lane copy it flt s) := by
  unfold execWfi
  (repeat' split) <;> simp +contextual

theorem execSkewTime_kept (lane : Fin 9) (s : State) : NextKept s (execSkewTime lane s) := by
  unfold execSkewTime
  dsimp only
  (repeat' split) <;> simp

theorem execReadReturn_kept (lane : Fin 9) (errA errB : CodeErr) (s : State) : NextKept s (execReadReturn lane errA errB s) := by
  unfold execReadReturn
  dsimp only
  (repeat' split) <;> simp

theorem execL1ParityError_kept (lane : Fin 9) (copy : Side) (line : Nat) (s : State) : NextKept s (execL1ParityError lane copy line s) := by
  simp [execL1ParityError]

theorem execLaneWake_kept (s : State) : NextKept s (execLaneWake s) := by
  simp +contextual [execLaneWake]

theorem execLaneParkTimeout_kept (s : State) : NextKept s (execLaneParkTimeout s) := by
  unfold execLaneParkTimeout
  split <;> simp

/-! ## Machine/Mirror.lean -/

theorem execMirrorTransferClose_kept (s : State) : NextKept s (execMirrorTransferClose s) := by
  simp [execMirrorTransferClose]

theorem execMirrorAckDeadline_kept (s : State) : NextKept s (execMirrorAckDeadline s) := by
  unfold execMirrorAckDeadline
  split <;> simp

theorem execResendRequestRx_kept (block : Nat) (s : State) : NextKept s (execResendRequestRx block s) := by
  unfold execResendRequestRx
  dsimp only
  (repeat' split) <;> simp

theorem execTransferAckRx_kept (xfer : Nat) (s : State) : NextKept s (execTransferAckRx xfer s) := by
  unfold execTransferAckRx
  dsimp only
  (repeat' split) <;> simp

theorem execCloseBlockRx_kept (xfer blocks : Nat) (commit : Option Nat) (slice : Nat) (audit : BitVec 128)
    (fin : Option FinalClose) (s : State) : NextKept s (execCloseBlockRx xfer blocks commit slice audit fin s) := by
  unfold execCloseBlockRx
  split <;> simp

theorem execMirrorBlockRx_kept (xfer block : Nat) (lines : List Span) (forceVer : Option Nat) (digest : BitVec 128) (s : State) :
    NextKept s (execMirrorBlockRx xfer block lines forceVer digest s) := by
  unfold execMirrorBlockRx
  split <;> simp

theorem execSnapshotTransferRx_kept (cycle : Nat) (lines : List Span) (check : Option (BitVec 128)) (s : State) :
    NextKept s (execSnapshotTransferRx cycle lines check s) := by
  unfold execSnapshotTransferRx
  split <;> simp

theorem execBaseChunkRx_kept (chunk : Span) (s : State) : NextKept s (execBaseChunkRx chunk s) := by
  unfold execBaseChunkRx
  (repeat' split) <;> simp

/-! ## Machine/App.lean -/

theorem execAppLoad_kept (c : Cmd) (img : AppImage) (s : State) : NextKept s (execAppLoad c img s) := by
  refine nextKept_ownPrimary (fun t => ?_) s
  (repeat' split) <;> simp

theorem execRollbackPeriodEnd_kept (s : State) : NextKept s (execRollbackPeriodEnd s) := by
  unfold execRollbackPeriodEnd
  split <;> simp

theorem execAppChange_kept (c : Cmd) (img : AppImage) (s : State) : NextKept s (execAppChange c img s) := by
  refine nextKept_ownPrimary (fun t => ?_) s
  (repeat' split) <;> simp

theorem execAppRollback_kept (c : Cmd) (s : State) : NextKept s (execAppRollback c s) := by
  refine nextKept_ownPrimary (fun t => ?_) s
  (repeat' split) <;> simp

theorem execImageStagingDone_kept (sess : BitVec 16) (cmdId : BitVec 32) (s : State) : NextKept s (execImageStagingDone sess cmdId s) := by
  unfold execImageStagingDone
  (repeat' split) <;> simp

theorem execPairImageRx_kept (img : AppImage) (s : State) : NextKept s (execPairImageRx img s) := by
  unfold execPairImageRx
  dsimp only
  (repeat' split) <;> simp

theorem execChangeAnnounceRx_kept (n : Nat) (s : State) : NextKept s (execChangeAnnounceRx n s) := by
  unfold execChangeAnnounceRx
  (repeat' split) <;> simp

theorem execChangeQ_kept (s : State) : NextKept s (execChangeQ s) := by
  unfold execChangeQ
  dsimp only
  (repeat' split) <;> simp

theorem execAppStart_kept (c : Cmd) (s : State) : NextKept s (execAppStart c s) :=
  nextKept_ownPrimary (fun t => by simp) s

theorem execAppStop_kept (c : Cmd) (s : State) : NextKept s (execAppStop c s) :=
  nextKept_ownPrimary (fun t => by simp) s

theorem execTaskRelease_kept (c : Cmd) (s : State) : NextKept s (execTaskRelease c s) :=
  nextKept_ownPrimary (fun t => by simp) s

/-! ## Machine/Firmware.lean -/

theorem execFwStage_kept (c : Cmd) (img : AppImage) (s : State) : NextKept s (execFwStage c img s) := by
  refine nextKept_ownPrimary (fun t => ?_) s
  split <;> simp

theorem execFwHandover_kept (c : Cmd) (s : State) : NextKept s (execFwHandover c s) :=
  nextKept_ownPrimary (fun t => by simp) s

theorem execFwConfirm_kept (c : Cmd) (s : State) : NextKept s (execFwConfirm c s) :=
  nextKept_hostCmd (fun t => by simp) s

theorem execFwFallback_kept (c : Cmd) (s : State) : NextKept s (execFwFallback c s) :=
  nextKept_hostCmd (fun t => by simp) s

theorem execFwStartTimeout_kept (s : State) : NextKept s (execFwStartTimeout s) := by
  simp [execFwStartTimeout]

/-! ## Machine/NetCfg.lean -/

theorem execNetConfigure_kept (c : Cmd) (s : State) : NextKept s (execNetConfigure c s) := by
  refine nextKept_ownPrimary (fun t => ?_) s
  split
  · simp
  · exact netCommon_kept (fun x u => by (repeat' split) <;> simp) c t

theorem execNetConfigureNext_kept (c : Cmd) (s : State) : NextKept s (execNetConfigureNext c s) := by
  refine nextKept_ownPrimary (fun t => ?_) s
  split
  · simp
  · exact netCommon_kept (fun x u => by simp) c t

theorem execNetStart_kept (c : Cmd) (s : State) : NextKept s (execNetStart c s) := by
  refine nextKept_ownPrimary (fun t => ?_) s
  (repeat' split) <;> simp

theorem execPairConfigRx_kept (length : Nat) (buf : Buf) (next : Bool) (switchN : Nat) (s : State) :
    NextKept s (execPairConfigRx length buf next switchN s) := by
  unfold execPairConfigRx
  dsimp only
  (repeat' split) <;> simp

/-! ## Machine/Pair.lean -/

theorem execHeartbeatRx_kept (hb : Heartbeat) (s : State) : NextKept s (execHeartbeatRx hb s) := by
  unfold execHeartbeatRx
  split <;> simp

theorem execFaultMessageRx_kept (hb : Heartbeat) (req : Bool) (s : State) : NextKept s (execFaultMessageRx hb req s) := by
  unfold execFaultMessageRx
  dsimp only
  (repeat' split) <;> simp +contextual

theorem execHeartbeatLost_kept (s : State) : NextKept s (execHeartbeatLost s) := by
  unfold execHeartbeatLost
  dsimp only
  (repeat' split) <;> simp +contextual

theorem execPairLaneFail_kept (k : Fin 2) (s : State) : NextKept s (execPairLaneFail k s) := by
  unfold execPairLaneFail
  split <;> simp

theorem execPairAuth_kept (h : PairHello) (s : State) : NextKept s (execPairAuth h s) := by
  unfold execPairAuth
  dsimp only
  (repeat' split) <;> simp

theorem execHeartbeatSend_kept (s : State) : NextKept s (execHeartbeatSend s) := by
  simp [execHeartbeatSend]

theorem execPartnerReportRx_kept (kind : ReportKind) (ok : Bool) (s : State) : NextKept s (execPartnerReportRx kind ok s) := by
  unfold execPartnerReportRx
  cases kind with
  | handover => dsimp only; (repeat' split) <;> simp
  | _ => simp

theorem execSlotBAssertWait_kept (s : State) : NextKept s (execSlotBAssertWait s) := by
  unfold execSlotBAssertWait
  split <;> simp

theorem execTakeover_kept (s : State) : NextKept s (execTakeover s) := by
  unfold execTakeover
  dsimp only
  (repeat' split) <;> simp +contextual

theorem execVaneLineChange_kept (line : Side) (asserted : Bool) (s : State) : NextKept s (execVaneLineChange line asserted s) := by
  unfold execVaneLineChange
  dsimp only
  (repeat' split) <;> simp +contextual

theorem execSentinelCheck_kept (s : State) : NextKept s (execSentinelCheck s) := by
  unfold execSentinelCheck
  dsimp only
  (repeat' split) <;> simp

theorem execNoHolder_kept (s : State) : NextKept s (execNoHolder s) := by
  unfold execNoHolder
  (repeat' split) <;> simp

theorem execPairResetIn_kept (s : State) : NextKept s (execPairResetIn s) := by
  unfold execPairResetIn
  split <;> simp +contextual

theorem execPairSwitch_kept (c : Cmd) (s : State) : NextKept s (execPairSwitch c s) :=
  nextKept_ownPrimary (fun t => by simp) s

theorem execSwitchFinalClose_kept (s : State) : NextKept s (execSwitchFinalClose s) := by
  unfold execSwitchFinalClose
  dsimp only
  (repeat' split) <;> simp

theorem execPairRejoin_kept (c : Cmd) (s : State) : NextKept s (execPairRejoin c s) :=
  nextKept_hostCmdBy (fun t => by simp) s

theorem execBaseCopyDone_kept (s : State) : NextKept s (execBaseCopyDone s) := by
  unfold execBaseCopyDone
  dsimp only
  (repeat' split) <;> simp +contextual

/-! ## Machine/Debug.lean -/

theorem execDebugToken_kept (t : Token) (s : State) : NextKept s (execDebugToken t s) := by
  unfold execDebugToken
  split <;> simp

theorem execDebugHaltRequest_kept (lane : Fin 8) (s : State) : NextKept s (execDebugHaltRequest lane s) := by
  unfold execDebugHaltRequest
  (repeat' split) <;> simp

theorem execDebugResetRequest_kept (s : State) : NextKept s (execDebugResetRequest s) := by
  unfold execDebugResetRequest
  (repeat' split) <;> simp +contextual

theorem execDebugAccess_kept (t : Txn) (s : State) : NextKept s (execDebugAccess t s) := by
  unfold execDebugAccess
  dsimp only
  (repeat' split) <;> simp +contextual

/-! ## Machine/Lifecycle.lean -/

theorem execAttest_kept (c : Cmd) (s : State) : NextKept s (execAttest c s) :=
  nextKept_hostCmd (fun t => by simp) s

theorem execLifecycleAdvance_kept (c : Cmd) (proofOk : Bool) (s : State) : NextKept s (execLifecycleAdvance c proofOk s) :=
  nextKept_lifeCmd (fun t => by simp) s

theorem execEnrolIntegrator_kept (c : Cmd) (proofOk : Bool) (s : State) : NextKept s (execEnrolIntegrator c proofOk s) := by
  refine nextKept_lifeCmd (keySet_kept (fun t => ?_) c _ _) s
  dsimp only
  split <;> simp

theorem execRevokeIntegrator_kept (c : Cmd) (s : State) : NextKept s (execRevokeIntegrator c s) := by
  refine nextKept_lifeCmd (keySet_kept (fun t => ?_) c _ _) s
  dsimp only
  split <;> simp

theorem execGrantService_kept (c : Cmd) (proofOk : Bool) (s : State) : NextKept s (execGrantService c proofOk s) := by
  refine nextKept_lifeCmd (keySet_kept (fun t => ?_) c _ _) s
  dsimp only
  split <;> simp

theorem execRevokeService_kept (c : Cmd) (s : State) : NextKept s (execRevokeService c s) :=
  nextKept_lifeCmd (keySet_kept (fun t => by simp) c _ _) s

theorem execReplaceOwner_kept (c : Cmd) (proofOk : Bool) (s : State) : NextKept s (execReplaceOwner c proofOk s) :=
  nextKept_lifeCmd (keySet_kept (fun t => by simp) c _ _) s

/-! ## Machine/LongOps.lean -/

theorem execOpSuspend_kept (c : Cmd) (s : State) : NextKept s (execOpSuspend c s) := by
  refine nextKept_hostCmdBy (fun t => ?_) s
  split <;> simp

theorem execOpResume_kept (c : Cmd) (s : State) : NextKept s (execOpResume c s) := by
  refine nextKept_hostCmdBy (fun t => ?_) s
  split <;> simp

theorem execOpCancel_kept (c : Cmd) (s : State) : NextKept s (execOpCancel c s) := by
  refine nextKept_hostCmdBy (fun t => ?_) s
  split <;> simp

theorem execSuspendPointReached_kept (sess : BitVec 16) (cmdId : BitVec 32) (s : State) :
    NextKept s (execSuspendPointReached sess cmdId s) := by
  unfold execSuspendPointReached
  split <;> simp

theorem execScrub_kept (c : Cmd) (s : State) : NextKept s (execScrub c s) :=
  nextKept_hostCmd (testSet_kept (fun t => by simp) c _) s

theorem execFlashVerify_kept (c : Cmd) (s : State) : NextKept s (execFlashVerify c s) :=
  nextKept_hostCmd (testSet_kept (fun t => by simp) c _) s

theorem execLaneInject_kept (c : Cmd) (s : State) : NextKept s (execLaneInject c s) := by
  refine nextKept_hostCmd (testSet_kept (fun t => ?_) c _) s
  dsimp only
  (repeat' split) <;> simp

theorem execLaneInjectTimeout_kept (s : State) : NextKept s (execLaneInjectTimeout s) := by
  unfold execLaneInjectTimeout
  (repeat' split) <;> simp

theorem execTrackSnapshot_kept (c : Cmd) (s : State) : NextKept s (execTrackSnapshot c s) :=
  nextKept_hostCmd (fun t => by simp) s

theorem execLongOperationProgress_kept (sess : BitVec 16) (cmdId : BitVec 32) (done total : Nat) (ok : ChunkEnd) (s : State) :
    NextKept s (execLongOperationProgress sess cmdId done total ok s) := by
  unfold execLongOperationProgress
  dsimp only
  (repeat' split) <;> simp +contextual

/-! ## Machine/StationMgr.lean -/

theorem execInFrameRx_kept (ch : Side) (f : Frame) (s : State) : NextKept s (execInFrameRx ch f s) := by
  unfold execInFrameRx
  dsimp only
  (repeat' split) <;> simp

theorem execUpstreamFrameAtGuardian_kept (branch : Fin 16) (seen : Seen) (f : Frame) (s : State) :
    NextKept s (execUpstreamFrameAtGuardian branch seen f s) := by
  unfold execUpstreamFrameAtGuardian
  dsimp only
  (repeat' split) <;> simp

theorem execEvtFrameRx_kept (ch : Side) (f : Frame) (s : State) : NextKept s (execEvtFrameRx ch f s) := by
  unfold execEvtFrameRx
  split <;> simp

theorem execCfgResponseRx_kept (ch : Side) (f : Frame) (s : State) : NextKept s (execCfgResponseRx ch f s) := by
  unfold execCfgResponseRx
  dsimp only
  (repeat' split) <;> simp

theorem execDelayReportRx_kept (ch : Side) (t4 : Nat) (f : Frame) (s : State) : NextKept s (execDelayReportRx ch t4 f s) := by
  unfold execDelayReportRx
  dsimp only
  (repeat' split) <;> simp

theorem execCfgRequestTimeout_kept (branch : Fin 16) (tag : Nat) (s : State) : NextKept s (execCfgRequestTimeout branch tag s) := by
  unfold execCfgRequestTimeout
  split <;> simp

theorem execStationRetryTimer_kept (code : Nat) (s : State) : NextKept s (execStationRetryTimer code s) := by
  unfold execStationRetryTimer
  (repeat' split) <;> simp

theorem execJoiningTimeout_kept (code : Nat) (s : State) : NextKept s (execJoiningTimeout code s) := by
  unfold execJoiningTimeout
  (repeat' split) <;> simp

theorem execCountersPoll_kept (s : State) : NextKept s (execCountersPoll s) := by
  unfold execCountersPoll
  split <;> simp

theorem execStationStateRx_kept (code st : Nat) (wasLost : Bool) (miss good losses refusal : Nat) (s : State) :
    NextKept s (execStationStateRx code st wasLost miss good losses refusal s) := by
  unfold execStationStateRx
  (repeat' split) <;> simp

theorem execPartnerContentRx_kept (win late : Nat) (f : Frame) (s : State) : NextKept s (execPartnerContentRx win late f s) := by
  unfold execPartnerContentRx
  (repeat' split) <;> simp

theorem execStationReintegrate_kept (c : Cmd) (s : State) : NextKept s (execStationReintegrate c s) := by
  refine nextKept_ownPrimary (fun t => ?_) s
  dsimp only
  (repeat' split) <;> simp

/-! ## Machine/Cycle.lean -/

theorem execCycleStart_kept (s : State) : NextKept s (execCycleStart s) := by
  unfold execCycleStart
  (repeat' split) <;> simp

theorem execNetStall_kept (s : State) : NextKept s (execNetStall s) := by
  simp [execNetStall]

theorem execStillPoint_kept (s : State) : NextKept s (execStillPoint s) := by
  unfold execStillPoint
  dsimp only
  (repeat' split) <;> simp +contextual

theorem execInputClose_kept (w : TrkWork) (s : State) : NextKept s (execInputClose w s) := by
  unfold execInputClose
  split <;> simp +contextual

theorem execCycleMark_kept (m : Fin 16) (s : State) : NextKept s (execCycleMark m s) := by
  unfold execCycleMark
  dsimp only
  (repeat' split) <;> simp +contextual

theorem execOutputCutoff_kept (s : State) : NextKept s (execOutputCutoff s) := by
  unfold execOutputCutoff
  (repeat' split) <;> simp

theorem execDownstreamWindow_kept (win late : Nat) (s : State) : NextKept s (execDownstreamWindow win late s) := by
  unfold execDownstreamWindow
  dsimp only
  (repeat' split) <;> simp

/-! ## Machine/ColdStart.lean -/

theorem execTimeTransfer_kept (linkDelay took : Nat) (offset : Int) (content : Option SyncContent) (s : State) :
    NextKept s (execTimeTransfer linkDelay took offset content s) := by
  unfold execTimeTransfer
  extract_lets bound last
  split
  · simp
  · split
    next u ok hu =>
    have hs : Still s u := by simpa [hu] using State.transfer_still s linkDelay
    split
    · simp [hs]
    · extract_lets s1 s2 b s3 s4
      have h1 : Still u s1 := by simp [s1]
      have h2 : Still s1 s2 := by simp [s2]
      have h3 : Still s2 s3 := by unfold s3; split <;> simp
      have h4 : Still s3 s4 := by simp [s4]
      refine (nextKept_next _ _).2 (Still.kept (Still.trans (hs.trans (h1.trans (h2.trans (h3.trans h4)))) ?_))
      simp

theorem execListenTimerExpiry_kept (s : State) : NextKept s (execListenTimerExpiry s) := by
  unfold execListenTimerExpiry
  (repeat' split) <;> simp

theorem execPartnerCstartRx_kept (cs : CStart) (s : State) : NextKept s (execPartnerCstartRx cs s) := by
  unfold execPartnerCstartRx
  dsimp only
  (repeat' split) <;> simp

theorem execCstartStartTime_kept (s : State) : NextKept s (execCstartStartTime s) := by
  unfold execCstartStartTime
  (repeat' split) <;> simp

theorem execContentionEnd_kept (s : State) : NextKept s (execContentionEnd s) := by
  unfold execContentionEnd
  (repeat' split) <;> simp

theorem execTransferLossTimer_kept (s : State) : NextKept s (execTransferLossTimer s) := by
  unfold execTransferLossTimer
  (repeat' split) <;> simp

/-! ## Machine/LaneIssue.lean -/

theorem execRegisterWrite_kept (by_ : RegBy) (addr size : Nat) (v : Word) (s : State) :
    NextKept s (execRegisterWrite by_ addr size v s) := by
  unfold execRegisterWrite
  dsimp only
  (repeat' split) <;> simp +contextual

theorem execTaskDispatch_kept (lane : Fin 8) (copy : Side) (s : State) : NextKept s (execTaskDispatch lane copy s) := by
  unfold execTaskDispatch
  split <;> simp +contextual

theorem execTaskDone_kept (lane : Fin 8) (copy : Side) (v : Word) (s : State) : NextKept s (execTaskDone lane copy v s) := by
  simp +contextual [execTaskDone]

theorem execCreate_kept (lane : Fin 8) (residue : Bool) (s : State) : NextKept s (execCreate lane residue s) := by
  simp +contextual [execCreate]

theorem execDelete_kept (lane : Fin 8) (s : State) : NextKept s (execDelete lane s) := by
  simp +contextual [execDelete]

theorem execSetTag_kept (lane : Fin 8) (s : State) : NextKept s (execSetTag lane s) := by
  simp +contextual [execSetTag]

theorem execMove_kept (lane : Fin 8) (residue : Bool) (s : State) : NextKept s (execMove lane residue s) := by
  simp +contextual [execMove]

theorem execUnfreeze_kept (lane : Fin 8) (s : State) : NextKept s (execUnfreeze lane s) := by
  simp +contextual [execUnfreeze]

theorem execNetActPushT_kept (lane : Fin 8) (time : Word) (s : State) : NextKept s (execNetActPushT lane time s) := by
  simp +contextual [execNetActPushT]

theorem execActCancel_kept (lane : Fin 8) (time : Word) (s : State) : NextKept s (execActCancel lane time s) := by
  simp +contextual [execActCancel]

/-! ## Machine/Power.lean -/

theorem execWatchdogRestart_kept (s : State) : NextKept s (execWatchdogRestart s) := by
  simp [execWatchdogRestart]

theorem execWatchdogExpiry_kept (s : State) : NextKept s (execWatchdogExpiry s) := by
  unfold execWatchdogExpiry
  dsimp only
  (repeat' split) <;> simp +contextual

theorem execFeedLoss_kept (feed : Side) (mv : Nat) (s : State) : NextKept s (execFeedLoss feed mv s) := by
  simp [execFeedLoss]

theorem execFeedOvervoltage_kept (feed : Side) (mv : Nat) (s : State) : NextKept s (execFeedOvervoltage feed mv s) := by
  simp [execFeedOvervoltage]

theorem execFeedPath_kept (feed : Side) (cause : Nat) (s : State) : NextKept s (execFeedPath feed cause s) := by
  unfold execFeedPath
  split <;> simp

theorem execFeedReturned_kept (feed : Side) (mv : Nat) (s : State) : NextKept s (execFeedReturned feed mv s) := by
  unfold execFeedReturned
  dsimp only
  (repeat' split) <;> simp +contextual

theorem execHoldupVaneRelease_kept (s : State) : NextKept s (execHoldupVaneRelease s) := by
  unfold execHoldupVaneRelease
  (repeat' split) <;> simp

theorem execHoldupCommit_kept (s : State) : NextKept s (execHoldupCommit s) := by
  unfold execHoldupCommit
  split <;> simp

theorem execHoldupDomainsOff_kept (s : State) : NextKept s (execHoldupDomainsOff s) := by
  unfold execHoldupDomainsOff
  split <;> simp

theorem execHoldupEnd_kept (s : State) : NextKept s (execHoldupEnd s) := by
  unfold execHoldupEnd
  dsimp only
  (repeat' split) <;> simp +contextual

theorem execAonPowerLoss_kept (s : State) : NextKept s (execAonPowerLoss s) := by
  simp [execAonPowerLoss]

theorem execPowerGood_kept (slotHigh bkpOk : Bool) (s : State) : NextKept s (execPowerGood slotHigh bkpOk s) := by
  unfold execPowerGood
  split <;> simp

theorem execPresentSettled_kept (s : State) : NextKept s (execPresentSettled s) := by
  simp [execPresentSettled]

theorem execDomainSupplyGood_kept (d : Fin 12) (s : State) : NextKept s (execDomainSupplyGood d s) := by
  unfold execDomainSupplyGood
  split <;> simp

theorem execDomainGoodTimeout_kept (d : Fin 12) (s : State) : NextKept s (execDomainGoodTimeout d s) := by
  unfold execDomainGoodTimeout
  split <;> simp

theorem execDramWipeDone_kept (s : State) : NextKept s (execDramWipeDone s) := by
  unfold execDramWipeDone
  split <;> simp

theorem execLullServiceReached_kept (f : StartFind) (s : State) : NextKept s (execLullServiceReached f s) := by
  unfold execLullServiceReached
  split <;> simp

theorem execFullServiceReady_kept (verdicts : List (List (Bool × Bool))) (s : State) : NextKept s (execFullServiceReady verdicts s) := by
  unfold execFullServiceReady
  dsimp only
  (repeat' split) <;> simp

theorem execDomainFault_kept (d : Fin 12) (s : State) : NextKept s (execDomainFault d s) := by
  unfold execDomainFault
  (repeat' split) <;> simp

theorem execClockFault_kept (src : ClockSrc) (s : State) : NextKept s (execClockFault src s) := by
  simp [execClockFault]

theorem execPresentLost_kept (s : State) : NextKept s (execPresentLost s) := by
  unfold execPresentLost
  dsimp only
  (repeat' split) <;> simp

theorem execSwapPress_kept (ms : Nat) (s : State) : NextKept s (execSwapPress ms s) := by
  unfold execSwapPress
  dsimp only
  (repeat' split) <;> simp

theorem execScrubPatrol_kept (addr : Nat) (uncorrectable : Bool) (s : State) : NextKept s (execScrubPatrol addr uncorrectable s) := by
  unfold execScrubPatrol
  split <;> simp

theorem execRngFail_kept (s : State) : NextKept s (execRngFail s) := by
  simp [execRngFail]

theorem execRngRetest_kept (ok : Bool) (s : State) : NextKept s (execRngRetest ok s) := by
  simp [execRngRetest]

theorem execPhyLinkChange_kept (port : PhyPort) (up : Bool) (s : State) : NextKept s (execPhyLinkChange port up s) := by
  unfold execPhyLinkChange
  split <;> simp

/-! ## Machine/Session.lean -/

theorem execNop_kept (c : Cmd) (s : State) : NextKept s (execNop c s) :=
  nextKept_hostCmd (fun t => by simp) s

theorem execSessionOpen_kept (c : Cmd) (s : State) : NextKept s (execSessionOpen c s) :=
  nextKept_hostCmd (fun t => by simp) s

theorem execSessionProve_kept (c : Cmd) (sigOk : Bool) (shared : Key) (s : State) : NextKept s (execSessionProve c sigOk shared s) :=
  nextKept_hostCmd (fun t => by simp) s

theorem execSessionClose_kept (c : Cmd) (s : State) : NextKept s (execSessionClose c s) :=
  nextKept_hostCmd (fun t => by simp) s

theorem execSessionTimeout_kept (sess : BitVec 16) (s : State) : NextKept s (execSessionTimeout sess s) := by
  unfold execSessionTimeout
  split <;> simp

/-! ## Machine/Stations.lean -/

theorem execStationSyncRx_kept (code : Nat) (ch : Side) (f : Frame) (spacingOk : Bool) (ofs : Int) (s : State) :
    NextKept s (execStationSyncRx code ch f spacingOk ofs s) := by
  simp [execStationSyncRx]

theorem execStationCstartRx_kept (code : Nat) (ch : Side) (f : Frame) (s : State) : NextKept s (execStationCstartRx code ch f s) := by
  simp [execStationCstartRx]

theorem execStationSyncMissed_kept (code : Nat) (s : State) : NextKept s (execStationSyncMissed code s) := by
  simp [execStationSyncMissed]

theorem execStationOutRx_kept (code : Nat) (ch : Side) (f : Frame) (s : State) : NextKept s (execStationOutRx code ch f s) := by
  simp [execStationOutRx]

theorem execStationOutApply_kept (code : Nat) (s : State) : NextKept s (execStationOutApply code s) := by
  simp [execStationOutApply]

theorem execStationActRx_kept (code : Nat) (ch : Side) (win : Nat) (f : Frame) (s : State) :
    NextKept s (execStationActRx code ch win f s) := by
  unfold execStationActRx
  dsimp only
  (repeat' split) <;> simp

theorem execStationActInstant_kept (code : Nat) (point : Point) (s : State) : NextKept s (execStationActInstant code point s) := by
  unfold execStationActInstant
  dsimp only
  (repeat' split) <;> simp

theorem execStationWatchdogExpiry_kept (code : Nat) (s : State) : NextKept s (execStationWatchdogExpiry code s) := by
  unfold execStationWatchdogExpiry
  dsimp only
  (repeat' split) <;> simp

theorem execStationRestart_kept (code : Nat) (retains : Bool) (s : State) : NextKept s (execStationRestart code retains s) := by
  simp [execStationRestart]

theorem execStationCfgRequest_kept (code : Nat) (ch : Side) (f : Frame) (s : State) : NextKept s (execStationCfgRequest code ch f s) := by
  simp [execStationCfgRequest]

theorem execStationInSend_kept (code : Nat) (ch : Side) (latchDev : Int) (s : State) :
    NextKept s (execStationInSend code ch latchDev s) := by
  unfold execStationInSend
  dsimp only
  (repeat' split) <;> simp

theorem execStationArbSend_kept (code : Nat) (ch : Side) (startAt : Nat) (s : State) :
    NextKept s (execStationArbSend code ch startAt s) := by
  unfold execStationArbSend
  dsimp only
  (repeat' split) <;> simp

theorem execStationGuardFrame_kept (code : Nat) (ch : Side) (seen : Seen) (f : Frame) (s : State) :
    NextKept s (execStationGuardFrame code ch seen f s) := by
  unfold execStationGuardFrame
  dsimp only
  (repeat' split) <;> simp

/-! ## Machine/StatusCmd.lean -/

theorem execStatusGet_kept (c : Cmd) (s : State) : NextKept s (execStatusGet c s) := by
  refine nextKept_hostCmd (fun t => Still.kept ?_) s
  dsimp only
  split
  · simp
  · have sections (l : List Nat) : Still t (l.foldl (fun x k => State.addSection x c.length k) (t, [], false)).1 :=
      foldl_fst_still _ (fun x k => by simp) l (t, _)
    simp [sections]

/-! ## Every command -/

/-- Every command answers a next state, keeps the queue and lets the boot counter never fall. -/
theorem exec_kept (i : Instr) (s : State) : NextKept s (exec i s) := by
  cases i with
  | nop c => exact execNop_kept c s
  | sessionOpen c => exact execSessionOpen_kept c s
  | sessionProve c sigOk shared => exact execSessionProve_kept c sigOk shared s
  | sessionClose c => exact execSessionClose_kept c s
  | statusGet c => exact execStatusGet_kept c s
  | rtcGet c => exact execRtcGet_kept c s
  | setUtc c => exact execSetUtc_kept c s
  | setCivil c => exact execSetCivil_kept c s
  | setTrim c => exact execSetTrim_kept c s
  | clearStamp c => exact execClearStamp_kept c s
  | writeBackup c => exact execWriteBackup_kept c s
  | rtcShift c => exact execRtcShift_kept c s
  | alarmSetArm c => exact execAlarmSetArm_kept c s
  | alarmSetDisarm c => exact execAlarmSetDisarm_kept c s
  | logRead c => exact execLogRead_kept c s
  | logClearRing c => exact execLogClearRing_kept c s
  | logClearArchive c => exact execLogClearArchive_kept c s
  | gustTableReplace c => exact execGustTableReplace_kept c s
  | gustTableDefault c => exact execGustTableDefault_kept c s
  | logExport c => exact execLogExport_kept c s
  | forceSet c => exact execForceSet_kept c s
  | forceRelease c => exact execForceRelease_kept c s
  | forceReleaseAll c => exact execForceReleaseAll_kept c s
  | forceList c => exact execForceList_kept c s
  | appLoad c img => exact execAppLoad_kept c img s
  | appChange c img => exact execAppChange_kept c img s
  | appRollback c => exact execAppRollback_kept c s
  | appStart c => exact execAppStart_kept c s
  | appStop c => exact execAppStop_kept c s
  | taskRelease c => exact execTaskRelease_kept c s
  | fwStage c img => exact execFwStage_kept c img s
  | fwHandover c => exact execFwHandover_kept c s
  | fwConfirm c => exact execFwConfirm_kept c s
  | fwFallback c => exact execFwFallback_kept c s
  | netConfigure c => exact execNetConfigure_kept c s
  | netConfigureNext c => exact execNetConfigureNext_kept c s
  | netStart c => exact execNetStart_kept c s
  | stationReintegrate c => exact execStationReintegrate_kept c s
  | pairSwitch c => exact execPairSwitch_kept c s
  | pairRejoin c => exact execPairRejoin_kept c s
  | attest c => exact execAttest_kept c s
  | lifecycleAdvance c proofOk => exact execLifecycleAdvance_kept c proofOk s
  | enrolIntegrator c proofOk => exact execEnrolIntegrator_kept c proofOk s
  | revokeIntegrator c => exact execRevokeIntegrator_kept c s
  | grantService c proofOk => exact execGrantService_kept c proofOk s
  | revokeService c => exact execRevokeService_kept c s
  | replaceOwner c proofOk => exact execReplaceOwner_kept c proofOk s
  | marginReport c => exact execMarginReport_kept c s
  | marginReplan c => exact execMarginReplan_kept c s
  | scrub c => exact execScrub_kept c s
  | flashVerify c => exact execFlashVerify_kept c s
  | laneInject c => exact execLaneInject_kept c s
  | opSuspend c => exact execOpSuspend_kept c s
  | opResume c => exact execOpResume_kept c s
  | opCancel c => exact execOpCancel_kept c s
  | trackSnapshot c => exact execTrackSnapshot_kept c s
  | suspendPointReached sess cmdId => exact execSuspendPointReached_kept sess cmdId s
  | imageStagingDone sess cmdId => exact execImageStagingDone_kept sess cmdId s
  | hqSqTail q v descs ring => exact execHqSqTail_kept q v descs ring s
  | hqCqHead q v => exact execHqCqHead_kept q v s
  | hqEvHead v => exact execHqEvHead_kept v s
  | queueEnable => exact execQueueEnable_kept s
  | queueDisable => exact execQueueDisable_kept s
  | queueDrained q => exact execQueueDrained_kept q s
  | eventRingEnable => exact execEventRingEnable_kept s
  | eventRingDisable => exact execEventRingDisable_kept s
  | hifResetHost => exact execHifResetHost_kept s
  | hifResetWarm => exact execHifResetWarm_kept s
  | pairCtrl v => exact execPairCtrl_kept v s
  | ethApply port => exact execEthApply_kept port s
  | registerWrite by_ addr size v => exact execRegisterWrite_kept by_ addr size v s
  | interruptHoldoffExpiry vec => exact execInterruptHoldoffExpiry_kept vec s
  | busyEnter => exact execBusyEnter_kept s
  | busyEnd => exact execBusyEnd_kept s
  | sessionTimeout sess => exact execSessionTimeout_kept sess s
  | tlsConnect port handshakeOk => exact execTlsConnect_kept port handshakeOk s
  | capsuleRx conn cap => exact execCapsuleRx_kept conn cap s
  | tlsClose conn => exact execTlsClose_kept conn s
  | hifLinkReset => exact execHifLinkReset_kept s
  | taskDone lane copy v => exact execTaskDone_kept lane copy v s
  | taskDispatch lane copy => exact execTaskDispatch_kept lane copy s
  | taskTrap lane copy cause addr => exact execTaskTrap_kept lane copy cause addr s
  | deliveryRequest lane cA cB => exact execDeliveryRequest_kept lane cA cB s
  | laneTimerExpiry lane => exact execLaneTimerExpiry_kept lane s
  | softwareInterrupt src dst => exact execSoftwareInterrupt_kept src dst s
  | wfi lane copy it flt => exact execWfi_kept lane copy it flt s
  | comparedItem lane copy it flt => exact execComparedItem_kept lane copy it flt s
  | skewTime lane => exact execSkewTime_kept lane s
  | readReturn lane errA errB => exact execReadReturn_kept lane errA errB s
  | interconnectTransaction t => exact execInterconnectTransaction_kept t s
  | l1ParityError lane copy line => exact execL1ParityError_kept lane copy line s
  | laneFaultFlashCommit => exact execLaneFaultFlashCommit_kept s
  | pairResetRequestTimeout => exact execPairResetRequestTimeout_kept s
  | laneWake => exact execLaneWake_kept s
  | laneParkTimeout => exact execLaneParkTimeout_kept s
  | cycleStart => exact execCycleStart_kept s
  | netStall => exact execNetStall_kept s
  | stillPoint => exact execStillPoint_kept s
  | inputClose w => exact execInputClose_kept w s
  | cycleMark m => exact execCycleMark_kept m s
  | outputCutoff => exact execOutputCutoff_kept s
  | downstreamWindow win late => exact execDownstreamWindow_kept win late s
  | heartbeatSend => exact execHeartbeatSend_kept s
  | mirrorTransferClose => exact execMirrorTransferClose_kept s
  | mirrorAckDeadline => exact execMirrorAckDeadline_kept s
  | inFrameRx ch f => exact execInFrameRx_kept ch f s
  | upstreamFrameAtGuardian branch seen f => exact execUpstreamFrameAtGuardian_kept branch seen f s
  | evtFrameRx ch f => exact execEvtFrameRx_kept ch f s
  | cfgResponseRx ch f => exact execCfgResponseRx_kept ch f s
  | delayReportRx ch t4 f => exact execDelayReportRx_kept ch t4 f s
  | cfgRequestTimeout branch tag => exact execCfgRequestTimeout_kept branch tag s
  | stationRetryTimer code => exact execStationRetryTimer_kept code s
  | joiningTimeout code => exact execJoiningTimeout_kept code s
  | countersPoll => exact execCountersPoll_kept s
  | timeTransfer linkDelay took offset content => exact execTimeTransfer_kept linkDelay took offset content s
  | listenTimerExpiry => exact execListenTimerExpiry_kept s
  | partnerCstartRx cs => exact execPartnerCstartRx_kept cs s
  | cstartStartTime => exact execCstartStartTime_kept s
  | contentionEnd => exact execContentionEnd_kept s
  | transferLossTimer => exact execTransferLossTimer_kept s
  | heartbeatRx hb => exact execHeartbeatRx_kept hb s
  | faultMessageRx hb req => exact execFaultMessageRx_kept hb req s
  | heartbeatLost => exact execHeartbeatLost_kept s
  | pairLaneFail k => exact execPairLaneFail_kept k s
  | pairAuth h => exact execPairAuth_kept h s
  | partnerContentRx win late f => exact execPartnerContentRx_kept win late f s
  | stationStateRx code st wasLost miss good losses refusal => exact execStationStateRx_kept code st wasLost miss good losses refusal s
  | pairConfigRx length buf next switchN => exact execPairConfigRx_kept length buf next switchN s
  | pairImageRx img => exact execPairImageRx_kept img s
  | changeAnnounceRx n => exact execChangeAnnounceRx_kept n s
  | mirrorBlockRx xfer block lines forceVer digest => exact execMirrorBlockRx_kept xfer block lines forceVer digest s
  | resendRequestRx block => exact execResendRequestRx_kept block s
  | closeBlockRx xfer blocks commit slice audit fin => exact execCloseBlockRx_kept xfer blocks commit slice audit fin s
  | transferAckRx xfer => exact execTransferAckRx_kept xfer s
  | snapshotTransferRx cycle lines complete => exact execSnapshotTransferRx_kept cycle lines complete s
  | baseChunkRx chunk => exact execBaseChunkRx_kept chunk s
  | baseCopyDone => exact execBaseCopyDone_kept s
  | vaneLineChange line asserted => exact execVaneLineChange_kept line asserted s
  | takeover => exact execTakeover_kept s
  | sentinelCheck => exact execSentinelCheck_kept s
  | noHolder => exact execNoHolder_kept s
  | slotBAssertWait => exact execSlotBAssertWait_kept s
  | switchFinalClose => exact execSwitchFinalClose_kept s
  | changeQ => exact execChangeQ_kept s
  | rollbackPeriodEnd => exact execRollbackPeriodEnd_kept s
  | pairResetIn => exact execPairResetIn_kept s
  | watchdogRestart => exact execWatchdogRestart_kept s
  | watchdogExpiry => exact execWatchdogExpiry_kept s
  | netActPushT lane time => exact execNetActPushT_kept lane time s
  | actCancel lane time => exact execActCancel_kept lane time s
  | localActInstant ch => exact execLocalActInstant_kept ch s
  | create lane residue => exact execCreate_kept lane residue s
  | delete lane => exact execDelete_kept lane s
  | setTag lane => exact execSetTag_kept lane s
  | move lane residue => exact execMove_kept lane residue s
  | unfreeze lane => exact execUnfreeze_kept lane s
  | lioTripClr group v => exact execLioTripClr_kept group v s
  | wbUpdateSet => exact execWbUpdateSet_kept s
  | wbUpdateClear => exact execWbUpdateClear_kept s
  | wbLoadSet => exact execWbLoadSet_kept s
  | wbRgnWrite r reg v => exact execWbRgnWrite_kept r reg v s
  | wbAbortedClear => exact execWbAbortedClear_kept s
  | wbUpdateTimeout => exact execWbUpdateTimeout_kept s
  | lioDebounceDone ch high edgeTime => exact execLioDebounceDone_kept ch high edgeTime s
  | lioBand ch => exact execLioBand_kept ch s
  | wireBreak ch below => exact execWireBreak_kept ch below s
  | lioOutputFault ch terminalHigh => exact execLioOutputFault_kept ch terminalHigh s
  | lioFaultClear ch => exact execLioFaultClear_kept ch s
  | overcurrentTrip ch => exact execOvercurrentTrip_kept ch s
  | thermalTrip ch => exact execThermalTrip_kept ch s
  | tripRetryExpiry ch => exact execTripRetryExpiry_kept ch s
  | supplySag group => exact execSupplySag_kept group s
  | supplyLow group => exact execSupplyLow_kept group s
  | supplyRise group => exact execSupplyRise_kept group s
  | supplyDip group => exact execSupplyDip_kept group s
  | recoveringTimerExpiry group levels => exact execRecoveringTimerExpiry_kept group levels s
  | ptpAnnounceRx port m => exact execPtpAnnounceRx_kept port m s
  | ptpSyncRx port m => exact execPtpSyncRx_kept port m s
  | ptpSyncTimeout => exact execPtpSyncTimeout_kept s
  | leapSecond insert => exact execLeapSecond_kept insert s
  | calendarDiscipline => exact execCalendarDiscipline_kept s
  | alarmFire => exact execAlarmFire_kept s
  | calendarEnd => exact execCalendarEnd_kept s
  | batteryTest mv => exact execBatteryTest_kept mv s
  | bkpSwitch => exact execBkpSwitch_kept s
  | gustRefill code => exact execGustRefill_kept code s
  | archiveCommit => exact execArchiveCommit_kept s
  | holdBufferFlush => exact execHoldBufferFlush_kept s
  | feedLoss feed mv => exact execFeedLoss_kept feed mv s
  | feedOvervoltage feed mv => exact execFeedOvervoltage_kept feed mv s
  | feedPath feed cause => exact execFeedPath_kept feed cause s
  | feedReturned feed mv => exact execFeedReturned_kept feed mv s
  | holdupVaneRelease => exact execHoldupVaneRelease_kept s
  | holdupCommit => exact execHoldupCommit_kept s
  | holdupDomainsOff => exact execHoldupDomainsOff_kept s
  | holdupEnd => exact execHoldupEnd_kept s
  | aonPowerLoss => exact execAonPowerLoss_kept s
  | powerGood slotHigh bkpOk => exact execPowerGood_kept slotHigh bkpOk s
  | domainFault d => exact execDomainFault_kept d s
  | domainGoodTimeout d => exact execDomainGoodTimeout_kept d s
  | clockFault src => exact execClockFault_kept src s
  | dramWipeDone => exact execDramWipeDone_kept s
  | lullServiceReached f => exact execLullServiceReached_kept f s
  | fullServiceReady verdicts => exact execFullServiceReady_kept verdicts s
  | fwStartTimeout => exact execFwStartTimeout_kept s
  | presentSettled => exact execPresentSettled_kept s
  | presentLost => exact execPresentLost_kept s
  | swapPress ms => exact execSwapPress_kept ms s
  | scrubPatrol addr uncorrectable => exact execScrubPatrol_kept addr uncorrectable s
  | rngFail => exact execRngFail_kept s
  | rngRetest ok => exact execRngRetest_kept ok s
  | marginMeasure kind inst value => exact execMarginMeasure_kept kind inst value s
  | marginDaily dates => exact execMarginDaily_kept dates s
  | debugToken t => exact execDebugToken_kept t s
  | debugHaltRequest lane => exact execDebugHaltRequest_kept lane s
  | debugResetRequest => exact execDebugResetRequest_kept s
  | debugAccess t => exact execDebugAccess_kept t s
  | stationSyncRx code ch f spacingOk ofs => exact execStationSyncRx_kept code ch f spacingOk ofs s
  | stationActRx code ch win f => exact execStationActRx_kept code ch win f s
  | stationActInstant code point => exact execStationActInstant_kept code point s
  | stationOutApply code => exact execStationOutApply_kept code s
  | stationWatchdogExpiry code => exact execStationWatchdogExpiry_kept code s
  | stationRestart code retains => exact execStationRestart_kept code retains s
  | stationCfgRequest code ch f => exact execStationCfgRequest_kept code ch f s
  | stationGuardFrame code ch seen f => exact execStationGuardFrame_kept code ch seen f s
  | partnerReportRx kind ok => exact execPartnerReportRx_kept kind ok s
  | stationInSend code ch latchDev => exact execStationInSend_kept code ch latchDev s
  | stationArbSend code ch startAt => exact execStationArbSend_kept code ch startAt s
  | stationOutRx code ch f => exact execStationOutRx_kept code ch f s
  | stationCstartRx code ch f => exact execStationCstartRx_kept code ch f s
  | stationSyncMissed code => exact execStationSyncMissed_kept code s
  | phyLinkChange port up => exact execPhyLinkChange_kept port up s
  | firmwareWarmRestart => exact execFirmwareWarmRestart_kept s
  | laneInjectTimeout => exact execLaneInjectTimeout_kept s
  | longOperationProgress sess cmdId done total ok => exact execLongOperationProgress_kept sess cmdId done total ok s
  | domainSupplyGood d => exact execDomainSupplyGood_kept d s

/-- Settles O47: every command answers a next state, and none of its operations touches the queue. -/
theorem everyCommandCompletes : Obligations.EveryCommandCompletes := by
  intro c s
  obtain ⟨t, ht, hq, -⟩ := exec_kept c s
  exact ⟨t, ht, hq⟩

/-- Settles O55: the boot counter changes at a reset alone, which counts one more up to the top (`State.boot_takeReset`). -/
theorem bootCountNeverDecreases : Obligations.BootCountNeverDecreases := by
  intro c s t hs ht
  obtain ⟨u, hu, -, hb⟩ := exec_kept c s
  cases ht.symm.trans hu
  exact hb _ ⟨le_rfl, hs⟩

end Sys2Proof.Machine
end

section
/-! SETTLED. What a step runs, the state right after a power-on reset, a debug reset before a live holder, and the table of 14 R390. -/

namespace Sys2Proof.Machine
open Sys2Proof

/-- A module that waits while its clock is disciplined at a rate of one part in 10 ^ 9. -/
def State.disciplined : State := { clk := { rate := 1 } }

/-- Refutes O45: on an empty queue the clock passes with its rate, so that the network time of a disciplined clock gains its share of a
nanosecond too, and not the model's instant alone. -/
theorem not_stepRunsTheFrontCommand : ¬ Obligations.StepRunsTheFrontCommand := by
  unfold Obligations.StepRunsTheFrontCommand
  rintro ⟨-, hempty⟩
  have h := hempty State.disciplined rfl
  have hstep : step State.disciplined = .next State.disciplined.tick := rfl
  rw [hstep, Host.Outcome.next.injEq] at h
  have hrem : State.disciplined.tick.clk.rem = 0 := congrArg (fun t : State => t.clk.rem) h
  exact absurd hrem (by decide)

/-! ## Right after a power-on reset -/

theorem State.reset_hq (q : Fin 8) : State.reset.hq q.val = {} := by
  revert q
  decide

theorem State.reset_taskAt (t : Fin 32) : State.reset.taskAt t.val = {} := by
  revert t
  decide

/-- Settles O46: every field is at its default. -/
theorem resetIsBringUp : Obligations.ResetIsBringUp := by
  unfold Obligations.ResetIsBringUp
  have hq (q : Fin 8) : (State.reset.hq q.val).st = .disabled := by rw [State.reset_hq]
  have ht (t : Fin 32) : (State.reset.taskAt t.val).st = .stopped := by rw [State.reset_taskAt]
  exact ⟨rfl, fun _ => rfl, rfl, rfl, rfl, rfl, hq, rfl, rfl, rfl, rfl, rfl, rfl, rfl, rfl, rfl, rfl, rfl, rfl, rfl, ht, rfl⟩

/-! ## A debug reset and a live holder -/

theorem State.liveTask_iff (s : State) :
    s.liveTask = true ↔ ∃ x ∈ s.tasks, (s.taskAt x.num).st ≠ .stopped ∧ (s.taskAt x.num).st ≠ .halted := by
  simp [State.liveTask]

/-- Settles O52, by whether a task of the holder is neither STOPPED nor HALTED. -/
theorem debugResetIsRefusedToALiveHolder : Obligations.DebugResetIsRefusedToALiveHolder := by
  unfold Obligations.DebugResetIsRefusedToALiveHolder
  refine ⟨?live, ?idle⟩
  case live =>
    intro s hopen hright hok hh hx
    show execDebugResetRequest s = _
    simp [execDebugResetRequest, hopen, hright, hok, hh, s.liveTask_iff.mpr hx]
  case idle =>
    intro s hopen hright hok hx
    have hno : (s.holder && s.liveTask) = false := by
      rw [Bool.and_eq_false_iff, ← Bool.not_eq_true s.liveTask, s.liveTask_iff]
      refine hx.imp_right fun h ⟨x, hmem, hst, hha⟩ => ?_
      exact (h x hmem).elim hst hha
    show execDebugResetRequest s = _
    simp [execDebugResetRequest, hopen, hright, hok, hno]

/-! ## A party that may not -/

/-- Checks 2 to 4 pass for a command of a source outside the module; the table of 14 R390 refuses it at check 5. -/
theorem State.hostCmd_denied {s : State} {op dir : Nat} {c : Cmd} {inlOk : Bool} (k : State → State) (h : deniedTo s op c dir inlOk = true)
    (hp : allowed s.keys.life (s.partyOf c) op = false) :
    s.hostCmd op c dir inlOk k = (begun s op c dir inlOk).final op c stDenied dNone := by
  simp only [deniedTo, Bool.and_eq_true, decide_eq_true_eq, Bool.not_eq_true'] at h
  obtain ⟨⟨⟨⟨⟨hsrc, hbegin⟩, hres⟩, hbuf⟩, hdma⟩, hsess⟩ := h
  have hmay : mayIssue op c (allowed s.keys.life (s.partyOf c) op) = false := by
    simp [mayIssue, selfOp, hsrc, hp]
  have hchecks : (s.unqueue op c).checks op c dir inlOk (allowed s.keys.life (s.partyOf c) op) = some (stDenied, dNone) := by
    simp [State.checks, hres, hbuf, hdma, hsess, hmay]
  have hat : s.failedAt op c dNone = s.unqueue op c := by simp [State.failedAt, dNone, dDma]
  rw [State.hostCmd_eq, State.hostCmdBy_fails hbegin hchecks, hat, begun]

theorem allowed_forceSet {party : Nat} (hp : party ≠ 2) : allowed 2 party 0x0050 = false := by
  simp [allowed, hp]

theorem allowed_logClear {party : Nat} (hp : party ≠ 2) : allowed 2 party 0x0041 = false := by
  simp [allowed, hp]

theorem allowed_appStart {party : Nat} (hp : party ≠ 2) (hi : party ≠ 3) : allowed 2 party 0x0062 = false := by
  simp [allowed, hp, hi]

/-- The table names Maker and Owner, but no command of the Maker passes in FIELD. -/
theorem allowed_fwConfirm {party : Nat} (hp : party ≠ 2) : allowed 2 party 0x0072 = false := by
  simp +contextual [allowed, hp]

/-- Settles O53: check 5 fails by the table's row for the command. -/
theorem privilegeIsChecked : Obligations.PrivilegeIsChecked := by
  unfold Obligations.PrivilegeIsChecked
  refine ⟨?forceSet, ?logClear, ?appStart, ?fwConfirm⟩
  case forceSet =>
    intro c s hl hp h
    exact congrArg Host.Outcome.next (State.hostCmd_denied _ h (hl ▸ allowed_forceSet hp))
  case logClear =>
    intro c s hl hp h
    exact congrArg Host.Outcome.next (State.hostCmd_denied _ h (hl ▸ allowed_logClear hp))
  case appStart =>
    intro c s hl hp hi h
    exact congrArg Host.Outcome.next (State.hostCmd_denied _ h (hl ▸ allowed_appStart hp hi))
  case fwConfirm =>
    intro c s hl hp h
    exact congrArg Host.Outcome.next (State.hostCmd_denied _ h (hl ▸ allowed_fwConfirm hp))

end Sys2Proof.Machine
end

section
/-! SETTLED. NOP: the host interface left out of account, nothing is touched (13 R362). -/

namespace Sys2Proof.Machine
open Sys2Proof

/-! ## What the host interface alone changes -/

/-- A state with its host interface left out of account. -/
def State.sansHost (s : State) : State := { s with host := {} }

/-- A state with the host interface, and what a refused access of its rings is noted in, left out of account. -/
def State.sansRings (s : State) : State := { s.sansHost with wb := {}, recd := {} }

theorem State.eq_of_sansHost {s t : State} (h : t.sansHost = s.sansHost) : t = { s with host := t.host } := by
  cases s
  cases t
  simpa [State.sansHost] using h

theorem State.eq_of_sansRings {s t : State} (h : t.sansRings = s.sansRings) :
    t = { s with host := t.host, wb := t.wb, recd := t.recd } := by
  cases s
  cases t
  simpa [State.sansHost, State.sansRings] using h

theorem State.sansRings_of_sansHost {s t : State} (h : t.sansHost = s.sansHost) : t.sansRings = s.sansRings := by
  simp only [State.sansRings, h]

@[simp] theorem State.onHq_sansHost (s : State) (q : Nat) (f : HQ → HQ) : (s.onHq q f).sansHost = s.sansHost := rfl

@[simp] theorem State.onSess_sansHost (s : State) (n : Nat) (f : Sess → Sess) : (s.onSess n f).sansHost = s.sansHost := rfl

@[simp] theorem State.hostRead_sansHost (s : State) (a n : Nat) : (s.hostRead a n).sansHost = s.sansHost := rfl

@[simp] theorem State.event_sansHost (s : State) (code : Nat) (p : List Byte) : (s.event code p).sansHost = s.sansHost := by
  simp [State.sansHost]

@[simp] theorem State.final_sansHost (s : State) (op : Nat) (c : Cmd) (st d : Nat) (r0 r1 : Word) (l : List Byte) :
    (s.final op c st d r0 r1 l).sansHost = s.sansHost := by
  simp [State.sansHost]

@[simp] theorem State.noteLow_sansHost (s : State) : s.noteLow.sansHost = s.sansHost := by
  simp [State.sansHost]

@[simp] theorem State.queueError_sansHost (s : State) (q r : Nat) : (s.queueError q r).sansHost = s.sansHost := by
  simp [State.queueError]

@[simp] theorem State.fetchOne_sansHost (s : State) (q : Nat) (d : Desc) : (s.fetchOne q d).sansHost = s.sansHost := by
  unfold State.fetchOne
  dsimp only
  split <;> simp

@[simp] theorem State.readBuf_sansHost (s : State) (c : Cmd) (dir : Nat) (inlOk : Bool) : (s.readBuf c dir inlOk).sansHost = s.sansHost := by
  unfold State.readBuf
  (repeat' split) <;> rfl

@[simp] theorem State.useId_sansHost (s : State) (op : Nat) (c : Cmd) (dir : Nat) (inlOk : Bool) :
    (s.useId op c dir inlOk).sansHost = s.sansHost := by
  unfold State.useId
  dsimp only
  split <;> simp

@[simp] theorem State.apertureRefuses_sansRings (s : State) (d : Dma) (w : Bool) (a n : Nat) :
    (s.apertureRefuses d w a n).sansRings = s.sansRings := by
  simp [State.sansRings, State.sansHost]

/-- The notice of a refused read reaches beyond the host interface; a good read does not. -/
@[simp] theorem State.fetchNext_sansRings (s : State) (q : Nat) : (s.fetchNext q).sansRings = s.sansRings := by
  unfold State.fetchNext
  split
  case h_1 => rfl
  case h_2 e l he =>
    split
    case isTrue => rfl
    case isFalse =>
      extract_lets a d
      split
      case isTrue => rw [State.sansRings_of_sansHost (State.queueError_sansHost _ _ _), State.apertureRefuses_sansRings]
      case isFalse => exact State.sansRings_of_sansHost (State.fetchOne_sansHost _ _ _)

@[simp] theorem State.fetch_sansRings (s : State) (q : Nat) : (s.fetch q).sansRings = s.sansRings := by
  rw [State.fetch, State.sansRings_of_sansHost (State.noteLow_sansHost _)]
  exact foldl_kept (·.sansRings) _ (fun s _ => s.fetchNext_sansRings q) _ _

/-- Of a queue with nothing posted nothing is fetched. -/
theorem State.fetch_sansHost {s : State} {q : Nat} (h : (s.hq q).posted = []) : (s.fetch q).sansHost = s.sansHost := by
  simp [State.fetch, h]

/-- A command leaves its queue, whose next entries are fetched, or its connection. -/
theorem State.unqueue_sansRings (s : State) (op : Nat) (c : Cmd) : (s.unqueue op c).sansRings = s.sansRings := by
  unfold State.unqueue
  dsimp only
  split
  case h_1 q hq =>
    rw [State.fetch_sansRings, State.sansRings_of_sansHost (State.onHq_sansHost _ _ _)]
    split <;> rfl
  case h_2 k hk => exact State.sansRings_of_sansHost (State.noteLow_sansHost _)
  case h_3 => rfl

theorem State.unqueue_sansHost {s : State} (op : Nat) {c : Cmd} (h : ∀ q, c.src = .queue q → (s.hq q.val).posted = []) :
    (s.unqueue op c).sansHost = s.sansHost := by
  unfold State.unqueue
  dsimp only
  split
  case h_1 q hq =>
    have hp := h q hq
    rw [State.fetch_sansHost, State.onHq_sansHost]
    · split <;> rfl
    · split <;> simpa [State.hq, State.onHq] using hp
  case h_2 k hk => exact State.noteLow_sansHost _
  case h_3 => rfl

/-! ## NOP -/

/-- NOP has no buffer whose read could be refused. -/
theorem State.checks_nop_dDma {s : State} {c : Cmd} {inlOk ok : Bool} {st d : Nat}
    (h : s.checks 0x0001 c 0 inlOk ok = some (st, d)) : d ≠ dDma := by
  simp only [State.checks] at h
  rintro rfl
  (repeat' split at h) <;> simp_all [dDma, dReserved, dBuffer, dNone]

/-- Whatever the checks find, NOP waits, or leaves its ring and completes. -/
theorem State.nop_cases (c : Cmd) (s : State) :
    answers (.nop c) s s ∨ ∃ st d, answers (.nop c) s (((s.unqueue 0x0001 c).useId 0x0001 c 0 (c.inlZero 0)).final 0x0001 c st d) := by
  rcases State.hostCmdBy_cases s 0x0001 0 c (c.inlZero 0) (allowed s.keys.life (s.partyOf c) 0x0001)
    (fun s => s.final 0x0001 c stOk dNone) with h | ⟨st, d, hc, h⟩ | h | h
  · exact .inl (congrArg Host.Outcome.next h)
  · rw [State.failedAt, if_neg (State.checks_nop_dDma hc)] at h
    exact .inr ⟨st, d, congrArg Host.Outcome.next h⟩
  · exact .inr ⟨stEmpty, dNone, congrArg Host.Outcome.next h⟩
  · exact .inr ⟨stOk, dNone, congrArg Host.Outcome.next h⟩

/-- Settles O57: NOP goes through the rings and sessions alone. -/
theorem nopHasNoEffect : Obligations.NopHasNoEffect := by
  unfold Obligations.NopHasNoEffect
  refine ⟨?ok, ?host, ?rings⟩
  case ok =>
    intro c s h
    exact congrArg Host.Outcome.next (hostCmd_of_passes _ h)
  case host =>
    intro c s hp
    rcases State.nop_cases c s with h | ⟨st, d, h⟩
    · exact ⟨s, s.host, h, rfl⟩
    · refine ⟨_, _, h, State.eq_of_sansHost ?_⟩
      rw [State.final_sansHost, State.useId_sansHost, State.unqueue_sansHost _ hp]
  case rings =>
    intro c s
    rcases State.nop_cases c s with h | ⟨st, d, h⟩
    · exact ⟨s, s.host, s.wb, s.recd, h, rfl⟩
    · refine ⟨_, _, _, _, h, State.eq_of_sansRings ?_⟩
      rw [State.sansRings_of_sansHost (State.final_sansHost _ _ _ _ _ _ _ _), State.sansRings_of_sansHost (State.useId_sansHost _ _ _ _ _),
        State.unqueue_sansRings]

end Sys2Proof.Machine
end

section
/-! SETTLED. What a reset keeps, completes and gives up (18 R473, R479, 14 R381, R397). -/

namespace Sys2Proof.Machine
open Sys2Proof

/-! ## What a reset settles first -/

@[simp] theorem State.settleCtrl_frame (s : State) :
    s.settleCtrl.lanes = s.lanes ∧ s.settleCtrl.img = s.img ∧ s.settleCtrl.net = s.net ∧ s.settleCtrl.host = s.host ∧
    s.settleCtrl.keys = s.keys ∧ s.settleCtrl.rtc = s.rtc ∧ s.settleCtrl.chg.app = s.chg.app ∧ s.settleCtrl.chg.fw = s.chg.fw ∧
    s.settleCtrl.chg.handover = s.chg.handover ∧ s.settleCtrl.chg.running = s.chg.running := by
  unfold State.settleCtrl
  dsimp only
  split <;> simp

/-- With no write of the last 10 ms the settings block holds what is due (21 R521). -/
theorem State.settleCtrl_stored {s : State} (h : (s.pair.ctrlDue s.clk.now).ctrl = []) :
    s.settleCtrl.pair.stored = (s.pair.ctrlDue s.clk.now).stored := by
  simp [State.settleCtrl, h]

@[simp] theorem State.wipeFor_frame (s : State) (target : Nat) :
    (s.wipeFor target).lanes = s.lanes ∧ (s.wipeFor target).host.runs = s.host.runs ∧
    (s.wipeFor target).chg.handover = s.chg.handover ∧ (s.wipeFor target).chg.running = s.chg.running := by
  unfold State.wipeFor
  split <;>
    simp [State.wipeArchive, State.wipeKeys, State.wipeApps, State.wipeSettings, State.wipeBkp, State.wipePlan]

@[simp] theorem State.finishChange_frame (s : State) :
    s.finishChange.lanes = s.lanes ∧ s.finishChange.host.runs = s.host.runs ∧
    s.finishChange.chg.handover = s.chg.handover ∧ s.finishChange.chg.running = s.chg.running := by
  unfold State.finishChange
  split <;> simp [State.fuse]

/-- No state change stands half programmed. -/
theorem State.finishChange_none {s : State} (h : s.keys.half = none) : s.finishChange = s := by
  simp [State.finishChange, h]

/-- A state change that stands half programmed reaches its target and wipes memory (14 R397, R399). -/
theorem State.finishChange_some {s : State} {x : StateChange} (h : s.keys.half = some x) :
    s.finishChange.keys.life = x.target ∧ s.finishChange.keys.half = none ∧ s.finishChange.mem = [] := by
  simp [State.finishChange, h, State.fuse]

@[simp] theorem State.clearedForces_frame (s : State) (gone : List Force) :
    (s.clearedForces gone).lanes = s.lanes ∧ (s.clearedForces gone).img = s.img ∧ (s.clearedForces gone).net = s.net ∧
    (s.clearedForces gone).host = s.host ∧ (s.clearedForces gone).keys = s.keys ∧ (s.clearedForces gone).rtc = s.rtc ∧
    (s.clearedForces gone).chg = s.chg ∧ (s.clearedForces gone).pair = s.pair ∧ (s.clearedForces gone).cyc = s.cyc := by
  unfold State.clearedForces
  refine ⟨foldl_kept (·.lanes) _ ?_ _ _, foldl_kept (·.img) _ ?_ _ _, foldl_kept (·.net) _ ?_ _ _, foldl_kept (·.host) _ ?_ _ _,
    foldl_kept (·.keys) _ ?_ _ _, foldl_kept (·.rtc) _ ?_ _ _, foldl_kept (·.chg) _ ?_ _ _, foldl_kept (·.pair) _ ?_ _ _,
    foldl_kept (·.cyc) _ ?_ _ _⟩ <;> simp

/-! ## What a reset keeps -/

@[simp] theorem restoreForces_store (x : List Force × List FChange) (v : Nat) (i : Img) : (restoreForces x v i).store = i.store := rfl

@[simp] theorem Pair.restart_stored (p : Pair) (kind now : Nat) : (p.restart kind now).stored = p.stored := rfl

/-- Without a half programmed state change the durable memories are as they were, but for what PAIR_CTRL settles to. -/
theorem State.takeReset_durable {s : State} (kind : Nat) (h : s.keys.half = none) :
    (s.takeReset kind).keys = { s.keys with boot := min (s.keys.boot + 1) 0xFFFFFFFF, rngFail := false, dbgOpen := false, dbgScope := 7,
                                            dbgSeen := false, transition := none } ∧
    (s.takeReset kind).net.stored = s.net.stored ∧ (s.takeReset kind).pair.stored = s.settleCtrl.pair.stored ∧
    (s.takeReset kind).chg.app = s.chg.app ∧ (s.takeReset kind).chg.fw = s.chg.fw ∧ (s.takeReset kind).rtc = s.rtc ∧
    (s.takeReset kind).img.store = s.img.store := by
  have hf : s.settleCtrl.finishChange = s.settleCtrl := State.finishChange_none (by simpa using h)
  simp [State.takeReset, hf]

/-- A half programmed state change is complete after the reset. -/
theorem State.takeReset_half {s : State} {x : StateChange} (kind : Nat) (h : s.keys.half = some x) :
    (s.takeReset kind).keys.life = x.target ∧ (s.takeReset kind).keys.half = none ∧ (s.takeReset kind).mem = [] := by
  have hs : s.settleCtrl.keys.half = some x := by simpa using h
  obtain ⟨hlife, hhalf, hmem⟩ := State.finishChange_some hs
  simp [State.takeReset, hlife, hhalf, hmem]

/-- Commands and FW_HANDOVER after a reset: none, or the FW_HANDOVER whose own step 6 the reset is. -/
theorem State.takeReset_runs (s : State) (kind : Nat) :
    (s.takeReset kind).host.runs = (if kind = 4 ∧ s.chg.handover = 6 then s.host.runs.filter (·.work = .handover) else []) ∧
    (s.takeReset kind).chg.handover = if kind = 4 ∧ s.chg.handover = 6 then 6 else 0 := by
  simp [State.takeReset]

/-- What every reset gives up. -/
theorem State.takeReset_off (s : State) (kind : Nat) :
    (s.takeReset kind).lanes.lockout = s.lanes.lockout ∧ (s.takeReset kind).pair.drive = false ∧
    (s.takeReset kind).pair.role = .bringUp ∧ (s.takeReset kind).cyc = {} ∧ (s.takeReset kind).net.cfg = none ∧
    (s.takeReset kind).host.sess = [] ∧ (s.takeReset kind).host.q = Vector.replicate 8 {} ∧ (s.takeReset kind).chg.running = none := by
  simp [State.takeReset, Pair.restart]

/-- Memory is wiped, but for the retained bytes at a warm restart (18 R478). -/
theorem State.takeReset_mem (s : State) (kind : Nat) :
    (s.takeReset kind).mem =
      if kind = 8 then s.settleCtrl.finishChange.mem.filter fun x => retained s.chg.running x.1 else [] := by
  simp [State.takeReset]

theorem State.finishChange_mem_sub {s : State} {c : Host.Cell} (h : c ∈ s.finishChange.mem) : c ∈ s.mem := by
  cases hh : s.keys.half with
  | none => rwa [State.finishChange_none hh] at h
  | some x => simp [(State.finishChange_some hh).2.2] at h

theorem State.takeReset_mem_retained {s : State} {kind : Nat} {c : Host.Cell} (h : c ∈ (s.takeReset kind).mem) :
    c ∈ s.mem ∧ retained s.chg.running c.1 = true := by
  rw [s.takeReset_mem kind] at h
  split at h
  case isTrue =>
    obtain ⟨hmem, hret⟩ := List.mem_filter.mp h
    exact ⟨by simpa using State.finishChange_mem_sub hmem, hret⟩
  case isFalse => simp at h

/-- Settles O54, from what a reset keeps, completes and gives up. -/
theorem resetKeepsWhatItMust : Obligations.ResetKeepsWhatItMust := by
  unfold Obligations.ResetKeepsWhatItMust
  refine ⟨?durable, ?half, ?noRuns, ?handover, ?every⟩
  case durable =>
    rintro s k t rfl h
    obtain ⟨hkeys, hnet, hpair, happ, hfw, hrtc, hstore⟩ := State.takeReset_durable k h
    exact ⟨by rw [hkeys], by rw [hkeys], by rw [hkeys], by rw [hkeys], hnet, hpair,
      fun hc => hpair.trans (State.settleCtrl_stored hc), happ, hfw, hrtc, hstore⟩
  case half =>
    rintro s k t x rfl h
    exact State.takeReset_half k h
  case noRuns =>
    rintro s k t rfl h
    simpa only [if_neg h] using s.takeReset_runs k
  case handover =>
    rintro s t rfl h
    simpa [h] using (s.takeReset_runs 4).symm
  case every =>
    rintro s k t rfl
    obtain ⟨hlock, hdrive, hrole, hcyc, hcfg, hsess, hq, hrun⟩ := s.takeReset_off k
    have hqueue (q : Fin 8) : ((s.takeReset k).hq q.val).st = .disabled := by
      rw [State.hq, hq]
      exact congrArg HQ.st (State.reset_hq q)
    refine ⟨hlock, s.boot_takeReset k, hdrive, hrole, by rw [hcyc], hcfg, hsess, hqueue, hrun, fun hk => ?_,
      fun c hc => State.takeReset_mem_retained hc, State.memWf_takeReset k⟩
    rw [s.takeReset_mem k, if_neg hk]

end Sys2Proof.Machine
end

section
/-! SETTLED. Values of the calendar, and ALARM_SET (17 R448, R455). -/

namespace Sys2Proof.Machine
open Sys2Proof

/-! ## Values of the calendar, 17 R448 -/

theorem leapYear_iff (y : Nat) : leapYear y = true ↔ Sys2Proof.leapYear y := by
  simp [leapYear, Sys2Proof.leapYear]

theorem le_monthLen_iff {y m d : Nat} (hm : 1 ≤ m) (hm' : m ≤ 12) : d ≤ monthLen y m ↔ daysIn y m d := by
  have hy := leapYear_iff y
  unfold monthLen daysIn
  interval_cases m <;> grind

theorem calValid_iff (y m d h mi s : Nat) :
    calValid y m d h mi s = true ↔
      (2000 ≤ y ∧ y ≤ 2399) ∧ (1 ≤ m ∧ m ≤ 12) ∧ (1 ≤ d ∧ daysIn y m d) ∧ h ≤ 23 ∧ mi ≤ 59 ∧ s ≤ 59 := by
  simp only [calValid, Bool.and_eq_true, decide_eq_true_eq]
  constructor
  · rintro ⟨⟨⟨⟨⟨⟨⟨⟨hy, hy'⟩, hm⟩, hm'⟩, hd⟩, hd'⟩, hh⟩, hmi⟩, hs⟩
    exact ⟨⟨hy, hy'⟩, ⟨hm, hm'⟩, ⟨hd, (le_monthLen_iff hm hm').mp hd'⟩, hh, hmi, hs⟩
  · rintro ⟨⟨hy, hy'⟩, ⟨hm, hm'⟩, ⟨hd, hd'⟩, hh, hmi, hs⟩
    exact ⟨⟨⟨⟨⟨⟨⟨⟨hy, hy'⟩, hm⟩, hm'⟩, hd⟩, (le_monthLen_iff hm hm').mpr hd'⟩, hh⟩, hmi⟩, hs⟩

/-! ## The calendar's commands once they may run -/

section
variable {c : Cmd} {s b : State}

theorem execSetUtc_invalid (hb : b = begun s 0x0031 c 0 (c.inf 1 1 = 0 && c.inlZero 9))
    (h : passes s 0x0031 c 0 (c.inf 1 1 = 0 && c.inlZero 9) = true) (hv : inlValid c = false) :
    answers (.setUtc c) s (b.final 0x0031 c stInvalid dContent) := by
  simp only [inlValid] at hv
  show execSetUtc c s = _
  rw [execSetUtc, hostCmd_of_passes _ h, ← hb]
  simp [hv]

/-- A time that fails R448, that lies outside the calendar in UTC, or that is not later than local time. -/
theorem execAlarmSetArm_invalid (hb : b = begun s 0x0033 c 0 (c.inf 1 1 = 0 && c.inlZero 9))
    (h : passes s 0x0033 c 0 (c.inf 1 1 = 0 && c.inlZero 9) = true)
    (hv : inlValid c = false ∨ (inlSec c : Int) - b.rtc.localOfs < 0 ∨ (calMax : Int) < (inlSec c : Int) - b.rtc.localOfs ∨
      (inlSec c : Int) ≤ b.rtc.localSec b.clk.now) :
    answers (.alarmSetArm c) s (b.final 0x0033 c stInvalid dContent) := by
  simp only [inlValid, inlSec] at hv
  show execAlarmSetArm c s = _
  rw [execAlarmSetArm, hostCmd_of_passes _ h, ← hb]
  refine congrArg Host.Outcome.next (if_pos ?_)
  simp only [Bool.or_eq_true, decide_eq_true_eq, Bool.not_eq_true']
  tauto

theorem execAlarmSetArm_arms (hb : b = begun s 0x0033 c 0 (c.inf 1 1 = 0 && c.inlZero 9))
    (h : passes s 0x0033 c 0 (c.inf 1 1 = 0 && c.inlZero 9) = true) (ha : c.inf 0 1 = 1) (hv : inlValid c = true)
    (hlate : b.rtc.localSec b.clk.now < (inlSec c : Int)) (hmin : 0 ≤ (inlSec c : Int) - b.rtc.localOfs)
    (hmax : (inlSec c : Int) - b.rtc.localOfs ≤ calMax) :
    answers (.alarmSetArm c) s (({ b with rtc :=
      { b.rtc with armed := true, fired := false, skipped := false, alarm := BitVec.ofNat 64 (calPack (inlSec c) 0) } } : State).final 0x0033 c
        stOk dNone) := by
  simp only [inlValid, inlSec] at hv hlate hmin hmax
  show execAlarmSetArm c s = _
  rw [execAlarmSetArm, hostCmd_of_passes _ h, ← hb]
  refine congrArg Host.Outcome.next (if_neg ?_)
  simp [ha, hv, hlate, hmax, Int.sub_nonneg.mp hmin]

theorem execAlarmSetDisarm_disarms (hb : b = begun s 0x0033 c 0 (c.inlZero 1)) (h : passes s 0x0033 c 0 (c.inlZero 1) = true)
    (ha : c.inf 0 1 = 0) (harm : b.rtc.armed = true) :
    answers (.alarmSetDisarm c) s (({ b with rtc := { b.rtc with armed := false } } : State).final 0x0033 c stOk dNone) := by
  show execAlarmSetDisarm c s = _
  rw [execAlarmSetDisarm, hostCmd_of_passes _ h, ← hb]
  simp [ha, harm]

theorem execAlarmSetDisarm_empty (hb : b = begun s 0x0033 c 0 (c.inlZero 1)) (h : passes s 0x0033 c 0 (c.inlZero 1) = true)
    (ha : c.inf 0 1 = 0) (harm : b.rtc.armed = false) : answers (.alarmSetDisarm c) s (b.final 0x0033 c stEmpty dNone) := by
  show execAlarmSetDisarm c s = _
  rw [execAlarmSetDisarm, hostCmd_of_passes _ h, ← hb]
  simp [ha, harm]

/-- Summer time set or cleared, its record written, and a reached alarm fired. -/
def State.shifted (b : State) (c : Cmd) : State :=
  (({ b with rtc := { b.rtc with dst := decide (c.inf 0 1 = 1) } } : State).adjustRec 5 (b.rtc.sec b.clk.now) (b.partyOf c)).afterAdjust

theorem execRtcShift_shifts (hb : b = begun s 0x0032 c 0 (c.inlZero 1)) (h : passes s 0x0032 c 0 (c.inlZero 1) = true)
    (hd : c.inf 0 1 = 1 ∨ c.inf 0 1 = 2) (hdst : b.rtc.dst = decide (c.inf 0 1 = 2)) :
    answers (.rtcShift c) s ((b.shifted c).final 0x0032 c stOk dNone) := by
  show execRtcShift c s = _
  rw [execRtcShift, hostCmd_of_passes _ h, ← hb]
  rcases hd with hd | hd <;> simp [hd] at hdst <;> simp [State.shifted, hd, hdst] <;> rfl

theorem execRtcShift_state (hb : b = begun s 0x0032 c 0 (c.inlZero 1)) (h : passes s 0x0032 c 0 (c.inlZero 1) = true)
    (hd : c.inf 0 1 = 1 ∨ c.inf 0 1 = 2) (hdst : b.rtc.dst = decide (c.inf 0 1 = 1)) :
    answers (.rtcShift c) s (b.final 0x0032 c stInvalid dState) := by
  show execRtcShift c s = _
  rw [execRtcShift, hostCmd_of_passes _ h, ← hb]
  rcases hd with hd | hd <;> simp [hd, hdst]

end

/-- Reserved bytes of INLINE that are not zero complete a command at check 2. -/
theorem State.hostCmd_reserved {s : State} {op dir : Nat} {c : Cmd} (k : State → State) (h : s.canBegin op c = true) :
    s.hostCmd op c dir false k = (begun s op c dir false).final op c stInvalid dReserved := by
  have hchecks : (s.unqueue op c).checks op c dir false (allowed s.keys.life (s.partyOf c) op) = some (stInvalid, dReserved) := by
    simp [State.checks, resOk]
  have hat : s.failedAt op c dReserved = s.unqueue op c := by simp [State.failedAt, dReserved, dDma]
  rw [State.hostCmd_eq, State.hostCmdBy_fails h hchecks, hat, begun]

theorem Cmd.inlZero_of_inf (c : Cmd) {i : Nat} (h : c.inf i 1 ≠ 0) : c.inlZero i = false := by
  by_contra hz
  have hall : ∀ x ∈ c.inl.drop i, x = 0 := by simpa [Cmd.inlZero] using hz
  have hbyte : byteAt c.inl i = 0 := by
    by_cases hi : i < c.inl.length
    · rw [byteAt, List.getD_eq_getElem _ _ hi]
      exact hall _ (List.mem_drop_iff_getElem.mpr ⟨0, by simpa using hi, by simp⟩)
    · exact List.getD_eq_default _ _ (not_lt.mp hi)
  exact h (by simp [Cmd.inf, field, slice, hbyte, unle])

/-- Settles O51, from the limits of R448. -/
theorem calendarValuesAreChecked : Obligations.CalendarValuesAreChecked := by
  unfold Obligations.CalendarValuesAreChecked
  refine ⟨calValid_iff, by decide, by decide, ?utc, ?alarm⟩
  case utc =>
    intro c s b hb h _ hv
    exact execSetUtc_invalid hb h hv
  case alarm =>
    intro c s b hb h _ hv
    exact execAlarmSetArm_invalid hb h (.inl hv)

/-- Settles O60, by ACTION and by what the time given is. -/
theorem alarmsAreArmedAndDisarmed : Obligations.AlarmsAreArmedAndDisarmed := by
  unfold Obligations.AlarmsAreArmedAndDisarmed
  refine ⟨?armReserved, ?disarmReserved, ?arms, ?invalid, ?disarms, ?empty⟩
  case armReserved =>
    intro c s h hr
    show execAlarmSetArm c s = _
    rw [execAlarmSetArm, decide_eq_false hr, Bool.false_and, State.hostCmd_reserved _ h]
  case disarmReserved =>
    intro c s h hr
    show execAlarmSetDisarm c s = _
    rw [execAlarmSetDisarm, Cmd.inlZero_of_inf c hr, State.hostCmd_reserved _ h]
  case arms =>
    rintro c s b x hb h ha hv rfl hlate hmin hmax
    exact execAlarmSetArm_arms hb h ha hv hlate hmin hmax
  case invalid =>
    rintro c s b x hb h _ rfl hv
    exact execAlarmSetArm_invalid hb h hv
  case disarms =>
    intro c s b hb h ha harm
    exact execAlarmSetDisarm_disarms hb h ha harm
  case empty =>
    intro c s b hb h ha harm
    exact execAlarmSetDisarm_empty hb h ha harm

end Sys2Proof.Machine
end

section
/-! SETTLED. The calendar's end, the summer-time shift, the calendar's commands and what happens to it by itself (17 R446 to R460). -/

namespace Sys2Proof.Machine
open Sys2Proof

/-! ## What the calendar's commands leave as it was -/

/-- A state with calendar, host interface and recorder left out of account. -/
def State.sansCal (s : State) : State := { s.sansRings with rtc := {} }

theorem State.eq_of_sansCal {s t : State} (h : t.sansCal = s.sansCal) :
    t = { s with rtc := t.rtc, recd := t.recd, host := t.host, wb := t.wb } := by
  cases s
  cases t
  simpa [State.sansCal, State.sansHost, State.sansRings] using h

theorem State.sansCal_of_sansRings {s t : State} (h : t.sansRings = s.sansRings) : t.sansCal = s.sansCal := by
  simp only [State.sansCal, h]

theorem begun_sansRings (s : State) (op : Nat) (c : Cmd) (dir : Nat) (inlOk : Bool) : (begun s op c dir inlOk).sansRings = s.sansRings := by
  rw [begun, State.sansRings_of_sansHost (State.useId_sansHost _ _ _ _ _), State.unqueue_sansRings]

theorem begun_rtc (s : State) (op : Nat) (c : Cmd) (dir : Nat) (inlOk : Bool) : (begun s op c dir inlOk).rtc = s.rtc := 
  congrArg (·.rtc) (begun_sansRings s op c dir inlOk)

@[simp] theorem State.fireAlarm_sansCal (s : State) (skipped : Bool) : (s.fireAlarm skipped).sansCal = s.sansCal := by
  simp [State.fireAlarm, State.sansCal, State.sansRings, State.sansHost]

@[simp] theorem State.afterAdjust_sansCal (s : State) : s.afterAdjust.sansCal = s.sansCal := by
  unfold State.afterAdjust
  dsimp only
  split <;> simp

@[simp] theorem State.adjustRec_sansCal (s : State) (cause before party : Nat) : (s.adjustRec cause before party).sansCal = s.sansCal := by
  simp [State.adjustRec, State.sansCal, State.sansRings, State.sansHost]

@[simp] theorem State.adjustRec_rtc (s : State) (cause before party : Nat) : (s.adjustRec cause before party).rtc = s.rtc := by
  simp [State.adjustRec]

@[simp] theorem State.fireAlarm_rtc (s : State) (skipped : Bool) :
    (s.fireAlarm skipped).rtc = { s.rtc with armed := false, fired := true, skipped := skipped } := by
  simp [State.fireAlarm]

/-- Firing an alarm leaves the clock itself alone. -/
@[simp] theorem State.afterAdjust_clock (s : State) :
    s.afterAdjust.rtc.units = s.rtc.units ∧ s.afterAdjust.rtc.zone = s.rtc.zone ∧ s.afterAdjust.rtc.dst = s.rtc.dst := by
  unfold State.afterAdjust
  dsimp only
  split <;> simp [funext_iff, Rtc.units, Rtc.speed]

theorem State.shifted_sansCal (b : State) (c : Cmd) : (b.shifted c).sansCal = b.sansCal := by
  simp only [State.shifted, State.afterAdjust_sansCal, State.adjustRec_sansCal]
  rfl

theorem State.shifted_clock (b : State) (c : Cmd) :
    (b.shifted c).rtc.units = b.rtc.units ∧ (b.shifted c).rtc.zone = b.rtc.zone ∧ (b.shifted c).rtc.dst = decide (c.inf 0 1 = 1) := by
  simp only [State.shifted, State.afterAdjust_clock, State.adjustRec_rtc, and_true]
  rfl

/-- Local time moves by an hour where summer time begins or ends. -/
theorem Rtc.localSec_shift {r r' : Rtc} (hu : r'.units = r.units) (hz : r'.zone = r.zone) (hd : r'.dst = !r.dst) (n : Nat) :
    r'.localSec n = r.localSec n + (if r.dst then -3600 else 3600) := by
  cases h : r.dst <;> simp [Rtc.localSec, Rtc.localOfs, Rtc.sec, hu, hz, hd, h] <;> omega

/-! ## The end of the calendar, 17 R447 -/

/-- The calendar put at a last second, TIME_INVALID set. -/
def State.stoppedAt (s : State) (last : Nat) : State :=
  let k := (s.reach (s.rtc.instant (last * 32768))).setCal ((last : Int) * 1000000000)
  { k with rtc := { k.rtc with ended := true, invalid := true } }

theorem toNat_nsUnits (n : Nat) : ((n : Int) * 1000000000 * 32768 / 1000000000).toNat = n * 32768 := by
  omega

theorem State.stoppedAt_cal (s : State) (last : Nat) : (s.stoppedAt last).rtc.cal = last * 32768 := toNat_nsUnits last

/-- A state with calendar, recorder and the model's clock left out of account. -/
def State.sansClock (s : State) : State := { s with rtc := {}, recd := {}, clk := {} }

theorem State.eq_of_sansClock {s t : State} (h : t.sansClock = s.sansClock) : t = { s with rtc := t.rtc, recd := t.recd, clk := t.clk } := by
  cases s
  cases t
  simpa [State.sansClock] using h

theorem exec_calendarEnd {s : State} (h : s.rtc.ended = false) :
    answers .calendarEnd s ((s.stoppedAt calMax).record 0x0E00 (srcOf 13 0) [2]) := by
  show execCalendarEnd s = _
  rw [execCalendarEnd, if_neg (by simp [h]), State.stoppedAt]

/-- From its last second on the calendar does not move. -/
theorem Rtc.sec_of_end {r : Rtc} (h : calMax * 32768 ≤ r.cal) (n : Nat) : r.sec n = calMax := by
  have hu : r.units n = calMax * 32768 := min_eq_right (h.trans (Nat.le_add_right _ _))
  rw [Rtc.sec, hu, Nat.mul_div_cancel _ (by decide)]

@[simp] theorem State.stoppedAt_sansClock (s : State) (last : Nat) : (s.stoppedAt last).sansClock = s.sansClock := by
  simp [State.sansClock, State.stoppedAt]

@[simp] theorem State.record_sansClock (s : State) (code src : Nat) (l : List Nat) : (s.record code src l).sansClock = s.sansClock := by
  simp [State.sansClock]

theorem calSec_last : calSec 2399 12 31 23 59 59 = calMax := by
  decide

/-- Settles O58. -/
theorem calendarStopsAtItsEnd : Obligations.CalendarStopsAtItsEnd := by
  unfold Obligations.CalendarStopsAtItsEnd
  refine ⟨calSec_last, ?stops, ?frame⟩
  case stops =>
    rintro s k rfl h
    simpa only [State.stoppedAt] using exec_calendarEnd h
  case frame =>
    intro s h
    have hrtc : ((s.stoppedAt calMax).record 0x0E00 (srcOf 13 0) [2]).rtc = (s.stoppedAt calMax).rtc := by simp
    refine ⟨_, _, _, exec_calendarEnd h, State.eq_of_sansClock (by simp), ?_, ?_, fun n => ?_⟩ <;> rw [hrtc]
    · rfl
    · rfl
    · exact Rtc.sec_of_end (s.stoppedAt_cal calMax).ge n

/-- Settles O59, by DIRECTION. -/
theorem localTimeShiftsByAnHour : Obligations.LocalTimeShiftsByAnHour := by
  unfold Obligations.LocalTimeShiftsByAnHour
  refine ⟨?reserved, ?held, ?shifts, ?hour⟩
  case reserved =>
    intro c s h hr
    show execRtcShift c s = _
    rw [execRtcShift, hr, State.hostCmd_reserved _ h]
  case held =>
    intro c s b hb h hd hdst
    exact execRtcShift_state hb h hd hdst
  case shifts =>
    intro c s b hb h hd hdst
    exact execRtcShift_shifts hb h hd hdst
  case hour =>
    intro c s b hb h hd hdst
    have hrtc : b.rtc = s.rtc := hb ▸ begun_rtc s _ c _ _
    obtain ⟨hunits, hzone, hnew⟩ := b.shifted_clock c
    have hcal : ((b.shifted c).final 0x0032 c stOk dNone).sansCal = s.sansCal := by
      rw [State.sansCal_of_sansRings (State.sansRings_of_sansHost (State.final_sansHost _ _ _ _ _ _ _ _)), State.shifted_sansCal, hb,
        State.sansCal_of_sansRings (begun_sansRings _ _ _ _ _)]
    have hfinal : ((b.shifted c).final 0x0032 c stOk dNone).rtc = (b.shifted c).rtc := by simp
    refine ⟨_, _, _, _, _, execRtcShift_shifts hb h hd hdst, State.eq_of_sansCal hcal, ?_, fun n => ?_, fun n => ?_⟩ <;> rw [hfinal]
    · exact hnew
    · have hflip : (b.shifted c).rtc.dst = !b.rtc.dst := by
        rcases hd with hd | hd <;> simp [hnew, hdst, hd]
      rw [Rtc.localSec_shift hunits hzone hflip, hrtc]
      rcases hd with hd | hd <;> simp [← hrtc, hdst, hd]
    · rw [hunits, hrtc]

/-! ## The calendar's commands -/

theorem State.partyOf_rtc (s : State) (r : Rtc) (c : Cmd) : ({ s with rtc := r } : State).partyOf c = s.partyOf c := rfl

/-- Settles O6, command by command. -/
theorem calendarCommandsComplete : Obligations.CalendarCommandsComplete := by
  unfold Obligations.CalendarCommandsComplete
  refine ⟨?utc, ?civil, ?trim, ?stamp, ?backup, ?shift, ?arm, ?disarm⟩
  case utc =>
    rintro c s b k u hb h ha hv href rfl rfl
    simp only [inlValid] at hv
    show execSetUtc c s = _
    rw [execSetUtc, hostCmd_of_passes _ h, ← hb]
    refine congrArg Host.Outcome.next ((if_neg ?_).trans (if_neg href))
    simp [ha, hv]
  case civil =>
    rintro c s b u hb h ha hmin hmax hdst rfl
    show execSetCivil c s = _
    rw [execSetCivil, hostCmd_of_passes _ h, ← hb]
    refine congrArg Host.Outcome.next (if_neg ?_)
    simp [ha, hmin, hmax, hdst]
  case trim =>
    rintro c s b hb h ha hmin hheld
    show execSetTrim c s = _
    rw [execSetTrim, hostCmd_of_passes _ h, ← hb]
    simp [ha, hmin, hheld]
  case stamp =>
    rintro c s b u hb h ha hp rfl
    show execClearStamp c s = _
    rw [execClearStamp, hostCmd_of_passes _ h, ← hb]
    simp [ha, hp]
  case backup =>
    rintro c s b v hb h ha hfits hpos rfl
    show execWriteBackup c s = _
    rw [execWriteBackup, hostCmd_of_passes _ h, ← hb]
    have hofs : ¬ 63 < c.inf 2 1 := by omega
    have hlen : ¬ 64 - c.inf 2 1 < c.length := by omega
    have hrun : ¬ (decide (c.inf 0 1 ≠ 5) || decide (63 < c.inf 2 1)) = true := by simp [ha, hofs]
    have hbuf : ¬ (decide (c.length = 0) || decide (64 - c.inf 2 1 < c.length)) = true := by simp [hlen, hpos.ne']
    dsimp only
    rw [if_neg hrun, if_neg hbuf, State.partyOf_rtc b]
  case shift =>
    intro c s b hb h hd hdst
    exact execRtcShift_shifts hb h hd hdst
  case arm =>
    intro c s b hb h ha hv hlate hmin hmax
    exact execAlarmSetArm_arms hb h ha hv hlate hmin hmax
  case disarm =>
    intro c s b hb h ha harm
    exact execAlarmSetDisarm_disarms hb h ha harm

/-! ## What happens to the calendar by itself -/

/-- Settles O7, happening by happening. -/
theorem calendarHappeningsComplete : Obligations.CalendarHappeningsComplete := by
  unfold Obligations.CalendarHappeningsComplete
  refine ⟨?leap, ?retrims, ?steps, ?alarm, ?ends, ?low, ?good, ?stamps, ?keepsStamp⟩
  case leap =>
    rintro ins s k d rfl rfl
    rfl
  case retrims =>
    intro s hheld hend hd
    show execCalendarDiscipline s = _
    rw [execCalendarDiscipline]
    simp [hheld, hend, hd]
  case steps =>
    rintro s k hheld hend hd hu rfl
    show execCalendarDiscipline s = _
    rw [execCalendarDiscipline]
    simp [hheld, hend, not_lt.mpr hd, hu]
  case alarm =>
    intro s h
    show execAlarmFire s = _
    rw [execAlarmFire, if_pos h]
  case ends =>
    rintro s k h rfl
    exact exec_calendarEnd h
  case low =>
    intro mv s hmv h
    show execBatteryTest mv s = _
    simp [execBatteryTest, hmv, h]
  case good =>
    intro mv s hmv h
    show execBatteryTest mv s = _
    have hlow : ¬ mv < 2500 := by omega
    simp [execBatteryTest, hmv, hlow, h]
  case stamps =>
    intro s h
    show execBkpSwitch s = _
    simp [execBkpSwitch, h]
  case keepsStamp =>
    intro s h
    show execBkpSwitch s = _
    simp [execBkpSwitch, h]

end Sys2Proof.Machine
end

section
/-! SETTLED. Sessions, rings and resets by the host (13 R336 to R362, 14 R386 to R389, 18 R475, R477). -/

namespace Sys2Proof.Machine
open Sys2Proof

/-! ## Sessions, 14 R386 to R389 -/

/-- SESSION_OPEN of a filled slot under a free number begins its session with an ephemeral key drawn. -/
theorem openOwn_opens {c : Cmd} {b : State} {k : Key × Nat} (hlen : c.length = 240) (hnum : c.inf 2 2 ≠ 0)
    (hkey : b.keyAt (c.inf 0 1) (c.inf 1 1) = some k) (hfree : b.sessOf (c.inf 2 2) = none) (hroom : b.host.sess.length < 32)
    (hrng : b.keys.rngFail = false) :
    openOwn c b = ({ b.draw.2 with host := { b.draw.2.host with
      sess := b.draw.2.host.sess ++ [openedSess b c k (first32 b.draw.1)] } } : State).finalData 0x0010 c stOk
        (BitVec.ofNat 64 (c.inf 2 2)) 0 (openResponse b.draw.2 (c.inf 2 2) (first32 b.draw.1)) := by
  simp [openOwn, hlen, hnum, hkey, hfree, not_le.mpr hroom, hrng, openedSess]
  rfl

/-- SESSION_PROVE with a good signature proves its session. -/
theorem proveOwn_proves {c : Cmd} {b : State} {x : Sess} {shared : Key} (hx : b.sessOf c.session.toNat = some x)
    (hok : proveOk b c x = true) (hs : shared ≠ 0) :
    proveOwn c true shared b =
      (b.onSess x.num fun y => { y with
        proven := true, eph := 0
        ck := commandKey shared (Config.x25519Base x.eph) (BitVec.ofNat 256 (c.buf.field 0 32)) b.keys.serial x.num }).final 0x0011 c
          stOk dNone (BitVec.ofNat 64 (x.party + 256 * x.slot)) (BitVec.ofNat 64 (if x.party = 4 then x.bootLimit else 0)) := by
  simp only [proveOk, Bool.and_eq_true, Bool.or_eq_true, decide_eq_true_eq, Bool.not_eq_true'] at hok
  obtain ⟨⟨⟨hlen, hvendor⟩, hlimit⟩, hqueue⟩ := hok
  have hdenied : (!true || decide (shared = 0) || !(decide (x.party ≠ 1) || decide (x.key = some (BitVec.ofNat 256 (c.buf.field 96 32)))) ||
      (decide (x.party = 4) && decide (x.bootLimit < b.keys.boot)) ||
      (onQueue0 c && decide (x.party ≠ 2) && decide (x.party ≠ 4))) = false := by
    grind
  simp only [proveOwn, hx, hdenied, if_neg (not_not.mpr hlen)]
  rfl

/-- Settles O1, command by command. -/
theorem sessionCommandsComplete : Obligations.SessionCommandsComplete := by
  unfold Obligations.SessionCommandsComplete
  refine ⟨?nop, ?opens, ?proves, ?closes, ?timeout⟩
  case nop =>
    intro c s h
    exact congrArg Host.Outcome.next (hostCmd_of_passes _ h)
  case opens =>
    rintro c s b k d e hb h hlen hnum hkey hfree hroom hrng rfl rfl
    show execSessionOpen c s = _
    rw [execSessionOpen, hostCmd_of_passes _ h, ← hb, openOwn_opens hlen hnum hkey hfree hroom hrng]
  case proves =>
    rintro c s b x shared k hb h hx hok hs rfl
    show execSessionProve c true shared s = _
    rw [execSessionProve, hostCmd_of_passes _ h, ← hb, proveOwn_proves hx hok hs]
  case closes =>
    intro c s h
    exact congrArg Host.Outcome.next (hostCmd_of_passes _ h)
  case timeout =>
    intro n s x hx hp
    show execSessionTimeout n s = _
    simp [execSessionTimeout, hx, hp]

/-! ## Rings, 13 R336 to R359 -/

theorem map_readAs_ok (l : List SqEnt) : l.map (readAs · .ok) = l := by
  simp [readAs]

/-- A tail whose entries are all known, within the ring. -/
theorem State.sqTail_good {s : State} {q v : Nat} {ents : List SqEnt} (he : (s.hq q).st = .enabled) (hv : v < 4096) (hs : v < (s.hq q).size)
    (hn : (v + (s.hq q).size - (s.hq q).sqHead) % (s.hq q).size ≤ (s.hq q).posted.length + ents.length) :
    s.sqTail q v ents = (s.onHq q fun h => { h with sqTail := v, posted := postedBy h v ents }).fetch q := by
  have hv' : v / 4096 = 0 := Nat.div_eq_of_lt hv
  have hknown : (v + (s.hq q).size - (s.hq q).sqHead) % (s.hq q).size - ((s.hq q).posted ++ ents).length = 0 := by
    rw [List.length_append]
    omega
  simp only [State.sqTail, hknown, State.unknownEnts]
  simp [he, hv', not_le.mpr hs]

theorem State.cqHead_good {s : State} {q v d : Nat} (he : (s.hq q).st = .enabled) (hs : v < (s.hq q).size)
    (hd : d = (v + (s.hq q).size - (s.hq q).cqHead) % (s.hq q).size) (hu : d ≤ (s.hq q).used) :
    s.cqHead q v = (s.onHq q fun h => { h with cqHead := v, used := h.used - d, cq := h.cq.drop d }).flushCq q := by
  simp [State.cqHead, he, ← hd, not_le.mpr hs, not_lt.mpr hu]

theorem State.evHead_good {s : State} {v d : Nat} (he : s.host.ev.st = .enabled) (hl : s.host.ev.lostNow = 0) (hs : v < s.host.ev.size)
    (hd : d = (v + s.host.ev.size - s.host.ev.head) % s.host.ev.size) (hu : d ≤ s.host.ev.used) :
    s.evHead v = { s with host := { s.host with ev :=
      { s.host.ev with head := v, used := s.host.ev.used - d, ents := s.host.ev.ents.drop d } } } := by
  simp [State.evHead, he, hl, ← hd, not_le.mpr hs, not_lt.mpr hu]

/-- A ring that does not drain stays as it is. -/
theorem EvRing.at_of_ne {r : EvRing} (now : Nat) (h : r.st ≠ .draining) : r.at_ now = r := by
  simp [EvRing.at_, h]

/-- Settles O2, doorbell by doorbell and ring by ring. -/
theorem ringsComplete : Obligations.RingsComplete := by
  unfold Obligations.RingsComplete
  refine ⟨?sqTail, ?sqBad, ?cqHead, ?cqBad, ?evHead, ?enable, ?noSize, ?disable, ?drained, ?evEnable, ?evDisable, ?drain, ?expires, ?masked,
    ?busy, ?busyEnd⟩
  case sqTail =>
    rintro q v descs h s rfl he hv hs hn
    show Host.Outcome.next (s.sqTail q.val v.toNat (descs.map (readAs · .ok))) = _
    rw [map_readAs_ok, State.sqTail_good he hv hs hn]
  case sqBad =>
    intro q v descs ring s he hs
    show Host.Outcome.next (s.sqTail q.val v.toNat (descs.map (readAs · ring))) = _
    simp [State.sqTail, he, hs]
  case cqHead =>
    intro q v d s he hs hd hu
    exact congrArg Host.Outcome.next (State.cqHead_good he hs hd hu)
  case cqBad =>
    intro q v s he hs
    show Host.Outcome.next (s.cqHead q.val v.toNat) = _
    simp [State.cqHead, he, hs]
  case evHead =>
    intro v d s he hl hs hd hu
    exact congrArg Host.Outcome.next (State.evHead_good he hl hs hd hu)
  case enable =>
    intro s he hs
    show Host.Outcome.next s.queueEnable = _
    simp [State.queueEnable, he, hs.ne']
  case noSize =>
    intro s he hs
    show Host.Outcome.next s.queueEnable = _
    simp [State.queueEnable, he, hs]
  case disable =>
    intro q s hq he
    show Host.Outcome.next (s.stopQueue (Fin.ofNat 8 s.host.sel)) = _
    have hsel : Fin.ofNat 8 s.host.sel = q := by
      rw [hq]
      exact Fin.ofNat_val_eq_self q
    rw [hsel]
    simp [State.stopQueue, he]
  case drained =>
    intro q s he
    exact congrArg Host.Outcome.next (if_pos he)
  case evEnable =>
    intro s he hs
    show Host.Outcome.next s.evEnable = _
    have hsettle : s.evSettle = s := by rw [State.evSettle, EvRing.at_of_ne _ (by simp [he])]
    simp [State.evEnable, hsettle, he, hs.ne']
  case evDisable =>
    intro s he
    refine ⟨s.drawNat.1 % 100001, Nat.lt_succ_iff.mp (Nat.mod_lt _ (by decide)), ?_⟩
    show Host.Outcome.next s.evDisable = _
    simp [State.evDisable, he]
  case drain =>
    intro r t hr
    exact ⟨fun h => by simp [EvRing.at_, hr, h], fun h => by simp [EvRing.at_, hr, not_le.mpr h]⟩
  case expires =>
    intro v s hd hm
    show execInterruptHoldoffExpiry v s = _
    simp only [execInterruptHoldoffExpiry, hd, hm]
    rfl
  case masked =>
    intro v s hd hm
    show execInterruptHoldoffExpiry v s = _
    simp only [execInterruptHoldoffExpiry, hd, hm]
    rfl
  case busy =>
    intro s hb
    exact congrArg Host.Outcome.next (if_neg (by simp [hb]))
  case busyEnd =>
    intro s u hb hl hn
    show execBusyEnd s = _
    simp [execBusyEnd, hb, hl, hn]

/-! ## Resets by the host, 18 R475, R477, 21 R520 -/

theorem State.secondWrite_none {s : State} (k : Nat) (h : s.host.resetReq = none) : s.secondWrite k = false := by
  simp [State.secondWrite, h]

theorem State.secondWrite_some {s : State} {k u : Nat} (h : s.host.resetReq = some (k, u)) (hu : s.clk.now ≤ u + 1000000) :
    s.secondWrite k = true := by
  simp [State.secondWrite, h, hu]

/-- Settles O3, by whether a first write of the pair stands. -/
theorem hostResetsComplete : Obligations.HostResetsComplete := by
  unfold Obligations.HostResetsComplete
  refine ⟨?first, ?second, ?firstWarm, ?secondWarm, ?own, ?link⟩
  case first =>
    intro s hok h
    show Host.Outcome.next s.hifHost = _
    simp [State.hifHost, hok, State.secondWrite_none, h, State.resetWrite]
  case second =>
    intro s u hok h hu
    show Host.Outcome.next s.hifHost = _
    simp [State.hifHost, hok, State.secondWrite_some h hu]
  case firstWarm =>
    intro s hok h
    show Host.Outcome.next s.hifWarm = _
    simp [State.hifWarm, hok, State.secondWrite_none, h, State.resetWrite]
  case secondWarm =>
    intro s u hok h hu
    show Host.Outcome.next s.hifWarm = _
    simp [State.hifWarm, hok, State.secondWrite_some h hu]
  case own =>
    intro s hok
    exact congrArg Host.Outcome.next (if_pos hok)
  case link =>
    intro s
    rfl

end Sys2Proof.Machine
end

section
/-! SETTLED. Service connections, PAIR_CTRL and ETH_APPLY (13 R376 to R378, 21 R519 to R524). -/

namespace Sys2Proof.Machine
open Sys2Proof

/-! ## What the end of a service connection changes, 13 R378 -/

/-- A state with the host interface left out, but for what it keeps of the plant ports. -/
def State.besideEth (s : State) : State := { s with host := { eth := s.host.eth, ethStored := s.host.ethStored } }

theorem State.eq_of_besideEth {s t : State} (h : t.besideEth = s.besideEth) : t = { s with host := t.host } := by
  cases s
  cases t
  simp only [State.besideEth, State.mk.injEq] at h ⊢
  tauto

@[simp] theorem State.event_eth (s : State) (code : Nat) (p : List Byte) :
    (s.event code p).host.eth = s.host.eth ∧ (s.event code p).host.ethStored = s.host.ethStored := by
  unfold State.event
  dsimp only
  (repeat' split) <;> exact ⟨rfl, rfl⟩

@[simp] theorem State.event_besideEth (s : State) (code : Nat) (p : List Byte) : (s.event code p).besideEth = s.besideEth := by
  simp [State.besideEth]

@[simp] theorem State.closeSess_besideEth (s : State) (n r : Nat) : (s.closeSess n r).besideEth = s.besideEth := by
  rw [State.closeSess, State.event_besideEth]
  rfl

@[simp] theorem State.closeAll_besideEth (s : State) (p : Sess → Bool) (r : Nat) : (s.closeAll p r).besideEth = s.besideEth :=
  foldl_kept State.besideEth _ (fun s _ => s.closeSess_besideEth _ r) _ _

@[simp] theorem State.closeConn_besideEth (s : State) (k : Fin 4) : (s.closeConn k).besideEth = s.besideEth := by
  unfold State.closeConn
  split
  · rw [State.closeAll_besideEth]
    rfl
  · rfl

/-- The port of a service connection. -/
def State.portOf (s : State) (k : Fin 4) : Option Nat := (s.host.conn[k]).map (·.port)

theorem port_map (l : Vector (Option Conn) 4) {f : Conn → Conn} (hf : ∀ c, (f c).port = c.port) (k : Fin 4) :
    ((l.map (Option.map f))[k]).map (·.port) = (l[k]).map (·.port) := by
  simp [Function.comp_def, hf]

/-- An event joins what each connection is sent; no connection changes its port. -/
@[simp] theorem State.event_portOf (s : State) (code : Nat) (p : List Byte) (k : Fin 4) : (s.event code p).portOf k = s.portOf k := by
  unfold State.event
  dsimp only
  (repeat' split) <;>
    exact port_map s.host.conn
      (f := fun c => { c with evs := c.evs ++ [{ code := code, seq := s.host.ev.seq, time := s.stamp, param := p, phase := false }] })
      (fun _ => rfl) k

@[simp] theorem State.closeSess_portOf (s : State) (n r : Nat) (k : Fin 4) : (s.closeSess n r).portOf k = s.portOf k := by
  rw [State.closeSess, State.event_portOf]
  rfl

@[simp] theorem State.closeAll_portOf (s : State) (p : Sess → Bool) (r : Nat) (k : Fin 4) : (s.closeAll p r).portOf k = s.portOf k :=
  foldl_kept (·.portOf k) _ (fun s _ => s.closeSess_portOf _ r k) _ _

/-- A closed connection has no port, and the others keep theirs. -/
theorem State.closeConn_portOf (s : State) (j k : Fin 4) : (s.closeConn j).portOf k = if j = k then none else s.portOf k := by
  unfold State.closeConn
  split
  case isTrue h =>
    rw [State.closeAll_portOf]
    by_cases hjk : j = k
    · simp [State.portOf, State.orphan, hjk]
    · have hval : j.val ≠ k.val := fun h => hjk (Fin.ext h)
      simp [State.portOf, State.orphan, hjk, hval]
  case isFalse h =>
    by_cases hjk : j = k
    · subst hjk
      simp_all [State.portOf]
    · simp [hjk]

/-- The connections of a list that are of a port are closed. -/
def State.closePort (s : State) (l : List (Fin 4)) (p : Nat) : State :=
  l.foldl (fun s k => if ((s.host.conn[k]).map (·.port)) = some p then s.closeConn k else s) s

theorem State.closePort_cons (s : State) (j : Fin 4) (l : List (Fin 4)) (p : Nat) :
    s.closePort (j :: l) p = (if s.portOf j = some p then s.closeConn j else s).closePort l p := rfl

@[simp] theorem State.closePort_besideEth (s : State) (l : List (Fin 4)) (p : Nat) : (s.closePort l p).besideEth = s.besideEth := by
  refine foldl_kept State.besideEth _ (fun s k => ?_) _ _
  split
  · exact s.closeConn_besideEth k
  · rfl

/-- Once closed, a connection of the port stays so; and a connection of the list is closed in its turn. -/
theorem State.closePort_portOf {s : State} {l : List (Fin 4)} {p : Nat} {k : Fin 4} (h : k ∈ l ∨ s.portOf k ≠ some p) :
    (s.closePort l p).portOf k ≠ some p := by
  induction l generalizing s with
  | nil => simpa [State.closePort] using h
  | cons j l ih =>
    rw [State.closePort_cons]
    refine ih ?_
    by_cases hk : k ∈ l
    · exact .inl hk
    · right
      split
      case isTrue hj =>
        rw [State.closeConn_portOf]
        split
        · simp
        · next hjk => simpa [hk, Ne.symm hjk] using h
      case isFalse hj =>
        rcases h with h | h
        · obtain rfl : k = j := by simpa [hk] using h
          exact hj
        · exact h

/-! ## ETH_APPLY, 21 R523, R524 -/

/-- Settings block 0x0005 depends on what the host interface stores of the ports alone. -/
theorem State.wroteBlock_host {s : State} {h h' : Host_} (hs : h'.ethStored = h.ethStored) :
    { ({ s with host := h } : State).wroteBlock 5 with host := h' } = ({ s with host := h' } : State).wroteBlock 5 := by
  simp only [State.wroteBlock, State.settingOf, hs]
  rfl

/-- The staged registers of a port are brought into use and stored. -/
def State.ethPut (s : State) (p : Fin 2) : State :=
  let e := s.host.eth[p]
  let l := s.host.eth.set p.val { e with inService := e.service, inAddr := e.addr, inPre := e.pre, inGw := e.gw }
  ({ s with host := { s.host with
    eth := l, ethStored := l.toList.map fun e => (e.inService, e.inAddr, e.inPre, e.inGw) } } : State).wroteBlock 5

/-- The connections of the port are closed where SERVICE or ADDRESS changes. -/
def State.ethCut (s : State) (p : Fin 2) : State :=
  let e := s.host.eth[p]
  if e.inService ≠ e.service || e.inAddr ≠ e.addr then (s.ethPut p).closePort (List.finRange 4) p.val else s.ethPut p

theorem State.ethCut_besideEth (s : State) (p : Fin 2) : (s.ethCut p).besideEth = (s.ethPut p).besideEth := by
  unfold State.ethCut
  dsimp only
  split
  · exact State.closePort_besideEth _ _ _
  · rfl

theorem State.act_ite {C : Prop} [Decidable C] (s : State) (a : Act) :
    ∃ a', (if C then { s with act := a } else s) = { s with act := a' } ∧ (¬C → a' = s.act) := by
  by_cases h : C
  · exact ⟨a, if_pos h, fun hn => absurd h hn⟩
  · exact ⟨s.act, if_neg h, fun _ => rfl⟩

/-- Good staged registers take effect; where ADDRESS changes, a reference over UDP may be lost too. -/
theorem State.ethApply_good {s : State} {p : Fin 2} (v : Nat) (haddr : ((s.host.eth[p]).service && decide ((s.host.eth[p]).addr = 0)) = false)
    (hgw : inPrefix (s.host.eth[p]).addr (s.host.eth[p]).gw (s.host.eth[p]).pre = true) (hfits : s.fits 5 (ethBytes s) = true) :
    ∃ a, s.ethApply p v = { s.ethCut p with act := a } ∧ ((s.host.eth[p]).inAddr = (s.host.eth[p]).addr → a = (s.ethCut p).act) := by
  have hguard : (((s.host.eth[p]).service && decide ((s.host.eth[p]).addr = 0)) ||
      !inPrefix (s.host.eth[p]).addr (s.host.eth[p]).gw (s.host.eth[p]).pre || !s.fits 5 (ethBytes s)) = false := by
    rw [haddr, hgw, hfits]
    rfl
  unfold State.ethApply
  dsimp only
  rw [if_neg (ne_true_of_eq_false hguard)]
  refine (State.act_ite (s.ethCut p) _).imp fun a ⟨heq, hkept⟩ => ⟨heq, fun hsame => hkept ?_⟩
  simp only [hsame, ne_eq, not_true_eq_false, decide_false, Bool.false_and, Bool.false_eq_true, not_false_eq_true]

theorem Eth.applied_same {e : Eth} (hs : e.inService = e.service) (ha : e.inAddr = e.addr) :
    ({ e with inService := e.service, inAddr := e.addr, inPre := e.pre, inGw := e.gw } : Eth) = { e with inPre := e.pre, inGw := e.gw } := by
  cases e
  simp_all

/-- Where SERVICE and ADDRESS stay as they were, no connection is closed. -/
theorem State.ethCut_same {s : State} {p : Fin 2} (hs : (s.host.eth[p]).inService = (s.host.eth[p]).service)
    (ha : (s.host.eth[p]).inAddr = (s.host.eth[p]).addr) : s.ethCut p = s.ethPut p := by
  unfold State.ethCut
  dsimp only
  rw [if_neg]
  simp only [hs, ha, ne_eq, not_true_eq_false, decide_false, Bool.or_self, Bool.false_eq_true, not_false_eq_true]

theorem State.ethCut_portOf {s : State} {p : Fin 2}
    (h : (s.host.eth[p]).inService ≠ (s.host.eth[p]).service ∨ (s.host.eth[p]).inAddr ≠ (s.host.eth[p]).addr) (k : Fin 4) :
    (s.ethCut p).portOf k ≠ some p.val := by
  unfold State.ethCut
  dsimp only
  rw [if_pos (by simpa only [Bool.or_eq_true, decide_eq_true_eq] using h)]
  exact State.closePort_portOf (.inl (List.mem_finRange k))

/-- Settles O4, step by step of the service channel, PAIR_CTRL and ETH_APPLY. -/
theorem serviceChannelCompletes : Obligations.ServiceChannelCompletes := by
  unfold Obligations.ServiceChannelCompletes
  refine ⟨?connect, ?close, ?capsule, ?pairCtrl, ?same, ?changed⟩
  case connect =>
    intro p k s hk hin hlink hserves
    show execTlsConnect p true s = _
    simp only [execTlsConnect, hk, hin, hlink, hserves]
    rfl
  case close =>
    intro k s h
    exact congrArg Host.Outcome.next (if_pos h)
  case capsule =>
    intro k cap x s hx hb hc hk
    show execCapsuleRx k cap s = _
    have hx' : s.host.conn[k.val] = some x := hx
    simp [execCapsuleRx, hx', hb, hc, hk]
  case pairCtrl =>
    intro v s hf
    show Host.Outcome.next (s.pairCtrl v) = _
    simp [State.pairCtrl, hf]
  case same =>
    rintro p e l s rfl haddr hgw hfits hs ha rfl
    obtain ⟨a, heq, hact⟩ := State.ethApply_good (2 + bitIf (s.host.eth[p]).service 0) haddr hgw hfits
    show Host.Outcome.next (s.ethApply p _) = _
    rw [heq, hact ha, State.ethCut_same hs ha, State.ethPut, Eth.applied_same hs ha]
  case changed =>
    rintro p e l s rfl haddr hgw hfits rfl
    obtain ⟨a, heq, -⟩ := State.ethApply_good (2 + bitIf (s.host.eth[p]).service 0) haddr hgw hfits
    have hhost : (s.ethCut p).host.eth = (s.ethPut p).host.eth ∧ (s.ethCut p).host.ethStored = (s.ethPut p).host.ethStored :=
      ⟨congrArg (·.host.eth) (s.ethCut_besideEth p), congrArg (·.host.ethStored) (s.ethCut_besideEth p)⟩
    refine ⟨_, congrArg Host.Outcome.next heq, ?_, hhost.1, hhost.2, fun h k => State.ethCut_portOf h k⟩
    have hput : { s.ethPut p with host := (s.ethCut p).host } = ({ s with host := (s.ethCut p).host } : State).wroteBlock 5 :=
      State.wroteBlock_host hhost.2
    exact congrArg (fun t : State => { t with act := a }) ((State.eq_of_besideEth (s.ethCut_besideEth p)).trans hput)

end Sys2Proof.Machine
end

section
/-! SETTLED. STATUS_GET and RTC_GET (13 R363, 17 R452). -/

namespace Sys2Proof.Machine
open Sys2Proof

/-- Section 0 in a buffer with room for it: its header and the 64 bytes of the summary. -/
theorem State.addSection_summary {s : State} {room : Nat} (h : 72 ≤ room) :
    State.addSection (s, [], false) room 0 = (s, secHdr 0 64 ++ s.summary, false) := by
  simp [State.addSection, not_lt.mpr h]

/-- With local time within the calendar, the report draws no free value. -/
theorem State.rtcReport_state {s : State} (h : 0 ≤ s.rtc.localSec s.clk.now) : s.rtcReport.2 = s := by
  simp [State.rtcReport, h]

theorem execStatusGet_sections {c : Cmd} {s b : State} {r : State × List Byte × Bool}
    (hb : b = begun s 0x0020 c 2 (c.inf 0 4 < 1024 && c.inlZero 4)) (h : passes s 0x0020 c 2 (c.inf 0 4 < 1024 && c.inlZero 4) = true)
    (hsel : c.inf 0 4 ≠ 0)
    (hr : r = ((List.range 10).filter fun k => (c.inf 0 4).testBit k).foldl (fun x k => State.addSection x c.length k) (b, [], false)) :
    answers (.statusGet c) s (r.1.finalData 0x0020 c stOk (BitVec.ofNat 64 r.2.1.length) (if r.2.2 then 1 else 0) r.2.1) := by
  show execStatusGet c s = _
  rw [execStatusGet, hostCmd_of_passes _ h, ← hb, hr]
  exact congrArg Host.Outcome.next (if_neg hsel)

theorem execRtcGet_reports {c : Cmd} {s b : State} (hb : b = begun s 0x0030 c 2 (c.inlZero 0)) (h : passes s 0x0030 c 2 (c.inlZero 0) = true)
    (hlen : c.length = 128) : answers (.rtcGet c) s (b.rtcReport.2.finalData 0x0030 c stOk 128 0 b.rtcReport.1) := by
  show execRtcGet c s = _
  rw [execRtcGet, hostCmd_of_passes _ h, ← hb]
  exact congrArg Host.Outcome.next (if_neg (not_not.mpr hlen))

/-- Settles O5. -/
theorem reportsComplete : Obligations.ReportsComplete := by
  unfold Obligations.ReportsComplete
  refine ⟨?sections, ?summary, ?rtc, ?rtcState⟩
  case sections =>
    intro c s b r hb h hsel hr
    exact execStatusGet_sections hb h hsel hr
  case summary =>
    intro c s b hb h hsel hroom
    have hfold : ((List.range 10).filter fun k => (c.inf 0 4).testBit k).foldl (fun x k => State.addSection x c.length k) (b, [], false) =
        (b, secHdr 0 64 ++ b.summary, false) := by
      have hzero : ((List.range 10).filter fun k => (1 : Nat).testBit k) = [0] := by decide
      rw [hsel, hzero, List.foldl_cons, State.addSection_summary hroom, List.foldl_nil]
    exact execStatusGet_sections hb h (by rw [hsel]; decide) hfold.symm
  case rtc =>
    intro c s b hb h hlen
    exact execRtcGet_reports hb h hlen
  case rtcState =>
    intro c s b hb h hlen hl
    have hrun := execRtcGet_reports hb h hlen
    rwa [State.rtcReport_state hl] at hrun

end Sys2Proof.Machine
end

section
/-! SETTLED. The recorder's commands and happenings (16 R429 to R442). -/

namespace Sys2Proof.Machine
open Sys2Proof

/-! ## Reading and exporting, 16 R436 to R438 -/

theorem State.partyOf_of_host {s t : State} (h : t.host = s.host) (c : Cmd) : t.partyOf c = s.partyOf c := by
  simp only [State.partyOf, State.sessOf, h]

/-- The store that a reading names is served. -/
theorem logAt_served {b : State} {c : Cmd} (h : logAt b c = true) : (decide (c.inf 1 1 = 0) && !b.recd.served) = false := by
  simp only [logAt, Bool.or_eq_true, decide_eq_true_eq] at h
  rcases h with h | h <;> simp [h]

section
variable {c : Cmd} {s b : State}

/-- A reading within its limits: the cursor advances unless nothing was read and nothing overrun. -/
theorem execLogRead_reads (hb : b = begun s 0x0040 c 2 (logRes c)) (h : passes s 0x0040 c 2 (logRes c) = true) (hin : logInl c = true)
    (hat : logAt b c = true) :
    answers (.logRead c) s
      ((if (logGot b c).1.isEmpty && (logGot b c).2.2.2 % 2 = 0 then b else b.onSess c.session.toNat fun x =>
          if c.inf 1 1 = 0 then { x with curRing := (logGot b c).2.1 } else { x with curArch := (logGot b c).2.1 }).finalData 0x0040 c
        (if (logGot b c).1.isEmpty then stEmpty else stOk)
        (logResult (recBytes (logGot b c).1) (logGot b c).2.1 (logGot b c).2.2.1 (logGot b c).2.2.2).1
        (logResult (recBytes (logGot b c).1) (logGot b c).2.1 (logGot b c).2.2.1 (logGot b c).2.2.2).2 ((logGot b c).1.flatMap Rec.enc)) := by
  show execLogRead c s = _
  rw [execLogRead, hostCmd_of_passes _ h, ← hb, hin]
  dsimp only
  rw [logAt_served hat]
  rfl

theorem execLogExport_accepts (hb : b = begun s 0x0042 c 2 (logRes c)) (h : passes s 0x0042 c 2 (logRes c) = true) (hin : logInl c = true)
    (hat : logAt b c = true) :
    answers (.logExport c) s (b.accept (mkRun 0x0042 c (b.partyOf c) true (recBytes (b.recd.store (c.inf 1 1)))
      (.logExport (c.inf 1 1) (logFrom b c) (((b.recd.store (c.inf 1 1)).getLast?.map (·.seq)).getD (logFrom b c)) (c.inf 8 4) false 0 []))
        0x0042 c) := by
  show execLogExport c s = _
  rw [execLogExport, hostCmd_of_passes _ h, ← hb, hin]
  dsimp only
  rw [logAt_served hat]
  rfl

end

/-! ## Clearing and the gust table, 16 R439, R442 -/

@[simp] theorem State.clearedSpan_frame (s : State) :
    s.clearedSpan.2.2.recd = s.recd ∧ s.clearedSpan.2.2.host = s.host := by
  unfold State.clearedSpan
  split <;> exact ⟨rfl, rfl⟩

/-- LOG_CLEAR while no export runs. -/
theorem clearOwn_clears {c : Cmd} {action : Nat} {b : State} (ha : c.inf 0 1 = action) (hr : b.running 0x0042 = false) :
    clearOwn c action b = ((({ b.clearedSpan.2.2 with recd := { b.recd with
      ring := [], archive := if action = 2 then [] else b.recd.archive, due := if action = 2 then [] else b.recd.due } } : State).recordBy
        0x0006 (srcOf 16 0) (items [b.clearedSpan.1, b.clearedSpan.2.1]) (b.partyOf c) false).final 0x0041 c stOk dNone
          (BitVec.ofNat 64 b.recd.seq)) := by
  have hparty (r : Recd) : ({ b.clearedSpan.2.2 with recd := r } : State).partyOf c = b.partyOf c := State.partyOf_of_host (by simp) c
  have hrecd : b.clearedSpan.2.2.recd = b.recd := b.clearedSpan_frame.1
  subst ha
  simp only [clearOwn, hr, hparty, hrecd, ne_eq, not_true_eq_false, if_false, Bool.false_eq_true]

@[simp] theorem State.wroteBlock_hostOf (s : State) (id : Nat) : (s.wroteBlock id).host = s.host := rfl

/-- Settles O8, command by command, then the recorder's own happenings. -/
theorem recorderCompletes : Obligations.RecorderCompletes := by
  unfold Obligations.RecorderCompletes
  refine ⟨?empty, ?reads, ?export_, ?clearRing, ?clearArchive, ?replace, ?default_, ?refill, ?commit, ?flush⟩
  case empty =>
    rintro c s b r hb h hin hat rfl hnone hflags
    have hrun := execLogRead_reads hb h hin hat
    simpa [hnone, hflags, recBytes] using hrun
  case reads =>
    rintro c s b r k hb h hin hat rfl hsome rfl
    have hrun := execLogRead_reads hb h hin hat
    simpa [hsome] using hrun
  case export_ =>
    intro c s b hb h hin hat
    exact execLogExport_accepts hb h hin hat
  case clearRing =>
    rintro c s b k hb h ha hr rfl
    show execLogClearRing c s = _
    rw [execLogClearRing, hostCmd_of_passes _ h, ← hb, clearOwn_clears ha hr]
    rfl
  case clearArchive =>
    rintro c s b k hb h ha hr rfl
    show execLogClearArchive c s = _
    rw [execLogClearArchive, hostCmd_of_passes _ h, ← hb, clearOwn_clears ha hr]
    rfl
  case replace =>
    rintro c s b l hb h ha hdvd hmin hmax rfl hok htwice hfits
    show execGustTableReplace c s = _
    rw [execGustTableReplace, hostCmd_of_passes _ h, ← hb]
    have hlen : (decide (c.length % 8 ≠ 0) || decide (c.length < 8) || decide (4096 < c.length)) = false := by
      simp [hdvd, hmin, hmax]
    dsimp only
    rw [if_neg (not_not.mpr ha), hlen, hok, htwice, hfits]
    rfl
  case default_ =>
    rintro c s b d hb h ha hfits rfl
    show execGustTableDefault c s = _
    rw [execGustTableDefault, hostCmd_of_passes _ h, ← hb]
    dsimp only
    rw [hfits, ha]
    rfl
  case refill =>
    rintro code b k d s hb hsup hrate rfl rfl
    show execGustRefill code s = _
    simp [execGustRefill, hb, hsup, hrate]
  case commit =>
    intro r l s hd hroom
    show execArchiveCommit s = _
    simp [execArchiveCommit, hd, State.archiveOne, hroom]
  case flush =>
    intro s hd hs
    show Host.Outcome.next s.serveRing = _
    simp [State.serveRing, hd, hs]

end Sys2Proof.Machine
end

section
/-! SETTLED. Images and firmware (12 R311 to R329). -/

namespace Sys2Proof.Machine
open Sys2Proof

/-! ## Commands that bring an image, 12 R311, R316, R317, R323 -/

/-- A long operation finds a place, 13 R352. -/
theorem State.accept_free {s : State} (r : Run) (op : Nat) (c : Cmd) (h : s.longOps < 8) :
    s.accept r op c = (s.addRun r).runPost r stAccepted 1 dNone :=
  if_neg (not_le.mpr h)

theorem State.endRollback_some {s : State} {u : Nat} (h : s.chg.rollback = some u) :
    s.endRollback = { s with chg := { s.chg with
      rollback := none, appFloor := max s.chg.appFloor ((s.chg.running.map (·.hdr.rollback)).getD 0) } } := by
  simp [State.endRollback, h]

section
variable {c : Cmd} {img : AppImage} {s b : State}

theorem execAppLoad_accepts (hb : b = begun s 0x0060 c 1 (c.inlZero 0)) (h : passes s 0x0060 c 1 (c.inlZero 0) = true)
    (hp : b.primary = true) (ht : b.busyTask = false) (hh : b.appHdr img 2 c.length = none) (hl : b.longOps < 8) :
    answers (.appLoad c img) s ((b.addRun (mkRun 0x0060 c (b.partyOf c) true c.length (.appLoad img false))).runPost
      (mkRun 0x0060 c (b.partyOf c) true c.length (.appLoad img false)) stAccepted 1 dNone) := by
  show execAppLoad c img s = _
  rw [execAppLoad, hostCmd_of_passes _ h, ← hb, ownPrimary_primary _ _ _ hp, ht, hh]
  exact congrArg Host.Outcome.next (State.accept_free _ _ _ hl)

/-- APP_CHANGE accepted: the rollback period has ended, and the delta goes to a partner in pair duty. -/
theorem execAppChange_accepts {k : State} (hb : b = begun s 0x0061 c 1 (cflagsOk c)) (h : passes s 0x0061 c 1 (cflagsOk c) = true)
    (hp : b.primary = true) (hd : c.inf 0 4 = 0) (hbusy : b.changeBusy = false) (hh : b.appHdr img 3 c.length = none) (hl : b.longOps < 8)
    (hk : k = b.endRollback.accept (mkRun 0x0061 c (b.endRollback.partyOf c) true c.length (.appChange img)) 0x0061 c) :
    answers (.appChange c img) s
      (if k.partnerDuty then ((stagingBegun k (some .delta)).passImage img).changeStep 1 else stagingBegun k none) := by
  show execAppChange c img s = _
  rw [execAppChange, hostCmd_of_passes _ h, ← hb, ownPrimary_primary _ _ _ hp]
  dsimp only
  rw [if_neg (not_not.mpr hd), hbusy, if_neg Bool.false_ne_true, hh]
  dsimp only
  rw [if_neg (not_le.mpr hl), ← hk]
  cases hduty : k.partnerDuty
  · exact congrArg Host.Outcome.next (if_neg (ne_true_of_eq_false hduty))
  · exact congrArg Host.Outcome.next (if_pos hduty)

theorem execAppRollback_announces {u : Nat} {p : AppSlot} {i : AppImage} (hb : b = begun s 0x0061 c 0 (cflagsOk c))
    (h : passes s 0x0061 c 0 (cflagsOk c) = true) (hp : b.primary = true) (hd : c.inf 0 4 = 1) (hbusy : b.changeBusy = false)
    (hu : b.chg.rollback = some u) (hprev : b.chg.app.toList.find? (·.st = .previous) = some p) (hi : p.img = some i) (hstamp : b.stamp ≤ u)
    (hl : b.longOps < 8) :
    answers (.appRollback c) s ((b.endRollback.accept (mkRun 0x0061 c (b.endRollback.partyOf c) true 0 .rollback) 0x0061 c).announce i true) := by
  show execAppRollback c s = _
  rw [execAppRollback, hostCmd_of_passes _ h, ← hb, ownPrimary_primary _ _ _ hp]
  dsimp only
  rw [if_neg (not_not.mpr hd), hbusy, if_neg Bool.false_ne_true, hu, hprev]
  dsimp only
  rw [hi]
  dsimp only
  rw [if_neg (not_lt.mpr hstamp), if_neg (not_le.mpr hl)]

end

/-! ## Staging, 12 R311, R314, R316, R317, R325 -/

@[simp] theorem State.setFw_chg (s : State) (v : Vector FwSlot 2) : (s.setFw v).chg = { s.chg with fw := v } := by
  simp [State.setFw]

/-- Own staging has passed where no partner's report is awaited: FW_STAGE ends. -/
theorem State.fwStaged_alone {s : State} {r : Run} {v : Vector FwSlot 2} (h : s.chg.partnerWait = none) :
    ({ s.setFw v with chg := { (s.setFw v).chg with ownOk := true } } : State).fwStaged r =
      ({ s.setFw v with chg := { (s.setFw v).chg with ownOk := true } } : State).endRun r stOk dNone := by
  simp [State.fwStaged, h]

/-- Settles O10: the commands that bring an image, then its staging in the modules of a pair. -/
theorem imageCommandsComplete : Obligations.ImageCommandsComplete := by
  unfold Obligations.ImageCommandsComplete
  refine ⟨?load, ?changeAlone, ?changePair, ?rollback, ?periodEnd, ?loaded, ?loadedPair, ?merged, ?firmware, ?fails, ?rxFirmware, ?rxApp,
    ?rxDelta, ?joining, ?announced, ?announcedAgain⟩
  case load =>
    intro c img s b hb h hp ht hh hl
    exact execAppLoad_accepts hb h hp ht hh hl
  case changeAlone =>
    intro c img s b k hb h hp hd hbusy hh hl hk hduty
    have hrun := execAppChange_accepts hb h hp hd hbusy hh hl hk
    rwa [if_neg (ne_true_of_eq_false hduty)] at hrun
  case changePair =>
    intro c img s b k hb h hp hd hbusy hh hl hk hduty
    have hrun := execAppChange_accepts hb h hp hd hbusy hh hl hk
    rwa [if_pos hduty] at hrun
  case rollback =>
    intro c s b u p i hb h hp hd hbusy hu hprev hi hstamp hl
    exact execAppRollback_announces hb h hp hd hbusy hu hprev hi hstamp hl
  case periodEnd =>
    rintro u s k hu rfl hk
    show execRollbackPeriodEnd s = _
    rw [execRollbackPeriodEnd, hu]
    exact congrArg Host.Outcome.next (State.endRollback_some hk)
  case loaded =>
    intro sess id img r s hr hs hv hw hst hduty
    show execImageStagingDone sess id s = _
    simp [execImageStagingDone, hr, hs, hv, hw, hst, hduty]
  case loadedPair =>
    rintro sess id img r s k hr hs hv hw hst hduty rfl
    show execImageStagingDone sess id s = _
    simp [execImageStagingDone, hr, hs, hv, hw, hst, hduty]
  case merged =>
    rintro sess id img r s k hr hs hv hw hown hst rfl
    show execImageStagingDone sess id s = _
    simp [execImageStagingDone, hr, hs, hv, hw, hown, hst]
  case firmware =>
    rintro sess id img r s k hr hs hv hw hst hwait rfl
    show execImageStagingDone sess id s = _
    simp only [execImageStagingDone, hr, hs, hv, hw, hst]
    exact congrArg Host.Outcome.next (State.fwStaged_alone hwait)
  case fails =>
    intro sess id img r s st d hr hs hv hw hst
    show execImageStagingDone sess id s = _
    simp [execImageStagingDone, hr, hs, hv, hw, hst]
  case rxFirmware =>
    intro img s hrole hkind hcheck hst
    show execPairImageRx img s = _
    simp [execPairImageRx, hrole, hkind, hcheck, hst]
  case rxApp =>
    intro img s hrole hkind hcheck hst
    show execPairImageRx img s = _
    simp [execPairImageRx, hrole, hkind, hcheck, hst]
  case rxDelta =>
    rintro img i s k hrole hkind hcheck hst rfl rfl
    show execPairImageRx img s = _
    simp [execPairImageRx, hrole, hkind, hcheck, hst]
  case joining =>
    rintro img s k hrole hhdr htag hdigest hcontent happ rfl
    show execPairImageRx img s = _
    simp [execPairImageRx, hrole, hhdr, htag, ← hdigest, hcontent, happ]
  case announced =>
    intro n i s hrole hchange hstaged
    show execChangeAnnounceRx n s = _
    simp [execChangeAnnounceRx, hrole, hchange, hstaged]
  case announcedAgain =>
    intro n c s hrole hchange
    show execChangeAnnounceRx n s = _
    simp [execChangeAnnounceRx, hrole, hchange]

/-! ## Firmware, 12 R325 to R329 -/

section
variable {c : Cmd} {img : AppImage} {s b : State}

/-- FW_STAGE accepted: the image goes to a partner in pair duty. -/
theorem execFwStage_accepts {k : State} (hb : b = begun s 0x0070 c 1 (c.inlZero 0)) (h : passes s 0x0070 c 1 (c.inlZero 0) = true)
    (hp : b.primary = true) (hh : b.hdrCheck img 1 c.length = none) (hgen : img.hdr.gen = b.fwGen ∨ img.hdr.gen = b.fwGen + 1)
    (ht : b.anyTrial = false) (hl : b.longOps < 8) (hk : k = (b.addRun (fwRun b c img)).runPost (fwRun b c img) stAccepted 1 dNone) :
    answers (.fwStage c img) s
      (if k.partnerDuty then (({ k with chg := { k.chg with ownOk := false, partnerWait := some .firmware } } : State).send (.firmware img))
        else { k with chg := { k.chg with ownOk := false, partnerWait := none } }) := by
  have hg : (decide (img.hdr.gen ≠ b.fwGen) && decide (img.hdr.gen ≠ b.fwGen + 1)) = false := by
    rcases hgen with hgen | hgen <;> simp [hgen]
  have hacc : b.accept (mkRun 0x0070 c (b.partyOf c) true c.length (.fwStage img)) 0x0070 c = k := by
    rw [State.accept_free _ _ _ hl, hk, fwRun]
  show execFwStage c img s = _
  rw [execFwStage, hostCmd_of_passes _ h, ← hb, ownPrimary_primary _ _ _ hp, hh]
  dsimp only
  rw [hg, if_neg Bool.false_ne_true, ht, if_neg Bool.false_ne_true, if_neg (not_le.mpr hl), hacc]
  cases hduty : k.partnerDuty
  · exact congrArg Host.Outcome.next (if_neg (ne_true_of_eq_false hduty))
  · exact congrArg Host.Outcome.next (if_pos hduty)

theorem execFwHandover_orders (hb : b = begun s 0x0071 c 0 (c.inlZero 0)) (h : passes s 0x0071 c 0 (c.inlZero 0) = true)
    (hp : b.primary = true) (ht : b.hasTarget = true) (hbusy : b.changeBusy = false) (hstandby : b.partnerStandby = true)
    (hcur : b.pair.partnerCur = true) (hflag : b.partnerFlag 3 = false) (hother : b.otherTarget = false) (hl : b.longOps < 8) :
    answers (.fwHandover c) s
      ((((b.addRun (hoRun b c)).runPost (hoRun b c) stAccepted 1 dNone).send (.report .handover true)).handoverStep 1) := by
  show execFwHandover c s = _
  rw [execFwHandover, hostCmd_of_passes _ h, ← hb, ownPrimary_primary _ _ _ hp, ht, hbusy, hstandby, hcur, hflag, hother]
  dsimp only
  rw [State.accept_free _ _ _ hl]
  simp [not_le.mpr hl, hoRun]

/-- FW_CONFIRM of the TRIAL that both modules run. -/
theorem execFwConfirm_confirms (hb : b = begun s 0x0072 c 0 (c.inlZero 0)) (h : passes s 0x0072 c 0 (c.inlZero 0) = true)
    (ht : b.runsTrial = true)
    (hsame : (b.partnerDuty && !b.chg.partner.any fun p => p.runs = b.fwSlot.hdr.map (·.resultDigest)) = false) {k : State}
    (hk : k = if b.partnerDuty then b.send (.report .fwConfirm true) else b) :
    answers (.fwConfirm c) s ((k.confirmFw.recordBy 0x0A04 (srcOf 9 0) [] (k.partyOf c) false).final 0x0072 c stOk dNone) := by
  show execFwConfirm c s = _
  rw [execFwConfirm, hostCmd_of_passes _ h, ← hb]
  dsimp only
  rw [ht, hsame, ← hk, Bool.not_true, Bool.or_self, if_neg Bool.false_ne_true]

/-- FW_FALLBACK reaches a partner over the link. -/
theorem execFwFallback_fails (hb : b = begun s 0x0073 c 0 (c.inlZero 0)) (h : passes s 0x0073 c 0 (c.inlZero 0) = true)
    (ht : b.anyTrial = true) :
    answers (.fwFallback c) s
      ((if b.linked then b.send (.report .fwFallback true) else b).fallbackFw.final 0x0073 c stOk dNone) := by
  show execFwFallback c s = _
  rw [execFwFallback, hostCmd_of_passes _ h, ← hb, ht, Bool.not_true, if_neg Bool.false_ne_true]

end

/-- The third failed start of a trial in a row. -/
theorem State.startFails_third {s u : State} (ht : s.runsTrial = true) (hf : 2 ≤ s.chg.fails)
    (hu : u = (({ s with chg := { s.chg with fwRun := (s.chg.fw.toList.findIdx? (·.st = .active)).getD s.chg.fwRun, fails := 0 } } : State).setFw
      (failTrials s.chg.fw)).record 0x0A03 (srcOf 9 0) []) :
    s.startFails = if 6 ≤ s.chg.handover then u.handoverFail else u := by
  have hfails : ¬ s.chg.fails + 1 < 3 := by omega
  unfold State.startFails
  rw [ht, Bool.not_true, if_neg Bool.false_ne_true, if_neg hfails]
  simp only [hu, State.record_frame, State.setFw_chg]

/-- Settles O12, command by command, then the start of a trial. -/
theorem firmwareCommandsComplete : Obligations.FirmwareCommandsComplete := by
  unfold Obligations.FirmwareCommandsComplete
  refine ⟨?stageAlone, ?stagePair, ?handover, ?confirmAlone, ?confirmPair, ?fallbackAlone, ?fallbackPair, ?counted, ?third, ?other⟩
  case stageAlone =>
    intro c img s b k hb h hp hh hgen ht hl hk hduty
    have hrun := execFwStage_accepts hb h hp hh hgen ht hl hk
    rwa [if_neg (ne_true_of_eq_false hduty)] at hrun
  case stagePair =>
    intro c img s b k hb h hp hh hgen ht hl hk hduty
    have hrun := execFwStage_accepts hb h hp hh hgen ht hl hk
    rwa [if_pos hduty] at hrun
  case handover =>
    intro c s b hb h hp ht hbusy hstandby hcur hflag hother hl
    exact execFwHandover_orders hb h hp ht hbusy hstandby hcur hflag hother hl
  case confirmAlone =>
    intro c s b hb h ht hduty
    exact execFwConfirm_confirms hb h ht (by rw [hduty, Bool.false_and]) (if_neg (ne_true_of_eq_false hduty)).symm
  case confirmPair =>
    rintro c s b p k hb h ht hduty hpart hsame rfl
    exact execFwConfirm_confirms hb h ht (by simp [hpart, hsame]) (if_pos hduty).symm
  case fallbackAlone =>
    intro c s b hb h ht hlink
    have hrun := execFwFallback_fails hb h ht
    rwa [if_neg (ne_true_of_eq_false hlink)] at hrun
  case fallbackPair =>
    intro c s b hb h ht hlink
    have hrun := execFwFallback_fails hb h ht
    rwa [if_pos hlink] at hrun
  case counted =>
    intro s hlull ht hf
    show execFwStartTimeout s = _
    have hfails : s.chg.fails + 1 < 3 := by omega
    simp [execFwStartTimeout, hlull, State.startFails, ht, hfails]
  case third =>
    rintro s k u hlull ht hf rfl hu
    show execFwStartTimeout s = _
    rw [execFwStartTimeout, hlull, if_neg Bool.false_ne_true, State.startFails_third ht hf hu]
  case other =>
    intro s h
    show execFwStartTimeout s = _
    rcases h with h | h <;> simp [execFwStartTimeout, State.startFails, h]

end Sys2Proof.Machine
end

section
/-! SETTLED. Transactions and register writes (15 R406 to R422, 21 R513). -/

namespace Sys2Proof.Machine
open Sys2Proof

/-! ## Transactions at memory, 15 R406 to R422 -/

/-- A transaction of the module, or of a split copy that executes, goes on its way. -/
theorem exec_interconnectTransaction {s : State} {t : Txn} (h : issues s t = true) :
    exec (.interconnectTransaction t) s = .next (s.txn (Held.of t)) := by
  show execInterconnectTransaction t s = _
  have hgo : (decide (t.cls.val < 3) && !((s.laneAt t.lane.val).split && s.copyGoes t.lane.val t.copy)) = false := by
    simp only [issues, Bool.or_eq_true, decide_eq_true_eq] at h
    rcases h with h | h
    · rw [decide_eq_false (by omega), Bool.false_and]
    · rw [h, Bool.not_true, Bool.and_false]
  rw [execInterconnectTransaction, hgo, if_neg Bool.false_ne_true]

/-- Plain memory answers every access that it accepts. -/
theorem State.memAccess_answers (s : State) (h : Held) : ∃ u d, s.memAccess h = State.answer u d := by
  unfold State.memAccess
  dsimp only
  (repeat' split) <;> exact ⟨_, _, rfl⟩

/-- An access that reaches plain memory without a code error or poison is carried out there. -/
theorem State.txn_memory {s : State} {t : Txn} (hr : reaches s t = true) (hs : slotOf t.addr = none) (he : t.err = .none)
    (hp : s.mgn.poison = []) : s.txn (Held.of t) = s.memAccess (Held.of t) := by
  have htarget : s.atTarget State.heldTxn (Held.of t) = (s.memAccess (Held.of t)).done (Held.of t) := by
    simp [State.atTarget, Held.of, hs, he, hp]
  obtain ⟨u, d, hu⟩ := s.memAccess_answers (Held.of t)
  rw [State.txn_of_reaches hr, htarget, hu, State.done_answer_of]

/-- A write outside the tracking tables stores its enabled bytes. -/
theorem State.memAccess_write {s : State} {t : Txn} (hk : t.kind = 1)
    (ha : (decide (0x0160000000 ≤ t.addr) && decide (t.addr < 0x017C000000)) = false) :
    s.memAccess (Held.of t) = ((s.breakRes t.addr).store t.addr (blend t (s.readOf t.addr t.size))).answer [] := by
  have hput (d : List Byte) : s.putBytes t.addr d = (s.breakRes t.addr).store t.addr d := if_neg (ne_true_of_eq_false ha)
  simp [State.memAccess, Held.of, hk, hput]

/-- A refused transaction is a violation and answers nothing. -/
theorem State.txn_refused {s : State} {t : Txn} {reason region a : Nat} {straddle : Bool} (hg : s.wb.held = false) (hb : barBad t = false)
    (hr : s.refusal t = some (reason, region, a, straddle)) :
    s.txn (Held.of t) = (s.violate t reason region a straddle).refuse.done (Held.of t) := by
  simp [State.txn, State.passTxn, Held.of, hg, hb, hr]

/-- While an update holds the gate a transaction waits there. -/
theorem State.txn_gate {s : State} {t : Txn} (hg : s.wb.held = true) (hc : t.cls.val ≠ 3) :
    s.txn (Held.of t) = { s with wb := { s.wb with gate := s.wb.gate ++ [Held.of t] } } := by
  simp [State.txn, Held.of, hg, hc]

/-- A transaction for an island whose clock stands still waits at its crossing. -/
theorem State.txn_crossing {s : State} {t : Txn} (hg : s.wb.held = false) (hb : barBad t = false) (hr : s.refusal t = none)
    (hp : s.powered t.addr = true) (hc : (s.atParked t.addr || s.clockHeld t.addr) = true) :
    s.txn (Held.of t) = { s with wb := { s.wb with crossing := s.wb.crossing ++ [Held.of t] } } := by
  simp only [Bool.or_eq_true] at hc
  simp [State.txn, State.passTxn, Held.of, hg, hb, hr, hp, hc]

/-! ## Registers through BAR0, 21 R513 to R515 -/

/-- The slots that the windows of BAR0 open; of the host interface's the doorbells are not BAR0. -/
theorem slotOf_barAddr {addr a slot : Nat} (ha : barAddr addr = some a) (hs : slotOf a = some slot) :
    slot < 26 ∨ slot = 28 ∧ a % 0x10000 < 0x8000 := by
  simp only [barAddr] at ha
  simp only [slotOf] at hs
  split at hs
  case isFalse => simp at hs
  case isTrue =>
    simp only [Option.some.injEq] at hs
    (repeat' split at ha) <;> simp_all <;> omega

/-- A whole write of the host's reaches the register that it addresses with its value. -/
theorem State.slotAccess_bar {s : State} {a slot : Nat} {v : Word} (k : State → Held → State) (hd : described slot = true)
    (hl : slot < 26 ∨ slot = 28 ∧ a % 0x10000 < 0x8000) :
    s.slotAccess (barWrite a 8 v) slot k = (s.regWrite slot .a (a % 0x10000) v k).answer [] := by
  rcases hl with hl | ⟨rfl, ho⟩
  · exact State.slotAccess_whole k hd hl rfl rfl rfl rfl
  · have hv (old : List Byte) : BitVec.ofNat 64 (unle (blend (barWrite a 8 v) old)) = v := by
      rw [blend_full old rfl (by simp [barWrite]), barWrite, unle_le, Nat.mod_eq_of_lt (by exact v.isLt), BitVec.ofNat_toNat, BitVec.setWidth_eq]
    have hw : txnWrites (barWrite a 8 v) = true := rfl
    have haddr : (barWrite a 8 v).addr = a := rfl
    have hsize : (barWrite a 8 v).size = 8 := rfl
    have hcopy : (barWrite a 8 v).copy = .a := rfl
    simp [State.slotAccess, hd, hw, haddr, hsize, hcopy, hv, ho]

/-- A register write through BAR0 is a transaction of class HOST. -/
theorem exec_registerWrite_host {addr a : Nat} (size : Nat) (v : Word) (s : State) (h : barAddr addr = some a) :
    exec (.registerWrite .host addr size v) s = .next (s.txn (Held.of (barWrite a size v))) := by
  show execRegisterWrite .host addr size v s = _
  simp only [execRegisterWrite, h, barWrite]

/-- Settles O15, by what meets a transaction on its way, then by who writes a register. -/
theorem transactionsComplete : Obligations.TransactionsComplete := by
  unfold Obligations.TransactionsComplete
  refine ⟨?memory, ?write, ?refused, ?gate, ?crossing, ?compared, ?split, ?host, ?register, ?management⟩
  case memory =>
    intro t s hi hr hs he hp
    rw [answers, exec_interconnectTransaction hi, State.txn_memory hr hs he hp]
  case write =>
    rintro t s k hi hr hs he hp hk ha rfl
    rw [answers, exec_interconnectTransaction hi, State.txn_memory hr hs he hp, State.memAccess_write hk ha]
  case refused =>
    intro t reason region a straddle s hi hg hb hr
    rw [answers, exec_interconnectTransaction hi, State.txn_refused hg hb hr]
  case gate =>
    intro t s hi hg hc
    rw [answers, exec_interconnectTransaction hi, State.txn_gate hg hc]
  case crossing =>
    intro t s hi hg hb hr hp hc
    rw [answers, exec_interconnectTransaction hi, State.txn_crossing hg hb hr hp hc]
  case compared =>
    rintro l cp addr size v s p hg hs rfl
    exact congrArg Host.Outcome.next (State.laneWrite_compared _ addr size v hg hs)
  case split =>
    rintro l cp addr size v s p hg hs rfl
    exact congrArg Host.Outcome.next (State.laneWrite_split _ addr size v hg hs)
  case host =>
    intro addr a size v s ha
    exact exec_registerWrite_host size v s ha
  case register =>
    rintro addr a v s slot k ha hs hd h8 hr rfl
    rw [answers, exec_registerWrite_host 8 v s ha, State.txn_of_reaches hr, State.atTarget_slot _ hs rfl,
      State.slotAccess_bar _ hd (slotOf_barAddr ha hs), State.done_answer_of]
  case management =>
    intro addr size v s
    rfl

end Sys2Proof.Machine
end

section
/-! SETTLED. The debug port, control of operations, self tests (14 R403, R404, 13 R352, R371 to R373, 12 R331). -/

namespace Sys2Proof.Machine
open Sys2Proof

/-! ## The debug port, 14 R403, R404, 18 R476 -/

/-- An access within the scope of an open port is a transaction of class DBG. -/
theorem exec_debugAccess {s : State} {t : Txn} (ho : s.dbgIsOpen = true) (hr : s.dbgRight (if txnWrites t then 1 else 0) = true) :
    exec (.debugAccess t) s = .next (s.txn (Held.of { t with cls := 5 })) := by
  show execDebugAccess t s = _
  have hr' : s.dbgRight (if txnWrites { t with cls := 5 } then 1 else 0) = true := hr
  simp [execDebugAccess, ho, hr']

/-- Settles O19, by token, halt, reset and access. -/
theorem debugPortCompletes : Obligations.DebugPortCompletes := by
  unfold Obligations.DebugPortCompletes
  refine ⟨?token, ?halt, ?noRight, ?reset, ?access, ?memory, ?outside⟩
  case token =>
    intro k s h
    exact if_pos h
  case halt =>
    intro l s ho hr hl
    show execDebugHaltRequest l s = _
    simp [execDebugHaltRequest, ho, hr, hl]
  case noRight =>
    intro l s ho hr
    show execDebugHaltRequest l s = _
    simp [execDebugHaltRequest, ho, hr]
  case reset =>
    intro s ho hr hok hl
    show execDebugResetRequest s = _
    simp [execDebugResetRequest, ho, hr, hok, hl]
  case access =>
    intro t s ho hr
    exact exec_debugAccess ho hr
  case memory =>
    intro t s ho hreach hr hs he hp
    rw [answers, exec_debugAccess ho hr, State.txn_memory hreach hs he hp]
  case outside =>
    intro t s ho hr
    show execDebugAccess t s = _
    have hr' : s.dbgRight (if txnWrites { t with cls := 5 } then 1 else 0) = false := hr
    simp [execDebugAccess, ho, hr']

/-! ## Control of operations, 13 R352, R372, R373 -/

/-- OP_SUSPEND, OP_RESUME and OP_CANCEL run their own rules once their checks have passed. -/
theorem hostCmdBy_of_passesOn {s b : State} {op : Nat} {c : Cmd} (k : State → State) (hb : b = begun s op c 0 (c.inlZero 6))
    (h : passesOn s op c = true) : s.hostCmdBy op c 0 (c.inlZero 6) (opAllowed s c op) k = k b := by
  simp only [passesOn, Bool.and_eq_true, decide_eq_true_eq] at h
  obtain ⟨hbegin, hchecks⟩ := h
  rw [State.hostCmdBy_runs hbegin hchecks (.inl (by decide)), hb, begun]

section
variable {c : Cmd} {s b : State} {r : Run}

theorem execOpSuspend_waits (hb : b = begun s 0x00E0 c 0 (c.inlZero 6)) (h : passesOn s 0x00E0 c = true) (ht : b.target c = some r)
    (hs : r.suspended = false) (hn : b.noSuspend r = false) :
    answers (.opSuspend c) s
      (if suspendsNow r then (b.addRun (suspendWait b c r)).suspendRun r
        else (b.addRun (suspendWait b c r)).setRun { r with suspendDue := true }) := by
  show execOpSuspend c s = _
  rw [execOpSuspend, hostCmdBy_of_passesOn _ hb h]
  simp [ht, hs, hn, suspendWait]

theorem execOpResume_resumes (hb : b = begun s 0x00E1 c 0 (c.inlZero 6)) (h : passesOn s 0x00E1 c = true) (ht : b.target c = some r)
    (hs : r.suspended = true) {q : Run} (hq : q = { r with suspended := false, suspendDue := false }) :
    answers (.opResume c) s
      ((if isRejoin r then ((b.setRun q).resumed q).rejoinOn else ((b.setRun q).resumed q).heardMeanwhile).final 0x00E1 c stOk dNone) := by
  have hrejoin : isRejoin q = isRejoin r := by rw [hq]; rfl
  show execOpResume c s = _
  rw [execOpResume, hostCmdBy_of_passesOn _ hb h]
  simp [ht, hs, ← hq, hrejoin]

theorem execOpCancel_cancels (hb : b = begun s 0x00E2 c 0 (c.inlZero 6)) (h : passesOn s 0x00E2 c = true) (ht : b.target c = some r)
    (hn : b.noCancel r = false) :
    answers (.opCancel c) s
      (if r.work = .handover ∧ b.chg.handover ≠ 3 then (b.addRun (cancelWait b c r)).setRun { r with cancelDue := true }
        else (b.addRun (cancelWait b c r)).cancelRun r) := by
  show execOpCancel c s = _
  rw [execOpCancel, hostCmdBy_of_passesOn _ hb h]
  simp [ht, hn, cancelWait]

end

section
variable {sess : BitVec 16} {id : BitVec 32} {done total x y : Nat} {r : Run} {s : State}

/-- A chunk of a SCRUB that runs: its end, or its count and where one is due its PROGRESS. -/
theorem execLongOperationProgress_scrub (hr : s.runOf sess.toNat id = some r) (hs : r.suspended = false) (hv : s.serves = true)
    (hw : r.work = .scrub x y) :
    answers (.longOperationProgress sess id done total .good) s
      (if r.total ≤ done then s.endRun r stOk dNone (BitVec.ofNat 64 x) (BitVec.ofNat 64 y) else s.chunkDone r done r.total) := by
  show execLongOperationProgress sess id done total .good s = _
  simp [execLongOperationProgress, hr, hs, hv, hw]

end

/-- Settles O20, by OP_SUSPEND, OP_RESUME, OP_CANCEL, then the chunks of an operation. -/
theorem operationControlCompletes : Obligations.OperationControlCompletes := by
  unfold Obligations.OperationControlCompletes
  refine ⟨?suspends, ?suspendsNow, ?resumes, ?rejoins, ?cancels, ?cancelsScrub, ?cancelsHandover, ?point, ?ends, ?chunk, ?progress⟩
  case suspends =>
    intro c s b r hb h ht hs hn hnow
    have hrun := execOpSuspend_waits hb h ht hs hn
    rwa [if_neg (ne_true_of_eq_false hnow)] at hrun
  case suspendsNow =>
    intro c s b r hb h ht hs hn hnow
    have hrun := execOpSuspend_waits hb h ht hs hn
    rwa [if_pos hnow] at hrun
  case resumes =>
    intro c s b r q hb h ht hs hq hrejoin
    have hrun := execOpResume_resumes hb h ht hs hq
    rwa [if_neg (ne_true_of_eq_false hrejoin)] at hrun
  case rejoins =>
    intro c s b r q hb h ht hs hq hrejoin
    have hrun := execOpResume_resumes hb h ht hs hq
    rwa [if_pos hrejoin] at hrun
  case cancels =>
    intro c s b r hb h ht hn hw
    have hrun := execOpCancel_cancels hb h ht hn
    rwa [if_neg fun hh => hw hh.1] at hrun
  case cancelsScrub =>
    intro c s b r x y hb h ht hw
    have hn : b.noCancel r = false := by simp [State.noCancel, State.noSuspend, hw]
    have hcancel (u : State) : u.cancelRun r = u.endRun r stCancelled dNone := by simp [State.cancelRun, hw]
    have hrun := execOpCancel_cancels hb h ht hn
    rwa [if_neg (by simp [hw]), hcancel] at hrun
  case cancelsHandover =>
    intro c s b r hb h ht hw hstep hn
    have hrun := execOpCancel_cancels hb h ht hn
    rwa [if_pos ⟨hw, hstep⟩] at hrun
  case point =>
    intro sess id r s hr hdue hs
    show execSuspendPointReached sess id s = _
    simp [execSuspendPointReached, hr, hdue, hs]
  case ends =>
    intro sess id done total x y r s hr hs hv hw hd
    have hrun := execLongOperationProgress_scrub (done := done) (total := total) hr hs hv hw
    rwa [if_pos hd] at hrun
  case chunk =>
    intro sess id done total x y r s hr hs hv hw hd ht
    have hrun := execLongOperationProgress_scrub (done := done) (total := total) hr hs hv hw
    rwa [if_neg (not_le.mpr hd), State.chunkDone, ht, if_neg Bool.false_ne_true] at hrun
  case progress =>
    rintro sess id done total x y r s k hr hs hv hw hd ht rfl
    have hrun := execLongOperationProgress_scrub (done := done) (total := total) hr hs hv hw
    rw [if_neg (not_le.mpr hd), State.chunkDone, ht, if_pos rfl] at hrun
    simpa [State.stepOf, hw, Work.unnumbered] using hrun

/-! ## Self tests, 13 R371, 03 R91, R92, 09 R252 -/

/-- Settles O21, by the test set. -/
theorem selfTestsComplete : Obligations.SelfTestsComplete := by
  unfold Obligations.SelfTestsComplete
  refine ⟨?scrub, ?verify, ?inject, ?timeout, ?snapshot⟩
  case scrub =>
    intro c s b hb h hset
    show execScrub c s = _
    rw [execScrub, hostCmd_of_passes _ h, ← hb, testSet, if_neg (not_not.mpr hset)]
  case verify =>
    intro c s b hb h hset
    show execFlashVerify c s = _
    rw [execFlashVerify, hostCmd_of_passes _ h, ← hb, testSet, if_neg (not_not.mpr hset)]
  case inject =>
    rintro c s b k hb h hset hlane hsplit hcopy hkind hbit hleft hnone hl rfl
    have hrange : (decide (8 < c.inf 1 1) || (decide (c.inf 1 1 < 8) && (b.laneAt (c.inf 1 1)).split) || decide (1 < c.inf 2 1) ||
        decide (6 < c.inf 3 1) || !bitOk (c.inf 3 1) (c.inf 4 2) || decide (c.inf 8 4 = 0)) = false := by
      rw [hsplit, hbit, decide_eq_false (not_lt.mpr hlane), decide_eq_false (not_lt.mpr hcopy), decide_eq_false (not_lt.mpr hkind),
        decide_eq_false hleft]
      rfl
    show execLaneInject c s = _
    rw [execLaneInject, hostCmd_of_passes _ h, ← hb, testSet, if_neg (not_not.mpr hset)]
    dsimp only
    rw [hrange, hnone, decide_eq_false (not_le.mpr hl), if_neg Bool.false_ne_true, if_neg (by decide), armed]
  case timeout =>
    rintro i u n s k hi hf rfl
    show execLaneInjectTimeout s = _
    simp only [execLaneInjectTimeout, hi, hf]
  case snapshot =>
    intro c s b hb h hscope hrange hlen hrun
    show execTrackSnapshot c s = _
    rw [execTrackSnapshot, hostCmd_of_passes _ h, ← hb]
    simp [hscope, not_lt.mpr hrange, not_lt.mpr hlen, hrun]

end Sys2Proof.Machine
end

section
/-! SETTLED. ATTEST, state changes and the key set (14 R395 to R402). -/

namespace Sys2Proof.Machine
open Sys2Proof

/-! ## Completions and the party of a command -/

@[simp] theorem State.post_sess (s : State) (src : Src) (c : Cpl) : (s.post src c).host.sess = s.host.sess := by
  unfold State.post
  dsimp only
  (repeat' split) <;> rfl

@[simp] theorem State.runPost_sess (s : State) (r : Run) (status kind detail : Nat) (r0 r1 : Word) (data : List Byte) :
    (s.runPost r status kind detail r0 r1 data).host.sess = s.host.sess := by
  unfold State.runPost
  dsimp only
  (repeat' split) <;> simp [State.hostWrite]

theorem State.partyOf_of_sess {s t : State} (h : t.host.sess = s.host.sess) (c : Cmd) : t.partyOf c = s.partyOf c := by
  simp only [State.partyOf, State.sessOf, h]

/-- A long operation's acceptance leaves the sessions alone. -/
theorem State.partyOf_accept {s : State} (r : Run) (op : Nat) (c : Cmd) (h : s.longOps < 8) : (s.accept r op c).partyOf c = s.partyOf c := by
  rw [State.accept_free _ _ _ h]
  exact State.partyOf_of_sess (by rw [State.runPost_sess]; rfl) c

/-! ## Commands of code 0x00B0, 14 R398 -/

theorem lifeCmd_of_passes {s : State} {c : Cmd} {dir : Nat} (k : State → State) (h : lifePasses s c dir = true) :
    s.lifeCmd c dir k = k (begun s 0x00B0 c dir (lifeRes c)) := by
  simp only [lifePasses, Bool.and_eq_true, Bool.or_eq_true, decide_eq_true_eq] at h
  obtain ⟨⟨hbegin, hchecks⟩, hlen⟩ := h
  exact State.hostCmdBy_runs hbegin hchecks hlen

section
variable {c : Cmd} {s b : State} {d : Nat}

/-- A state change that the table gives is accepted and recorded, and its first step reported. -/
theorem execLifecycleAdvance_accepts {pok : Bool} (hd : d = if lifeBuf (c.inf 0 1) s.keys.life = 0 then 0 else 1)
    (hb : b = begun s 0x00B0 c d (lifeRes c)) (h : lifePasses s c d = true) (hgiven : changeGiven b.keys.life (c.inf 0 1) = true)
    (hlen : c.length = lifeBuf (c.inf 0 1) b.keys.life) (hcontent : b.lifeContent c (c.inf 0 1) pok = true)
    (hcond : b.lifeCond (c.inf 0 1) = true) (hfree : b.lifeFree = true) (hrng : b.keys.rngFail = false) (hrun : b.running 0x00B0 = false)
    (hl : b.longOps < 8) (hne : c.inf 0 1 ≠ b.keys.life) :
    answers (.lifecycleAdvance c pok) s
      (({ (b.accept (lifeRun b c) 0x00B0 c).lifeRecord (c.inf 0 1) (b.partyOf c) with
          keys := { ((b.accept (lifeRun b c) 0x00B0 c).lifeRecord (c.inf 0 1) (b.partyOf c)).keys with transition := some 1 } } :
        State).progress (lifeRun b c) 1 1 5) := by
  show Host.Outcome.next (s.lifeCmd c (if lifeBuf (c.inf 0 1) s.keys.life = 0 then 0 else 1) _) = _
  rw [← hd, lifeCmd_of_passes _ h, ← hb]
  dsimp only
  rw [if_neg hne, hgiven, if_neg (not_not.mpr hlen), hcontent, hcond, hfree, hrng, hrun, decide_eq_false (not_le.mpr hl)]
  rfl

end

/-! ## Key-set changes, 14 R402 -/

/-- A key set into one of eight slots, its field of 4 bytes at INLINE 4 zero. -/
theorem keySet_slot {c : Cmd} {action : Nat} {s : State} (k : State → State) (hlife : c.inf 0 1 = s.keys.life) (ha : c.inf 1 1 = action)
    (h3 : action ≠ 3) (h5 : action ≠ 5) (hlen : c.length = if action = 1 then 96 else 0) (hslot : c.inf 2 1 < 8) (hzero : c.inf 4 4 = 0) :
    keySet c action true k s = k s := by
  have hslot' : ¬ 7 < c.inf 2 1 := by omega
  simp [keySet, hlife, ha, h3, h5, hlen, hslot', hzero]

theorem keySet_grant {c : Cmd} {s : State} (k : State → State) (hlife : c.inf 0 1 = s.keys.life) (ha : c.inf 1 1 = 3)
    (hlen : c.length = 96) (hslot : c.inf 2 1 < 8) (hlimit : s.keys.boot ≤ c.inf 4 4) : keySet c 3 true k s = k s := by
  have hslot' : ¬ 7 < c.inf 2 1 := by omega
  simp [keySet, hlife, ha, hlen, hslot', hlimit]

theorem keySet_owner {c : Cmd} {s : State} (k : State → State) (hlife : c.inf 0 1 = s.keys.life) (ha : c.inf 1 1 = 5)
    (hlen : c.length = 96) (hslot : c.inf 2 1 = 0) (hzero : c.inf 4 4 = 0) : keySet c 5 true k s = k s := by
  simp [keySet, hlife, ha, hlen, hslot, hzero]

/-! ## The steps of a state change, 14 R401 -/

theorem State.lifeStep_second {s : State} (r : Run) (x : StateChange) (h : s.keys.transition = some 1) :
    s.lifeStep r x = ({ s with keys := { s.keys with transition := some 2 } } : State).progress r 2 2 5 := by
  simp only [State.lifeStep, h]

theorem State.lifeStep_third {s : State} (r : Run) (x : StateChange) (h : s.keys.transition = some 2) : s.lifeStep r x = s.lifeBurn x := by
  simp only [State.lifeStep, h]

theorem State.lifeStep_fourth {s : State} (r : Run) (x : StateChange) (h : s.keys.transition = some 3) (hrole : s.pair.role ≠ .standby) :
    s.lifeStep r x = s.takeReset 7 := by
  simp only [State.lifeStep, h, State.lifeReset, if_neg hrole]

theorem execLongOperationProgress_life {sess : BitVec 16} {id : BitVec 32} {done total : Nat} {e : ChunkEnd} {x : StateChange} {r : Run}
    {s : State} (hr : s.runOf sess.toNat id = some r) (hs : r.suspended = false) (hv : s.serves = true) (hw : r.work = .lifecycle x) :
    answers (.longOperationProgress sess id done total e) s (s.lifeStep r x) := by
  show execLongOperationProgress sess id done total e s = _
  simp [execLongOperationProgress, hr, hs, hv, hw]

theorem execAttest_answers {c : Cmd} {s b : State} (hb : b = begun s 0x00A0 c 2 (c.inlZero 16))
    (h : passes s 0x00A0 c 2 (c.inlZero 16) = true) (hlen : 512 + 8 * b.img.force.length ≤ c.length) :
    answers (.attest c) s (b.finalData 0x00A0 c stOk (BitVec.ofNat 64 (512 + 8 * b.img.force.length)) 0
      (b.report (slice c.inl 0 16) ++ le 64 (b.sign (b.report (slice c.inl 0 16))).toNat)) := by
  show execAttest c s = _
  rw [execAttest, hostCmd_of_passes _ h, ← hb]
  dsimp only
  rw [if_neg (not_lt.mpr hlen)]

/-- Settles O22: ATTEST, the state change and its steps, then the key set. -/
theorem lifeCycleCompletes : Obligations.LifeCycleCompletes := by
  unfold Obligations.LifeCycleCompletes
  refine ⟨?attest, ?change, ?second, ?third, ?fourth, ?enrol, ?revoke, ?grant, ?revokeService, ?owner⟩
  case attest =>
    intro c s b p hb h hlen hp
    rw [hp]
    exact execAttest_answers hb h hlen
  case change =>
    rintro c pok s b d k hd hb h hgiven hlen hcontent hcond hfree hrng hrun hl hne rfl
    rw [State.partyOf_accept _ _ _ hl]
    exact execLifecycleAdvance_accepts hd hb h hgiven hlen hcontent hcond hfree hrng hrun hl hne
  case second =>
    intro sess id done total e x r s hr hs hv hw ht
    rw [answers, execLongOperationProgress_life hr hs hv hw, State.lifeStep_second _ _ ht]
  case third =>
    rintro sess id done total e x r s k hr hs hv hw ht rfl
    rw [answers, execLongOperationProgress_life hr hs hv hw, State.lifeStep_third _ _ ht, State.lifeBurn]
  case fourth =>
    intro sess id done total e x r s hr hs hv hw ht hrole
    rw [answers, execLongOperationProgress_life hr hs hv hw, State.lifeStep_fourth _ _ ht hrole]
  case enrol =>
    intro c s b hb h hlife ha hlen hslot hzero hfree
    show execEnrolIntegrator c true s = _
    rw [execEnrolIntegrator, lifeCmd_of_passes _ h, ← hb, keySet_slot _ hlife ha (by decide) (by decide) hlen hslot hzero]
    dsimp only
    rw [hfree, if_neg Bool.false_ne_true]
  case revoke =>
    rintro c s b x hb h hlife ha hlen hslot hzero rfl hheld
    show execRevokeIntegrator c s = _
    rw [execRevokeIntegrator, lifeCmd_of_passes _ h, ← hb, keySet_slot _ hlife ha (by decide) (by decide) hlen hslot hzero]
    dsimp only
    rw [hheld, if_neg Bool.false_ne_true]
  case grant =>
    intro c s b hb h hlife ha hlen hslot hlimit hfree
    show execGrantService c true s = _
    rw [execGrantService, lifeCmd_of_passes _ h, ← hb, keySet_grant _ hlife ha hlen hslot hlimit]
    dsimp only
    rw [hfree, if_neg Bool.false_ne_true]
  case revokeService =>
    intro c s b hb h hlife ha hlen hslot hzero
    show execRevokeService c s = _
    rw [execRevokeService, lifeCmd_of_passes _ h, ← hb, keySet_slot _ hlife ha (by decide) (by decide) hlen hslot hzero]
  case owner =>
    intro c s b hb h hlife ha hlen hslot hzero
    show execReplaceOwner c true s = _
    rw [execReplaceOwner, lifeCmd_of_passes _ h, ← hb, keySet_owner _ hlife ha hlen hslot hzero]

end Sys2Proof.Machine
end

section
/-! SETTLED. Ageing (19 R490 to R497). -/

namespace Sys2Proof.Machine
open Sys2Proof

/-! ## Margins, 19 R490 to R493 -/

theorem marginIdx_lt {kind inst i : Nat} (h : marginIdx kind inst = some i) : i < 113 := by
  simp only [marginIdx, Bool.and_eq_true, decide_eq_true_eq] at h
  split_ifs at h <;> simp only [Option.some.injEq] at h <;> omega

theorem State.margin_onMargins (s : State) (f : Nat → Margin → Margin) {i : Nat} (hi : i < 113) :
    (s.onMargins f).margin i = f i (s.margin i) := by
  simp [State.margin, State.onMargins, List.getD_eq_getElem?_getD, hi]

@[simp] theorem State.margin_record (s : State) (code src : Nat) (l : List Nat) (i : Nat) : (s.record code src l).margin i = s.margin i := by
  simp [State.margin]

@[simp] theorem State.onMargins_plan (s : State) (f : Nat → Margin → Margin) :
    (s.onMargins f).mgn.mhz = s.mgn.mhz ∧ (s.onMargins f).mgn.tMin = s.mgn.tMin ∧ (s.onMargins f).mgn.plan = s.mgn.plan ∧
    (s.onMargins f).mem = s.mem := by
  simp [State.onMargins]

/-- The automatic step counts a step of the margin, and touches no value and no plan. -/
@[simp] theorem State.autoStep_plan (s : State) (kind inst i : Nat) :
    (s.autoStep kind inst i).mgn.mhz = s.mgn.mhz ∧ (s.autoStep kind inst i).mgn.tMin = s.mgn.tMin ∧
    (s.autoStep kind inst i).mgn.plan = s.mgn.plan ∧ (s.autoStep kind inst i).mem = s.mem := by
  unfold State.autoStep
  dsimp only
  split <;> simp

theorem State.autoStep_value (s : State) (kind inst : Nat) {i j : Nat} (hj : j < 113) :
    ((s.autoStep kind inst i).margin j).value = (s.margin j).value := by
  unfold State.autoStep
  dsimp only
  split
  · rw [State.margin_record, State.margin_onMargins _ _ hj]
    split <;> rfl
  · rfl

/-- The test for exhaustion marks the margin, and touches no value and no plan. -/
@[simp] theorem State.exhaust_plan (s : State) (kind inst i : Nat) :
    (s.exhaust kind inst i).mgn.mhz = s.mgn.mhz ∧ (s.exhaust kind inst i).mgn.tMin = s.mgn.tMin ∧
    (s.exhaust kind inst i).mgn.plan = s.mgn.plan ∧ (s.exhaust kind inst i).mem = s.mem := by
  unfold State.exhaust
  dsimp only
  split <;> simp

theorem State.exhaust_value (s : State) (kind inst : Nat) {i j : Nat} (hj : j < 113) :
    ((s.exhaust kind inst i).margin j).value = (s.margin j).value := by
  unfold State.exhaust
  dsimp only
  split
  · rw [State.margin_record, State.margin_onMargins _ _ hj]
    split <;> rfl
  · rfl

theorem exec_marginMeasure {kind inst i : Nat} (v : Int) (s : State) (h : marginIdx kind inst = some i) :
    answers (.marginMeasure kind inst v) s (((measuredMargin s i v).autoStep kind inst i).exhaust kind inst i) := by
  show execMarginMeasure kind inst v s = _
  rw [execMarginMeasure, h]
  rfl

/-! ## The report, 19 R496 -/

theorem length_flatMap_le (l : List Nat) (k : Nat) : (l.flatMap (le k)).length = k * l.length := by
  simp [List.length_flatMap, Nat.mul_comm]

theorem length_marginEnc (i : Nat) (m : Margin) : (marginEnc i m).length = 32 := by
  simp [marginEnc]

/-- Its 96 bytes before the margins, and 32 for each of them. -/
theorem State.length_marginReport {s : State} (h : s.basePlan.1.length = 8) : s.marginReport.length = 3712 := by
  have hmargins : ((List.range 113).flatMap fun i => marginEnc i (s.margin i)).length = 3616 := by
    simp [List.length_flatMap, length_marginEnc]
  simp only [State.marginReport, List.length_append, hmargins, length_flatMap_le, h, length_le, Vector.length_toList]

/-- Settles O23, by measurement, day, report and replan. -/
theorem ageingCompletes : Obligations.AgeingCompletes := by
  unfold Obligations.AgeingCompletes
  refine ⟨?measures, ?value, ?day, ?report, ?replan⟩
  case measures =>
    intro kind inst v i s h
    exact exec_marginMeasure v s h
  case value =>
    intro kind inst v i s h
    have hi : i < 113 := marginIdx_lt h
    refine ⟨_, exec_marginMeasure v s h, ?_, ?_⟩
    · rw [State.exhaust_value _ _ _ hi, State.autoStep_value _ _ _ hi, measuredMargin, State.margin_onMargins _ _ hi, if_pos rfl]
    · simp [measuredMargin]
  case day =>
    rintro dates s k rfl
    rfl
  case report =>
    intro c s b hb h hlen
    refine ⟨?_, State.length_marginReport⟩
    show execMarginReport c s = _
    rw [execMarginReport, hostCmd_of_passes _ h, ← hb, if_neg (not_lt.mpr hlen)]
  case replan =>
    rintro c s b f u k hb h hn hplan hq ht hfits rfl
    show execMarginReplan c s = _
    rw [execMarginReplan, hostCmd_of_passes _ h, ← hb]
    dsimp only
    rw [hplan]
    dsimp only
    rw [hq, ht, hfits, decide_eq_false hn]
    simp

end Sys2Proof.Machine
end

section
/-! SETTLED. NET_CONFIGURE and NET_START (13 R366 to R369, 06 R160, R164). -/

namespace Sys2Proof.Machine
open Sys2Proof

/-! ## NET_CONFIGURE, 13 R366 to R368 -/

section
variable {c : Cmd} {s b : State} {n : Nat}

/-- The checks that both rows share have passed. -/
theorem netCommon_of_good (k : NetCfg → State → State) (h : goodConfig s b c n) : netCommon c k b = k (parseNet c.buf) b := by
  obtain ⟨-, -, -, -, hrun, hstart, hswitch, hlen, hok, hfits⟩ := h
  rw [cfgLen] at hlen
  unfold netCommon
  rw [hrun, hstart, hswitch, if_neg (by decide), if_neg (not_not.mpr hlen), hok, hfits, if_neg (by decide)]

theorem execNetConfigure_good (h : goodConfig s b c 0) :
    execNetConfigure c s = .next (netCommon c (fun cfg s => match s.net.cfg with
      | some run => if s.cyc.started then netNow c run cfg s else holdNext c cfg s
      | none => holdNext c cfg s) b) := by
  obtain ⟨hb, hpass, hnext, hp, -⟩ := h
  rw [execNetConfigure, hostCmd_of_passes _ hpass, ← hb, ownPrimary_primary _ _ _ hp, if_neg (not_not.mpr hnext)] <;> rfl

/-- Before the network's first start a good configuration becomes the held next one. -/
theorem exec_netConfigure_holds (h : goodConfig s b c 0) (hs : b.cyc.started = false) :
    answers (.netConfigure c) s (holdNext c (parseNet c.buf) b) := by
  show execNetConfigure c s = _
  rw [execNetConfigure_good h, netCommon_of_good _ h]
  cases hcfg : b.net.cfg <;> simp only [hs, Bool.false_eq_true, if_false]

/-- Once the network has started its parts are taken. -/
theorem exec_netConfigure_takes {run : NetCfg} (h : goodConfig s b c 0) (hs : b.cyc.started = true) (hcfg : b.net.cfg = some run) :
    answers (.netConfigure c) s (netNow c run (parseNet c.buf) b) := by
  show execNetConfigure c s = _
  rw [execNetConfigure_good h, netCommon_of_good _ h]
  simp only [hcfg, hs, if_true]

theorem exec_netConfigureNext_holds (h : goodConfig s b c 1) : answers (.netConfigureNext c) s (holdNext c (parseNet c.buf) b) := by
  have hgood := h
  obtain ⟨hb, hpass, hnext, hp, -⟩ := h
  show execNetConfigureNext c s = _
  rw [execNetConfigureNext, hostCmd_of_passes _ hpass, ← hb, ownPrimary_primary _ _ _ hp, if_neg (not_not.mpr hnext),
    netCommon_of_good _ hgood]

theorem holdNext_alone {x : NetCfg} (hd : (heldNext b x).partnerDuty = false) :
    holdNext c x b = (heldNext b x).final 0x0080 c stOk dNone (BitVec.ofNat 64 x.sched) 0 :=
  if_neg (ne_true_of_eq_false hd)

theorem holdNext_pair {x : NetCfg} (hd : (heldNext b x).partnerDuty = true) :
    holdNext c x b = ((heldNext b x).send (.netConfig x true 0)).addRun
      (mkRun 0x0080 c ((heldNext b x).partyOf c) false 0 (.netConfigure x.sched true true)) :=
  if_pos hd

/-- Another schedule is written to the stations. -/
theorem netNow_schedule {run x : NetCfg} (hframe : sameFrame run x = true) (hsched : sameSched run x = false) (hid : run.sched ≠ x.sched)
    (hlio : x.lio = run.lio) :
    netNow c run x b = (((takenNow b x).beginSched run x).addRun (mkRun 0x0080 c (((takenNow b x).beginSched run x).partyOf c) false 0
      (.netConfigure x.sched false true))).netDone := by
  have htaken : ({ b.storeCfg x with net := { (b.storeCfg x).net with rank := x.rank } } : State).setSrc x.src = takenNow b x := rfl
  unfold netNow
  simp only [hframe, hsched, decide_eq_false hid, htaken, hlio]
  simp

/-- With the same schedule and no partner in pair duty the parts are taken, another local channel block at a still point. -/
theorem netNow_same {run x : NetCfg} (hframe : sameFrame run x = true) (hsched : sameSched run x = true) (hid : run.sched = x.sched)
    (hduty : (takenNow b x).partnerDuty = false) {k : State} (hk : k = if x.lio ≠ run.lio then (takenNow b x).dueLio x.lio else takenNow b x) :
    netNow c run x b = (k.addRun (mkRun 0x0080 c (k.partyOf c) false 0 (.netConfigure x.sched false (!decide (x.lio ≠ run.lio))))).netDone := by
  have htaken : ({ b.storeCfg x with net := { (b.storeCfg x).net with rank := x.rank } } : State).setSrc x.src = takenNow b x := rfl
  unfold netNow
  simp only [hframe, hsched, decide_eq_true hid, htaken, hk]
  simp [hduty]

end

/-- Settles O28: before the network's first start, then while it runs, then with NEXT. -/
theorem netConfigureCompletes : Obligations.NetConfigureCompletes := by
  unfold Obligations.NetConfigureCompletes
  refine ⟨?held, ?heldPair, ?same, ?schedule, ?channels, ?next⟩
  case held =>
    intro c s b h hs hd
    rw [answers, exec_netConfigure_holds h hs, holdNext_alone hd]
  case heldPair =>
    rintro c s b x k h hs rfl hd rfl
    rw [answers, exec_netConfigure_holds h hs, holdNext_pair hd]
  case same =>
    rintro c s b run x k h hs hcfg rfl hframe hsched hid hlio rfl hd
    rw [answers, exec_netConfigure_takes h hs hcfg, netNow_same hframe hsched hid hd rfl]
    simp [hlio]
  case schedule =>
    rintro c s b run x k h hs hcfg rfl hframe hsched hid hlio rfl
    rw [answers, exec_netConfigure_takes h hs hcfg, netNow_schedule hframe hsched hid hlio]
  case channels =>
    rintro c s b run x k h hs hcfg rfl hframe hsched hid hlio hd rfl
    rw [answers, exec_netConfigure_takes h hs hcfg, netNow_same hframe hsched hid hd rfl]
    simp [hlio]
  case next =>
    intro c s b h hd
    rw [answers, exec_netConfigureNext_holds h, holdNext_alone hd]

/-! ## The start trigger, 06 R160, R167 -/

theorem State.stnM_setCfg (s : State) (c : NetCfg) :
    (s.setCfg c).stnM = c.par.map fun e => (s.stnAt e.1).getD { code := e.1, since := s.cyc.n } := by
  unfold State.setCfg
  dsimp only
  (repeat' split) <;> simp [State.alignStns, State.stnAt]

@[simp] theorem State.sending_setCfg (s : State) (c : NetCfg) : (s.setCfg c).net.sending = s.net.sending := by
  unfold State.setCfg
  dsimp only
  (repeat' split) <;> simp

@[simp] theorem State.pool_selectMaster (s : State) : s.selectMaster.act.pool = s.act.pool := by
  unfold State.selectMaster
  dsimp only
  (repeat' split) <;> simp [State.loseRef]

@[simp] theorem State.pool_setSrc (s : State) (x : TimeSrc) :
    (s.setSrc x).act.pool = s.act.pool ∧ (s.setSrc x).net.sending = s.net.sending := by
  unfold State.setSrc
  dsimp only
  (repeat' split) <;> simp [State.freeRef]

/-- Under the start trigger the star is silent, the pool empty, every configured station ABSENT, and the module listens. -/
theorem State.startTrigger_listens (s : State) (c : NetCfg) :
    (s.startTrigger c).net.start = .listen ∧ (s.startTrigger c).cyc.running = false ∧ (s.startTrigger c).act.pool = [] ∧
    (s.startTrigger c).net.sending = false ∧
    (s.startTrigger c).stnM = c.par.map fun e => ({ code := e.1, since := s.cyc.n } : StnM) := by
  simp [State.startTrigger, State.listen, State.stnM_setCfg, State.stnAt, State.silence]

/-! ## NET_START and the partner's configuration -/

theorem exec_netStart {c : Cmd} {s b : State} {cfg : NetCfg} (hb : b = begun s 0x0081 c 0 (c.inlZero 0))
    (h : passes s 0x0081 c 0 (c.inlZero 0) = true) (hp : b.primary = true) (hbusy : b.busyTask = false)
    (hcfg : (b.net.next.orElse fun _ => b.net.stored) = some cfg) {k : State}
    (hk : k = { b with net := { b.net with next := none }, cyc := { b.cyc with lullCycle := false } }) :
    answers (.netStart c) s (((k.addRun (mkRun 0x0081 c (k.partyOf c) false 0 .netStart)).startTrigger cfg).send .netStart) := by
  show execNetStart c s = _
  rw [execNetStart, hostCmd_of_passes _ h, ← hb, ownPrimary_primary _ _ _ hp, hbusy, if_neg Bool.false_ne_true, hcfg, hk]

section
variable {s : State} {buf : Buf} {len : Nat}

/-- A configuration of its own T_MIN or longer is stored and reported. -/
theorem exec_pairConfigRx_next {x : NetCfg} (ha : s.adopts = true) (hlen : len = cfgLen buf) (hx : x = parseNet buf) (ht : s.mgn.tMin ≤ x.t)
    (n : Nat) :
    answers (.pairConfigRx len buf true n) s
      ((if n = 0 then { s.storeCfg x with net := { (s.storeCfg x).net with next := some x } }
        else ({ s.storeCfg x with net := { (s.storeCfg x).net with next := none } } : State).startTrigger x).send
          (.report .netConfig true)) := by
  rw [cfgLen] at hlen
  subst hx
  show execPairConfigRx len buf true n s = _
  simp [execPairConfigRx, ha, hlen, not_lt.mpr ht]

end

/-- Settles O29: NET_START, the start trigger, then the partner's configuration. -/
theorem netStartCompletes : Obligations.NetStartCompletes := by
  unfold Obligations.NetStartCompletes
  refine ⟨?starts, ?trigger, ?rxNext, ?rxStart, ?rxNow, ?rxRefused⟩
  case starts =>
    intro c s b cfg k hb h hp hbusy hcfg hk
    exact exec_netStart hb h hp hbusy hcfg hk
  case trigger =>
    rintro cfg s t rfl
    obtain ⟨hstart, hrun, hpool, hsend, hstn⟩ := s.startTrigger_listens cfg
    refine ⟨hstart, hrun, hpool, hsend, ?_, ?_⟩ <;> rw [hstn]
    · intro x hx
      obtain ⟨e, -, rfl⟩ := List.mem_map.mp hx
      rfl
    · simp
  case rxNext =>
    rintro len buf s x k ha hlen hx ht rfl
    exact exec_pairConfigRx_next ha hlen hx ht 0
  case rxStart =>
    rintro len buf n s x k ha hlen hx ht rfl hn
    have hrun := exec_pairConfigRx_next ha hlen hx ht n
    rwa [if_neg hn] at hrun
  case rxNow =>
    rintro len buf s x k run ha hlen rfl ht rfl hcfg hsrc hlio hid
    rw [cfgLen] at hlen
    show execPairConfigRx len buf false 0 s = _
    simp [execPairConfigRx, ha, hlen, not_lt.mpr ht, hcfg, hsrc, hlio, hid]
  case rxRefused =>
    intro len buf nx n s ha hlen ht
    rw [cfgLen] at hlen
    show execPairConfigRx len buf nx n s = _
    simp [execPairConfigRx, ha, hlen, ht]

end Sys2Proof.Machine
end

section
/-! SETTLED. Feeds, watchdog and the hold-up sequence (18 R462 to R479). -/

namespace Sys2Proof.Machine
open Sys2Proof

/-! ## The host interface and the memories go off, 18 R467 -/

@[simp] theorem State.orphan_besideEth (s : State) (x : Src) : (s.orphan x).besideEth = s.besideEth := rfl

@[simp] theorem State.onHq_besideEth (s : State) (q : Nat) (f : HQ → HQ) : (s.onHq q f).besideEth = s.besideEth := rfl

@[simp] theorem State.stopQueue_besideEth (s : State) (q : Fin 8) : (s.stopQueue q).besideEth = s.besideEth := by
  unfold State.stopQueue
  dsimp only
  split
  · rw [State.closeAll_besideEth]
    rfl
  · rfl

/-- The rings are no part of what stands beside the Ethernet ports. -/
theorem besideEth_rings (s : State) (e : EvRing) (n : Nat) (m : Vector Msi 16) (l : List (Nat × BitVec 32)) (w : Option (Nat × BitVec 32)) :
    ({ s with host := { s.host with ev := e, sel := n, msi := m, heldLow := l, latchedHigh := w } } : State).besideEth = s.besideEth := rfl

@[simp] theorem State.stopRings_besideEth (s : State) : s.stopRings.besideEth = s.besideEth := by
  unfold State.stopRings
  dsimp only
  rw [besideEth_rings]
  exact foldl_kept State.besideEth _ (fun s q => by rw [State.onHq_besideEth, State.stopQueue_besideEth]) _ s

theorem State.domainsOff_besideEth {s t : State} (h : s.besideEth = t.besideEth) (m : BitVec 12) :
    (s.domainsOff m).besideEth = (t.domainsOff m).besideEth :=
  congrArg (·.domainsOff m) h

theorem State.besideEth_parts (s : State) : s.besideEth.pair = s.pair ∧ s.besideEth.lanes = s.lanes ∧ s.besideEth.pwr = s.pwr :=
  ⟨rfl, rfl, rfl⟩

/-- Off, the host interface touches nothing but itself and its domain. -/
theorem State.hifOff_besideEth (s : State) : s.hifOff.besideEth = (s.domainsOff (domBit 11)).besideEth := by
  rw [State.hifOff]
  apply State.domainsOff_besideEth
  rw [foldl_kept State.besideEth State.closeConn State.closeConn_besideEth, State.stopRings_besideEth]

@[simp] theorem State.hifOff_parts (s : State) : s.hifOff.pair = s.pair ∧ s.hifOff.lanes = s.lanes ∧
    s.hifOff.pwr = (s.domainsOff (domBit 11)).pwr := by
  obtain ⟨hpair, hlanes, hpwr⟩ := s.hifOff.besideEth_parts
  rw [← hpair, ← hlanes, ← hpwr, State.hifOff_besideEth]
  exact ⟨rfl, rfl, rfl⟩

/-- After an expiry, a hold-up or an extraction the line is released (11 R280). -/
@[simp] theorem vaneOff_drive (s : State) : (vaneOff s).pair.drive = false := by
  unfold vaneOff
  split
  case isTrue => exact s.releaseVane_drive
  case isFalse h => exact Bool.eq_false_iff.mpr h

@[simp] theorem vaneOff_mem (s : State) : (vaneOff s).mem = s.mem := by
  unfold vaneOff
  split <;> simp

@[simp] theorem holdupRelease_drive (s : State) : (holdupRelease s).pair.drive = false := by
  unfold holdupRelease
  dsimp only
  split
  · split <;> simp
  · split <;> simp

@[simp] theorem holdupRelease_mem (s : State) : (holdupRelease s).mem = s.mem := by
  unfold holdupRelease
  dsimp only
  split
  · split <;> simp
  · split <;> simp

/-! ## Feeds -/

@[simp] theorem State.feed_onFeed_same (s : State) (k : Side) (f : Feed → Feed) : (s.onFeed k f).pwr.feed k = f (s.pwr.feed k) := by
  cases k <;> rfl

@[simp] theorem State.feed_onFeed_other (s : State) (k : Side) (f : Feed → Feed) : (s.onFeed k f).pwr.feed k.other = s.pwr.feed k.other := by
  cases k <;> rfl

@[simp] theorem State.holdup_onFeed (s : State) (k : Side) (f : Feed → Feed) : (s.onFeed k f).pwr.holdup = s.pwr.holdup ∧
    (s.onFeed k f).pwr.st = s.pwr.st := by
  cases k <;> exact ⟨rfl, rfl⟩

theorem Pwr.fed_eq (p : Pwr) (k : Side) : p.fed = ((p.feed k).valid || (p.feed k.other).valid) := by
  cases k
  · rfl
  · exact Bool.or_comm _ _

/-- What a loss leaves: the feed is not VALID, with its record and the releases of tasks for errors. -/
def State.feedGone (s : State) (k : Side) (code : Nat) : State :=
  ((s.onFeed k fun f => { f with valid := false }).recordFor 0x090E (srcOf 14 0) k.num (items [k.num, code]) 0 false).errRelease 3 k.num code

theorem State.feedGone_frame (s : State) (k : Side) (code : Nat) : (s.feedGone k code).pwr = (s.onFeed k fun f => { f with valid := false }).pwr ∧
    (s.feedGone k code).pair = s.pair ∧ (s.feedGone k code).mem = s.mem := by
  simp [State.feedGone]

/-- The loss of a VALID feed begins the hold-up sequence where no feed is left. -/
theorem State.feedLost_valid {s : State} {k : Side} (code : Nat) (h : (s.pwr.feed k).valid = true) : s.feedLost k code =
    if !(s.feedGone k code).pwr.fed && (s.feedGone k code).pwr.holdup = 0 && (s.feedGone k code).pwr.st ≠ .off then
      (s.feedGone k code).holdupStart else s.feedGone k code := by
  unfold State.feedLost
  rw [h, if_neg (by decide)]
  rfl

/-- Beside a VALID feed the module runs on (18 R463). -/
theorem State.feedLost_beside {s : State} {k : Side} (code : Nat) (h : (s.pwr.feed k).valid = true) (ho : (s.pwr.feed k.other).valid = true) :
    s.feedLost k code = s.feedGone k code := by
  have hfed : (s.feedGone k code).pwr.fed = true := by
    rw [Pwr.fed_eq _ k, (s.feedGone_frame k code).1]
    simp [ho]
  rw [State.feedLost_valid code h, hfed]
  rfl

/-- A VALID feed out of its range beside a VALID one: declared lost with its voltage, and nothing of the sequence begins. -/
theorem feedAt_feedLost_beside {s : State} {k : Side} (mv code : Nat) (h : (s.pwr.feed k).valid = true)
    (ho : (s.pwr.feed k.other).valid = true) {t : State} (ht : t = (feedAt s k mv).feedLost k code) :
    (t.pwr.feed k).valid = false ∧ (t.pwr.feed k).mv = mv ∧ t.pwr.feed k.other = s.pwr.feed k.other ∧ t.pwr.holdup = s.pwr.holdup ∧
    t.pair = s.pair ∧ t.mem = s.mem := by
  have hv : ((feedAt s k mv).pwr.feed k).valid = true := by simpa [feedAt] using h
  have hvo : ((feedAt s k mv).pwr.feed k.other).valid = true := by simpa [feedAt] using ho
  rw [State.feedLost_beside code hv hvo] at ht
  obtain ⟨hpwr, hpair, hmem⟩ := (feedAt s k mv).feedGone_frame k code
  rw [ht, hpwr, hpair, hmem]
  simp [feedAt]

/-- A primary that begins the hold-up sequence orders the release of its line and no further release of a task (18 R466). -/
theorem State.holdupStart_primary {s : State} (h : s.primary = true) :
    s.holdupStart.pwr = { s.pwr with holdup := 1, td := s.clk.now } ∧ s.holdupStart.cyc.noRel = true ∧
    s.holdupStart.pair.releaseAt.isSome = true ∧ s.holdupStart.pair.drive = s.pair.drive := by
  have hrole : ∀ (u : State) (m : PairMsg), (u.send m).primary = u.primary := by
    intro u m
    unfold State.send
    split <;> rfl
  have hrec : ∀ (u : State) (c x : Nat) (l : List Nat), (u.record c x l).primary = u.primary := by
    intro u c x l
    simp [State.primary]
  have hp : ((({ s with pwr := { s.pwr with holdup := 1, td := s.clk.now }, cyc := { s.cyc with noRel := true } } : State).faultMessage 2).record
      0x0F00 (srcOf 14 0) [s.pwr.fa.mv, s.pwr.fb.mv]).primary = true := by
    rw [hrec, State.faultMessage, hrole]
    exact h
  have hd : ∀ (u : State) (n : Nat), (u.faultMessage n).pair.drive = u.pair.drive := fun u n => State.send_drive u _
  unfold State.holdupStart
  simp only [hp, if_true]
  simp [hd]

/-- The loss of both feeds in a primary begins the sequence. -/
theorem feedAt_feedLost_last {s : State} {k : Side} (mv : Nat) (h : (s.pwr.feed k).valid = true) (ho : (s.pwr.feed k.other).valid = false)
    (hh : s.pwr.holdup = 0) (hst : s.pwr.st ≠ .off) (hp : s.primary = true) {t : State} (ht : t = (feedAt s k mv).feedLost k 1) :
    t.pwr.fed = false ∧ t.pwr.holdup = 1 ∧ t.cyc.noRel = true ∧ t.pair.releaseAt.isSome = true ∧ t.pair.drive = s.pair.drive ∧ t.mem = s.mem := by
  have hv : ((feedAt s k mv).pwr.feed k).valid = true := by simpa [feedAt] using h
  obtain ⟨hpwr, hpair, hmem⟩ := (feedAt s k mv).feedGone_frame k 1
  have hfed : ((feedAt s k mv).feedGone k 1).pwr.fed = false := by
    rw [Pwr.fed_eq _ k, hpwr]
    simp [feedAt, ho]
  have hgone : ((feedAt s k mv).feedGone k 1).pwr.holdup = 0 ∧ ((feedAt s k mv).feedGone k 1).pwr.st ≠ .off := by
    rw [hpwr]
    simpa [feedAt] using ⟨hh, hst⟩
  have hprim : ((feedAt s k mv).feedGone k 1).primary = true := by
    rw [State.primary, hpair]
    simpa [feedAt, State.primary] using hp
  rw [State.feedLost_valid 1 hv, hfed] at ht
  simp only [hgone, Bool.not_false, decide_true, ne_eq, not_false_eq_true, Bool.and_self, if_true] at ht
  obtain ⟨hpow, hrel, hat, hdrive⟩ := State.holdupStart_primary hprim
  rw [ht]
  refine ⟨?_, ?_, hrel, hat, ?_, ?_⟩
  · rw [hpow]
    exact hfed
  · rw [hpow]
  · rw [hdrive, hpair]
    simp [feedAt]
  · rw [State.holdupStart_mem, hmem]
    simp [feedAt]

/-! ## The commands -/

/-- A feed that comes back in range is VALID, with the reset its state asks for. -/
theorem exec_feedReturned {s : State} {k : Side} (mv : Nat) (hv : (s.pwr.feed k).valid = false) (hf : (s.pwr.feed k).pathFault = false)
    {t : State} (ht : t = if s.pwr.st = .off then (feedBack s k mv).takeReset 1
      else if s.pwr.holdup = 6 then (feedBack s k mv).takeReset 2 else feedBack s k mv) :
    answers (.feedReturned k mv) s (t.recordFor 0x0F03 (srcOf 14 0) k.num (items [k.num]) 0 false) := by
  show execFeedReturned k mv s = _
  simp only [execFeedReturned, hv, hf, Bool.or_self, Bool.false_eq_true, if_false, State.holdup_onFeed, ht, feedBack]

/-- The line is released, 10 µs later lanes and host interface stop (18 R466, R467). -/
theorem exec_holdupVaneRelease {s u k : State} (h : s.pwr.holdup = 1) (hu : u = holdupRelease s)
    (hk : k = ((u.reach (u.clk.now + 10000)).haltLanes.hifOff).domainsOff (domMask [4, 5, 9, 11])) :
    answers .holdupVaneRelease s { k with pwr := { k.pwr with holdup := 3 } } := by
  show execHoldupVaneRelease s = _
  unfold execHoldupVaneRelease
  rw [if_neg (not_not.mpr h), hk, hu]
  unfold holdupRelease vaneOff
  cases s.pair.releaseAt <;> with_reducible rfl

/-- Settles O36: watchdog, feeds, then the hold-up sequence and the loss of AON. -/
theorem feedsComplete : Obligations.FeedsComplete := by
  unfold Obligations.FeedsComplete
  refine ⟨fun s => rfl, ?expiry, fun k mv s => ⟨rfl, rfl⟩, ?beside, ?path, ?last, ?back, ?fromOff, ?fromHoldup, ?release, ?released, ?commit,
    ?domains, ?waits, ?resets, ?aon⟩
  case expiry =>
    intro s k h hk
    show execWatchdogExpiry s = _
    rw [execWatchdogExpiry, h, if_neg (by decide), hk]
    rfl
  case beside =>
    rintro k o mv s rfl h ho
    exact ⟨⟨_, rfl, feedAt_feedLost_beside mv 1 h ho rfl⟩, ⟨_, rfl, feedAt_feedLost_beside mv 3 h ho rfl⟩⟩
  case path =>
    intro k cause s h
    show execFeedPath k cause s = _
    rw [execFeedPath, h, if_neg Bool.false_ne_true]
    rfl
  case last =>
    intro k mv s h ho hh hst hp
    exact ⟨_, rfl, feedAt_feedLost_last mv h ho hh hst hp rfl⟩
  case back =>
    intro k mv s hv hf hst hh
    exact exec_feedReturned mv hv hf (by rw [if_neg hst, if_neg hh])
  case fromOff =>
    intro k mv s hv hf hst
    exact exec_feedReturned mv hv hf (by rw [if_pos hst])
  case fromHoldup =>
    intro k mv s hv hf hst hh
    exact exec_feedReturned mv hv hf (by rw [if_neg hst, if_pos hh])
  case release =>
    intro s u k h hu hk
    exact exec_holdupVaneRelease h hu hk
  case released =>
    intro s h
    refine ⟨_, exec_holdupVaneRelease h rfl rfl, rfl, ?_, ?_, ?_⟩
    · simp
    · intro i hi
      simpa using State.haltLanes_halted _ hi
    · simp
  case commit =>
    intro s k h hk
    show execHoldupCommit s = _
    rw [execHoldupCommit, if_neg (not_not.mpr h), hk]
  case domains =>
    intro s k h hk
    show execHoldupDomainsOff s = _
    rw [execHoldupDomainsOff, if_neg (not_not.mpr h), hk]
  case waits =>
    intro s k h hf hk hfed
    show execHoldupEnd s = _
    rw [execHoldupEnd, if_neg (not_not.mpr h), ← hk]
    exact congrArg Host.Outcome.next (if_neg (ne_true_of_eq_false hfed))
  case resets =>
    intro s k h hf hk hfed
    show execHoldupEnd s = _
    rw [execHoldupEnd, if_neg (not_not.mpr h), ← hk]
    exact congrArg Host.Outcome.next (if_pos hfed)
  case aon =>
    intro s k hk
    show execAonPowerLoss s = _
    unfold execAonPowerLoss
    rw [hk]
    unfold vaneOff
    with_reducible rfl

end Sys2Proof.Machine
end

section
/-! SETTLED. Bring-up (18 R469, R473, R481 to R485). -/

namespace Sys2Proof.Machine
open Sys2Proof

/-! ## Power-good and PRESENT_n, 18 R482 -/

/-- What waits for the reset's release begins: the wait is over, and the first step may follow. -/
theorem State.nextStage_keeps (s : State) : s.nextStage.pwr.present = s.pwr.present ∧ s.nextStage.pwr.waitGood = s.pwr.waitGood ∧
    s.nextStage.keys = s.keys := by
  unfold State.nextStage
  dsimp only
  split <;> exact ⟨rfl, rfl, rfl⟩

theorem State.releaseReset_ready {s : State} (hw : s.pwr.waitGood = true) (hp : s.pwr.present = true) (hf : s.pwr.fed = true)
    (hst : s.pwr.store = 100) :
    s.releaseReset.pwr.present = true ∧ s.releaseReset.pwr.waitGood = false ∧ s.releaseReset.mem = s.mem ∧ s.releaseReset.keys = s.keys := by
  refine ⟨?_, ?_, s.releaseReset_mem, ?_⟩ <;>
    simp [State.releaseReset, hw, hp, hf, hst, State.nextStage_keeps]

theorem exec_powerGood {s : State} (high ok : Bool) (hf : s.pwr.fed = true) (hw : s.pwr.waitGood = true) {k : State}
    (hk : k = (if s.pwr.kind = 1 && !s.pwr.sampled then
      { s with slot := if high then .b else .a, pwr := { s.pwr with sampled := true } } else s).bkpStart ok) :
    answers (.powerGood high ok) s ({ k with pwr := { k.pwr with store := 100 } } : State).releaseReset := by
  show execPowerGood high ok s = _
  unfold execPowerGood
  rw [hf, hw, if_neg (by decide), hk]

/-! ## Lull service and readiness, 18 R483 to R485 -/

theorem exec_lullServiceReached {s u : State} (f : StartFind) (hl : s.pwr.lullService = false) (hf : s.pwr.failed = false)
    (hw : s.pwr.waitGood = false) (hs : 5 ≤ s.pwr.stage) (hst : s.pwr.st = .lull) (hh : s.pwr.holdup = 0)
    (hu : u = (lullBegun (foundAt s f)).serveRing.startRecords.event 0x0006 (List.replicate 12 0)) :
    answers (.lullServiceReached f) s (if u.chg.handover = 6 then u.handoverStep 7 else u).takeRole.lullNetwork := by
  have hopen : (s.pwr.lullService || s.pwr.failed || s.pwr.waitGood || decide (s.pwr.stage < 5) || decide (s.pwr.st = .hold) ||
      decide (s.pwr.st = .off) || decide (s.pwr.holdup ≠ 0)) = false := by
    simp [hl, hf, hw, hst, hh, not_lt.mpr hs]
  show execLullServiceReached f s = _
  unfold execLullServiceReached
  rw [hopen, if_neg Bool.false_ne_true, hu]
  unfold lullBegun foundAt
  with_reducible rfl

/-- The self-test's verdicts are due in Lull service, the memories wiped and a role taken: unsound ones are a failed start (18 R485). -/
theorem exec_fullServiceReady {s : State} (v : List (List (Bool × Bool))) (hl : s.pwr.lullService = true) (hr : s.pwr.ready = false)
    (hd : s.pwr.dramOk = true) (ho : s.pair.role ≠ .bringUp) (hv : v ≠ soundTest) :
    answers (.fullServiceReady v) s s.selfTestFails := by
  have hdue : (!s.pwr.lullService || s.pwr.ready || !s.pwr.dramOk || decide (s.pair.role = .bringUp)) = false := by
    simp [hl, hr, hd, ho]
  show execFullServiceReady v s = _
  rw [soundTest] at hv
  rw [execFullServiceReady, hdue, if_neg Bool.false_ne_true, if_pos hv]

/-- A sound self-test declares readiness and loads the ACTIVE image; a primary starts its network, and its tasks where it may. -/
theorem exec_fullServiceReady_sound {s k t : State} (hl : s.pwr.lullService = true) (hr : s.pwr.ready = false)
    (hd : s.pwr.dramOk = true) (ho : s.pair.role ≠ .bringUp) (hk : k = ({ s with pwr := { s.pwr with ready := true } } : State).loadActive)
    (ht : t = if !k.primary then k else
      let u := match k.net.stored with
        | some c => (({ k with cyc := { k.cyc with lullCycle := false }, net := { k.net with next := none } } : State).startTrigger c).send
          .netStart
        | none => k
      if u.pair.autostart && !u.calm.on && u.chg.running.isSome then u.appStart else u) :
    answers (.fullServiceReady soundTest) s t := by
  have hdue : (!s.pwr.lullService || s.pwr.ready || !s.pwr.dramOk || decide (s.pair.role = .bringUp)) = false := by
    simp [hl, hr, hd, ho]
  show execFullServiceReady soundTest s = _
  rw [soundTest, execFullServiceReady, hdue, if_neg Bool.false_ne_true, if_neg (not_not.mpr rfl), ← hk, ht]
  dsimp only
  split <;> rfl

/-- Settles O37: power-good, the domains' supplies, Lull service, then the self-test. -/
theorem bringUpCompletes : Obligations.BringUpCompletes := by
  unfold Obligations.BringUpCompletes
  refine ⟨?sampled, ?again, fun s => rfl, ?present, ?good, ?stops, ?wiped, ?lull, ?ready, ?starts, ?fails⟩
  case sampled =>
    intro high ok s k hf hw hkind hsam hk
    have hfirst : (decide (s.pwr.kind = 1) && !s.pwr.sampled) = true := by simp [hkind, hsam]
    exact exec_powerGood high ok hf hw (by rw [hk, hfirst, if_pos rfl])
  case again =>
    intro high ok s k hf hw hor hk
    have hkept : (decide (s.pwr.kind = 1) && !s.pwr.sampled) = false := by
      rcases hor with h | h <;> simp [h]
    exact exec_powerGood high ok hf hw (by rw [hk, hkept, if_neg Bool.false_ne_true])
  case present =>
    intro s hw hf hst
    exact ⟨_, rfl, State.releaseReset_ready (s := { s with pwr := { s.pwr with present := true } }) hw rfl hf hst⟩
  case good =>
    intro d s hf hon
    show execDomainSupplyGood d s = _
    rw [execDomainSupplyGood, hf, hon, if_neg (by decide)]
  case stops =>
    intro d s hf hst hon hg
    show execDomainGoodTimeout d s = _
    rw [execDomainGoodTimeout, hf, hon, hg, decide_eq_false (not_le.mpr hst), if_neg (by decide)]
    rfl
  case wiped =>
    intro s hon
    show execDramWipeDone s = _
    rw [execDramWipeDone, hon, if_neg (by decide)]
  case lull =>
    intro f s u hl hf hw hs hst hh hu
    exact exec_lullServiceReached f hl hf hw hs hst hh hu
  case ready =>
    intro s k hl hr hd ho hk hp
    exact exec_fullServiceReady_sound hl hr hd ho hk (by rw [hp, Bool.not_false, if_pos rfl])
  case starts =>
    intro s k c u hl hr hd ho hk hp hc hu hstart
    refine exec_fullServiceReady_sound hl hr hd ho hk ?_
    rw [hp, hc, Bool.not_true, if_neg Bool.false_ne_true]
    dsimp only
    rw [← hu, if_pos hstart]
  case fails =>
    intro v s hl hr hd ho hv
    exact exec_fullServiceReady v hl hr hd ho hv

end Sys2Proof.Machine
end

section
/-! SETTLED. Faults and extraction while running (18 R470, R485 to R487, 20 R502, R503). -/

namespace Sys2Proof.Machine
open Sys2Proof

/-! ## Supply faults, 18 R486 -/

section
variable {s : State} (h : s.pwr.lullService = true)
include h

/-- A supply fault in service is shown and recorded; lanes, network and host interface answer it in their own way. -/
theorem exec_domainFault {d : Fin 12} (hon : s.pwr.on.getLsbD d.val = true) {t : State} (ht : t = match d.val with
      | 0 => domainBad s d
      | 1 => vaneOff (domainBad s d)
      | 4 => (domainBad s d).stopCopies .a
      | 5 => (domainBad s d).stopCopies .b
      | 10 => ((domainBad s d).leaveDuty 6).silence
      | 11 => (domainBad s d).hifOff
      | _ => (domainBad s d).reactFault (d.val = 2) 3) : answers (.domainFault d) s t := by
  show execDomainFault d s = _
  rw [execDomainFault, h, hon, if_neg (by decide), ht]
  rfl

end

/-! ## PRESENT_n and the swap key, 18 R487, 20 R502, R503 -/

theorem not_held_off {s : State} (h : s.pwr.st = .run ∨ s.pwr.st = .lull) : s.pwr.st ≠ .hold ∧ s.pwr.st ≠ .off := by
  rcases h with h | h <;> simp [h]

/-- The archive is filled in the flash: line and power stay as they were. -/
theorem State.archiveOne_power (s : State) (r : Rec) : (s.archiveOne r).pair = s.pair ∧ (s.archiveOne r).pwr = s.pwr := by
  unfold State.archiveOne
  split <;> simp

theorem foldl_archiveOne (l : List Rec) (s : State) : (l.foldl State.archiveOne s).pair = s.pair ∧ (l.foldl State.archiveOne s).pwr = s.pwr :=
  ⟨foldl_kept State.pair State.archiveOne (fun s r => (s.archiveOne_power r).1) l s,
    foldl_kept State.pwr State.archiveOne (fun s r => (s.archiveOne_power r).2) l s⟩

@[simp] theorem State.flashCommit_pair (s : State) : s.flashCommit.pair = s.pair ∧ s.flashCommit.pwr = s.pwr := by
  simp [State.flashCommit, foldl_archiveOne]

@[simp] theorem State.faultMessage_drive (s : State) (n : Nat) : (s.faultMessage n).pair.drive = s.pair.drive := State.send_drive s _

@[simp] theorem State.domainsOff_pwr (s : State) (m : BitVec 12) : (s.domainsOff m).pwr.st = s.pwr.st ∧
    (s.domainsOff m).pwr.present = s.pwr.present := ⟨rfl, rfl⟩

/-- Held, a module's memories are off, and its line is as it was. -/
@[simp] theorem State.enterHold_held (s : State) : s.enterHold.pwr.st = .hold ∧ s.enterHold.pair.drive = s.pair.drive ∧ s.enterHold.mem = [] ∧
    s.enterHold.pwr.present = s.pwr.present := by
  simp [State.enterHold, State.silence, State.memoryOff]

@[simp] theorem vaneOff_pwr (s : State) : (vaneOff s).pwr = s.pwr := by
  unfold vaneOff
  split <;> simp

/-- PRESENT_n is lost: the line is given up, and the module holds with its pins floating (18 R487). -/
theorem exec_presentLost {s : State} (hh : s.pwr.holdup = 0) (h : s.pwr.st = .run ∨ s.pwr.st = .lull) {k : State}
    (hk : k = (vaneOff { s with pwr := { s.pwr with present := false } }).enterHold) :
    answers .presentLost s { k with pwr := { k.pwr with hiZ := true } } := by
  obtain ⟨hhold, hoff⟩ := not_held_off h
  show execPresentLost s = _
  unfold execPresentLost
  refine (if_neg ?holds).trans ?_
  case holds => simp [hh, hhold, hoff]
  rw [hk]
  unfold vaneOff
  with_reducible rfl

section
variable {ms : Nat} {s : State}

/-- A press of the key counts in service, outside Hold and the hold-up sequence. -/
theorem execSwapPress_counts (hl : s.pwr.lullService = true) (hh : s.pwr.holdup = 0) (h : s.pwr.st = .run ∨ s.pwr.st = .lull) :
    execSwapPress ms s =
      if ms < 1000 || s.pwr.extract then .next (pressed s)
      else if !s.primary then .next (vaneOff (pressed s)).enterHold
      else if s.switchable then
        if s.pair.switch_.isSome then .next (pressed s)
        else .next { pressed s with
          pwr := { s.pwr with extract := true, ledSwap := 1 }, pair := { s.pair with switch_ := some { swap := true } } }
      else if ms < 5000 then .next (pressed s)
      else .next (pressed s).releaseVane.enterHold := by
  obtain ⟨hhold, hoff⟩ := not_held_off h
  unfold execSwapPress
  rw [hl, hh, decide_eq_false hhold, decide_eq_false hoff, if_neg (by decide)]
  rfl

end

/-- Settles O38: supplies, clocks, PRESENT_n, the swap key, the patrol, the random source, links. -/
theorem runningFaultsComplete : Obligations.RunningFaultsComplete := by
  unfold Obligations.RunningFaultsComplete
  refine ⟨?domain, ?copiesA, ?copiesB, ?network, ?host, ?clock, ?sound, ?present, ?floats, ?short, ?extracts, ?switches, ?long, ?patrol, ?poison,
    ?rngFail, ?rngGood, ?rngBad, ?branch, ?station⟩
  case domain =>
    intro d s hl hon hd
    refine exec_domainFault hl hon ?_
    have hval : d.val = 2 ∨ d.val = 3 ∨ d.val = 6 ∨ d.val = 7 ∨ d.val = 8 ∨ d.val = 9 := by simpa using hd
    rcases hval with h | h | h | h | h | h <;> simp only [h]
  case copiesA =>
    intro s hl hon
    exact exec_domainFault hl hon rfl
  case copiesB =>
    intro s hl hon
    exact exec_domainFault hl hon rfl
  case network =>
    intro s hl hon
    exact exec_domainFault hl hon rfl
  case host =>
    intro s hl hon
    exact exec_domainFault hl hon rfl
  case clock =>
    intro src s h
    exact congrArg Host.Outcome.next (if_pos h)
  case sound =>
    intro src s h
    exact congrArg Host.Outcome.next (if_neg (ne_true_of_eq_false h))
  case present =>
    intro s k hh h hk
    exact exec_presentLost hh h hk
  case floats =>
    intro s hh h
    exact ⟨_, exec_presentLost hh h rfl, by simp, by simp, rfl, by simp, by simp⟩
  case short =>
    intro ms s hl hh h hms
    show execSwapPress ms s = _
    rw [execSwapPress_counts hl hh h, decide_eq_true hms, Bool.true_or, if_pos rfl]
  case extracts =>
    intro ms s hl hh h hms hx hp
    show execSwapPress ms s = _
    rw [execSwapPress_counts hl hh h, decide_eq_false (not_lt.mpr hms), hx, hp, if_neg (by decide), if_pos (by decide)]
  case switches =>
    intro ms s hl hh h hms hx hp hsw hnone
    show execSwapPress ms s = _
    rw [execSwapPress_counts hl hh h, decide_eq_false (not_lt.mpr hms), hx, hp, hsw, hnone, if_neg (by decide), if_neg (by decide), if_pos rfl,
      if_neg (by decide)]
  case long =>
    intro ms s hl hh h hms hx hp hsw
    have hms' : ¬ ms < 1000 := by omega
    show execSwapPress ms s = _
    rw [execSwapPress_counts hl hh h, decide_eq_false hms', hx, hp, hsw, if_neg (by decide), if_neg (by decide), if_neg (by decide),
      if_neg (not_lt.mpr hms)]
  case patrol =>
    intro a s k hk
    rw [hk]
    rfl
  case poison =>
    intro a s
    rfl
  case rngFail =>
    intro s
    show execRngFail s = _
    rw [execRngFail, State.rngFails]
  case rngGood =>
    intro s
    show execRngRetest true s = _
    rw [execRngRetest, if_pos rfl]
  case rngBad =>
    intro s
    show execRngRetest false s = _
    rw [execRngRetest, if_neg Bool.false_ne_true, State.rngFails]
  case branch =>
    intro b up s
    show execPhyLinkChange (.branch b) up s = _
    rw [execPhyLinkChange]
  case station =>
    intro code up s
    show execPhyLinkChange (.station code .a true) up s = _
    rw [execPhyLinkChange]
    simp only [if_true]

end Sys2Proof.Machine
end
